-- ==== Sys2Proof/Word.lean ====
section
/-! DEFINITION. The word types of the SX4096's registers, frames and records, and the keyed tables that hold its
repeated state (ports, rings, contactors, cells). -/

namespace Sys2Proof

/-- One byte of a frame, a record or a passport. -/
abbrev Byte := BitVec 8

/-- A 32-bit register, immediate parameter or frame field. -/
abbrev Word := BitVec 32

/-- A table of repeated state: one entry per key, absent keys read as the entry's reset value. -/
abbrev Tab (κ α : Type) := List (κ × α)

/-- The entry of key `k`, or `d` when the table lists none. -/
def Tab.getD {κ α : Type} [DecidableEq κ] (t : Tab κ α) (k : κ) (d : α) : α :=
  match t with
  | [] => d
  | (k', v) :: r => if k' = k then v else Tab.getD r k d

/-- The table with `v` at key `k`; the place of an entry already listed is kept. -/
def Tab.set {κ α : Type} [DecidableEq κ] (t : Tab κ α) (k : κ) (v : α) : Tab κ α :=
  match t with
  | [] => [(k, v)]
  | (k', v') :: r => if k' = k then (k, v) :: r else (k', v') :: Tab.set r k v

/-- The keys a table lists. -/
def Tab.keys {κ α : Type} (t : Tab κ α) : List κ := t.map Prod.fst

end Sys2Proof
end

