-- ==== Sys2Proof/Syntax.lean ====
section
/-! DEFINITION. The commands of the SX4096: one constructor of `Instr` per row of spec/opcode_table.json, with the
row's operands, and the types those operands are built from. Units: voltages of cells 10 µV, other voltages mV,
currents mA, temperatures 0.01 °C, capacities 0.01 Ah, fractions per mille, times as each field names. -/

namespace Sys2Proof

/-! ## The sealed configuration (the items of the chapters' configuration tables)

The spec gives the blob's items and their checks, not its byte layout (14 R367, R368): a blob is carried as its bytes
together with the configuration they hold (assumption log 14). -/

/-- Contactor roles (12 R306). -/
inductive Role where | kn | kp | pre | oth
  deriving DecidableEq, Repr, Inhabited

/-- Sweep plan of a port (05 R145, R149, R150). -/
structure PlanCfg where
  /-- base mode, 0–2 -/
  base : Nat := 1
  /-- corner of each mode M0–M3, 0–5 for 4, 12, 50, 200, 800, 1,600 Hz -/
  corners : List Nat := [0, 2, 4, 5]
  /-- settle time, 10 µs -/
  settle : Nat := 200
  /-- M3 burst length, ms -/
  burst : Nat := 4000
  /-- M3 burst interval, s; 0 none -/
  burstInt : Nat := 120
  /-- quiet threshold, 0.001 C -/
  quietC : Nat := 20
  /-- quiet dwell, s -/
  quietDwell : Nat := 10
  quietOn : Bool := true
  /-- open-wire interval, s -/
  owInt : Nat := 10
  deriving DecidableEq, Repr, Inhabited

/-- Pre-charge of a string (12 R308, R332). -/
structure PreCfg where
  /-- resistor, mΩ -/
  r : Nat
  /-- nominal capacitance, µF -/
  c : Nat
  /-- energy rating, mJ -/
  rating : Nat
  /-- thermal time constant, s -/
  tauRes : Nat := 300
  deriving DecidableEq, Repr, Inhabited

/-- One chain port and its string (03 R71, 06 R582, 08 R240, 09 R265, 10 R273, 11 R303). -/
structure PortCfg where
  endN : Bool := true
  endS : Bool := true
  /-- the N end is at the string negative (00 R7) -/
  nAtNeg : Bool := true
  m : Nat := 1
  strNode : Option Nat := none
  /-- cells per monitor node, by monitor order -/
  cells : List Nat := [16]
  /-- sensors per monitor node, by monitor order -/
  sensors : List Nat := [0]
  /-- balancing resistance of the type of each monitor node, by monitor order, mΩ; required when Sedge excitation is enabled -/
  rBal : List Nat := []
  /-- nameplate capacity, 0.01 Ah, and chemistry; required -/
  reqNameplate : Option Nat := none
  reqChem : Option Nat := none
  /-- offset bound, mA; required -/
  oS : Option Nat := none
  iRange : Nat := 2000000
  /-- string over-current threshold, mA; required -/
  reqStrOc : Option Nat := none
  softOv : Nat := 420000
  softUv : Nat := 280000
  hardOv : Option Nat := none
  hardUv : Option Nat := none
  hardOt : Option Int := none
  /-- maximum string voltage, mV; required -/
  reqVMax : Option Nat := none
  pre : Option PreCfg := none
  plan : PlanCfg := {}
  /-- charge minimum temperature -/
  chgMin : Int := 0
  /-- charge taper start and discharge taper end, 0.01 % -/
  taperHi : Nat := 9500
  taperLo : Nat := 500
  /-- eight rows: temperature and eight C-rates (0.001 C) for charge 2 s … continuous, discharge 2 s … continuous -/
  tempTab : List (Int × List Nat) := []
  /-- bounds: charge 2 s … continuous, discharge 2 s … continuous -/
  bounds : List Nat := [2000000, 2000000, 2000000, 2000000, 2000000, 2000000, 2000000, 2000000]
  deriving DecidableEq, Repr, Inhabited

/-- Nameplate capacity, 0.01 Ah. -/
def PortCfg.nameplate (c : PortCfg) : Nat := c.reqNameplate.getD 0

/-- Code of the chemistry. -/
def PortCfg.chem (c : PortCfg) : Nat := c.reqChem.getD 0

/-- String over-current threshold, mA. -/
def PortCfg.strOc (c : PortCfg) : Nat := c.reqStrOc.getD 0

/-- Maximum string voltage, mV. -/
def PortCfg.vMax (c : PortCfg) : Nat := c.reqVMax.getD 0

/-- One contactor (12 R306, R332). -/
structure CtrCfg where
  role : Role
  /-- string, 255 for OTH -/
  port : Nat
  out : Nat
  lsw : Nat
  /-- auxiliary contact: NTC input, and whether it is a make contact -/
  aux : Option (Nat × Bool) := none
  closeMs : Nat := 50
  openMs : Nat := 30
  /-- break rating, mA -/
  breakI : Nat
  deriving DecidableEq, Repr, Inhabited

/-- A member of a contactor group (12 R312): a string (or the string set it leads), or one OTH contactor. -/
inductive Member where
  | string (p : Nat)
  | oth (c : Nat)
  deriving DecidableEq, Repr, Inhabited

/-- A contactor group (12 R312). -/
structure GroupCfg where
  members : List Member
  allOrNone : Bool
  min : Nat := 1
  deriving DecidableEq, Repr, Inhabited

/-- Use of an OUT channel (13 R349). -/
inductive OutUse where | unused | coil | thermal | other
  deriving DecidableEq, Repr, Inhabited

/-- One OUT channel (13 R349, 10 R279). -/
structure OutCfg where
  use : OutUse := .unused
  slow : Bool := false
  latch : Bool := false
  retries : Nat := 3
  /-- zone whose cooling (true) or heating (false) output the channel is -/
  zone : Option (Nat × Bool) := none
  deriving DecidableEq, Repr, Inhabited

/-- One temperature zone (10 R269, R271, R272, R279). -/
structure ZoneCfg where
  coolant : Bool := false
  sensors : List Nat := []
  warn : Int := 5000
  derate : Int := 5500
  hard : Option Int := none
  hystW : Int := 300
  hystD : Int := 300
  /-- coolant limit -/
  limit : Int := 7000
  minValid : Nat := 1
  /-- cooling-on; by default 10 °C below the warning level -/
  coolOnCfg : Option Int := none
  coolHyst : Int := 500
  heatOn : Int := 500
  heatOff : Int := 1000
  heatCut : Int := 4000
  /-- the heat-enable condition: CHG_PRES, closed string contactors -/
  heatChg : Bool := true
  heatClosed : Bool := true
  deriving DecidableEq, Repr, Inhabited

/-- Cooling-on temperature of a zone. -/
def ZoneCfg.coolOn (z : ZoneCfg) : Int := z.coolOnCfg.getD (z.warn - 1000)

/-- What an NTC input is used as (10 R266, 12 R310, 02 R67). -/
inductive NtcUse where
  | absent
  | therm (rNom beta : Nat)
  | aux
  deriving DecidableEq, Repr, Inhabited

/-- One fault source's settings (11 R303). `none` takes the default of R287. -/
structure FaultCfg where
  cls : Option Nat := none
  /-- persistence, ms -/
  pers : Option Nat := none
  /-- derate factor -/
  factor : Option Nat := none
  /-- release time, ms -/
  release : Nat := 10000
  latching : Bool := false
  deriving DecidableEq, Repr, Inhabited

/-- A received safe message (14 R361). Times in ms; `timeout` none takes 3 × cycle + skew. -/
structure MsgCfg where
  id : Nat
  src : Nat
  typ : Nat
  len : Nat := 16
  cycle : Nat
  skew : Nat := 20
  timeoutMs : Option Nat := none
  deriving DecidableEq, Repr, Inhabited

/-- One phase of the CAN bit timing (16 R389). -/
structure BitTiming where
  brp : Nat := 1
  tseg1 : Nat := 127
  tseg2 : Nat := 32
  sjw : Nat := 16
  deriving DecidableEq, Repr, Inhabited

/-- One CAN controller (16 R389, R390, R400). -/
structure CanCfg where
  enabled : Bool := true
  nominal : BitTiming := {}
  data : BitTiming := { tseg1 := 31, tseg2 := 8, sjw := 8 }
  tdcOfs : Nat := 0
  prio : Bool := true
  single : Bool := false
  deriving DecidableEq, Repr, Inhabited

/-- Network time (16 R403–R405). -/
structure NetCfg where
  /-- 0 neither, 1 master, 2 slave -/
  role : Nat := 0
  id : Nat := 0x100
  ide : Bool := false
  /-- period, ms -/
  period : Nat := 100
  onA : Bool := true
  onB : Bool := false
  /-- ns -/
  busDelay : Nat := 0
  /-- ns -/
  step : Nat := 1000000
  /-- ppm -/
  slew : Nat := 1000
  deriving DecidableEq, Repr, Inhabited

/-- One axle channel (15 R384). -/
structure AxleCfg where
  n : Nat
  m : Nat
  /-- mm -/
  circ : Nat
  aLeads : Bool := true
  flagMode : Bool := true
  /-- µs -/
  tMin : Nat := 10
  /-- ms -/
  tStill : Nat := 500
  /-- mm/s -/
  vMax : Nat := 60000
  deriving DecidableEq, Repr, Inhabited

/-- Equivalent-circuit parameters (07 R207): µΩ and µs. -/
structure FitPar where
  r0 : Nat := 0
  r1 : Nat := 0
  tau1 : Nat := 1000
  r2 : Nat := 0
  tau2 : Nat := 100000
  deriving DecidableEq, Repr, Inhabited

/-- One chemistry (07 R208, 08 R215, 09 R265). -/
structure ChemCfg where
  code : Nat := 0
  temps : List Int := []
  /-- five rows of 101 points, 100 µV -/
  ocv : List (List Nat) := []
  /-- five rows of 101 half-widths, 10 µV; empty without hysteresis -/
  hyst : List (List Nat) := []
  /-- 72 default entries, 10 µΩ -/
  table : List (Int × Int) := []
  /-- default fit; required -/
  fit : Option FitPar := none
  /-- charge and discharge voltage limits, 10 µV; required -/
  reqVChg : Option Nat := none
  reqVDis : Option Nat := none
  deriving DecidableEq, Repr, Inhabited

/-- Charge voltage limit, 10 µV. -/
def ChemCfg.vChg (c : ChemCfg) : Nat := c.reqVChg.getD 0

/-- Discharge voltage limit, 10 µV. -/
def ChemCfg.vDis (c : ChemCfg) : Nat := c.reqVDis.getD 0

/-- The items the sealed configuration gives besides the tables (chapters 06–14, 21). -/
structure GenCfg where
  packUsed : Bool := true
  /-- input mode: voltage or current; required when the input is used -/
  packVolt : Option Bool := none
  /-- sensor ratio: mA of pack current per mA or V of input, signed; required when the input is used -/
  packRatio : Option Int := none
  oP : Nat := 1000
  /-- insulation limit, kΩ, and the designated and backup nodes' ports -/
  isoLim : Option Nat := none
  isoPort : Option Nat := none
  isoBackup : Option Nat := none
  -- impedance (07 R208)
  bands : List Nat := [0, 1, 2, 3, 4, 5]
  exMin : Nat := 20
  cohMin : Nat := 9500
  tLo : Int := 1000
  tHi : Int := 3500
  sedge : Bool := true
  sedgeAge : Nat := 72
  sedgeP : Nat := 470
  fitLim : Nat := 100
  -- estimator (08 R240)
  relax : Nat := 30
  sigOcv : Nat := 200
  hystThr : Nat := 20
  conv : Nat := 50
  socTop : Nat := 10000
  eRes : Nat := 0
  tRes : Int := -2500
  iRef : Nat := 500
  refSlot : Nat := 6
  fade : Nat := 7000
  growStr : Nat := 10000
  growCell : Nat := 15000
  divLim : Nat := 1500
  -- limits (09 R265)
  /-- emergency load power, W; R265 takes its default from the carriage's reserve profile, of which the configuration holds the energy only:
  a configuration that states no power has 0 (DESIGN CHOICE, assumption log 121) -/
  pEm : Nat := 0
  iEm : Nat := 200
  /-- vehicle mass, kg; required when an axle channel is configured -/
  massMin : Option Nat := none
  massMax : Option Nat := none
  eta : Nat := 850
  decel : Nat := 1000
  packBounds : Option (List Nat) := none
  -- temperature (10)
  jump : Int := 500
  riseThr : Int := 100
  minHold : Nat := 30
  -- fault matrix (11 R303): ms, per mille, min, s, mV
  wait : Nat := 500
  facC : Nat := 500
  lowC : Nat := 50
  deadC : Nat := 10
  wadeMin : Nat := 30
  wadeFac : Nat := 500
  imbal : Nat := 1000
  /-- I_cont, mA; required -/
  iCont : Option Nat := none
  tau17 : Nat := 60
  coilMin : Nat := 16800
  -- contactors (12 R332)
  winLo : Nat := 500
  winHi : Nat := 1500
  k : Nat := 950
  margin : Nat := 100
  dv : Nat := 20000
  windowWait : Nat := 10000
  pickup : Nat := 16800
  busDis : Bool := false
  busDisMs : Nat := 5000
  -- outputs (13 R349)
  hold : Nat := 5
  lswUsed : List Bool := [false, false, false, false]
  -- safety inputs (14)
  debIso : Nat := 10
  debLid : Nat := 20
  discIso : Nat := 50
  discLid : Nat := 500
  srcByte : Option Nat := none
  idLimits : Nat := 0x100
  idStatus : Nat := 0x101
  spdDiff : Nat := 500
  spdPct : Nat := 10
  spdSec : Nat := 5
  -- power (21 R512, R513, R516)
  wakeEn : Nat := 0x3F
  wakeI : Nat := 10000
  mossLim : Nat := 96
  selfChk : Nat := 30
  deriving DecidableEq, Repr, Inhabited

/-- The sealed configuration. -/
structure Cfg where
  gen : GenCfg := {}
  ports : Tab Nat PortCfg := []
  ctrs : List CtrCfg := []
  /-- string sets (12 R307): the leading port, whose contactors serve the set, and all its ports -/
  sets : List (Nat × List Nat) := []
  groups : List GroupCfg := []
  outs : Tab Nat OutCfg := []
  ntc : Tab Nat NtcUse := []
  zones : Tab Nat ZoneCfg := []
  nbrs : Tab Nat (List Nat) := []
  cellSens : Tab Nat (List Nat) := []
  faults : Tab Nat FaultCfg := []
  msgs : List MsgCfg := []
  partner : Option MsgCfg := none
  cans : Tab Nat CanCfg := []
  net : NetCfg := {}
  axles : Tab Nat AxleCfg := []
  chems : List ChemCfg := []
  deriving DecidableEq, Repr, Inhabited

/-- A configuration blob: its bytes and the configuration they hold. -/
structure Blob where
  bytes : List Byte
  cfg : Cfg
  deriving DecidableEq, Repr, Inhabited

/-! ## Host interface operands -/

/-- What a submission descriptor tells a command (18 R448). -/
structure Desc where
  /-- submission ring -/
  sq : Nat := 0
  cmdId : BitVec 16 := 0
  imm : Word := 0
  fence : Bool := false
  /-- no completion on OK -/
  noCpl : Bool := false
  paramLen : Nat := 0
  resultLen : Nat := 0
  deriving DecidableEq, Repr, Inhabited

/-- A buffer post of a stream ring (18 R453). -/
structure BufPost where
  addr : Nat
  len : Nat
  deriving DecidableEq, Repr, Inhabited

/-- An entry of the MSI-X table (18 R436, R457). -/
structure MsixEntry where
  addr : Nat := 0
  data : Word := 0
  masked : Bool := false
  deriving DecidableEq, Repr, Inhabited

/-- A CAN frame (16 R394). -/
structure CanFrame where
  id : Nat := 0
  ide : Bool := false
  rtr : Bool := false
  fdf : Bool := false
  brs : Bool := false
  esi : Bool := false
  dlc : Nat := 0
  data : List Byte := []
  deriving DecidableEq, Repr, Inhabited

/-- Parameters of CAN_FILTER (19 R480, 16 R393). -/
structure FilterParam where
  id : Nat := 0
  mask : Nat := 0
  ide : Nat := 2
  fdf : Nat := 2
  action : Nat := 0
  deriving DecidableEq, Repr, Inhabited

/-- A chunk of FW_LOAD (22 R539). -/
structure FwChunk where
  offset : Nat
  total : Nat
  crc : Word
  last : Bool
  first : Bool
  data : List Byte
  deriving DecidableEq, Repr, Inhabited

/-! ## Chain operands -/

/-- The identity reply (04 R125). -/
structure Identity where
  uid : BitVec 64
  typ : Nat
  cells : Nat
  sensors : Nat
  caps : BitVec 8
  tta : Nat
  major : Nat := 1
  minor : Nat := 0
  build : BitVec 64 := 0
  deriving DecidableEq, Repr, Inhabited

/-- Response data of a node (04 R123, R124). -/
inductive RspData where
  | none
  | identity (i : Identity)
  | echo (b : List Byte)
  | passport (b : List Byte)
  | tone (set : Bool)
  | selfTest (w : Word)
  | status (b : List Byte)
  deriving DecidableEq, Repr, Inhabited

/-- An RSP frame that passed its checks (04 R109, R113). -/
structure Rsp where
  src : Nat
  tag : Nat
  seq : Nat
  status : Nat := 0
  data : RspData := .none
  deriving DecidableEq, Repr, Inhabited

/-- A block of a COLLECT frame, decoded (04 R119, R120). -/
structure Block where
  addr : Nat
  isString : Bool := false
  tone : Bool := false
  missed : Bool := false
  ow : Bool := false
  settleShort : Bool := false
  selftest : Bool := false
  damaged : Bool := false
  /-- the block's own CRC-8 holds -/
  crcOk : Bool := true
  /-- cell samples as sent: M3 in 100 µV, otherwise voltage in 10 µV, with flags suspect, filtered, balancing -/
  cells : List (Nat × Bool × Bool) := []
  stack : Option Nat := none
  temps : List Int := []
  cur : Int := 0
  vStr : Int := 0
  vx : Int := 0
  iso : Option Nat := none
  deriving DecidableEq, Repr, Inhabited

/-- A frame as it arrives at a master end (04 R100, R108): the bytes between its SOF and the next EOF, with MARKs taken out
(R101), and whether a code violation, a running-disparity error, an ABORT or an IDLE_FAULT stood among them. -/
structure RawFrame where
  bytes : List Byte
  lineErr : Bool := false
  deriving DecidableEq, Repr, Inhabited

/-! ## Pair operands -/

/-- What a partner reports in training (17 R415). -/
structure PartnerId where
  serial : BitVec 64 := 0
  position : Nat := 0
  pref : Bool := false
  sealValid : Bool := false
  sealVal : Word := 0
  fuseCrc : Word := 0
  fw : Word := 0
  /-- the role it already holds (0 none, 1 primary, 2 standby, 3 provisional), kept through Moss and Peat -/
  role : Nat := 0
  /-- its t_tx, and whether it has issued a Reed pulse -/
  time : Nat := 0
  sweeping : Bool := false
  deriving DecidableEq, Repr, Inhabited

/-- A heartbeat payload (17 R414) with its seq. -/
structure Heartbeat where
  seq : Nat := 0
  tTx : Nat := 0
  tRx : Nat := 0
  echo : Nat := 0
  role : Nat := 0
  sealValid : Bool := false
  diverged : Bool := false
  wade : Bool := false
  limp : Bool := false
  hold : Bool := false
  gained : Bool := false
  wadeLeft : Nat := 0xFFFFFFFF
  coils : BitVec 12 := 0
  lsw : BitVec 4 := 0
  sealVal : Word := 0
  latched : BitVec 64 := 0
  deriving DecidableEq, Repr, Inhabited

/-- A COIL frame (12 R331): a change, or the echo of one. -/
structure CoilFrame where
  ch : Nat
  on : Bool
  echo : Bool
  deriving DecidableEq, Repr, Inhabited

/-- An EVT frame of the Causeway (17 R412, R417). -/
inductive PairEvt where
  | latch (src scope : Nat) (on : Bool)
  /-- the condition of a source latched at the sender has ceased there -/
  | latchOver (src scope : Nat)
  | handover
  | handoverDone
  | contactor (c st : Nat)
  /-- a step of the primary's sequence: group, member and step -/
  | seqStep (group member step : Nat)
  /-- the result of a member of it -/
  | seqResult (group member code : Nat)
  /-- a mode, in force from the grid instant `at_` -/
  | planMode (port mode at_ : Nat)
  | planBurst (port : Nat) (on : Bool)
  | planQuiet (port : Nat) (on : Bool)
  | planSedge (port : Nat) (on : Bool) (seq : Nat) (sel : List (Nat × Nat))
  /-- an open-wire group, whose test sample is at `at_` -/
  | planOw (port at_ : Nat)
  | powerState (st : Nat)
  -- chain work of a pair at the standby's ends (assumption log 86)
  /-- the primary asks for a wake tone from the standby's end -/
  | chainWake (port : Nat)
  /-- the standby's end has locked on the hop that is enumerated from it -/
  | chainLock (port : Nat)
  /-- the primary has a command sent from the standby's end -/
  | chainCmd (port addr tag : Nat) (rtx : Bool) (payload : List Byte)
  /-- the response to it -/
  | chainRsp (port : Nat) (rsp : Rsp)
  /-- a break between addresses `node` and `node + 1` -/
  | chainBreak (port node : Nat)
  /-- a Reed pulse is missing at the standby's end -/
  | chainPulse (port : Nat)
  /-- the primary measures a port's delays (anew) -/
  | chainCal (port : Nat)
  /-- a delay differs, at the standby's end, by `diff` ns from the stored one -/
  | chainDiff (port addr diff : Nat)
  /-- the worst delay that a recalibration of a port is about to write -/
  | chainPhase (port D : Nat)
  /-- the number of the port's last sweep, as the primary enters split mode -/
  | chainSweep (port seq : Nat)
  /-- the standby's segment asks for an open-wire group -/
  | owRequest (port : Nat)
  /-- the standby's segment has an open tap, at cell `g` and the next -/
  | owTap (g : Nat)
  deriving DecidableEq, Repr, Inhabited

/-- A MIRROR frame (17 R417). -/
inductive MirrorItem where
  | hopDelay (port addr dS : Nat)
  | packCurrent (s : Nat) (i : Int)
  | coilSupply (a b : Nat)
  /-- currents of the coil channels, mA (13 R337) -/
  | coilCurrent (l : List Int)
  | axle (speed : Option Nat)
  | counters (port : Nat) (qNet : Int) (qIn qOut : Nat)
  | offset (sensor : Nat) (o : Int)
  | resistor (port eth : Nat) (attempts : List Nat)
  /-- a cell's filter state and its 64-byte entry as published (08 R239) -/
  | cell (g : Nat) (soc : Int) (sigma rep : Nat) (h v1 v2 : Int) (entry : List Byte)
  /-- reported SoC and half-cycle of a string, or of the pack (255), and its 96-byte entry as published (08 R239) -/
  | strEst (port rep : Nat) (turn extreme : Int) (entry : List Byte)
  | impedance (g slot band : Nat) (z : Int × Int)
  | limits (body : List Byte) (lim : List Nat)
  /-- digest of each mirrored region of the sender, in the order of R428 (17 R430) -/
  | digest (own : List Word)
  /-- an impedance result record of the primary, by function code (07 R200) -/
  | result (fn : Nat) (body : List Byte)
  deriving DecidableEq, Repr, Inhabited

/-- A non-volatile record in its way to MRAM (22 R530, 17 R428): kind code, key within the kind, body. -/
structure NvReq where
  kind : Nat
  key : Nat
  body : List Byte := []
  deriving DecidableEq, Repr, Inhabited

/-- The start of a record (22 R536): the record, and what PWR_HOLDUP then reports, 0.1 ms. -/
structure RecStart where
  req : NvReq
  holdup : Nat
  deriving DecidableEq, Repr, Inhabited

/-- What the module finds as it programs a fuse slot (22 R542; 02 R58): whether the read-back agrees, the level at the programming
supply pin, mV, and what PWR_HOLDUP reports, 0.1 ms. -/
structure ProgRead where
  ok : Bool
  vprog : Nat
  holdup : Nat
  deriving DecidableEq, Repr, Inhabited

/-- The supply as an interruption begins (21 R525): VSUP, mV, and what PWR_HOLDUP reports, 0.1 ms. -/
structure SupplyRead where
  vsup : Nat
  holdup : Nat
  deriving DecidableEq, Repr, Inhabited

/-- An NVW frame (17 R428): a mirrored record, or the standby's result for one. -/
inductive NvwFrame where
  | write (r : NvReq)
  | blob (b : Blob) (sealVal : Word)
  | result (r : NvReq) (status : Nat)
  | blobResult (status : Nat)
  /-- the blob that is pending on the primary, or none any more (14 R372) -/
  | pending (b : Option Blob)
  deriving DecidableEq, Repr, Inhabited

/-! ## Other operands -/

/-- W1C registers with an event counter (20 R492). -/
inductive EvReg where
  | resetCause | irqStatus | ringPendLo | ringPendHi | pwr | repair | time | therm | canA | canB | spd0 | spd1
  | drv | safein | pair
  deriving DecidableEq, Repr, Inhabited

/-- The *_IRQ_CFG registers (20 R493). -/
inductive IrqBlk where
  | glb0 | glb1 | pwr | repair | time | therm | canA | canB | spd | drv | safein | pair
  deriving DecidableEq, Repr, Inhabited

/-- A fault set a fuse slot holds (11 R300, 22 R541). -/
structure FuseSet where
  hardOv : Nat := 500000
  hardUv : Nat := 50000
  hardOt : Int := 10000
  packOc : Nat := 32000
  minCls : List Nat := []
  wait : Nat := 2000
  deadC : Nat := 60
  wade : Nat := 240
  limpSel : BitVec 12 := 0
  position : Nat := 0
  pref : Bool := false
  din : List Nat := [0, 0, 0, 0, 0, 0, 0, 0, 0, 0, 0, 0]
  deriving DecidableEq, Repr, Inhabited

/-- How a CAN transmit attempt ends (16 R391, R392, R399, R401). -/
inductive TxEnd where
  | ok | lostArb | ackError | bitErrorAfterArb | otherError
  deriving DecidableEq, Repr, Inhabited

/-- SRAM regions with an outcome of their own (23 R552). -/
inductive SramRegion where
  | fwSafe | fwSvc | live (g : Nat) | accum (g band : Nat) | table (g : Nat) | frame (p e : Nat) | mirror
  | prefetch (ring : Nat) | staging (p seq : Nat)
  deriving DecidableEq, Repr, Inhabited

/-- A repair that built-in repair finds to make (23 R549, R550): kind 1 row, 2 column, 3 page. -/
structure RepairFind where
  kind : Nat
  unit : Nat
  deriving DecidableEq, Repr, Inhabited

/-- The LSW fault conditions (13 R342). -/
inductive LswFail where | failsToOpen | highResistance | discrepancy
  deriving DecidableEq, Repr, Inhabited

/-- What the sensors of an LSW show as a condition is judged (13 R333, R342): the condition, the current in mA, the drain-to-source voltage
in 10 mV, and the junction temperature in 0.01 °C. -/
structure LswRead where
  kind : LswFail
  cur : Int
  vds : Nat
  temp : Int
  deriving DecidableEq, Repr, Inhabited

/-- The causes of a channel trip (13 R336). -/
inductive TripCause where | short | overload | overTemp
  deriving DecidableEq, Repr, Inhabited

/-- The judgement of an HVIL code period (14 R351). -/
inductive HvilKind where | pass | isOpen | leak | shortToSupply
  deriving DecidableEq, Repr, Inhabited

/-- What the monitor of an HVIL loop measures in one chip (14 R350, R351): the current that the source drives and the return current, in
0.01 mA, and the voltage at HVILn_RTN in mV. -/
structure HvilChip where
  src : Nat
  rtn : Nat
  v : Nat
  deriving DecidableEq, Repr, Inhabited

/-! ## The commands -/

/-- An item of configuration space to which the spec gives a value (18 R435, R436). -/
inductive CfgItem where
  | vendorId | deviceId | revisionId | classCode | subVendorId | subsystemId | interruptPin | serialNumber
  deriving DecidableEq, Repr, Inhabited

/-- A PCI Express configuration request: a read of one of those items, or a write of the MSI-X enable bit (18 R437, R458). -/
inductive CfgReq where
  | read (item : CfgItem)
  | msix (on : Bool)
  deriving DecidableEq, Repr, Inhabited

/-- One command of the block per row of the table, in its order. `d` is what the submission descriptor tells a host
 command; `p` a chain port, `e` a port end (0 N, 1 S). -/
inductive Instr where
  /-- IDENTIFY (R470). -/
  | identify (d : Desc)
  /-- ECHO (R470). -/
  | echo (d : Desc)
  /-- TIME_GET (R470). -/
  | timeGet (d : Desc)
  /-- POWER_STATE_MOSS (R511). -/
  | powerStateMoss (d : Desc)
  /-- POWER_STATE_PEAT (R515). -/
  | powerStatePeat (d : Desc)
  /-- PORT_STATUS (R471). -/
  | portStatus (d : Desc)
  /-- ROSTER_ACCEPT (R81). -/
  | rosterAccept (d : Desc)
  /-- OPEN_TAP_CLEAR (R164). -/
  | openTapClear (d : Desc)
  /-- BALANCE (R472). -/
  | balance (d : Desc) (ents : List (Nat × Nat))
  /-- PASSPORT_READ (R471). -/
  | passportRead (d : Desc)
  /-- PORT_RESTART (R471). -/
  | portRestart (d : Desc)
  /-- OPEN_WIRE_NOW (R471). -/
  | openWireNow (d : Desc)
  /-- EMERGENCY_SUPPLY (R474). -/
  | emergencySupply (d : Desc)
  /-- VEHICLE_MASS (R257). -/
  | vehicleMass (d : Desc)
  /-- CELL_READ (R473). -/
  | cellRead (d : Desc)
  /-- CAPACITY_SET (R473). -/
  | capacitySet (d : Desc) (pos : Nat) (cap : Nat) (sigma : Nat)
  /-- GROUP_CLOSE (R313). -/
  | groupClose (d : Desc)
  /-- GROUP_OPEN (R323). -/
  | groupOpen (d : Desc)
  /-- DISCONNECT (R291). -/
  | disconnect (d : Desc)
  /-- OUTPUT_SET (R476). -/
  | outputSet (d : Desc)
  /-- OUTPUT_CLEAR (R339). -/
  | outputClear (d : Desc)
  /-- FAULT_CLEAR (R294). -/
  | faultClear (d : Desc)
  /-- CFG_LOAD (R368). -/
  | cfgLoad (d : Desc) (blob : Blob)
  /-- CFG_READ (R477). -/
  | cfgRead (d : Desc)
  /-- SEAL_CONFIRM (R368). -/
  | sealConfirm (d : Desc)
  /-- MAINT_OPEN (R371). -/
  | maintOpen (d : Desc)
  /-- MAINT_CLOSE (R371). -/
  | maintClose (d : Desc)
  /-- FUSE_PROGRAM (R542). -/
  | fuseProgram (d : Desc) (image : List Byte) (progOk : ProgRead)
  /-- TABLE_READ (R479). -/
  | tableRead (d : Desc) (first : Nat) (count : Nat)
  /-- TABLE_WRITE (R479). -/
  | tableWrite (d : Desc) (recs : List NvReq)
  /-- BB_READ (R547). -/
  | bbRead (d : Desc)
  /-- BB_CLEAR (R547). -/
  | bbClear (d : Desc)
  /-- FW_LOAD (R539). -/
  | fwLoad (d : Desc) (chunk : FwChunk)
  /-- FW_ACTIVATE (R540). -/
  | fwActivate (d : Desc)
  /-- CAN_TX (R390). -/
  | canTx (d : Desc) (frame : CanFrame)
  /-- CAN_CANCEL (R391). -/
  | canCancel (d : Desc)
  /-- CAN_FILTER (R393). -/
  | canFilter (d : Desc) (param : FilterParam)
  /-- CAN_MODE (R397). -/
  | canMode (d : Desc)
  /-- ROLE_HANDOVER (R409). -/
  | roleHandover (d : Desc)
  /-- PAIR_ADOPT (R432). -/
  | pairAdopt (d : Desc)
  /-- MIRROR_CHECK (R430). -/
  | mirrorCheck (d : Desc)
  /-- STATE_READBACK (R483). -/
  | stateReadback (d : Desc)
  /-- SELF_TEST (R560). -/
  | selfTest (d : Desc) (fails : Word)
  /-- NODE_STATUS (R482). -/
  | nodeStatus (d : Desc)
  /-- DOORBELL (R445). -/
  | doorbell (ring : Nat) (v : Word)
  /-- DESCRIPTOR_FETCH (R449). -/
  | descriptorFetch (ring : Nat) (opcode : Nat) (d : Desc)
  /-- COMPLETION_WRITE (R452). -/
  | completionWrite (cq : Nat)
  /-- STREAM_RECORD_WRITE (R453). -/
  | streamRecordWrite (fn : Nat) (post : Option BufPost)
  /-- INTERRUPT_MODERATION_TIMEOUT (R457). -/
  | interruptModerationTimeout (ring : Nat)
  /-- MSIX_TABLE_WRITE (R457). -/
  | msixTableWrite (vec : Nat) (entry : MsixEntry)
  /-- RING_ENABLE (R447). -/
  | ringEnable (ring : Nat) (ctrl : Word)
  /-- RING_DISABLE (R442). -/
  | ringDisable (ring : Nat) (ctrl : Word)
  /-- RING_RESET (R442). -/
  | ringReset (ring : Nat) (ctrl : Word)
  /-- RING_STATUS_CLEAR (R443). -/
  | ringStatusClear (ring : Nat) (v : Word)
  /-- DMA_ERROR (R443). -/
  | dmaError (ring : Nat)
  /-- PCIE_CONFIG_REQUEST (R437). -/
  | pcieConfigRequest (q : CfgReq)
  /-- HOST_INTERFACE_READY (R437). -/
  | hostInterfaceReady
  /-- PERST_N_ASSERT (R460). -/
  | perstNAssert
  /-- LINK_RESET (R460). -/
  | linkReset
  /-- D3HOT_ENTRY (R438). -/
  | d3hotEntry
  /-- D0_RETURN (R438). -/
  | d0Return
  /-- SOFTWARE_RESET_SVC (R518). -/
  | softwareResetSvc
  /-- SOFTWARE_RESET_SAFE (R344). -/
  | softwareResetSafe
  /-- SOFTWARE_RESET_BOTH (R494). -/
  | softwareResetBoth
  /-- IRQ_STATUS_ACK (R458). -/
  | irqStatusAck (v : Word)
  /-- RING_PEND_ACK (R458). -/
  | ringPendAck (hi : Bool) (v : Word)
  /-- EVENT_REGISTER_CLEAR (R492). -/
  | eventRegisterClear (reg : EvReg) (v : Word)
  /-- EVENT_COUNTER_CLEAR (R492). -/
  | eventCounterClear (reg : EvReg)
  /-- LO_HALF_READ (R490). -/
  | loHalfRead (off : Nat)
  /-- SPD_CAPTURE_READ (R490). -/
  | spdCaptureRead (ch : Nat) (isIndex : Bool)
  /-- COLL_CNT_READ (R502). -/
  | collCntRead (c : Nat)
  /-- HP_WINDOW_READ (R396). -/
  | hpWindowRead (c : Nat) (off : Nat)
  /-- HP_STAT_READ (R396). -/
  | hpStatRead (c : Nat)
  /-- HP_LOCK_TIMEOUT (R396). -/
  | hpLockTimeout (c : Nat)
  /-- REGISTER_WRITE (R489). -/
  | registerWrite (off : Nat) (v : Word)
  /-- POWER_ON_RESET (R522). -/
  | powerOnReset (vsup : Nat)
  /-- RST_N_RESET (R518). -/
  | rstNReset (lowUs : Nat)
  /-- RST_N_DEASSERT (R522). -/
  | rstNDeassert
  /-- DOMAIN_POWER_GOOD (R517). -/
  | domainPowerGood (dom : Nat)
  /-- BUILT_IN_REPAIR (R549). -/
  | builtInRepair (finds : List RepairFind) (unmappable : Nat)
  /-- MRAM_MOUNT (R535). -/
  | mramMount
  /-- READY_TO_CLOSE (R524). -/
  | readyToClose
  /-- READY_TIMEOUT (R524). -/
  | readyTimeout
  /-- SUPPLY_INTERRUPTION_BEGIN (R525). -/
  | supplyInterruptionBegin (vsup : SupplyRead)
  /-- SAVE_WINDOW_ENTRY (R525). -/
  | saveWindowEntry
  /-- SAVE_WINDOW_EXPIRY (R525). -/
  | saveWindowExpiry
  /-- INTERRUPTION_END (R526). -/
  | interruptionEnd
  /-- WAKE_PACK_CURRENT (R512). -/
  | wakePackCurrent (i : Int)
  /-- CAN_WAKE (R388). -/
  | canWake (c : Nat)
  /-- WAKE_TIMER_EXPIRY (R512). -/
  | wakeTimerExpiry
  /-- CHG_PRES_HIGH (R512). -/
  | chgPresHigh
  /-- SVC_WAKE_HIGH (R512). -/
  | svcWakeHigh
  /-- HEARTBEAT_SWEEP_CYCLE (R155). -/
  | heartbeatSweepCycle
  /-- MOSS_LIMIT_EXPIRY (R513). -/
  | mossLimitExpiry
  /-- SELF_CHECK_ALARM (R516). -/
  | selfCheckAlarm
  /-- WAKE_TONE_DETECTED (R75). -/
  | wakeToneDetected (p : Nat) (e : Nat)
  /-- SYMBOL_LOCK (R74). -/
  | symbolLock (p : Nat) (e : Nat)
  /-- LOOP_CLOSURE (R78). -/
  | loopClosure (p : Nat)
  /-- HOP_TIMEOUT (R77). -/
  | hopTimeout (p : Nat)
  /-- RSP_FRAME_RECEIVED (R113). -/
  | rspFrameReceived (p : Nat) (e : Nat) (f : RawFrame)
  /-- CMD_RESPONSE_TIMEOUT (R113). -/
  | cmdResponseTimeout (p : Nat) (addr : Nat)
  /-- PROBE_REPLY (R83). -/
  | probeReply (p : Nat) (e : Nat) (addr : Nat) (rtt : Nat)
  /-- DELAY_PROBE_CYCLE (R86). -/
  | delayProbeCycle (p : Nat)
  /-- IDLE_ORDERED_SET (R104). -/
  | idleOrderedSet (p : Nat) (e : Nat) (isFault : Bool)
  /-- LOSS_OF_SYMBOL_LOCK (R105). -/
  | lossOfSymbolLock (p : Nat) (e : Nat)
  /-- IDLE_SET_TIMEOUT (R105). -/
  | idleSetTimeout (p : Nat) (e : Nat)
  /-- ALARM_TONE_DETECTED (R107). -/
  | alarmToneDetected (p : Nat) (e : Nat)
  /-- REED_ISSUE (R139). -/
  | reedIssue (p : Nat) (S : Nat)
  /-- REED_FRAME_OBSERVED (R69), with its arrival time. -/
  | reedFrameObserved (p : Nat) (e : Nat) (f : RawFrame) (t : Nat)
  /-- REED_PULSE_MISSING (R69). -/
  | reedPulseMissing (p : Nat) (e : Nat)
  /-- COLLECT_LAUNCH (R117). -/
  | collectLaunch (p : Nat) (e : Nat)
  /-- COLLECT_FRAME_RECEIVED (R22). -/
  | collectFrameReceived (p : Nat) (e : Nat) (f : RawFrame)
  /-- BREAK_EVENT (R88). -/
  | breakEvent (p : Nat) (e : Nat) (f : RawFrame)
  /-- RESTORED_EVENT (R95). -/
  | restoredEvent (p : Nat) (e : Nat) (f : RawFrame)
  /-- TONE_ORIGIN_EVENT (R289): a frame, as a `RawFrame` holds it, with its arrival time. -/
  | toneOriginEvent (p : Nat) (e : Nat) (bytes : List Byte) (lineErr : Bool) (t : Nat)
  /-- SELF_TEST_FAIL_EVENT (R126). -/
  | selfTestFailEvent (p : Nat) (e : Nat) (f : RawFrame)
  /-- NV_FAIL_EVENT (R126), at the port end 2p + e. -/
  | nvFailEvent (pe : Nat) (f : RawFrame)
  /-- SPLIT_MODE_ENTRY (R89). -/
  | splitModeEntry (p : Nat)
  /-- SPLIT_MODE_END (R95). -/
  | splitModeEnd (p : Nat)
  /-- ENGINE_LOOPBACK_TEST (R554). -/
  | engineLoopbackTest (eng : Nat) (ok : Bool)
  /-- ENGINE_SUBSTITUTION (R96). -/
  | engineSubstitution (p : Nat)
  /-- MODE_CHANGE (R153). -/
  | modeChange (p : Nat) (mode : Nat)
  /-- M3_BURST_START (R151). -/
  | m3BurstStart (p : Nat)
  /-- M3_BURST_END (R150). -/
  | m3BurstEnd (p : Nat)
  /-- QUIET_MODE_ENTRY (R152). -/
  | quietModeEntry (p : Nat)
  /-- QUIET_MODE_EXIT (R152). -/
  | quietModeExit (p : Nat)
  /-- OPEN_WIRE_GROUP_DUE (R161). -/
  | openWireGroupDue (p : Nat)
  /-- SEDGE_SESSION_START (R203). -/
  | sedgeSessionStart (p : Nat)
  /-- SEDGE_SEQUENCE_END (R203), of the session with this start sweep_seq. -/
  | sedgeSequenceEnd (p : Nat) (seq : Nat)
  /-- BALANCE_DURATION_END (R472). -/
  | balanceDurationEnd (p : Nat) (addr : Nat)
  /-- PACK_CURRENT_SAMPLE (R141). -/
  | packCurrentSample (S : Nat) (val : Int)
  /-- FAST_OVERCURRENT_TRIP (R173). -/
  | fastOvercurrentTrip
  /-- KIRCHHOFF_EVALUATION (R178). -/
  | kirchhoffEvaluation (S : Nat)
  /-- OFFSET_LEARNING (R176), of the 1 s that ends at `t`. -/
  | offsetLearning (sensor : Nat) (t : Nat)
  /-- KALMAN_UPDATE (R218). -/
  | kalmanUpdate (S : Nat)
  /-- ESTIMATOR_RESULT_TIMEOUT (R26). -/
  | estimatorResultTimeout
  /-- LIMITS_PUBLICATION (R245). -/
  | limitsPublication (S : Nat)
  /-- ESTIMATOR_RECORD (R241). -/
  | estimatorRecord (S : Nat)
  /-- TRUE_REST_POINT (R221). -/
  | trueRestPoint (p : Nat)
  /-- WISP_POINT_EVALUATION (R222). -/
  | wispPointEvaluation (p : Nat)
  /-- DIVERGENCE_CEASE (R238). -/
  | divergenceCease (g : Nat)
  /-- ENERGY_RECOMPUTE (R228). -/
  | energyRecompute
  /-- SEGMENT_CLOSE (R189). -/
  | segmentClose (p : Nat) (band : Nat)
  /-- WINDOW_END (R193). -/
  | windowEnd (p : Nat) (band : Nat)
  /-- CIRCUIT_FIT (R207), completed at `t`. -/
  | circuitFit (g : Nat) (slot : Nat) (t : Nat)
  /-- FIT_RECORD (R210). -/
  | fitRecord (p : Nat)
  /-- TABLE_WRITEBACK (R199). -/
  | tableWriteback (g : Nat)
  /-- TABLE_AGE_ADVANCE (R197). -/
  | tableAgeAdvance
  /-- NTC_SAMPLE (R266). -/
  | ntcSample (ohms : List Nat)
  /-- TEMPERATURE_EVALUATION (R275). -/
  | temperatureEvaluation
  /-- TEMPERATURE_DEMAND_FALL (R275). -/
  | temperatureDemandFall (p : Nat)
  /-- RISE_CONFIRMATION_TIMEOUT (R278). -/
  | riseConfirmationTimeout (sensor : Nat)
  /-- THERMAL_OUTPUT_SWITCH (R279). -/
  | thermalOutputSwitch (ch : Nat)
  /-- JUNCTION_READ (R281). -/
  | junctionRead (t0 : Int) (t1 : Int) (t2 : Int) (t3 : Int)
  /-- JUNCTION_SHUTDOWN (R283). -/
  | junctionShutdown
  /-- JUNCTION_RECOVERY (R283). -/
  | junctionRecovery
  /-- FAULT_MATRIX_EVALUATION (R298). -/
  | faultMatrixEvaluation
  /-- PERSISTENCE_EXPIRY (R284). -/
  | persistenceExpiry (src : Nat) (scope : Nat)
  /-- CLASS_B_WAIT_EXPIRY (R290). -/
  | classBWaitExpiry (scope : Nat)
  /-- LOW_CURRENT_WINDOW (R291). -/
  | lowCurrentWindow (scope : Nat)
  /-- CLASS_C_DEADLINE (R291). -/
  | classCDeadline (scope : Nat)
  /-- CLASS_D_RELEASE (R294). -/
  | classDRelease (src : Nat) (scope : Nat)
  /-- WADE_TIMER_EXPIRY (R297). -/
  | wadeTimerExpiry
  /-- PRECLOSE_TEST_END (R316). -/
  | precloseTestEnd
  /-- FIRST_FIT_DUE (R316). -/
  | firstFitDue
  /-- PRECHARGE_TIMEOUT (R319). -/
  | prechargeTimeout
  /-- CLOSE_TIME_ELAPSED (R322). -/
  | closeTimeElapsed
  /-- CLOSE_VERIFY_TIMEOUT (R316). -/
  | closeVerifyTimeout
  /-- PRE_OPEN_VERIFY (R316). -/
  | preOpenVerify
  /-- WINDOW_WAIT_EXPIRY (R322). -/
  | windowWaitExpiry
  /-- CHECK_AT_OPEN (R327). -/
  | checkAtOpen (p : Nat)
  /-- CHECK_AT_OPEN_NO_DATA (R327). -/
  | checkAtOpenNoData (p : Nat)
  /-- SECOND_CONTACTOR_CHECK (R327). -/
  | secondContactorCheck (p : Nat)
  /-- BUS_DISCHARGE_TIMEOUT (R328). -/
  | busDischargeTimeout (p : Nat)
  /-- PRECHARGE_LOCKOUT_END (R321). -/
  | prechargeLockoutEnd (p : Nat)
  /-- COIL_ECHO_TIMEOUT (R331). -/
  | coilEchoTimeout (ch : Nat)
  /-- CHANNEL_TRIP (R336). -/
  | channelTrip (ch : Nat) (cause : TripCause) (cur : Int)
  /-- AUTOMATIC_RESTART (R339). -/
  | automaticRestart (ch : Nat) (temp : Int)
  /-- RETRY_RESTORE (R339). -/
  | retryRestore (ch : Nat)
  /-- OPEN_LOAD (R337). -/
  | openLoad (ch : Nat) (cur : Int)
  /-- LSW_FAULT (R342). -/
  | lswFault (j : Nat) (read : LswRead)
  /-- SAFETY_WATCHDOG (R518). -/
  | safetyWatchdog
  /-- SERVICE_WATCHDOG (R518). -/
  | serviceWatchdog
  /-- LOCKSTEP_MISMATCH (R557). -/
  | lockstepMismatch
  /-- SUPERVISION_RESUMED (R520). -/
  | supervisionResumed
  /-- HOLD_WINDOW_EXPIRY (R344). -/
  | holdWindowExpiry
  /-- HOLD_SWITCH_OFF (R344). -/
  | holdSwitchOff
  /-- LIMP_N_LOW (R345). -/
  | limpNLow
  /-- LIMP_N_HIGH (R347). -/
  | limpNHigh
  /-- DIN_EDGE (R346). -/
  | dinEdge (n : Nat) (high : Bool)
  /-- HVIL_CODE_PERIOD (R351). -/
  | hvilCodePeriod (n : Nat) (chips : List HvilChip) (cur : Nat)
  /-- PULSE_CHECK_PERIOD (R354). -/
  | pulseCheckPeriod (isLid : Bool) (ok0 : Bool) (ok1 : Bool)
  /-- DEBOUNCE_EXPIRY (R355). -/
  | debounceExpiry (isLid : Bool) (ch : Bool) (closed : Bool)
  /-- DISCREPANCY_TIME_EXPIRY (R355). -/
  | discrepancyTimeExpiry (isLid : Bool)
  /-- MOSS_INPUT_READ (R357). -/
  | mossInputRead (isLid : Bool) (c0 : Bool) (c1 : Bool)
  /-- STANDSTILL_DECLARED (R358). -/
  | standstillDeclared
  /-- AXLE_EDGE (R374). -/
  | axleEdge (ch : Nat) (a : Bool) (b : Bool) (t : Nat)
  /-- EDGE_REREAD (R374). -/
  | edgeReread (ch : Nat) (a : Bool) (b : Bool) (t : Nat)
  /-- AXLE_STANDSTILL (R381). -/
  | axleStandstill (ch : Nat)
  /-- WIRE_DISAGREEMENT (R373). -/
  | wireDisagreement (ch : Nat) (phaseB : Bool)
  /-- SPD_SUPPLY_FAULT (R373). -/
  | spdSupplyFault (ch : Nat)
  /-- AXLE_RECORD (R385). -/
  | axleRecord (S : Nat)
  /-- CAN_FRAME_RECEIVED (R393). -/
  | canFrameReceived (c : Nat) (frame : CanFrame) (tSof : Nat)
  /-- SKEW_WINDOW_EXPIRY (R362). -/
  | skewWindowExpiry (m : Nat)
  /-- SAFE_MESSAGE_TIMEOUT (R362). -/
  | safeMessageTimeout (m : Nat)
  /-- STATUS_MESSAGE_SEND (R365). -/
  | statusMessageSend
  /-- REFERENCE_MESSAGE_SEND (R403). -/
  | referenceMessageSend
  /-- NETWORK_TIME_INVALID (R405). -/
  | networkTimeInvalid
  /-- TRANSMIT_ATTEMPT_END (R392). -/
  | transmitAttemptEnd (c : Nat) (e : TxEnd) (tSof : Nat)
  /-- BUS_OFF_RECOVERY (R398). -/
  | busOffRecovery (c : Nat)
  /-- CAUSEWAY_TRAINING (R415). -/
  | causewayTraining (partner : PartnerId) (rtt : Nat)
  /-- HEARTBEAT_SEND (R412). -/
  | heartbeatSend
  /-- HEARTBEAT_RECEIVED (R414). -/
  | heartbeatReceived (f : RawFrame)
  /-- PARTNER_LOST (R418). -/
  | partnerLost
  /-- PROOF_WINDOW_END (R424). -/
  | proofWindowEnd
  /-- TRAINING_DEADLINE (R426). -/
  | trainingDeadline
  /-- COIL_FRAME_RECEIVED (R331). -/
  | coilFrameReceived (f : CoilFrame)
  /-- PAIR_EVT_FRAME_RECEIVED (R299). -/
  | pairEvtFrameReceived (ev : PairEvt)
  /-- MIRROR_FRAME_RECEIVED (R417). -/
  | mirrorFrameReceived (item : MirrorItem)
  /-- NVW_FRAME_RECEIVED (R428). -/
  | nvwFrameReceived (fr : NvwFrame)
  /-- NVW_RESULT_TIMEOUT (R429). -/
  | nvwResultTimeout
  /-- DIGEST_EXCHANGE (R430). -/
  | digestExchange (partner : List Word)
  /-- RESYNC_COMPLETE (R430). -/
  | resyncComplete
  /-- PAIR_OFFSET_FAULT (R415). -/
  | pairOffsetFault
  /-- MRAM_RECORD_WRITE (R531). -/
  | mramRecordWrite (rec : RecStart) (fail1 : Bool) (fail2 : Bool)
  /-- RECORD_DEFERRAL_RETRY (R536). -/
  | recordDeferralRetry
  /-- DEFERRED_RECORD_TIMEOUT (R536). -/
  | deferredRecordTimeout
  /-- JOURNAL_STRING_COUNTERS (R534). -/
  | journalStringCounters
  /-- ESTIMATOR_STATE_SAVE (R533). -/
  | estimatorStateSave
  /-- AGEING_RECORD_DAILY (R235). -/
  | ageingRecordDaily
  /-- PASSPORT_REWRITE (R82). -/
  | passportRewrite
  /-- SNAPSHOT_SWEEP_COMMIT (R545). -/
  | snapshotSweepCommit (p : Nat)
  /-- SRAM_SCRUB (R551). -/
  | sramScrub (bad : List Nat)
  /-- MRAM_SCRUB (R553). -/
  | mramScrub (badSectors : List Nat) (copyBad1 : Bool) (copyBad2 : Bool)
  /-- SRAM_CORRECTED_ERROR (R551). -/
  | sramCorrectedError (w : Nat)
  /-- SRAM_UNCORRECTABLE_ERROR (R552). -/
  | sramUncorrectableError (region : SramRegion) (w : Nat)
  /-- LANE_CROSS_CHECK (R556). -/
  | laneCrossCheck (bad : Option Nat)
  /-- REFERENCE_CHECK (R559). -/
  | referenceCheck (bad : BitVec 3)
  /-- FIRMWARE_TRIAL_CONFIRM (R540). -/
  | firmwareTrialConfirm
  /-- PENDING_BLOB_DISCARD (R368). -/
  | pendingBlobDiscard
  /-- MAINT_SESSION_TIMEOUT (R371). -/
  | maintSessionTimeout
  /-- MASS_LAPSE (R257). -/
  | massLapse
  /-- EMERGENCY_SUPPLY_LAPSE (R474). -/
  | emergencySupplyLapse
  /-- SERVICE_CORES_RESUMED (R520). -/
  | serviceCoresResumed
  /-- VSUP_OUT_OF_RANGE (R565). -/
  | vsupOutOfRange (v : Nat)
  /-- COIL_SUPPLY_LOW (R287). -/
  | coilSupplyLow (a : Nat) (b : Nat)
  /-- CAN_RECEIVE_ERROR (R398). -/
  | canReceiveError (c : Nat) (inFlag : Bool)
  /-- PLL_LOSS (R28). -/
  | pllLoss
  /-- INTERPOLATOR_PHASE_REACHED (R140). -/
  | interpolatorPhaseReached (p : Nat)
  /-- CHG_PRES_LOW (R505). -/
  | chgPresLow
  /-- SVC_WAKE_LOW (R505). -/
  | svcWakeLow
  /-- BACKUP_HAND_OVER (R169). -/
  | backupHandOver
  deriving DecidableEq, Repr

end Sys2Proof
end

