-- ==== Sys2Proof/Decode.lean ====
section
/-! DEFINITION. The command a word spells. No row of the opcode table gives bits (a block's commands are register
accesses, ring operations and events, not words), so no word spells a command. -/

namespace Sys2Proof

/-- The command that the low `nbits` bits of `w` spell: none, because no row of the table gives bits. -/
def decodeTableWord (nbits w : Nat) : Option Instr :=
  match nbits, w with
  | _, _ => none

end Sys2Proof
end

