-- ==== Sys2Proof/Config.lean ====
section
/-! DEFINITION. What an implementation of the SX4096 fixes and the spec leaves open: constants with no body, so nothing can be
proved of their values. -/

namespace Sys2Proof.Config

/-- The `n`-th value the spec leaves open, as it is drawn (assumption log 10). -/
opaque freeValue : Nat → Nat

/-- Outcome of a measurement update of a cell's filter: SoC and σ in 0.0001 %, v1 and v2 in µV, h in 10 µV. The spec
does not publish the filter's tuning (08 R218): free values, drawn by number and cell (assumption log 10). -/
opaque kalman : (n g : Nat) → Int × Nat × Int × Int × Int

/-- Temperature of a cell when no sensor of its port is valid (08 R214): the spec states none (assumption log 10). -/
opaque noTemp : (g t : Nat) → Int

/-- What the 64-byte header of a firmware image names: device, version, body length, CRC-32C of the body (22 R539). The spec
does not give the places of these fields (assumption log 26). -/
opaque fwHeader : List Byte → Nat × Nat × Nat × Nat

end Sys2Proof.Config
end

