-- ==== Sys2Proof/Machine/Numbering.lean ====
section
/-! DEFINITION. How nodes, cells and sensors are numbered (00 R6–R9; 03 R71, R72). -/

namespace Sys2Proof.Machine

open Sys2Proof

/-- Total configured node count C of a port (03 R71). -/
def portC (c : PortCfg) : Nat := c.m + (if c.strNode.isSome then 1 else 0)

/-- Addresses of a port's configured nodes. -/
def addrs (c : PortCfg) : List Nat := (List.range (portC c)).map (· + 1)

/-- Addresses of its monitor nodes, in address order. -/
def monAddrs (c : PortCfg) : List Nat := (addrs c).filter (fun a => c.strNode ≠ some a)

/-- Monitor order of the node at an address; none for a string node (03 R72). -/
def monOrder (c : PortCfg) (a : Nat) : Option Nat :=
  match (monAddrs c).findIdx? (· == a) with
  | some i => some (if c.nAtNeg then i else c.m - 1 - i)
  | none => none

/-- Address of the monitor node of a monitor order. -/
def addrOf (c : PortCfg) (o : Nat) : Option Nat := (monAddrs c)[if c.nAtNeg then o else c.m - 1 - o]?

/-- Cells declared for a monitor order. -/
def cellsOf (c : PortCfg) (o : Nat) : Nat := c.cells.getD o 0

/-- Sensors declared for a monitor order. -/
def sensorsOf (c : PortCfg) (o : Nat) : Nat := c.sensors.getD o 0

/-- A cell position is occupied (00 R8). -/
def occupied (c : PortCfg) (pos : Nat) : Bool := pos / 16 < c.m && pos % 16 < cellsOf c (pos / 16)

/-- The occupied positions of a port, in order. -/
def occPos (c : PortCfg) : List Nat := (List.range (16 * c.m)).filter (occupied c)

/-- Global cell index (00 R9). -/
def gi (p pos : Nat) : Nat := 512 * p + pos

/-- The port sensor indices k that the configuration declares. -/
def declSensors (c : PortCfg) : List Nat :=
  (List.range (8 * c.m)).filter (fun k => k % 8 < sensorsOf c (k / 8))

/-- Global sensor index of port sensor k. -/
def si (p k : Nat) : Nat := 256 * p + k

end Sys2Proof.Machine
end

