-- ==== Sys2Proof/Machine/Real.lean ====
section
/-! DEFINITION. The spec's real arithmetic in fixed point: exponential, logarithm, cosine and sine, the digital filter of
06 R177, the spectral line of 07 R187–R189, and least squares (07 R207; 12 R317). The spec gives the formulas; how the values are
rounded, and by what steps a minimum is searched, is the model's choice (assumption log 13). -/

namespace Sys2Proof.Machine

open Sys2Proof

/-! ## Fixed point: units of 2⁻⁴⁰ -/

/-- One. -/
def fx1 : Int := 2 ^ 40

/-- Product of two values. -/
def fxMul (a b : Int) : Int := a * b / 2 ^ 40

/-- Ratio of two values or of two integers; 0 by 0. -/
def fxDiv (a b : Int) : Int := if b = 0 then 0 else a * 2 ^ 40 / b

/-- π, √2, ln 2 and e⁻¹. -/
def fxPi : Int := 3454217652358
def fxSqrt2 : Int := 1554944255988
def fxLn2 : Int := 762123384785
def fxInvE : Int := 404487723188

/-- 1 − y/d₀ (1 − y/d₁ (1 − …)): a Taylor series with alternating signs. -/
def altSeries (y : Int) : List Int → Int
  | [] => fx1
  | d :: r => fx1 - fxMul y (altSeries y r) / d

/-- A power with a natural exponent. -/
def fxPow (a : Int) : Nat → Int
  | 0 => fx1
  | n + 1 => fxMul a (fxPow a n)

/-- e^(−t ÷ τ) in parts of 2³² (12 R320; 07 R207; 08 R218); 0 at τ = 0. -/
def expNeg (t τ : Nat) : Nat :=
  if τ = 0 || 32 ≤ t / τ then 0
  else
    let x := fxDiv (t % τ : Nat) τ
    (fxMul (fxPow fxInvE (t / τ)) (altSeries x [1, 2, 3, 4, 5, 6, 7, 8, 9, 10, 11, 12, 13, 14, 15, 16])).toNat / 2 ^ 8

/-- Cosine and sine of the quarter turn's fraction `a`, in radians. -/
def cosQ (a : Int) : Int := altSeries (fxMul a a) [2, 12, 30, 56, 90, 132, 182, 240]
def sinQ (a : Int) : Int := fxMul a (altSeries (fxMul a a) [6, 20, 42, 72, 110, 156, 210, 272])

/-- Cosine and sine of `num ÷ den` of a turn. -/
def cosSin (num den : Nat) : Int × Int :=
  let r := 4 * (num % den)
  let a := fxMul (fxDiv (r % den : Nat) den) fxPi / 2
  let c := cosQ a
  let s := sinQ a
  match r / den with
  | 0 => (c, s)
  | 1 => (-s, c)
  | 2 => (-c, -s)
  | _ => (s, -c)

/-- Σ zⁱ ÷ dᵢ. -/
def powSeries (z : Int) : List Int → Int
  | [] => 0
  | d :: r => fx1 / d + fxMul z (powSeries z r)

/-- Natural logarithm of `num ÷ den`, both above 0: by powers of two and the series of artanh. -/
def lnRatio (num den : Nat) : Int :=
  let k : Int := (Nat.log2 num : Int) - Nat.log2 den
  let m := if 0 ≤ k then fxDiv num (den * 2 ^ k.toNat) else fxDiv (num * 2 ^ k.natAbs) den
  let y := fxDiv (m - fx1) (m + fx1)
  k * fxLn2 + 2 * fxMul y (powSeries (fxMul y y) [1, 3, 5, 7, 9, 11, 13, 15, 17, 19, 21, 23, 25])

/-- Temperature, 0.01 °C, of an NTC input from its resistance by the β model (10 R266): 1/T = 1/T₂₅ + ln(R ÷ R₂₅) ÷ β. A resistance for
which the model gives no temperature reads as the highest value. -/
def ntcTemp (rNom beta ohm : Nat) : Int :=
  if rNom = 0 || ohm = 0 then 32767
  else
    let d : Int := 100 * beta * fx1 + 29815 * lnRatio ohm rNom
    if d ≤ 0 then 32767 else min 32767 ((2 * 29815 * 100 * beta * fx1 + d) / (2 * d) - 27315)

/-- The largest `a` with aᵏ ≤ n, from the bits below `b`. -/
def rootFrom (k n : Nat) : Nat → Nat → Nat
  | 0, a => a
  | b + 1, a => rootFrom k n b (if (a + 2 ^ b) ^ k ≤ n then a + 2 ^ b else a)

/-- `n + 1` values spaced logarithmically from `lo` to `hi`, both below 2²⁴. -/
def logSpaced (lo hi n : Nat) : List Nat := (List.range (n + 1)).map (fun i => rootFrom n (lo ^ (n - i) * hi ^ i) 24 0)

/-! ## Complex values -/

/-- Sum, product, and product with the conjugate. -/
def cAdd (a b : Int × Int) : Int × Int := (a.1 + b.1, a.2 + b.2)
def cMul (a b : Int × Int) : Int × Int := (a.1 * b.1 - a.2 * b.2, a.1 * b.2 + a.2 * b.1)
def cMulConj (v i : Int × Int) : Int × Int := (v.1 * i.1 + v.2 * i.2, v.2 * i.1 - v.1 * i.2)

/-- |z|². -/
def cAbs2 (z : Int × Int) : Nat := z.1.natAbs ^ 2 + z.2.natAbs ^ 2

/-- A complex value divided by a number. -/
def cDiv (z : Int × Int) (d : Int) : Int × Int := if d = 0 then (0, 0) else (z.1 / d, z.2 / d)

/-! ## Filters -/

/-- Frequency of a corner code, Hz; corner 6 bypasses the filter (04 R115). -/
def cornerHz (c : Nat) : Nat := [4, 12, 50, 200, 800, 1600].getD c 0

/-- Response denominator of the second-order Butterworth low-pass of a node at `f` mHz for a corner of `fc` Hz (04 R135):
1 + j√2 f ÷ fc − (f ÷ fc)², in 2⁻⁴⁰; 1 with the filter bypassed. -/
def butterDen (f fc : Nat) : Int × Int :=
  if fc = 0 then (fx1, 0)
  else
    let x := fxDiv f (1000 * fc)
    (fx1 - fxMul x x, fxMul fxSqrt2 x)

/-- One output of the digital second-order Butterworth low-pass at `fc` Hz for `rate` samples per second (06 R177), by the
bilinear transform with the corner kept: from the newest input, the two inputs and the two outputs before it. Outputs are in
2⁻³². A corner beyond half the rate passes everything. -/
def filterStep (fc rate : Nat) (x x1 x2 y1 y2 : Int) : Int :=
  if fc = 0 || rate ≤ 2 * fc then x * 2 ^ 32
  else
    let (c, s) := cosSin fc (2 * rate)
    let k := fxDiv s c
    let k2 := fxMul k k
    let r := fxMul fxSqrt2 k
    let d := fx1 + r + k2
    let b := fxDiv k2 d
    let a1 := fxDiv (2 * (k2 - fx1)) d
    let a2 := fxDiv (fx1 - r + k2) d
    (b * (x + 2 * x1 + x2) * 2 ^ 32 - a1 * y1 - a2 * y2) / 2 ^ 40

/-! ## Spectral lines (07 R187–R189) -/

/-- A sample's share of V or I of a segment: √2 · x · e^(−j2πfS) · Δt, `f` in mHz, `S` and Δt in ns. -/
def dftTerm (f S dt : Nat) (x : Int) : Int × Int :=
  let (c, s) := cosSin (f * S) 1000000000000
  let a := fxSqrt2 * x * dt
  (a * c / 2 ^ 80, -(a * s) / 2 ^ 80)

/-- The share of every sample of a record, newest first, each over the time since the sample before it. -/
def lineSum (f : Nat) : List (Nat × Int) → Int × Int
  | x :: y :: r => cAdd (dftTerm f x.1 (x.1 - y.1) x.2) (lineSum f (y :: r))
  | _ => (0, 0)

/-- Time that a record, newest first, spans. -/
def recSpan (l : List (Nat × Int)) : Nat :=
  match l.head?, l.getLast? with
  | some a, some b => a.1 - b.1
  | _, _ => 0

/-- Rms amplitude, mA, of a line in a record of samples. -/
def lineRms (f : Nat) (l : List (Nat × Int)) : Nat := if recSpan l = 0 then 0 else Nat.sqrt (cAbs2 (lineSum f l)) / recSpan l

/-- The first of the values with the greatest measure. -/
def strongest (m : Nat → Nat) (l : List Nat) : Nat :=
  (l.foldl (fun b c => let p := m c; if b.2 < p then (c, p) else b) (0, 0)).1

/-- `n` halvings of the step `d` towards the strongest line between `lo` and `hi`. -/
def refineLine (l : List (Nat × Int)) (lo hi : Nat) : Nat → Nat → Nat → Nat
  | 0, f, _ => f
  | n + 1, f, d => refineLine l lo hi n (strongest (fun f => cAbs2 (lineSum f l)) [f, max lo (f - d), min hi (f + d)]) (d / 2)

/-- The strongest line of a record between two frequencies, mHz (07 R187): of 32 candidates spaced logarithmically, refined to
within 0.1 %; 0 when there is none. -/
def lineSearch (lo hi : Nat) (l : List (Nat × Int)) : Nat :=
  if hi < lo then 0
  else
    let f := strongest (fun f => cAbs2 (lineSum f l)) (logSpaced lo hi 31)
    if f = 0 then 0 else refineLine l lo hi 7 f (f / 40)

/-! ## Least squares -/

/-- The fit of A e^(−t ÷ τ) + B for one τ: its sum of squared errors, A and B. -/
def expFitAt (l : List (Nat × Int)) (tau : Nat) : Nat × Int × Int :=
  let p : List (Int × Int) := l.map (fun x => ((expNeg x.1 tau : Nat), x.2))
  let n : Int := (p.length : Nat)
  let se := (p.map (·.1)).sum
  let see := (p.map (fun x => x.1 * x.1)).sum
  let sv := (p.map (·.2)).sum
  let sev := (p.map (fun x => x.1 * x.2)).sum
  let det := n * see - se * se
  if det ≤ 0 then ((p.map (fun x => (x.2 * 2 ^ 32).natAbs ^ 2)).sum, 0, 0)
  else
    let a := (n * sev - se * sv) * 2 ^ 32 / det
    let b := (see * sv - se * sev) / det
    ((p.map (fun x => ((x.2 - b) * 2 ^ 32 - a * x.1).natAbs ^ 2)).sum, a, b)

/-- The τ with the least error among some, with its fit. -/
def bestExp (l : List (Nat × Int)) (ts : List Nat) : Nat × Nat × Int × Int :=
  ts.foldl (fun b t => let r := expFitAt l t; if b.1 = 0 || r.1 < b.2.1 then (t, r) else b) (0, 0, 0, 0)

/-- `n` halvings of the step `d` towards the τ with the least error. -/
def refineExp (l : List (Nat × Int)) : Nat → Nat → Nat → Nat × Nat × Int × Int
  | 0, t, _ => bestExp l [t]
  | n + 1, t, d => refineExp l n (bestExp l [t, t - d, t + d]).1 (max 1 (d / 2))

/-- Least-squares fit of A e^(−t ÷ τ) + B to samples (µs, mV) (12 R317): whether it converges, τ in µs, A and B in mV. It converges on a τ
between 1 ms and 100 s that is not the nearest to either of these. -/
def prechargeFit (l : List (Nat × Int)) : Bool × Nat × Int × Int :=
  let ts := logSpaced 1000 100000000 60
  let t := (bestExp l ts).1
  let r := refineExp l 14 t (t / 8)
  (decide (3 ≤ l.length) && t != 1000 && t != ts.getLastD 0, r.1, r.2.2.1, r.2.2.2)

/-- One entry that a circuit is fitted to (07 R207): frequency in mHz, the entry in µΩ, its weight. -/
structure FitPoint where
  f : Nat
  e : Int × Int
  w : Nat

/-- 1 ÷ (1 + j2πfτ) in 2⁻²⁰, `f` in mHz and τ in µs. -/
def branchAt (f tau : Nat) : Int × Int :=
  let x : Int := 2 * fxPi * f * tau / (1000000000 * 2 ^ 20)
  let d := 2 ^ 40 + x * x
  (2 ^ 60 / d, -(x * 2 ^ 40) / d)

/-- Real part of a·b*. -/
def cDot (a b : Int × Int) : Int := a.1 * b.1 + a.2 * b.2

/-- Determinant of a matrix of three rows. -/
def det3 (a b c : Int × Int × Int) : Int :=
  a.1 * (b.2.1 * c.2.2 - b.2.2 * c.2.1) - a.2.1 * (b.1 * c.2.2 - b.2.2 * c.1) + a.2.2 * (b.1 * c.2.1 - b.2.1 * c.1)

/-- The resistances that solve the normal equations of R0, R1 and R2, each with R1 and R2 both in use, one of them, or neither. -/
def solveR (a00 a01 a02 a11 a12 a22 b0 b1 b2 : Int) : List (Int × Int × Int) :=
  let d := det3 (a00, a01, a02) (a01, a11, a12) (a02, a12, a22)
  let d1 := a00 * a11 - a01 * a01
  let d2 := a00 * a22 - a02 * a02
  let q (n d : Int) : Int := if d = 0 then 0 else n / d
  [ (q (det3 (b0, a01, a02) (b1, a11, a12) (b2, a12, a22)) d, q (det3 (a00, b0, a02) (a01, b1, a12) (a02, b2, a22)) d,
      q (det3 (a00, a01, b0) (a01, a11, b1) (a02, a12, b2)) d),
    (q (b0 * a11 - a01 * b1) d1, q (a00 * b1 - a01 * b0) d1, 0),
    (q (b0 * a22 - a02 * b2) d2, 0, q (a00 * b2 - a02 * b0) d2),
    (q b0 a00, 0, 0) ]

/-- What a circuit leaves of an entry, in 2⁻²⁰ µΩ. -/
def fitErr (p : FitPoint) (r : Int × Int × Int) (g1 g2 : Int × Int) : Int × Int :=
  (p.e.1 * 2 ^ 20 - r.1 * 2 ^ 20 - r.2.1 * g1.1 - r.2.2 * g2.1, p.e.2 * 2 ^ 20 - r.2.1 * g1.2 - r.2.2 * g2.2)

/-- The best resistances with R0 > 0, R1 ≥ 0 and R2 ≥ 0 for two time constants, and the weighted error they leave. -/
def circuitAt (l : List FitPoint) (t : Nat × Nat) : Option (Nat × FitPar) :=
  let g : List (FitPoint × (Int × Int) × (Int × Int)) := l.map (fun p => (p, branchAt p.f t.1, branchAt p.f t.2))
  let sum (f : FitPoint × (Int × Int) × (Int × Int) → Int) : Int := (g.map (fun x => x.1.w * f x)).sum
  let one : Int × Int := (2 ^ 20, 0)
  let e (p : FitPoint) : Int × Int := (p.e.1 * 2 ^ 20, p.e.2 * 2 ^ 20)
  let rs := solveR (sum (fun _ => 2 ^ 40)) (sum (fun x => cDot one x.2.1)) (sum (fun x => cDot one x.2.2))
    (sum (fun x => cDot x.2.1 x.2.1)) (sum (fun x => cDot x.2.1 x.2.2)) (sum (fun x => cDot x.2.2 x.2.2))
    (sum (fun x => cDot one (e x.1))) (sum (fun x => cDot x.2.1 (e x.1))) (sum (fun x => cDot x.2.2 (e x.1)))
  (rs.filter (fun r => decide (0 < r.1 ∧ 0 ≤ r.2.1 ∧ 0 ≤ r.2.2))).foldl (fun b r =>
    let c := (g.map (fun x => x.1.w * cAbs2 (fitErr x.1 r x.2.1 x.2.2))).sum
    match b with
    | some y => if y.1 ≤ c then some y else some (c, ⟨r.1.toNat, r.2.1.toNat, t.1, r.2.2.toNat, t.2⟩)
    | none => some (c, ⟨r.1.toNat, r.2.1.toNat, t.1, r.2.2.toNat, t.2⟩)) none

/-- Time constants that the constraints of R207 admit, µs. -/
def tausOk (t : Nat × Nat) : Bool := decide (50 ≤ t.1 ∧ t.1 ≤ 50000 ∧ 10000 ≤ t.2 ∧ t.2 ≤ 5000000 ∧ 4 * t.1 ≤ t.2)

/-- The circuit with the least error among some pairs of time constants. -/
def bestCircuit (l : List FitPoint) (ts : List (Nat × Nat)) : Option (Nat × FitPar) :=
  (ts.filter tausOk).foldl (fun b t => match b, circuitAt l t with
    | some x, some y => if x.1 ≤ y.1 then some x else some y
    | none, y => y
    | x, none => x) none

/-- `n` halvings of the step d ÷ 256 towards the time constants with the least error. -/
def refineCircuit (l : List FitPoint) : Nat → FitPar → Nat → FitPar
  | 0, f, _ => f
  | n + 1, f, d =>
    let st (t : Nat) : List Nat := [t, t - t * d / 256, t + t * d / 256]
    let f' := match bestCircuit l ((st f.tau1).map (fun a => (st f.tau2).map (fun b => (a, b)))).flatten with
      | some x => x.2
      | none => f
    refineCircuit l n f' (max 1 (d / 2))

/-- Least-squares fit of R0 + R1 ÷ (1 + j2πfτ1) + R2 ÷ (1 + j2πfτ2) under the constraints of R207; none when no circuit meets
them. -/
def circuitFit (l : List FitPoint) : Option FitPar :=
  (bestCircuit l ((logSpaced 50 50000 12).map (fun a => (logSpaced 10000 5000000 12).map (fun b => (a, b)))).flatten).map
    (fun x => refineCircuit l 8 x.2 64)

/-- Relative rms residual of a circuit, 0.1 % of the mean |E| of the entries used (R207). -/
def fitResidual (l : List FitPoint) (f : FitPar) : Nat :=
  let err := (l.map (fun p => cAbs2 (fitErr p (f.r0, f.r1, f.r2) (branchAt p.f f.tau1) (branchAt p.f f.tau2)))).sum
  let m := (l.map (fun p => Nat.sqrt (cAbs2 p.e))).sum
  if m = 0 then 1000 else 1000 * Nat.sqrt (err * l.length) / (m * 2 ^ 20)

/-! ## The maximum-length sequence of Sedge (04 R133) -/

/-- The register after a bit. -/
def mlsNext (r : Nat) : Nat := (2 * r + (r / 256 + r / 16) % 2) % 512

/-- `n` bits of the sequence from a register. -/
def mlsFrom : Nat → Nat → List Bool
  | 0, _ => []
  | n + 1, r => decide (256 ≤ r) :: mlsFrom n (mlsNext r)

/-- The 511 bits of one period; true is switch on. -/
def mls : List Bool := mlsFrom 511 0x1FF

/-- A sample's share of line `k` of a period of 511 samples, in 2⁻²⁰: x · e^(−j2πkn ÷ 511). -/
def chipTerm (k n : Nat) (x : Int) : Int × Int :=
  let (c, s) := cosSin (k * n) 511
  (x * c / 2 ^ 20, -(x * s) / 2 ^ 20)

/-- Line `k` of the current that one period of the sequence drives, for a unit current while on: the sample at the nominal instant of
a bit carries the bit before it (R205). -/
def mlsLine (k : Nat) : Int × Int :=
  ((List.range 511).zip mls).foldl (fun z x => if x.2 then cAdd z (chipTerm k (x.1 + 1) 1048576) else z) (0, 0)

end Sys2Proof.Machine
end

