-- ==== Sys2Proof/Machine/Crc.lean ====
section
/-! DEFINITION. Little-endian byte fields and the two checks of the chain and the records: CRC-32C and CRC-8 (04 R110). -/

namespace Sys2Proof.Machine

/-- The low `n` bytes of `v`, least significant first. -/
def le (n v : Nat) : List Byte :=
  match n with
  | 0 => []
  | n + 1 => BitVec.ofNat 8 v :: le n (v / 256)

/-- A signed value in `n` bytes, two's complement, least significant byte first. -/
def leI (n : Nat) (v : Int) : List Byte := le n (v % (256 ^ n : Nat)).toNat

/-- The unsigned value of little-endian bytes. -/
def ofLe : List Byte → Nat
  | [] => 0
  | b :: r => b.toNat + 256 * ofLe r

/-- The `n`-byte little-endian field at offset `o`, bytes past the end reading 0. -/
def field (b : List Byte) (o n : Nat) : Nat := ofLe ((b.drop o).take n)

/-- `n` zero bytes. -/
def zeros (n : Nat) : List Byte := List.replicate n 0

/-- The list cut or padded with zeros to `n` bytes. -/
def padTo (n : Nat) (b : List Byte) : List Byte := b.take n ++ zeros (n - b.length)

/-- One bit of the reflected CRC-32C register. -/
def crc32cBit (c : BitVec 32) : BitVec 32 :=
  if c.getLsbD 0 then (c >>> 1) ^^^ 0x82F63B78#32 else c >>> 1

/-- One byte of the reflected CRC-32C register. -/
def crc32cByte (c : BitVec 32) (b : Byte) : BitVec 32 :=
  let c := c ^^^ b.setWidth 32
  crc32cBit (crc32cBit (crc32cBit (crc32cBit (crc32cBit (crc32cBit (crc32cBit (crc32cBit c)))))))

/-- The CRC-32C register after a list of bytes. -/
def crc32cGo (c : BitVec 32) : List Byte → BitVec 32
  | [] => c
  | b :: r => crc32cGo (crc32cByte c b) r

/-- CRC-32C over bytes (04 R110). -/
def crc32c (bs : List Byte) : BitVec 32 := crc32cGo 0xFFFFFFFF#32 bs ^^^ 0xFFFFFFFF#32

end Sys2Proof.Machine
end

