-- ==== Sys2Proof/Machine/Factory.lean ====
section
/-! DEFINITION. Fuse slot 0 as shipped, and the fused values it holds (11 R287, R300; 22 R541; 24 R580). -/

namespace Sys2Proof.Machine

/-- The factory minimum class codes of F00–F63 (11 R287). -/
def factoryMin : List Nat :=
  [0, 0, 2, 2, 4, 4, 4, 2, 0, 4, 4, 2, 4, 4, 1, 4] ++
  [0, 2, 2, 4, 4, 4, 4, 2, 4, 0, 4, 4, 2, 4, 4, 4] ++
  [2, 4, 0, 4, 4, 4, 2, 2, 0, 0, 0, 4, 2, 4, 4, 4] ++
  [4, 4, 4, 4, 4, 4, 4, 4, 4, 4, 4, 2, 0, 1, 4, 2]

/-- The fused set of slot 0 as shipped. -/
def factorySet : FuseSet := { minCls := factoryMin }

/-- Fields of `w` bits each, packed upwards from bit 0. -/
def packBits (w : Nat) : List Nat → Nat
  | [] => 0
  | v :: r => v % 2 ^ w + 2 ^ w * packBits w r

/-- The 128-byte image of a fuse slot (22 R541): slot number, fused set, module serial number and factory repair
record (slot 0 only). -/
def fuseImage (slot : Nat) (f : FuseSet) (serial : Nat) (repairs : List Byte) : List Byte :=
  let b := le 4 (1 + 256 * slot) ++ le 4 f.hardOv ++ le 4 f.hardUv ++ leI 2 f.hardOt ++ le 2 f.packOc ++
    le 24 (packBits 3 f.minCls) ++ le 2 f.wait ++ le 1 f.deadC ++ le 1 f.wade ++
    le 4 (f.limpSel.toNat + 65536 * f.position + 262144 * f.pref.toNat) ++ le 4 (packBits 2 f.din) ++
    le 8 serial ++ padTo 60 repairs ++ zeros 4
  b ++ le 4 (crc32c b).toNat

/-- Slot 0 as shipped; the serial number and the factory repairs are 0 (assumption log 3). -/
def factorySlot0 : List Byte := fuseImage 0 factorySet 0 []

end Sys2Proof.Machine
end

