-- ==== Sys2Proof/Machine/State.lean ====
section
/-! DEFINITION. The state of the SX4096: everything the spec gives the module, field by field as INVENTORY.md lists it,
with the queue of waiting commands; what it can stop with; and the machine right after power-on reset. -/

namespace Sys2Proof.Machine

open Sys2Proof

/-- The reasons for which the block stops with a fault: none. Every command of the table has an effect or no effect,
and the block goes on. -/
inductive Fault where
  deriving DecidableEq, Repr

/-- The reasons for which a command is refused. -/
inductive Refusal where
  /-- The command has no meaning in this model yet. Raised by an arm of `exec` only; safe: it claims nothing. -/
  | notModelled (mnemonic : String)
  deriving DecidableEq, Repr

/-! ## Names -/

/-- Power states (21 R508). -/
inductive PState where | run | moss | peat
  deriving DecidableEq, Repr, Inhabited

/-- Phases of a supply interruption (21 R525): none, ride-through, save window, domains off. -/
inductive IntrPhase where | none | rideThrough | saveWindow | over
  deriving DecidableEq, Repr, Inhabited

/-- Ring types (18 R439, R442). -/
inductive RingType where | disabled | submission | completion | stream
  deriving DecidableEq, Repr, Inhabited

/-- What a disconnect in progress is (11 R290, R291): a pending class C, or an opening under the steps of class B. -/
inductive DiscKind where | none | classC | classB
  deriving DecidableEq, Repr, Inhabited

/-- Contactor states, in the order of their codes (12 R311). -/
inductive CtrState where | isOpen | closing | closed | opening | welded | unknown
  deriving DecidableEq, Repr, Inhabited

/-- Steps of the opening of a string (12 R324, R327): none; F commanded open; the other contactor commanded open with
F found open, with F suspected welded, or after a check without data; the LSWs released with current still flowing. -/
inductive OpenPhase where | idle | first | second | suspect | noData | released
  deriving DecidableEq, Repr, Inhabited

/-- Steps of the close sequence (12 R316, R322): waiting for the module to be ready, for samples, for the window;
PRE coil on; pre-close test; KN coil on; charging; KP coil on; PRE coil off; OTH coil on. -/
inductive SeqPhase where
  | waitReady | waitSamples | waitWindow | preOn | kn | charging | kp | preOff | knWin | kpWin | oth
  deriving DecidableEq, Repr, Inhabited

/-- Port states, in the order of their codes (03 R76; 19 R469). -/
inductive PortSt where
  | off | wake | assign | extend | retry | fromFar | close | check | calibrate | configure | ready | held
  deriving DecidableEq, Repr, Inhabited

/-- Classifications, in the order of their codes (03 R80; 19 R469). -/
inductive Classif where | known | adopted | new | nodeReplaced | reordered | mixed
  deriving DecidableEq, Repr, Inhabited

/-- Node states, in the order of their codes (04 R122). -/
inductive NodeSt where | deep | nap | woken | addressed | ready
  deriving DecidableEq, Repr, Inhabited

/-- Roles, in the order of their codes (17 R414). -/
inductive PairRole where | none | primary | standby | provisional
  deriving DecidableEq, Repr, Inhabited

/-! ## Records -/

/-- A command as it was fetched: its descriptor, opcode, module time and ring generation (18 R448; 19 R487). -/
structure CmdRef where
  d : Desc := {}
  opcode : Nat := 0
  t : Nat := 0
  gen : Nat := 0
  /-- host-interface resets before it was fetched (18 R460) -/
  epoch : Nat := 0
  deriving DecidableEq, Repr, Inhabited

/-- The completion of a finished command, before its entry is written (18 R450, R452). -/
structure Cpl where
  ref : CmdRef
  status : Nat
  value : Nat := 0
  result : List Byte := []
  isPartial : Bool := false
  /-- the result leaves out what did not fit (19 R484) -/
  cut : Bool := false
  deriving DecidableEq, Repr, Inhabited

/-- A started command (18 R449): its descriptor, the members still awaited and the results of those that failed. -/
structure RunCmd where
  ref : CmdRef
  todo : List Nat := []
  members : List (Nat × Nat) := []
  deriving DecidableEq, Repr, Inhabited

/-- An entry of the command log (19 R487). -/
structure LogEntry where
  ref : CmdRef
  tEnd : Nat := 0
  status : Nat := 0xFF
  written : Bool := false
  carried : Bool := false
  isPartial : Bool := false
  value : Nat := 0
  ok : Nat := 0
  deriving DecidableEq, Repr, Inhabited

/-- A stream record due on the ring of a function code (18 R453, R459). -/
structure StreamRec where
  fn : Nat
  body : List Byte
  deriving DecidableEq, Repr, Inhabited

/-- A configuration copy in MRAM (22 R530, R533): the blob under a valid descriptor, and its commit word. -/
structure NvBlob where
  blob : Blob
  commit : Nat
  deriving DecidableEq, Repr, Inhabited

/-- A valid MRAM record (22 R530): its body and commit word. -/
structure NvRec where
  body : List Byte
  commit : Nat
  deriving DecidableEq, Repr, Inhabited

/-- A journal entry (22 R534): kind, target MRAM offset, subject, payload after the header, and commit word. -/
structure JEntry where
  kind : Nat
  target : Nat := 0xFFFFFFFF
  subject : Nat := 0xFFFFFFFF
  body : List Byte := []
  commit : Nat
  deriving DecidableEq, Repr, Inhabited

/-- A black-box event record (22 R544). -/
structure BbEvent where
  code : Nat
  subject : Nat := 0
  port : Nat := 0xFF
  value : Nat := 0
  t : Nat
  value2 : Nat := 0
  value3 : Nat := 0
  seq : Nat
  deriving DecidableEq, Repr, Inhabited

/-- A sweep in black-box staging (22 R545). -/
structure Staged where
  seq : Nat
  t : Nat
  mode : Nat
  split : Bool
  compl : BitVec 64
  iStr : Int
  iPack : Int
  cells : List Nat
  /-- index within the snapshot it is written to -/
  idx : Nat := 0
  deriving DecidableEq, Repr, Inhabited

/-- A fault snapshot (22 R545): the header's fields, and the sweep records committed, newest first, each with its
black-box sequence. -/
structure Snapshot where
  slot : Nat
  port : Nat
  source : Nat
  cls : Nat
  pos : Nat
  pre : Nat
  t : Nat
  m : Nat
  c : Nat
  temps : List Int
  stackV : List Nat
  seq : Nat
  /-- pre-trigger sweeps not yet written, oldest first -/
  todo : List Staged := []
  sweeps : List (Nat × Staged) := []
  /-- sweeps omitted after an uncorrectable error in staging (23 R552) -/
  skipped : Nat := 0
  deriving DecidableEq, Repr, Inhabited

/-- A record whose start was deferred or refused (22 R536, R537), with the time at which it fell due. -/
structure HeldRec where
  req : NvReq
  due : Nat
  /-- F58 has been raised for it -/
  late : Bool := false
  deriving DecidableEq, Repr, Inhabited

/-- A firmware slot (22 R539): its descriptor is valid, version, length and check of the image, next chunk offset. -/
structure FwSlot where
  valid : Bool := false
  version : Nat := 0
  total : Nat := 0
  crc : Word := 0
  next : Nat := 0
  deriving DecidableEq, Repr, Inhabited

/-- A repair record (23 R558). -/
structure RepairRec where
  kind : Nat
  origin : Nat
  unit : Nat
  detail : Nat
  t : Nat
  deriving DecidableEq, Repr, Inhabited

/-- A W1C register and its event counter (20 R492). -/
structure EvSt where
  bits : Word := 0
  cnt : Nat := 0
  deriving DecidableEq, Repr, Inhabited

/-- The result of one group member (12 R315; 19 R468). -/
structure MemberRes where
  member : Nat
  result : Nat
  stateA : Nat := 0
  stateB : Nat := 0xFF
  valueA : Int := -2147483648
  tau : Nat := 0xFFFFFFFF
  cest : Nat := 0xFFFFFFFF
  deriving DecidableEq, Repr, Inhabited

/-- A rest point kept for capacity learning (08 R221–R225): module time, SoC and σ in 0.0001 %, the cell's net charge
in µC, the string's charge in and out, the cell's balancing charge and the string's gap and substitution uncertainties in
µC, temperature band. -/
structure RestPoint where
  t : Nat
  soc : Int
  sigma : Nat
  qNet : Int
  qIn : Nat
  qOut : Nat
  qBal : Nat
  gapU : Nat
  subU : Nat
  tband : Nat
  deriving DecidableEq, Repr, Inhabited

/-- The accumulators of a cell in one band (07 R189): V of the open segment in 10 µV, Σ V·I*, Σ |V|², valid segments,
the open segment is discarded for the cell; the SoC and temperature at which the window began (07 R193), the slot at
its midpoint (R194), and whether the window was lost to an uncorrectable error (23 R552). -/
structure BandAcc where
  v : Int × Int := (0, 0)
  vi : Int × Int := (0, 0)
  vv : Nat := 0
  iSq : Nat := 0
  n : Nat := 0
  bad : Bool := false
  soc0 : Int := 0
  temp0 : Int := 0
  slot : Nat := 0
  lost : Bool := false
  deriving DecidableEq, Repr, Inhabited

/-- What a Sedge session has gathered of an excited cell (07 R205, R206): of the period in progress the sums at the five lines, its
samples, its number and whether a sample of it is excluded; the valid periods, the sums over the group of 10 in progress
and its periods, the sums of each full group, newest first; the sum and the number of the session's samples. -/
structure SedgeAcc where
  v : List (Int × Int) := []
  n : Nat := 0
  k : Nat := 0
  bad : Bool := false
  valid : Nat := 0
  grp : List (Int × Int) := []
  gN : Nat := 0
  gs : List (List (Int × Int)) := []
  vSum : Nat := 0
  vN : Nat := 0
  deriving DecidableEq, Repr, Inhabited

/-- The first copy of a safe message (14 R362): bus, sequence number, data bytes, time. -/
structure SafeCopy where
  bus : Nat
  seq : Nat
  data : List Byte
  t : Nat
  /-- delivered on arrival, while only its bus was alive -/
  done : Bool := false
  deriving DecidableEq, Repr, Inhabited

/-- A host frame in a transmit buffer or the transmit ring (16 R390, R391). -/
structure TxBuf where
  frame : CanFrame
  ref : CmdRef
  cancel : Bool := false
  deriving DecidableEq, Repr, Inhabited

/-- An acceptance filter (16 R393). -/
abbrev CanFilter := FilterParam

/-- A received frame with its capture time, flags and deciding filter (16 R394, R395). -/
structure HpFrame where
  frame : CanFrame
  t : Nat
  flags : Nat
  filter : Nat
  deriving DecidableEq, Repr, Inhabited

/-- A mirrored write that awaits the standby's result (17 R428, R429), with the host command it belongs to. -/
structure NvwReq where
  req : NvReq
  t : Nat
  ref : Option CmdRef := none
  isBlob : Bool := false
  deriving DecidableEq, Repr, Inhabited

/-- What the module puts on its connectors and into host memory. -/
inductive Output where
  /-- wake tone at an end (03 R73) -/
  | wakeTone (p e : Nat)
  /-- a CMD, REED or COLLECT frame: its bytes between SOF and EOF, and when it leaves the end (04 R108, R115, R117) -/
  | chain (p e t : Nat) (bytes : List Byte)
  /-- a MARK, whose first bit leaves the end at `t` (04 R115, R129; 05 R139) -/
  | mark (p e t : Nat)
  /-- a transmit attempt of a controller's buffer: the frame as it was sent (16 R390–R392, R404) -/
  | can (c buf : Nat) (f : CanFrame)
  /-- a Causeway heartbeat frame: its bytes between SOF and EOF (17 R411, R414) -/
  | heartbeat (bytes : List Byte)
  /-- Causeway frames of the other types, by the seq of their headers: the spec lays out no payload (17 R411, R412, R417) -/
  | coil (seq : Nat) (f : CoilFrame)
  | pairEvt (seq : Nat) (ev : PairEvt)
  | mirror (seq : Nat) (i : MirrorItem)
  | nvw (seq : Nat) (f : NvwFrame)
  | train (seq : Nat) (id : PartnerId)
  /-- result buffer of a command (18 R450) -/
  | result (ref : CmdRef) (bytes : List Byte)
  /-- completion entry (18 R450) -/
  | completion (cq idx : Nat) (bytes : List Byte)
  /-- stream record body and header (18 R454) -/
  | recordBody (ring idx addr : Nat) (bytes : List Byte)
  | recordHeader (ring idx addr : Nat) (bytes : List Byte)
  /-- shadow of a ring (18 R446) -/
  | shadow (ring addr devIdx gen ovf : Nat)
  /-- MSI-X message (18 R457) -/
  | msix (vec : Nat)
  /-- two-signal release of an LSW (13 R341): 1 by the safety cores, 2 by the tone path, 3 by the fast comparator -/
  | lswRelease (j by_ : Nat)
  deriving DecidableEq, Repr

/-! ## The state -/

/-- The 64-bit time base, its keeper and the network time (chapters 01 and 16). -/
structure TimeBase where
  /-- module time, ns; never decreases (64 bits; 01 R27, R29; reset: S 0 when no black-box record holds a time (R29)). -/
  now : Nat := 0
  /-- the fraction of the 6-bit accumulator, in units of 2⁻⁶ ns (30,517.578125 = 30,517 + 37/64) (6 bits; 01 R28; reset: S 0 (the keeper is cleared)). -/
  frac : Nat := 0
  /-- the PLL is stopped and the keeper carries the time base (1 bits; 01 R28; 20 R500 TIME_STATUS [4]; reset: D1 false). -/
  keeper : Bool := false
  /-- the last time value read out anywhere (64 bits; 01 R28; reset: D1 0). -/
  lastOut : Nat := 0
  /-- a Reed pulse was issued since the last power-on reset, RST_N, restart or wake (1 bits; 01 R30, R31; reset: S false). -/
  reedIssued : Bool := false
  /-- ticks since the last slew correction (at most one in 10,000) (14 bits; 01 R30; reset: D1 0). -/
  ticksSinceSlew : Nat := 0
  /-- nanoseconds a standby that is ahead still has to wait, advancing 0 ns per tick (64 bits; 01 R31; reset: D1 0). -/
  stall : Nat := 0
  /-- held network time offset, ns (64 signed bits; 16 R405; 20 R500 TIME_NET_OFS; reset: S 0). -/
  netOfs : Int := 0
  /-- time to which the held offset refers (64 bits; 16 R405; reset: D1 0). -/
  netOfsT : Nat := 0
  /-- last raw offset, ns (64 signed bits; 16 R405; 20 R500 TIME_NET_RAW; reset: S 0). -/
  netRaw : Int := 0
  /-- raw offset towards which the held offset is slewed (64 signed bits; 16 R405; reset: D1 0). -/
  netTarget : Int := 0
  /-- reference messages applied since network time was last invalid (2 bits; 16 R405; 01 R29; reset: S 0). -/
  netApplied : Nat := 0
  /-- network time valid (1 bits; 16 R405; 20 R500 TIME_STATUS [0]; reset: S false). -/
  netValid : Bool := false
  /-- when a master last sent the reference message (64 bits; 16 R403; reset: D1 0). -/
  netSentT : Nat := 0
  /-- module time of the last reference message (64 bits; 16 R405; reset: D1 0). -/
  netLastRef : Nat := 0
  /-- module time of the last power-on reset (64 bits; 01 R29; 08 R242; reset: S start value of the time base). -/
  bootT : Nat := 0
  deriving DecidableEq, Repr, Inhabited

/-- Power states, domains, supplies, start-up (chapter 21, PWR block of 20). -/
structure Power where
  /-- the power state in force (2 bits; 21 R508; 20 R497 PWR_STATE; reset: S Run). -/
  st : PState := .run
  /-- 0 none, 1 entering Moss, 2 entering Peat (2 bits; 20 R497 PWR_STATE [1:0]; reset: S 0). -/
  entering : Nat := 0
  /-- last wake source code (8 bits; 20 R497 PWR_STATE [15:8]; reset: S 0 power-on). -/
  wakeSrc : Nat := 0
  /-- powered domains (12 bits; 20 R497 PWR_DOMAINS; 21 R517; reset: S AON only at t0 of R522). -/
  domains : BitVec 12 := 0x001#12
  /-- Moss wake timer, s (32 bits; 20 R497 PWR_WAKE_TIMER; reset: S 0). -/
  wakeTimer : Word := 0
  /-- wake timer value taken at the Moss entry (32 bits; 20 R497, R507; reset: D1 0). -/
  wakeTimerTaken : Nat := 0
  /-- VSUP, mV (32 bits; 20 R497 PWR_VSUP; reset: D2 16,800 mV (power-good of R522)). -/
  vsup : Nat := 16800
  /-- VCOIL_A, mV (32 bits; 20 R497 PWR_VCOIL_A; reset: D2 0). -/
  vcoilA : Nat := 0
  /-- VCOIL_B, mV (32 bits; 20 R497 PWR_VCOIL_B; reset: D2 0). -/
  vcoilB : Nat := 0
  /-- hold-up ride-through, 0.1 ms (32 bits; 20 R497 PWR_HOLDUP; 22 R536; reset: D2 400 (40 ms, R525)). -/
  holdup : Nat := 400
  /-- fuse programming supply, mV (16 bits; 02 R58; reset: D2 0). -/
  vprog : Nat := 0
  /-- phase of a supply interruption (3 bits; 21 R525; reset: S none). -/
  intr : IntrPhase := .none
  /-- t0 of the interruption (64 bits; 21 R525; reset: D1 0). -/
  intrT : Nat := 0
  /-- module time of Moss entry (64 bits; 21 R512, R513; reset: D1 0). -/
  mossT : Nat := 0
  /-- the expiry of the Moss limit has been recorded in this stay (1 bits; 21 R513; reset: S false). -/
  mossOver : Bool := false
  /-- the module passes from Moss to Peat once the passports that are due are written (1 bits; 21 R513, R515; reset: S false). -/
  peatDue : Bool := false
  /-- module time of the last wake (64 bits; 21 R512; reset: S none). -/
  wakeT : Option Nat := none
  /-- module time of Peat entry (64 bits; 21 R516; 07 R199; reset: D1 0). -/
  peatT : Nat := 0
  /-- a Peat self-check cycle is running (1 bits; 21 R516; reset: S false). -/
  selfCheck : Bool := false
  /-- CHG_PRES high (1 bits; 20 R505 SAFEIN_WAKEIN [0]; reset: D2 false). -/
  chgPres : Bool := false
  /-- SVC_WAKE high (1 bits; 20 R505 SAFEIN_WAKEIN [1]; reset: D2 false). -/
  svcWake : Bool := false
  /-- t0 of the start-up in progress (64 bits; 21 R522; reset: S t0). -/
  startT : Nat := 0
  /-- the start-up runs in the Peat column (1 bits; 21 R522; reset: S true (Peat column at power-on reset)). -/
  startPeat : Bool := true
  /-- the MRAM has not been mounted since the power-on reset (1 bits; 01 R29; 21 R522; reset: S true). -/
  porMount : Bool := true
  /-- a start-up is in progress (1 bits; 21 R522; reset: S true). -/
  starting : Bool := true
  /-- last step of R522 reached (4 bits; 21 R522; reset: S 1). -/
  startStep : Nat := 1
  /-- estimates seeded (1 bits; 21 R524; 08 R236; reset: S false). -/
  estSeeded : Bool := false
  /-- first limits publication made since start or wake (1 bits; 21 R524; 09 R247; reset: S false). -/
  firstLimits : Bool := false
  /-- ready to close (1 bits; 21 R524; reset: S false). -/
  ready : Bool := false
  /-- the module is in protective shutdown (domains but AON and DRV off) (1 bits; 10 R283; reset: S false). -/
  restartDue : Bool := false
  /-- coil supplies that the records of the F39 latch have named: 0 VCOIL_A, 1 VCOIL_B (2 bits; 12 R329; reset: S none). -/
  f39Named : List Nat := []
  /-- RST_N is held low (1 bits; 21 R518; reset: D2 false). -/
  rstLow : Bool := false
  deriving DecidableEq, Repr, Inhabited

/-- The PCI Express endpoint, MSI-X and register access (chapters 18 and 20). -/
structure HostIf where
  /-- host interface ready (1 bits; 18 R437; 20 R495 GLB_STATUS [11]; reset: S false). -/
  ready : Bool := false
  /-- PERST_N is low (1 bits; 02 R56, R57; reset: S true (internal pull-down)). -/
  perstLow : Bool := true
  /-- the function is in D3hot (1 bits; 18 R438; reset: D2 D0). -/
  d3hot : Bool := false
  /-- MSI-X enabled in configuration space (1 bits; 18 R458, R460; reset: S false). -/
  msixEn : Bool := false
  /-- masked vectors (64 bits; 18 R457; reset: D2 0). -/
  msixMask : BitVec 64 := 0
  /-- pending bit array (64 bits; 18 R436, R457; reset: D2 0). -/
  msixPend : BitVec 64 := 0
  /-- address and data of each vector (64 × 96 bits; 18 R436; reset: D2 0). -/
  msixTab : Tab Nat MsixEntry := []
  /-- upper halves captured by a read of a _LO register, by offset of the _HI register (32 each bits; 20 R490; reset: S none). -/
  hiCap : Tab Nat Word := []
  /-- value returned by the last register read (64 bits; 20 R490; reset: M 0). -/
  readData : BitVec 64 := 0
  /-- the last configuration request was answered with retry status (1 bits; 18 R437; reset: M false). -/
  cfgRetry : Bool := false
  /-- module time of the latest reset recorded (64 bits; 20 R494 GLB_RESET_TIME; reset: S 0). -/
  resetTime : Nat := 0
  /-- level of the open-drain IRQ_N pin (1 bits; 02 R56; 18 R458; reset: S released (high)). -/
  irqN : Bool := true
  /-- result word of the last self-test (32 bits; 20 R499 REPAIR_SELFTEST; reset: S 0). -/
  selfTestResult : Word := 0
  /-- resets of the host interface so far (18 R460; reset: M 0). -/
  epoch : Nat := 0
  /-- completions of finished commands waiting for their entry (18 R450, R452; reset: S none). -/
  finished : List Cpl := []
  /-- started commands that have not completed (18 R449; 19 R466; reset: S none). -/
  running : List RunCmd := []
  /-- submission ring last fetched from in the round-robin (6 bits; 18 R449; reset: D1 0). -/
  lastSq : Nat := 0
  /-- command log, newest first (64 × 32 B bits; 19 R487; reset: S empty). -/
  log : List LogEntry := []
  /-- stream records due and not yet written (18 R453; reset: S none). -/
  streamQ : List StreamRec := []
  deriving DecidableEq, Repr, Inhabited

/-- One ring (chapter 18, R439–R457). -/
structure Ring where
  /-- enabled (1 bits; 18 R442 RING_CTRL [0]; reset: S 0). -/
  en : Bool := false
  /-- ring type (2 bits; 18 R442 [3:2]; reset: S R459). -/
  typ : RingType := .disabled
  /-- log2 of the entries (5 bits; 18 R442 [8:4]; reset: S 8). -/
  sizeLog2 : Nat := 8
  /-- paired completion ring (6 bits; 18 R442 [14:9]; reset: S R459). -/
  cq : Nat := 0
  /-- MSI-X vector (6 bits; 18 R442 [21:16]; reset: S n). -/
  vector : Nat := 0
  /-- interrupt enable (1 bits; 18 R442 [22]; reset: S 0). -/
  ie : Bool := false
  /-- function code (8 bits; 18 R442 [31:24]; reset: S R459). -/
  fn : Nat := 0
  /-- opcode groups admitted (9 bits; 18 R444 RING_GROUPS; reset: S R459). -/
  groups : BitVec 9 := 0
  /-- base address (64 bits; 18 R441 RING_BASE; reset: S 0). -/
  base : Nat := 0
  /-- shadow address (64 bits; 18 R441 RING_SHADOW; reset: S 0). -/
  shadow : Nat := 0
  /-- moderation count threshold (8 bits; 18 R444 RING_MOD [7:0]; reset: S 1). -/
  modCount : Nat := 1
  /-- moderation time threshold, µs (16 bits; 18 R444 RING_MOD [31:16]; reset: S 0). -/
  modTime : Nat := 0
  /-- records dropped or truncated, saturating (32 bits; 18 R441 RING_OVF; reset: S 0). -/
  ovf : Nat := 0
  /-- the device's index (16 bits; 18 R441 RING_DEV_IDX; reset: S 0). -/
  devIdx : Nat := 0
  /-- host index last written (16 bits; 18 R441 RING_HOST_IDX; reset: S 0). -/
  hostIdx : Nat := 0
  /-- enabled and serviced (1 bits; 18 R443 RING_STATUS [0]; reset: S 0). -/
  run : Bool := false
  /-- stopped by an error since the last rst (1 bits; 18 R443; reset: S false). -/
  stopped : Bool := false
  /-- db_err, dma_err, desc_err, loss, cfg_err (5 bits; 18 R443 RING_STATUS [5:1]; reset: S 0). -/
  err : BitVec 5 := 0
  /-- event counter, saturating at 0xFF (8 bits; 18 R443 RING_STATUS_CNT; reset: S 0). -/
  errCnt : Nat := 0
  /-- generation (16 bits; 18 R443 RING_STATUS [31:16]; reset: S 0). -/
  gen : Nat := 0
  /-- phase written on this pass of a completion ring (1 bits; 18 R451; reset: S 1 on the first pass after an enable). -/
  phase : Bool := true
  /-- record sequence since the enable (32 bits; 18 R454; reset: S 0). -/
  seq : Nat := 0
  /-- records dropped since the previous record written (32 bits; 18 R454; reset: S 0). -/
  dropped : Nat := 0
  /-- no record written since the enable (1 bits; 18 R454 flags [1]; reset: S true). -/
  first : Bool := true
  /-- unsignalled entries (16 bits; 18 R457; reset: S 0). -/
  unsig : Nat := 0
  /-- time of the first unsignalled entry (64 bits; 18 R457; reset: D1 0). -/
  unsigT : Nat := 0
  /-- commands started and not yet completed (5 bits; 18 R449; reset: S 0). -/
  outst : Nat := 0
  /-- fetching and stream writing paused (service cores in reset) (1 bits; 18 R438, R460; reset: S false). -/
  paused : Bool := false
  deriving DecidableEq, Repr, Inhabited

/-- The fuse array and its shadows (chapters 11 and 22). -/
structure FuseBank where
  /-- images of the programmed slots (4 × 1,024 bits; 22 R541; 20 R498 FUSE_SLOTn_Wm; reset: S slot 0 as shipped (R300, R580); serial number and factory repairs D3 0). -/
  slots : Tab Nat (List Byte) := [(0, factorySlot0)]
  /-- programming in progress (1 bits; 20 R498 FUSE_STATUS [13]; reset: S false). -/
  programming : Bool := false
  /-- the fused values in force (shadow latches) (1,024 bits; 11 R300–R302; 22 R541; reset: S slot 0 as shipped). -/
  set : FuseSet := factorySet
  /-- slot in force, 7 when none (3 bits; 20 R498 FUSE_STATUS [10:8]; reset: S 0). -/
  inForce : Nat := 0
  deriving DecidableEq, Repr, Inhabited

/-- The sealed configuration, the pending blob and the maintenance session (chapter 14). -/
structure CfgStore where
  /-- working copy in SRAM (14 R367–R369; reset: S none (as shipped, never sealed)). -/
  work : Option Blob := none
  /-- MRAM configuration copy 1 (14 R369; 22 R528, R533; reset: S none). -/
  copy1 : Option NvBlob := none
  /-- MRAM configuration copy 2 (14 R369; 22 R528, R533; reset: S none). -/
  copy2 : Option NvBlob := none
  /-- stored Fastan seal (32 bits; 14 R367, R369; reset: S none). -/
  sealVal : Option Word := none
  /-- a valid seal is in force (1 bits; 14 R369, R370; reset: S false). -/
  valid : Bool := false
  /-- pending blob (14 R368; reset: S none). -/
  pend : Option Blob := none
  /-- time the pending blob was accepted (64 bits; 14 R368; reset: D1 0). -/
  pendT : Nat := 0
  /-- seal mismatches against the pending blob (2 bits; 14 R368 step 5; reset: S 0). -/
  mism : Nat := 0
  /-- a maintenance session is open (1 bits; 14 R371; 20 R495 [2]; reset: S false). -/
  maint : Bool := false
  /-- time of the last command of the session (64 bits; 14 R371; reset: D1 0). -/
  maintT : Nat := 0
  deriving DecidableEq, Repr, Inhabited

/-- What a latch is raised with: position or sensor index, the quantity, and where it came from (11 R304). -/
structure Why where
  /-- cell position or sensor port index (16 bits; 11 R304; reset: S 0xFFFF). -/
  pos : Nat := 0xFFFF
  /-- the quantity that met the condition (32 bits; 11 R304; reset: S 0). -/
  value : Int := 0
  /-- raised unconfirmed (F11) (1 bits; 10 R278; 11 R304 flags [2]; reset: S false). -/
  unconf : Bool := false
  /-- came from the hardware release path (1 bits; 11 R304 flags [3]; reset: S false). -/
  hw : Bool := false
  /-- latched by the partner (1 bits; 11 R299, R304 flags [4]; reset: S false). -/
  partner : Bool := false
  /-- string named by a pack-scope latch (F34) (8 bits; 11 R304; reset: D1 0xFF). -/
  port : Nat := 255
  deriving DecidableEq, Repr, Inhabited

/-- One source on one scope (11 R284, R294, R304). -/
structure ScopeMark where
  /-- time at which the condition began to stand (64 bits; 11 R284; reset: D1 0). -/
  since : Nat := 0
  /-- time at which the condition ceased (64 bits; 11 R294; reset: D1 0). -/
  ceased : Nat := 0
  /-- time at which it last latched (64 bits; 11 R298; reset: S none). -/
  latchT : Option Nat := none
  /-- time at which the latch was last cleared (64 bits; 11 R298; reset: S none). -/
  clearT : Option Nat := none
  /-- the partner has latched it and has not told that its condition ceased (1 bits; 11 R294, R299; reset: S false). -/
  there : Bool := false
  /-- what it was raised with (11 R304; reset: S none). -/
  why : Why := {}
  deriving DecidableEq, Repr, Inhabited

/-- One fault source (chapter 11): latches, standing conditions, escalations per scope. Bit p is string p; bit 16 is pack or module scope. -/
structure LatchSt where
  /-- latched scopes (17 bits; 11 R284, R285, R294; 20 R494 GLB_FAULT; reset: S 0 (power-on reset clears AON)). -/
  latched : BitVec 17 := 0
  /-- scopes whose condition stands (17 bits; 11 R284; 20 R494 GLB_STANDING; reset: S 0). -/
  standing : BitVec 17 := 0
  /-- scopes escalated from D to C (17 bits; 11 R297; reset: S 0). -/
  escC : BitVec 17 := 0
  /-- scopes escalated from C to B (17 bits; 11 R291; reset: S 0). -/
  escB : BitVec 17 := 0
  /-- when and with what the condition stood, by scope (11 R284, R294, R304; reset: S empty). -/
  marks : Tab Nat ScopeMark := []
  /-- time of the last change (64 bits; 19 R486; reset: D1 0). -/
  change : Nat := 0
  /-- latches since power-on reset, saturating (32 bits; 11 R304; reset: S 0). -/
  count : Nat := 0
  /-- takes part in Wade mode (1 bits; 11 R297; reset: S false). -/
  wade : Bool := false
  /-- for F24 and F25: port ends concerned, bit 2p for N, 2p+1 for S (32 bits; 04 R105; 11 R583; reset: S 0). -/
  ends : BitVec 32 := 0
  deriving DecidableEq, Repr, Inhabited

/-- Wade mode (chapter 11, R296–R297). -/
structure Wade where
  /-- Wade mode in force (1 bits; 11 R297; 20 R495 [3]; reset: S false). -/
  on : Bool := false
  /-- timer, ms, as of wadeT (32 bits; 11 R297; reset: D1 0). -/
  left : Nat := 0
  /-- time to which left refers (64 bits; 11 R297; reset: D1 0). -/
  since : Nat := 0
  /-- time Wade mode last ended (64 bits; 11 R297; reset: D1 0). -/
  endT : Nat := 0
  /-- Wade mode has ended at least once (1 bits; 11 R297; reset: S false). -/
  everEnded : Bool := false
  /-- the timer has reached zero in this Wade mode (1 bits; 11 R297; reset: S false). -/
  expired : Bool := false
  deriving DecidableEq, Repr, Inhabited

/-- A disconnect in progress on one scope (chapter 11, R290, R291, R323). -/
structure Disc where
  /-- none, class C pending, opening under the steps of class B (2 bits; 11 R290, R291; reset: S none). -/
  kind : DiscKind := .none
  /-- t0 (64 bits; 11 R290; reset: D1 0). -/
  start : Nat := 0
  /-- end of the break-rating wait, or of the class C deadline (64 bits; 11 R290, R291; reset: D1 0). -/
  deadline : Nat := 0
  /-- consecutive samples at or below the break rating (2 bits; 11 R290 step 3; reset: D1 0). -/
  low : Nat := 0
  /-- host command that asked for it (19 R475; reset: S none). -/
  cmd : Option CmdRef := none
  /-- opened above break rating (1 bits; 11 R290 step 6; reset: S false). -/
  above : Bool := false
  /-- the wait began at the low-current window of a class C latch alone (1 bits; 11 R291, R294; reset: S false). -/
  fromC : Bool := false
  deriving DecidableEq, Repr, Inhabited

/-- One contactor (chapter 12, R311). -/
structure Ctr where
  /-- state (4 bits; 12 R311; reset: S UNKNOWN after power-on reset). -/
  st : CtrState := .unknown
  /-- its coil is commanded on (1 bits; 12 R316; 13 R343; reset: S off). -/
  coil : Bool := false
  /-- auxiliary contact reading, none when not wired or invalid (2 bits; 12 R310; reset: D2 not read). -/
  aux : Option Bool := none
  /-- time of the last switching of its coil (64 bits; 12 R327, R328; reset: D1 0). -/
  t : Nat := 0
  /-- opened above its break rating (1 bits; 11 R290; reset: S false). -/
  above : Bool := false
  /-- V_x at its close, mV (32 bits; 19 R468; reset: S 0x8000_0000 when not measured). -/
  vxClose : Int := -2147483648
  deriving DecidableEq, Repr, Inhabited

/-- Opening of one string under R324 and the checks at open (chapter 12). -/
structure StrOpen where
  /-- step of the opening (3 bits; 12 R324, R327; reset: S idle). -/
  ph : OpenPhase := .idle
  /-- F of this opening (2 bits; 12 R324; reset: D4 KP). -/
  first : Role := .kp
  /-- time at which the present step's contactor was commanded open (64 bits; 12 R327; reset: D1 0). -/
  t : Nat := 0
  /-- the string carried more than o_s + 0.01 C when F opened (1 bits; 12 R324; reset: S false). -/
  loaded : Bool := false
  /-- the next choice of F (MRAM) (2 bits; 12 R324; reset: D4 KP). -/
  nextFirst : Role := .kp
  /-- the check at open is due and awaits a current sample (1 bits; 12 R327; reset: S false). -/
  await : Bool := false
  /-- the string was connected when the opening began (1 bits; 12 R328; reset: S false). -/
  wasConn : Bool := false
  /-- a bus discharge check is running (1 bits; 12 R328; reset: S false). -/
  bus : Bool := false
  /-- its deadline (64 bits; 12 R328; reset: D1 0). -/
  busT : Nat := 0
  /-- openings begun (32 bits; 12 R330; reset: M 0). -/
  reqs : Nat := 0
  deriving DecidableEq, Repr, Inhabited

/-- Pre-charge resistor of one string (chapter 12, R320–R321). -/
structure Pre where
  /-- resistor energy, mJ (32 bits; 12 R320; reset: D5 0 until a configuration names the resistor; then R320). -/
  eth : Nat := 0
  /-- time to which eth refers (64 bits; 12 R320; reset: D1 0). -/
  ethT : Nat := 0
  /-- start times of the last three attempts (3 × 64 bits; 12 R320, R321; reset: S one attempt at the reset instant, entered at MRAM_MOUNT when a PRE is configured). -/
  attempts : List Nat := []
  /-- lockout in force (1 bits; 12 R321; reset: S false). -/
  locked : Bool := false
  deriving DecidableEq, Repr, Inhabited

/-- The close sequence running on the module (chapter 12, R313–R322). -/
structure Seq where
  /-- a sequence is running (1 bits; 12 R313; reset: S false). -/
  active : Bool := false
  /-- group (4 bits; 12 R313; reset: D1 0). -/
  group : Nat := 0
  /-- its command (19 R475; reset: D1 none). -/
  cmd : CmdRef := {}
  /-- member in progress (4 bits; 12 R313; reset: D1 0). -/
  idx : Nat := 0
  /-- step of the member (4 bits; 12 R316, R322; reset: D1 waitReady). -/
  ph : SeqPhase := .waitReady
  /-- time at which the step began (64 bits; 12 R316; reset: D1 0). -/
  t : Nat := 0
  /-- start of the member (64 bits; 12 R316 step 1; reset: D1 0). -/
  t0 : Nat := 0
  /-- charging start (64 bits; 12 R316 step 4; reset: D1 0). -/
  tc : Nat := 0
  /-- deadline of the pre-charge (64 bits; 12 R319; reset: D1 0). -/
  tout : Nat := 0
  /-- consecutive valid samples that met the condition (2 bits; 12 R316, R322; reset: D1 0). -/
  okSamples : Nat := 0
  /-- (time, V_x) samples since t_c (12 R317; reset: D1 none). -/
  samples : List (Nat × Int) := []
  /-- V_bus at the last three samples, newest first, with their times since t_c, µs (12 R318; reset: D1 none). -/
  busH : List (Nat × Int) := []
  /-- the first fit has been made (1 bits; 12 R316 steps 5 and 6; reset: D1 false). -/
  fitted : Bool := false
  /-- V_bus at the start of the pre-close test, mV (32 bits; 12 R316 step 3; reset: D1 0). -/
  vbus0 : Int := 0
  /-- fitted τ, µs (0 before the first accepted fit) (32 bits; 12 R317; reset: D1 0). -/
  tau : Nat := 0
  /-- capacitance estimate, µF (32 bits; 12 R317; reset: D1 0). -/
  cest : Nat := 0
  /-- τ, µs, and C_est, µF, of the latest fit, accepted or not (64 bits; 12 R315, R317; reset: D1 none). -/
  fitRep : Option (Nat × Nat) := none
  /-- consecutive samples of each string of the member within ΔV (16 × 2 bits; 12 R322; reset: D1 0). -/
  winOk : Tab Nat Nat := []
  /-- B of the latest accepted fit, mV (32 bits; 12 R317; reset: D1 0). -/
  fitB : Int := 0
  /-- A of the latest accepted fit, mV (32 bits; 12 R317; reset: D1 0). -/
  fitA : Int := 0
  /-- consecutive fits with C_est outside the window (2 bits; 12 R317; reset: D1 0). -/
  outOfWin : Nat := 0
  /-- whether the last of the deciding samples called for pre-charge (1 bits; 12 R316; reset: S none). -/
  lastPre : Option Bool := none
  /-- members not yet attempted that an open command took (12 R314, R330; reset: D1 none). -/
  skip : List Nat := []
  /-- members closed by this command, newest first (12 R314; reset: D1 none). -/
  closed : List Nat := []
  /-- results, in member order (12 R315; 19 R468; reset: D1 none). -/
  results : List MemberRes := []
  /-- the closed members are being reopened (1 bits; 12 R314; reset: D1 false). -/
  reverting : Bool := false
  deriving DecidableEq, Repr, Inhabited

/-- One OUT channel (chapter 13). -/
structure OutCh where
  /-- the channel is on (1 bits; 20 R504 DRV_OUT_STATE; reset: S off (R343)). -/
  on : Bool := false
  /-- commanded on (1 bits; 20 R504 DRV_OUT_STATE [27:16]; reset: S off). -/
  cmd : Bool := false
  /-- tripped (1 bits; 13 R336; reset: S false). -/
  tripped : Bool := false
  /-- open load found (1 bits; 13 R337; reset: S false). -/
  openLoad : Bool := false
  /-- LATCH-mode over-temperature trip (1 bits; 13 R338; reset: S false). -/
  thermLatch : Bool := false
  /-- retries remaining (4 bits; 13 R339, R349; reset: S 3 (default)). -/
  retries : Nat := 3
  /-- last trip cause (2 bits; 19 R486; reset: S 0). -/
  cause : Nat := 0
  /-- time of the trip (64 bits; 13 R339; reset: D1 0). -/
  tripT : Nat := 0
  /-- time switched on (64 bits; 13 R337, R339; reset: D1 0). -/
  onT : Nat := 0
  /-- time of the last change of a thermal output (64 bits; 10 R279; reset: D1 0). -/
  changeT : Nat := 0
  /-- current, mA (16 bits; 20 R504 DRV_OUTn; reset: D2 0). -/
  cur : Int := 0
  /-- switch junction temperature (16 bits; 13 R333; reset: D2 25.00 °C). -/
  temp : Int := 2500
  /-- a clear has permitted one restart whatever the retries (1 bits; 13 R339; reset: S false). -/
  cleared : Bool := false
  /-- host software requests the channel on (1 bits; 10 R279; 19 R476; reset: S false). -/
  hostReq : Bool := false
  /-- a restart is awaited (1 bits; 13 R339, R348; reset: S false). -/
  restart : Bool := false
  /-- a request of host software for a thermal output that waits for the minimum on or off time (2 bits; 10 R279; 19 R476; reset: S none). -/
  reqDue : Option Bool := none
  deriving DecidableEq, Repr, Inhabited

/-- One low-side switch (chapter 13). -/
structure Lsw where
  /-- latch closed (1 bits; 13 R341, R343; reset: S closed after power-on reset). -/
  closed : Bool := true
  /-- opened by the hardware release path (1 bits; 20 R504 DRV_LSW_STATE [15:12]; reset: S false). -/
  hwOpen : Bool := false
  /-- F38 stands for it (1 bits; 13 R342; reset: S false). -/
  f38 : Bool := false
  /-- state of its latch when F38 was found (1 bits; 13 R342; reset: D1 false). -/
  f38Closed : Bool := false
  /-- current, mA (16 bits; 20 R504 DRV_LSWj; reset: D2 0). -/
  cur : Int := 0
  /-- drain-to-source voltage, 10 mV (16 bits; 20 R504 DRV_LSWj; reset: D2 0). -/
  vds : Nat := 0
  /-- junction temperature (16 bits; 13 R333; reset: D2 25.00 °C). -/
  temp : Int := 2500
  deriving DecidableEq, Repr, Inhabited

/-- Drive stage: hold window and limp-home (chapter 13). -/
structure Drv where
  /-- the hold window runs (1 bits; 13 R344; 20 R495 [5]; reset: S false). -/
  hold : Bool := false
  /-- the partner ran as the hold window began and has not been lost since, so that it holds the coils (1 bits; 13 R344; 17 R422; reset: S false). -/
  partHeld : Bool := false
  /-- end of the hold window (64 bits; 13 R344; reset: D1 0). -/
  holdEnd : Nat := 0
  /-- both safety cores declared dead (1 bits; 13 R344; reset: S false). -/
  dead : Bool := false
  /-- time of the coil switch-off (64 bits; 13 R344 step 3; reset: D1 0). -/
  switchOffT : Nat := 0
  /-- the switch-off is awaited (1 bits; 13 R344 step 3; reset: S false). -/
  switchOff : Bool := false
  /-- limp-home in force (1 bits; 13 R345; 20 R504 DRV_LIMP [0]; reset: S false). -/
  limp : Bool := false
  /-- entered under R344 (1 bits; 20 R504 DRV_LIMP [2]; reset: S false). -/
  limpWd : Bool := false
  /-- level of LIMP_N (1 bits; 02 R56; 20 R504 DRV_LIMP [1]; reset: S high (pull-up)). -/
  limpN : Bool := true
  /-- DIN0–DIN3 (4 bits; 02 R56; 20 R504 DRV_LIMP [7:4]; reset: S low (pull-down)). -/
  din : BitVec 4 := 0
  /-- the safety cores are supervising (1 bits; 21 R520; 20 R495 [10]; reset: S false (start-up)). -/
  coresUp : Bool := false
  /-- module time at which the safety cores last stopped supervising (64 bits; 21 R520; reset: D1 0). -/
  downT : Nat := 0
  /-- held in reset after a third reset (1 bits; 21 R521; reset: S false). -/
  coresHeld : Bool := false
  /-- times of the last safety core watchdog and lockstep resets (3 × 64 bits; 21 R521; reset: S none). -/
  resets : List Nat := []
  /-- the service cores run (1 bits; 21 R518, R520; reset: S false (start-up)). -/
  svcUp : Bool := false
  /-- a close sequence was unfinished when the safety cores were reset (1 bits; 12 R330; reset: S false). -/
  interrupted : Bool := false
  deriving DecidableEq, Repr, Inhabited

/-- One chain port (chapters 03–05). -/
structure Port where
  /-- enumeration state (4 bits; 03 R76; 19 R469; reset: S OFF). -/
  st : PortSt := .off
  /-- hop h of ASSIGN, EXTEND, RETRY (6 bits; 03 R76; reset: D1 0). -/
  hop : Nat := 0
  /-- step s of FROM_FAR (6 bits; 03 R77; reset: D1 0). -/
  fromFar : Nat := 0
  /-- hop h has been retried (1 bits; 03 R77; reset: S false). -/
  retried : Bool := false
  /-- the wake in progress is a warm wake (1 bits; 03 R74; reset: S false (from Peat)). -/
  warm : Bool := false
  /-- the port is being woken again to give roster addresses (1 bits; 03 R78; reset: S false). -/
  reWake : Bool := false
  /-- the wake in progress is a heartbeat wake or the wake from Moss (1 bits; 05 R155; reset: S false). -/
  heartbeat : Bool := false
  /-- the port's nodes are in NAP, its ends' PHYs off (1 bits; 05 R155; reset: S false). -/
  nap : Bool := false
  /-- PHYs of the declared ends powered (1 bits; 02 R50; 01 R18; reset: S off). -/
  phy : Bool := false
  /-- N end in lock (1 bits; 19 R486; reset: S false). -/
  lockN : Bool := false
  /-- S end in lock (1 bits; 19 R486; reset: S false). -/
  lockS : Bool := false
  /-- classification (3 bits; 03 R80; 19 R469; reset: S none (0xFF)). -/
  cls : Option Classif := none
  /-- worst delay D, ns (16 bits; 03 R84; 04 R113; reset: S 5,100 ns until measured (R113)). -/
  dW : Nat := 5100
  /-- D of a recalibration whose phase has not been reached (16 bits; 05 R140; reset: D1 0). -/
  dNew : Nat := 0
  /-- transmit phase interpolator, ns modulo 80 (7 bits; 05 R140; reset: D1 0). -/
  phase : Nat := 0
  /-- the calibration has been repeated once (1 bits; 03 R85; reset: S false). -/
  calRepeat : Bool := false
  /-- recalibration at the next sweep boundary (1 bits; 03 R86; reset: S false). -/
  recal : Bool := false
  /-- a recalibration is measuring or being written while sweeps go on (1 bits; 03 R86; reset: S false). -/
  recalOn : Bool := false
  /-- a recalibration has been made for differences that the last probe cycles found (1 bits; 03 R86; reset: S false). -/
  recalTried : Bool := false
  /-- D measured and written (1 bits; 03 R84; reset: S false). -/
  calibrated : Bool := false
  /-- split mode (1 bits; 03 R89; 19 R486; reset: S false). -/
  split : Bool := false
  /-- split mode to be entered at the next sweep boundary (1 bits; 03 R89; reset: S false). -/
  splitReq : Bool := false
  /-- last node reachable from the N end, at the break (6 bits; 03 R88; reset: D1 0). -/
  brkNode : Nat := 0
  /-- last node that the S end does not reach: brkNode with one break, more with two (6 bits; 03 R94; reset: D1 0). -/
  brkFar : Nat := 0
  /-- start of the wake tone of the hop in progress (64 bits; 03 R77; reset: D1 0). -/
  hopT : Nat := 0
  /-- the opposite end has detected the wake tone of the last node and answers (1 bits; 03 R73, R75; reset: S false). -/
  answered : Bool := false
  /-- node for which the port is HELD for F31 (6 bits; 03 R87; 04 R135; reset: D1 0). -/
  f31Node : Nat := 0
  /-- ends that have launched the COLLECT frame of the sweep (2 bits; 04 R117; reset: D1 0). -/
  launched : BitVec 2 := 0
  /-- time from which the repaired hop has been free of errors (64 bits; 03 R95; reset: S none). -/
  restoredT : Option Nat := none
  /-- sweep mode in force (2 bits; 05 R143; 19 R486; reset: S M1 (default base mode)). -/
  mode : Nat := 1
  /-- mode that the plan calls for (2 bits; 05 R153; reset: S M1). -/
  modeReq : Nat := 1
  /-- grid instant from which `mode` is in force (64 bits; 05 R153; reset: D1 0). -/
  modeS : Nat := 0
  /-- mode in force until then (2 bits; 05 R153; reset: S M1). -/
  modePrev : Nat := 1
  /-- corner in force (3 bits; 04 R115; 19 R486; reset: S 2 (50 Hz, default of M1)). -/
  corner : Nat := 2
  /-- end of the settling after a corner change (64 bits; 05 R145; reset: D1 0). -/
  settleT : Nat := 0
  /-- last sweep sequence number (16 bits; 05 R166; 19 R486; reset: D1 0). -/
  seq : Nat := 0
  /-- nominal instant S of the sweep in progress (64 bits; 05 R138; reset: D1 0). -/
  sweepS : Nat := 0
  /-- a sweep's COLLECT frames are awaited (1 bits; 05 R157; reset: S false). -/
  sweepOpen : Bool := false
  /-- temperatures included in the sweep in progress (1 bits; 04 R115; reset: D1 false). -/
  swTemps : Bool := false
  /-- stack voltage included (1 bits; 04 R115; reset: D1 false). -/
  swStack : Bool := false
  /-- the sweep belongs to an open-wire group (1 bits; 04 R115; reset: D1 false). -/
  swOw : Bool := false
  /-- mode of the sweep in progress: the mode in force, M2 for a temperature sweep of an M3 run and in an open-wire group (2 bits; 05 R147, R161; reset: D1 1). -/
  swMode : Nat := 1
  /-- the takeover sweep is still to be issued (1 bits; 17 R420; reset: S false). -/
  takeover : Bool := false
  /-- nodes whose blocks arrived in the sweep in progress, as completion bits (64 bits; 04 R113, R117; reset: D1 0). -/
  swSeen : BitVec 64 := 0
  /-- ends at which blocks of the sweep arrived (2 bits; 05 R166; reset: D1 0). -/
  ends : BitVec 2 := 0
  /-- completion bits of the last sweep (64 bits; 05 R166; 19 R486; reset: S 0). -/
  compl : BitVec 64 := 0
  /-- ends whose COLLECT frame of the sweep has arrived (2 bits; 04 R117; reset: D1 0). -/
  endsDone : BitVec 2 := 0
  /-- M0 sweeps still to take after READY before the plan starts (3 bits; 21 R522; reset: S 0). -/
  firstM0 : Nat := 0
  /-- quiet mode (1 bits; 05 R152; reset: S false). -/
  quiet : Bool := false
  /-- time quiet mode was entered (64 bits; 05 R152; 07 R201; reset: D1 0). -/
  quietT : Nat := 0
  /-- an M3 burst is running (1 bits; 05 R150; reset: S false). -/
  burst : Bool := false
  /-- a burst is due (1 bits; 05 R154; reset: S false). -/
  burstDue : Bool := false
  /-- start of the present run of M3 sweeps (64 bits; 05 R147; reset: D1 0). -/
  m3Since : Nat := 0
  /-- a periodic open-wire group is due (or requested by the host) (1 bits; 05 R154; reset: S false). -/
  owDue : Bool := false
  /-- an open-wire group is requested by the signature check (1 bits; 05 R160; reset: S false). -/
  owSig : Bool := false
  /-- 0 none; 1 reference A, 2 test, 3 reference B awaited (2 bits; 05 R161; reset: S 0). -/
  owStep : Nat := 0
  /-- grid instant of the running group's test sample (64 bits; 05 R161; reset: D1 0). -/
  owS : Nat := 0
  /-- time of its last OW_SET broadcast (64 bits; 05 R161; reset: D1 0). -/
  owSetT : Nat := 0
  /-- a node's result of the running group is void (1 bits; 05 R161; reset: S false). -/
  owVoid : Bool := false
  /-- OPEN_WIRE_NOW that waits for the classification (19 R471; reset: S none). -/
  owCmd : Option CmdRef := none
  /-- time of the last classification (64 bits; 05 R164; reset: D1 0). -/
  owDoneT : Nat := 0
  /-- a Sedge session is running (1 bits; 07 R203; 19 R486; reset: S false). -/
  sedge : Bool := false
  /-- (node address, channel) excited (07 R202; reset: S none). -/
  sedgeSel : List (Nat × Nat) := []
  /-- start sweep_seq (16 bits; 07 R203; reset: D1 0). -/
  sedgeSeq : Nat := 0
  /-- instant of the last sample taken in the session (64 bits; 07 R212; reset: S 0). -/
  sedgeLast : Nat := 0
  /-- REED frame of M2 or M3 that last switched balancing off, module time ns (64 bits; 04 R132; 08 R213; reset: S 0). -/
  balOff : Nat := 0
  /-- REED frame of M0 or M1 that last let it resume; balancing is off while this is earlier (64 bits; 04 R132; 08 R213; reset: S 0). -/
  balOn : Nat := 0
  /-- start of the session (64 bits; 07 R204; reset: D1 0). -/
  sedgeT : Nat := 0
  /-- nominal instant of the start sweep, once it is issued (64 bits; 07 R203, R212; reset: S none). -/
  sedgeS : Option Nat := none
  /-- nodes to be sent SEDGE stop at the next sweep boundary (6 bits each; 07 R204; reset: S none). -/
  sedgeStop : List Nat := []
  /-- end of the previous session (64 bits; 07 R204; reset: D1 0). -/
  sedgeEndT : Nat := 0
  /-- length of the previous session, ns (64 bits; 07 R204; reset: D1 0). -/
  sedgeLen : Nat := 0
  /-- an engine serves the port (1 bits; 23 R554, R555; reset: S true). -/
  engine : Bool := true
  /-- the port's own engine is declared failed (1 bits; 23 R554; reset: S false). -/
  engineBad : Bool := false
  /-- time of the last open-wire group (64 bits; 05 R150; reset: D1 0). -/
  owTick : Nat := 0
  /-- plan events that fell due while the service cores were in reset: 0 mode change, 1 burst start, 2 burst end, 3 quiet entry, 4 quiet exit, 5 open-wire group, 6 Sedge session (7 bits; 21 R520; reset: S none). -/
  defer : List Nat := []
  /-- evaluation rate demanded: 1, 10 or 50 Hz (2 bits; 10 R274, R275; reset: S 1 Hz). -/
  rateHi : Nat := 1
  /-- since when a lower demand has held (64 bits; 10 R275; reset: D1 0). -/
  rateFallT : Nat := 0
  /-- when a demand of at least 10 Hz was last present (64 bits; 10 R275; reset: D1 0). -/
  rate10T : Nat := 0
  /-- last temperature evaluation of the port's sensors (64 bits; 10 R274; reset: S 0). -/
  evalT : Nat := 0
  /-- frames and blocks failing their checks at the N end (32 bits; 03 R22; 19 R486; reset: S 0). -/
  badN : Nat := 0
  /-- as badN, S end (32 bits; 03 R22; 19 R486; reset: S 0). -/
  badS : Nat := 0
  /-- by end, frames and blocks received in the last 10 s, newest first: time, how many, how many of them failed (04 R114; reset: S none). -/
  win : Tab Nat (List (Nat × Nat × Nat)) := []
  /-- consecutive IDLE_FAULT sets, by end (0 N, 1 S) (2 each bits; 04 R104; reset: S 0). -/
  tone : Tab Nat Nat := []
  /-- start of the present run of IDLE_OK with no IDLE_FAULT, by end (2 × 64 bits; 11 R583 F25; reset: S none). -/
  okIdleT : Tab Nat (Option Nat) := []
  /-- arrival time of the last Reed pulse observed at an end (64 each bits; 03 R69; reset: D1 0). -/
  reedSeen : Tab Nat Nat := []
  /-- grid instant of the last REED frame of the partner observed (64 bits; 17 R424; reset: S none). -/
  reedPartner : Option Nat := none
  /-- time of READY after classification (64 bits; 03 R82; reset: D1 0). -/
  clsT : Nat := 0
  /-- new roster and passports are still to be written (1 bits; 03 R82; reset: S false). -/
  rosterDue : Bool := false
  /-- the port is HELD for F31 (1 bits; 11 R583; reset: S false). -/
  f31Hold : Bool := false
  /-- PORT_RESTART that waits for the port (19 R471; reset: S none). -/
  restartCmd : Option CmdRef := none
  /-- enumeration runs from the S end (this module's active end in position B) (1 bits; 03 R70; reset: S false). -/
  far : Bool := false
  deriving DecidableEq, Repr, Inhabited

/-- One node of a port as the master knows it (chapters 03 and 04). -/
structure Node where
  /-- unique identifier found (64 bits; 04 R125; reset: S none). -/
  uid : Option (BitVec 64) := none
  /-- 1 monitor, 2 string (8 bits; 04 R125; reset: S 0). -/
  typ : Nat := 0
  /-- cells declared (8 bits; 04 R125; reset: S 0). -/
  cells : Nat := 0
  /-- sensors declared (8 bits; 04 R125; reset: S 0). -/
  sensors : Nat := 0
  /-- capability bits (8 bits; 04 R125; reset: S 0). -/
  caps : BitVec 8 := 0
  /-- turnaround time, ns (16 bits; 04 R125; reset: D6 400 ns). -/
  tta : Nat := 400
  /-- hop delay from the N end, ns (16 bits; 03 R83; reset: D1 0). -/
  dN : Nat := 0
  /-- hop delay from the S end, ns (16 bits; 03 R83; reset: D1 0). -/
  dS : Nat := 0
  /-- newly measured d_N (16 bits; 03 R86; reset: D1 0). -/
  newN : Nat := 0
  /-- newly measured d_S (16 bits; 03 R86; reset: D1 0). -/
  newS : Nat := 0
  /-- probe replies received, N end (5 bits; 03 R83; reset: D1 0). -/
  probesN : Nat := 0
  /-- probe replies received, S end (5 bits; 03 R83; reset: D1 0). -/
  probesS : Nat := 0
  /-- sum of the round trips, N end, ns (32 bits; 03 R83; reset: D1 0). -/
  sumN : Nat := 0
  /-- sum of the round trips, S end, ns (32 bits; 03 R83; reset: D1 0). -/
  sumS : Nat := 0
  /-- node state as the master last knows it (3 bits; 04 R122; reset: S DEEP). -/
  st : NodeSt := .deep
  /-- SET_DELAYS echoed (1 bits; 03 R87; reset: S false). -/
  delaysOk : Bool := false
  /-- THRESH echoed (1 bits; 03 R87; reset: S false). -/
  threshOk : Bool := false
  /-- rewrites of the present write (2 bits; 03 R87; reset: D1 0). -/
  rewrites : Nat := 0
  /-- cannot be reached (F27) (1 bits; 03 R94; 11 R583; reset: S false). -/
  missing : Bool := false
  /-- tone state in its last block (1 bits; 04 R119; reset: S false). -/
  tone : Bool := false
  /-- a self-test failure is pending (1 bits; 04 R119; 11 R583; reset: S false). -/
  selftest : Bool := false
  /-- its blocks arrive in COLLECT frames (1 bits; 04 R113; reset: S false). -/
  blocks : Bool := false
  /-- passport last read (256 B bits; 04 R136; 03 R80; reset: S none). -/
  pass : Option (List Byte) := none
  /-- the passport read has ended (1 bits; 03 R80; reset: S false). -/
  passTried : Bool := false
  /-- pair-sum channels held by the node (04 R131; 05 R164; reset: S none). -/
  masks : List Nat := []
  /-- stack voltage, mV (32 bits; 05 R166; reset: S 0xFFFF_FFFF not available). -/
  stack : Nat := 0xFFFFFFFF
  /-- stack voltage of the previous sweep that carried one (32 bits; 05 R159; reset: D1 0). -/
  prevStack : Nat := 0
  /-- STATUS response data last received (16 B bits; 04 R124; 19 R482; reset: S none). -/
  status : List Byte := []
  /-- channel mask last sent with BALANCE (16 bits; 19 R472; reset: S 0). -/
  balance : BitVec 16 := 0
  /-- end of the duration last sent with BALANCE (64 bits; 19 R472; reset: D1 0). -/
  balT : Nat := 0
  /-- told to inject (1 bits; 06 R169; reset: S false). -/
  iso : Bool := false
  /-- reported a failed passport write (1 bits; 04 R126; reset: S false). -/
  nvFail : Bool := false
  /-- its last probe differed by more than 20 ns from the stored delay (1 bits; 03 R86; reset: S false). -/
  diff : Bool := false
  /-- its result of the running open-wire group is void (1 bits; 05 R161; reset: S false). -/
  owBad : Bool := false
  /-- minor version of the protocol it speaks (8 bits; 04 R125; reset: S 0). -/
  minor : Nat := 0
  /-- its maker's build code (64 bits; 04 R125; reset: S 0). -/
  build : BitVec 64 := 0
  /-- balancing stopped less than the settle time before its last sample (1 bits; 04 R119, R132; reset: S false). -/
  settleShort : Bool := false
  /-- the COLLECT frame of its last block had arrived damaged there (1 bits; 04 R117, R119; reset: S false). -/
  damaged : Bool := false
  deriving DecidableEq, Repr, Inhabited

/-- One chain command that awaits its response (chapter 04, R113). -/
structure ChainReq where
  /-- end it left from: 0 N, 1 S (1 bits; 04 R109; reset: —). -/
  end_ : Nat := 0
  /-- destination (6 bits; 04 R109; reset: —). -/
  addr : Nat := 0
  /-- command code (8 bits; 04 R123; reset: —). -/
  tag : Nat := 0
  /-- frame sequence number (8 bits; 04 R109; reset: —). -/
  seq : Nat := 0
  /-- payload (04 R123; reset: —). -/
  payload : List Byte := []
  /-- attempts made (2 bits; 04 R113; reset: —). -/
  tries : Nat := 1
  /-- host command that waits for it (19; reset: —). -/
  cmd : Option CmdRef := none
  /-- time at which it was last sent (64 bits; 04 R113; reset: —). -/
  t : Nat := 0
  /-- sent for the partner, which gets the response (1 bits; 03 R91; reset: —). -/
  relay : Bool := false
  deriving DecidableEq, Repr, Inhabited

/-- Live data of one cell (chapters 04, 05). -/
structure CellLive where
  /-- cell sample word (32 bits; 00 R11; 05 R165; reset: S 0 (nothing sampled)). -/
  word : Word := 0
  /-- last valid voltage, 10 µV (20 bits; 00 R11; reset: S 0). -/
  v : Nat := 0
  /-- time of the last valid sample (64 bits; 11 R287 F07; reset: S none). -/
  validT : Option Nat := none
  /-- no valid sample in the last sweep (1 bits; 05 R165; reset: S true). -/
  stale : Bool := true
  /-- reading of the previous sweep that carried the stack voltage, 10 µV (20 bits; 05 R159; reset: D1 0). -/
  prev : Nat := 0
  /-- sense suspect flag kept by the master (1 bits; 05 R160, R163; reset: S false). -/
  suspect : Bool := false
  /-- reference A, 10 µV (20 bits; 05 R162; reset: D1 0). -/
  owA : Nat := 0
  /-- test, 10 µV (20 bits; 05 R162; reset: D1 0). -/
  owT : Nat := 0
  /-- consecutive indeterminate groups (2 bits; 05 R163; reset: S 0). -/
  indet : Nat := 0
  /-- tap reported degraded (1 bits; 05 R163; reset: S false). -/
  degraded : Bool := false
  /-- position under which the tap was reported degraded (16 bits; 05 R163; 11 R305; reset: D1 0). -/
  degPos : Nat := 0
  /-- classified as an unexplained open (1 bits; 05 R163; reset: S false). -/
  unexpl : Bool := false
  /-- the most recent group found the cell intact (1 bits; 05 R164; reset: S false). -/
  intact : Bool := false
  /-- lower cell of a confirmed open tap (MRAM) (1 bits; 05 R163, R164; reset: S false). -/
  openTap : Bool := false
  /-- its PAIR_SUM echo failed (1 bits; 11 R583; reset: S false). -/
  maskBad : Bool := false
  /-- its PAIR_SUM has been rewritten once (1 bits; 05 R163; reset: S false). -/
  maskRw : Bool := false
  /-- end of its remaining balancing duration, module time ns; 0 none (64 bits; 19 R472; reset: S 0). -/
  bal : Nat := 0
  /-- when the balancing switch last came to be held by a BALANCE command, module time ns (64 bits; 08 R213; reset: S 0). -/
  heldT : Nat := 0
  /-- when that hold ends: its duration's end, or the moment it was stopped; 0 never held (64 bits; 08 R213; 04 R128, R132; reset: S 0). -/
  heldEnd : Nat := 0
  deriving DecidableEq, Repr, Inhabited

/-- Estimator, impedance and ageing state of one cell (chapters 07, 08). -/
structure CellEst where
  /-- unclamped true SoC, 0.0001 % (24 bits; 08 R218, R220; reset: D7 0 until seeded). -/
  soc : Int := 0
  /-- 1σ of SoC, 0.0001 % (20 bits; 08 R218; reset: D7 10 % until seeded). -/
  sigma : Nat := 100000
  /-- reported SoC, 0.0001 % (20 bits; 08 R231; reset: D7 0 until seeded). -/
  rep : Nat := 0
  /-- hysteresis voltage, 10 µV (16 bits; 08 R217; reset: D7 0). -/
  h : Int := 0
  /-- rounding remainder of h (64 bits; 08 R217; reset: S 0). -/
  hRem : Int := 0
  /-- first RC branch, µV (24 bits; 08 R218; reset: D7 0). -/
  v1 : Int := 0
  /-- second RC branch, µV (24 bits; 08 R218; reset: D7 0). -/
  v2 : Int := 0
  /-- latest residual, 10 µV (24 bits; 08 R218; reset: D7 0). -/
  resid : Int := 0
  /-- updates of the last 60 s, newest first: S, net charge of the cell, and with a measurement the residual and the OCV estimate, µV (6,000 × 176 bits; 08 R218, R222, R238; reset: S none). -/
  hist : List (Nat × Int × Option (Int × Int)) := []
  /-- rounding remainder of soc, µC (32 bits; 08 R218; reset: S 0). -/
  socRem : Int := 0
  /-- rounding remainder of sigma, µC (32 bits; 08 R219; reset: S 0). -/
  sigRem : Nat := 0
  /-- rounding remainder of rep (64 bits; 08 R231; reset: S 0). -/
  repRem : Int := 0
  /-- time of the last measurement update (64 bits; 09 R250; reset: D1 0). -/
  measT : Nat := 0
  /-- learned capacity, 0.01 Ah (32 bits; 08 R226; reset: D7 0 until seeded). -/
  cap : Nat := 0
  /-- its σ, 0.01 % (16 bits; 08 R226; reset: D7 0). -/
  capSigma : Nat := 0
  /-- capacity learned at least once (1 bits; 08 R235; reset: S false). -/
  learned : Bool := false
  /-- seeded (1 bits; 08 R242; reset: S false). -/
  seeded : Bool := false
  /-- seeded from nameplate (1 bits; 08 R235 flags [2]; reset: S false). -/
  fromName : Bool := false
  /-- out-of-range flag (1 bits; 08 R220; reset: S false). -/
  outRange : Bool := false
  /-- last SoC anchor (8 bits; 08 R242; reset: S 0). -/
  anchor : Nat := 0
  /-- time of the last rest point (64 bits; 08 R235; reset: D1 0). -/
  restT : Nat := 0
  /-- SoC of the last rest point, 0.01 % (16 bits; 08 R235; reset: D1 0). -/
  restSoc : Nat := 0
  /-- its σ, 0.01 % (16 bits; 08 R235; reset: D1 0). -/
  restSig : Nat := 0
  /-- net charge of the cell at the last rest point, µC (64 bits; 08 R242; reset: D1 0). -/
  restQ : Int := 0
  /-- rest points of the last 48 h (08 R225; reset: S none). -/
  rests : List RestPoint := []
  /-- learnings accepted (32 bits; 08 R235; reset: S 0). -/
  acc : Nat := 0
  /-- learnings rejected (32 bits; 08 R235; reset: S 0). -/
  rej : Nat := 0
  /-- status of the last learning attempt (8 bits; 08 R226; reset: S 0xFF). -/
  learnSt : Nat := 0xFF
  /-- charge lost to the balancing switch, µC (64 bits; 08 R213, R224; reset: S 0). -/
  qBal : Nat := 0
  /-- temperature band (2 bits; 08 R225; 07 R194; reset: D1 0). -/
  tband : Nat := 0
  /-- time it last changed (64 bits; 08 R225; reset: D1 0). -/
  tbandT : Nat := 0
  /-- rest point taken since the last estimator record (1 bits; 08 R242 flags [6]; reset: S false). -/
  restNew : Bool := false
  /-- valid samples of the last 2 min, newest first (480,000 × 84 bits; 08 R221, R237; reset: S none). -/
  vHist : List (Nat × Nat) := []
  /-- R0 of the first accepted fit of the reference slot, µΩ (32 bits; 08 R234; reset: S 0). -/
  r0Init : Nat := 0
  /-- accepted fits of the reference slot, saturating at 2 (8 bits; 08 R234; reset: S 0). -/
  r0Set : Nat := 0
  /-- resistance growth, 0.01 % (16 bits; 08 R234; reset: S 0). -/
  growth : Int := 0
  /-- equivalent full cycles, 0.01 (32 bits; 08 R234; reset: S 0). -/
  cycles : Nat := 0
  /-- charge out since insertion, µC (64 bits; 08 R234; reset: S 0). -/
  qOut : Nat := 0
  /-- net charge of the cell, µC (64 bits; 08 R213; reset: S 0). -/
  qNet : Int := 0
  /-- time of insertion (64 bits; 08 R235; reset: D1 0). -/
  inserted : Nat := 0
  /-- F49 stands for the cell (1 bits; 08 R238; reset: S false). -/
  f49 : Bool := false
  /-- time of the rest point that replaced the filter state (64 bits; 08 R238; reset: S none). -/
  f49T : Option Nat := none
  /-- age of each slot, h (12 × 8 bits; 07 R195; reset: S 0xFF). -/
  ages : Tab Nat Nat := []
  /-- measured mask (72 bits; 07 R195; reset: S 0). -/
  meas : Tab Nat Bool := []
  /-- impedance entries (default when absent) (72 × 32 bits; 07 R195; reset: S chemistry defaults). -/
  entries : Tab Nat (Int × Int) := []
  /-- accepted results applied (32 bits; 07 R195; reset: S 0). -/
  updates : Nat := 0
  /-- reset to defaults since the last power-on reset (1 bits; 07 R195 flags [1]; reset: S false). -/
  zreset : Bool := false
  /-- slots of which an entry has changed since their last fit (12 bits; 07 R207; reset: S none). -/
  fitDue : List Nat := []
  /-- what the Sedge session in progress has gathered (07 R205, R206; reset: S nothing). -/
  sed : SedgeAcc := {}
  /-- fitted parameters of each slot (07 R207; reset: S chemistry defaults). -/
  fits : Tab Nat FitPar := []
  /-- accepted results since its last write (8 bits; 07 R199; reset: S 0). -/
  unwritten : Nat := 0
  /-- first change that differs from the MRAM copy (64 bits; 07 R199; reset: S none). -/
  unwrT : Option Nat := none
  /-- accumulators of the six bands (6 × 16 B bits; 07 R189; reset: S 0). -/
  acc6 : Tab Nat BandAcc := []
  /-- identifier of the node that holds the cell (64 bits; 08 R235; reset: S 0). -/
  uid : BitVec 64 := 0
  /-- treated as a new cell (its node was replaced) (1 bits; 03 R80; reset: S false). -/
  repl : Bool := false
  deriving DecidableEq, Repr, Inhabited

/-- One temperature sensor: node sensor by global index 0–4,095; NTCn is 4,096 + n (chapter 10). -/
structure Sensor where
  /-- beyond the hard limit (1 bits; 10 R269, R270; reset: S false). -/
  hot : Bool := false
  /-- newest reading, 0.01 °C (16 bits; 10 R267; reset: S none). -/
  last : Option Int := none
  /-- reading before it (16 bits; 10 R267; reset: S none). -/
  r2 : Option Int := none
  /-- reading before r2 (16 bits; 10 R267; reset: S none). -/
  r3 : Option Int := none
  /-- time of the newest reading (64 bits; 10 R268; reset: D1 0). -/
  t : Nat := 0
  /-- consecutive open or short readings (2 bits; 10 R268; reset: S 0). -/
  badRun : Nat := 0
  /-- times of the last implausible readings (3 × 64 bits; 10 R268; reset: S none). -/
  implT : List Nat := []
  /-- since when readings are plausible, after an invalidity (64 bits; 10 R268; reset: S none). -/
  okT : Option Nat := none
  /-- F12 stands for it (1 bits; 10 R268; reset: S false). -/
  f12 : Bool := false
  /-- 0 none, 1 open, 2 short at the newest reading (2 bits; 10 R266; reset: S 0). -/
  openShort : Nat := 0
  /-- readings of the last 11 s, newest first (10 R277; reset: S none). -/
  hist : List (Nat × Int) := []
  /-- start of a rise that awaits confirmation (64 bits; 10 R278; reset: S none). -/
  riseT : Option Nat := none
  /-- rise-unconfirmed flag (1 bits; 10 R278; reset: S false). -/
  riseUnc : Bool := false
  /-- last time its rate was at or above half the threshold (64 bits; 10 R278; reset: D1 0). -/
  halfT : Nat := 0
  /-- since when its rate has been at or above the threshold (64 bits; 10 R278; reset: S none). -/
  aboveT : Option Nat := none
  deriving DecidableEq, Repr, Inhabited

/-- One temperature zone (chapter 10). -/
structure Zone where
  /-- warning level crossed (1 bits; 10 R269; reset: S false). -/
  warn : Bool := false
  /-- derate level crossed (1 bits; 10 R269; reset: S false). -/
  derate : Bool := false
  /-- hard level crossed (1 bits; 10 R269; reset: S false). -/
  hard : Bool := false
  /-- coolant limit crossed (1 bits; 10 R272; reset: S false). -/
  limit : Bool := false
  /-- F11 raised for the zone (1 bits; 10 R278; reset: S false). -/
  f11 : Bool := false
  /-- cooling demanded by the table (1 bits; 10 R279; reset: S false). -/
  cool : Bool := false
  /-- heating demanded by the table (1 bits; 10 R279; reset: S false). -/
  heat : Bool := false
  /-- heating forced off (1 bits; 10 R279; reset: S false). -/
  heatOff : Bool := false
  deriving DecidableEq, Repr, Inhabited

/-- Junction supervision (chapter 10, THERM block of 20). -/
structure Therm where
  /-- junction sensors, 0.01 °C (4 × 16 bits; 20 R501 THERM_SENS; reset: D2 25.00 °C). -/
  sens : Tab Nat Int := []
  /-- junction temperature (16 bits; 20 R501 THERM_JUNCTION; reset: D2 25.00 °C). -/
  tj : Int := 2500
  /-- highest since power-on reset (16 bits; 20 R501 THERM_PEAK; reset: D2 25.00 °C). -/
  peak : Int := 2500
  /-- band (3 bits; 10 R281; reset: D2 B1). -/
  band : Nat := 1
  /-- warning (1 bits; 10 R282; reset: S false). -/
  warn : Bool := false
  /-- throttle (1 bits; 10 R282; reset: S false). -/
  throttle : Bool := false
  /-- protective shutdown level (1 bits; 10 R282; reset: S false). -/
  shut : Bool := false
  /-- sensors set aside (4 bits; 20 R501 THERM_ASIDE; reset: S 0). -/
  aside : BitVec 4 := 0
  /-- last evaluation of the NTC inputs and coolant zones (64 bits; 10 R274; reset: S 0). -/
  evalT : Nat := 0
  /-- t0 of the protective shutdown (64 bits; 10 R283; reset: D1 0). -/
  shutT : Nat := 0
  /-- estimator array clock, MHz (9 bits; 01 R40; reset: D2 400 MHz). -/
  estClk : Nat := 400
  /-- SRAM full-scrub period in force, s (16 bits; 10 R281; 20 R499 REPAIR_SCRUB; reset: S 60 s (B1)). -/
  scrubSram : Nat := 60
  /-- MRAM scrub interval in force, min (16 bits; 10 R281; 20 R499 REPAIR_SCRUB; reset: S 24 h (B1)). -/
  scrubMram : Nat := 1440
  /-- sliding DFT updates skipped (32 bits; 01 R19; reset: S 0). -/
  dftSkips : Nat := 0
  deriving DecidableEq, Repr, Inhabited

/-- One string (chapters 06–09). -/
structure Str where
  /-- latest valid string current after the offset, mA (32 bits; 06 R168; reset: S none). -/
  i : Option Int := none
  /-- latest raw string current, mA (32 bits; 05 R166; reset: D1 0). -/
  iRaw : Int := 0
  /-- its grid instant (64 bits; 06 R184; reset: D1 0). -/
  iT : Nat := 0
  /-- terminal voltage, mV (32 bits; 04 R120; reset: S none). -/
  vStr : Option Int := none
  /-- link voltage, mV (32 bits; 04 R120; reset: S none). -/
  vx : Option Int := none
  /-- insulation word (32 bits; 05 R166; reset: S 0xFFFF_FFFE not in this sweep). -/
  iso : Nat := 0xFFFFFFFE
  /-- net charge, µC (64 bits; 06 R184; reset: S 0 (restored from the journal at MRAM_MOUNT)). -/
  qNet : Int := 0
  /-- charge in, µC (64 bits; 06 R184; reset: S 0). -/
  qIn : Nat := 0
  /-- charge out, µC (64 bits; 06 R184; reset: S 0). -/
  qOut : Nat := 0
  /-- rounding remainder of the integration (in ½ mA·ns) (32 bits; 06 R184; reset: S 0). -/
  qRem : Int := 0
  /-- rounding remainders of charge in and charge out (in ½ mA·ns) (2 × 32 bits; 06 R184; reset: S 0). -/
  inRem : Nat := 0
  outRem : Nat := 0
  /-- gaps bridged since power-on reset (32 bits; 06 R184; 19 R486; reset: S 0). -/
  gaps : Nat := 0
  /-- gap bridged in the interval (1 bits; 08 R243 flags [4]; reset: S false). -/
  gapFlag : Bool := false
  /-- learned offset, mA (32 bits; 06 R176; reset: S 0). -/
  off : Int := 0
  /-- time it was learned (64 bits; 06 R176; 01 R29; reset: S none). -/
  offT : Option Nat := none
  /-- net charge when the estimator state was last saved, µC (64 bits; 08 R236; 22 R533; reset: D1 0). -/
  savQ : Int := 0
  /-- time at which it was saved (64 bits; 08 R236; 22 R533; reset: D1 0). -/
  savT : Nat := 0
  /-- rounding remainder of rep (64 bits; 08 R231; reset: S 0). -/
  repRem : Int := 0
  /-- gap and substitution uncertainty at the last filter update, µC (64 bits; 08 R219, R224; reset: D1 0). -/
  kfU : Nat := 0
  /-- causes for which F21 stands: 0 offset, 1 attribution (2 bits; 06 R176, R182; reset: S 0). -/
  f21 : BitVec 2 := 0
  /-- state of its current filter: two inputs, two outputs (4 × 64 bits; 06 R177; reset: S empty). -/
  filt : List Int := []
  /-- filtered currents of the last 50 ms, newest first: grid instant, mA (200 × 96 bits; 06 R177, R178; reset: S none). -/
  filtY : List (Nat × Int) := []
  /-- raw currents of the last 1 s, newest first: grid instant, mA (4,000 × 96 bits; 06 R176; reset: S none). -/
  rawHist : List (Nat × Int) := []
  /-- net charge at the last filter update, µC (64 bits; 08 R218; reset: D1 0). -/
  kfNet : Int := 0
  /-- grid instant of its last filter update (64 bits; 08 R218; reset: S none (0)). -/
  kfT : Nat := 0
  /-- charge in at the last filter update, µC (64 bits; 08 R218; reset: D1 0). -/
  kfIn : Nat := 0
  /-- charge out at the last filter update, µC (64 bits; 08 R218; reset: D1 0). -/
  kfOut : Nat := 0
  /-- throughput uncertainty of bridged gaps, µC (64 bits; 08 R224; reset: S 0). -/
  gapU : Nat := 0
  /-- throughput uncertainty under substitution, µC (64 bits; 08 R224; reset: S 0). -/
  subU : Nat := 0
  /-- valid samples of the last 1 s, newest first (4,000 × 96 bits; 09 R260; reset: S none). -/
  iHist : List (Nat × Int) := []
  /-- those of the last 64 s that are neither settling nor of an open-wire group, newest first (256,000 × 96 bits; 05 R145; 07 R187; 08 R222, R231; reset: S none). -/
  iRec : List (Nat × Int) := []
  /-- capacity learned since the last record (1 bits; 08 R243 flags [6]; reset: S false). -/
  learnNew : Bool := false
  /-- the present window of each band spans a mode change (6 bits; 07 R211 flags [2]; reset: S none). -/
  modeSpan : Tab Nat Bool := []
  /-- split mode during the present window of each band (6 bits; 07 R211 flags [1]; reset: S none). -/
  splitSpan : Tab Nat Bool := []
  /-- instant at which the open segment of each band began (6 × 64 bits; 07 R185; reset: S none). -/
  segOpen : Tab Nat Nat := []
  /-- last sample of each band's window (6 × 64 bits; 07 R211; reset: S none). -/
  lastS : Tab Nat Nat := []
  /-- the last evaluation instant at which its cells and its filtered current were valid: the instant, the sum of its cell voltages, 10 µV, and the current, mA (160 bits; 06 R181; reset: S none). -/
  evAt : Option (Nat × Int × Int) := none
  /-- substitution in force for its sensor (1 bits; 06 R183; reset: S false). -/
  subst : Bool := false
  /-- connected: its contactors are closed (1 bits; 08 R229; reset: S false). -/
  conn : Bool := false
  /-- time of its connection (64 bits; 09 R260; reset: D1 0). -/
  connT : Nat := 0
  /-- time since which its contactors are open (64 bits; 06 R176; reset: D1 0). -/
  openT : Nat := 0
  /-- its last four qualifying ohmic-witness steps, newest first (true = pass) (4 bits; 06 R181, R182; reset: S none). -/
  failW : List Bool := []
  /-- reported SoC, 0.0001 % (20 bits; 08 R231; reset: D7 0 until seeded). -/
  rep : Nat := 0
  /-- reserve boundary, 0.01 % (16 bits; 08 R230; reset: D7 0). -/
  socRes : Nat := 0
  /-- available energy at present temperatures, Wh (32 bits; 08 R228; reset: D7 0). -/
  energy : Nat := 0
  /-- available energy at T_res, Wh (32 bits; 08 R228; reset: D7 0). -/
  energyRes : Nat := 0
  /-- equivalent full cycles, 0.01 (32 bits; 08 R234; reset: S 0). -/
  cycles : Nat := 0
  /-- hours in service (32 bits; 08 R243; reset: S 0). -/
  hours : Nat := 0
  /-- time towards the next hour, ns (64 bits; 08 R243; reset: S 0). -/
  hoursRem : Nat := 0
  /-- depth-of-discharge histogram, 0.01 cycle (10 × 32 bits; 08 R234; reset: S 0). -/
  dod : Tab Nat Nat := []
  /-- SoC at the last reversal, 0.0001 % (24 bits; 08 R234; reset: D7 0). -/
  turn : Int := 0
  /-- SoC extreme since then, 0.0001 % (24 bits; 08 R234; reset: D7 0). -/
  extreme : Int := 0
  /-- since when the current has been below 0.02 C (64 bits; 08 R221; reset: S none). -/
  lowT : Option Nat := none
  /-- time of the last true rest point (64 bits; 08 R221; reset: D1 0). -/
  restNextT : Nat := 0
  /-- mean current over the last 1 s, mA (64 bits; 08 R231; reset: D7 0). -/
  netSum : Int := 0
  /-- published limits, mA: 0–3 charge, 4–7 discharge (2 s, 10 s, 30 s, continuous) (8 × 32 bits; 09 R248; reset: S 0). -/
  lim : Tab Nat Nat := []
  /-- binding causes (8 × 8 bits; 09 R255, R262; reset: D1 0). -/
  bind : Tab Nat Nat := []
  /-- share w at 10 s, 0.0001 (16 bits; 09 R252; reset: S 0). -/
  share : Nat := 0
  /-- start of the run of violations of F52 (64 bits; 09 R260; reset: S none). -/
  f52T : Option Nat := none
  /-- last violation (64 bits; 09 R260; reset: D1 0). -/
  f52OkT : Nat := 0
  /-- intervals of the last 600 s between evaluations, newest first: end, length ns, mean charge and discharge current mA, the limits published (12,000 × 448 bits; 09 R260; reset: S none). -/
  limHist : List (Nat × Nat × Nat × Nat × List Nat) := []
  /-- since when the current has been below the quiet threshold (64 bits; 05 R152; reset: S none). -/
  quietT : Option Nat := none
  /-- since when at or above it (64 bits; 05 R152; reset: S none). -/
  quietExT : Option Nat := none
  /-- since when below the low-current threshold (64 bits; 11 R291; reset: S none). -/
  lowWin : Option Nat := none
  /-- since when the current has exceeded o_s + 0.01 C in the charge direction while F10 stands (64 bits; 10 R273; reset: S none). -/
  f23T : Option Nat := none
  /-- string serial in force (16 B bits; 03 R80, R82; reset: S none). -/
  serial : List Byte := []
  /-- generation of the serial (8 bits; 03 R82; reset: S 0 (starts at 01 with the first NEW)). -/
  gen : Nat := 0
  /-- tracked line of each band, mHz (6 × 32 bits; 07 R187; reset: S none (0)). -/
  line : Tab Nat Nat := []
  /-- candidate of the last search, mHz (6 × 32 bits; 07 R188; reset: D1 0). -/
  lineCand : Tab Nat Nat := []
  /-- segments closed in the present window (6 × 4 bits; 07 R185; reset: S 0). -/
  segs : Tab Nat Nat := []
  /-- of these, valid for the string current (6 × 4 bits; 07 R191; reset: S 0). -/
  segOk : Tab Nat Nat := []
  /-- Σ |I|² of the window, mA² (6 × 64 bits; 07 R189; reset: S 0). -/
  iSq : Tab Nat Nat := []
  /-- complex I of the open segment, mA (6 × 64 bits; 07 R189; reset: S 0). -/
  segI : Tab Nat (Int × Int) := []
  /-- the open segment is discarded for the string (6 bits; 07 R190; reset: S false). -/
  segBad : Tab Nat Bool := []
  /-- S of the first sample of the window (6 × 64 bits; 07 R211; reset: D1 0). -/
  winT : Tab Nat Nat := []
  /-- fits since the last fit record: position, slot, quality, the parameters then in force (07 R210, R212; reset: S none). -/
  fitsDone : List (Nat × Nat × Nat × FitPar) := []
  /-- the grid instant at which its next sample is due, once it has had one (64 bits; 07 R190; reset: S none). -/
  nextS : Option Nat := none
  /-- at true rest (1 bits; 08 R222; reset: S false). -/
  trueRest : Bool := false
  deriving DecidableEq, Repr, Inhabited

/-- The pack current input and pack-level quantities (chapters 06, 08, 09). -/
structure Pack where
  /-- latest pack current after the offset, mA (32 bits; 06 R172; reset: S none). -/
  i : Option Int := none
  /-- its grid instant (64 bits; 05 R141; reset: D1 0). -/
  iT : Nat := 0
  /-- the own sensor's samples of the last 1 s without the offset, newest first: grid instant, mA (4,000 × 96 bits; 06 R174, R176; reset: S none). -/
  rawHist : List (Nat × Int) := []
  /-- saturated flag (1 bits; 06 R172; reset: S false). -/
  sat : Bool := false
  /-- since when saturated with the string sum below 90 % (64 bits; 06 R172; reset: S none). -/
  satT : Option Nat := none
  /-- last saturated sample (64 bits; 06 R179; reset: D1 0). -/
  satLastT : Nat := 0
  /-- learned offset, mA (32 bits; 06 R176; reset: S 0). -/
  off : Int := 0
  /-- time it was learned (64 bits; 06 R176; reset: S none). -/
  offT : Option Nat := none
  /-- rounding remainder of rep (64 bits; 08 R231; reset: S 0). -/
  repRem : Int := 0
  /-- causes for which F20 stands: 0 saturation, 1 partner, 2 offset, 3 attribution (4 bits; 06 R172, R174, R176, R182; reset: S 0). -/
  f20 : BitVec 4 := 0
  /-- state of the pack current filter (4 × 64 bits; 06 R177; reset: S empty). -/
  filt : List Int := []
  /-- filtered values of the last 50 ms, newest first (200 × 96 bits; 06 R177, R178; reset: S none). -/
  filtY : List (Nat × Int) := []
  /-- lowest corner in force on a contributing port (3 bits; 06 R177; reset: D1 6 (none yet)). -/
  fMin : Nat := 6
  /-- F20 substitution in force (1 bits; 06 R183; reset: S false). -/
  subst : Bool := false
  /-- since when every string contactor is open (64 bits; 06 R176; reset: D1 0). -/
  openT : Nat := 0
  /-- beginnings of the 1 s without evaluation after a change of f_min or of a mode (64 bits each; 06 R177; reset: S none). -/
  kT : List Nat := []
  /-- consecutive violations not interrupted by a pass (8 bits; 06 R180; reset: S 0). -/
  kBad : Nat := 0
  /-- evaluations skipped (32 bits; 06 R179; reset: S 0). -/
  kSkip : Nat := 0
  /-- the partner's pack currents of the last 50 ms, newest first: grid instant, mA (200 × 96 bits; 06 R174; reset: S none). -/
  partH : List (Nat × Int) := []
  /-- consecutive disagreements with the partner's sensor (8 bits; 06 R174; reset: S 0). -/
  partBad : Nat := 0
  /-- exponentially weighted mean of I_p², mA² (64 bits; 11 R287 F17; reset: S 0). -/
  msq : Nat := 0
  /-- reported SoC, 0.0001 % (20 bits; 08 R231; reset: D7 0). -/
  rep : Nat := 0
  /-- reserve-in-use flag (1 bits; 08 R232; reset: S false). -/
  reserve : Bool := false
  /-- reserve remaining, 0.01 % (16 bits; 08 R232; reset: D7 0). -/
  resLeft : Nat := 0
  /-- published limits, as for a string (8 × 32 bits; 09 R252; reset: S 0). -/
  lim : Tab Nat Nat := []
  /-- binding causes (8 × 8 bits; 09 R255; reset: D1 0). -/
  bind : Tab Nat Nat := []
  /-- publication count (32 bits; 09 R261; reset: S 0). -/
  limSeq : Nat := 0
  /-- grid instant of the last publication of the 50 ms cycle (64 bits; 09 R245; reset: D1 0). -/
  limT : Nat := 0
  /-- since when the pack current has been below the low-current threshold (64 bits; 11 R291; reset: S none). -/
  lowWin : Option Nat := none
  /-- body of the last limits record (19 R485 0x08; reset: S none). -/
  lastLim : List Byte := []
  /-- time of the last estimator result (64 bits; 01 R26; reset: D1 0). -/
  lastEstT : Nat := 0
  /-- a string was connected or disconnected since the energies were last computed (1 bits; 08 R228; reset: S false). -/
  energyDue : Bool := false
  /-- the R26 clamp is applied (1 bits; 01 R26; reset: S false). -/
  r26 : Bool := false
  /-- start of the run of violations of F52 (64 bits; 09 R260; reset: S none). -/
  f52T : Option Nat := none
  /-- last violation (64 bits; 09 R260; reset: D1 0). -/
  f52OkT : Nat := 0
  /-- intervals of the last 600 s between evaluations, newest first: end, length ns, mean charge and discharge current mA, the limits published (12,000 × 448 bits; 09 R260; reset: S none). -/
  limHist : List (Nat × Nat × Nat × Nat × List Nat) := []
  /-- sum of the pack current samples in the charge direction since the last publication, mA (64 bits; 09 R260; reset: S 0). -/
  accPos : Nat := 0
  /-- sum in the discharge direction, mA (64 bits; 09 R260; reset: S 0). -/
  accNeg : Nat := 0
  /-- samples since the last publication (16 bits; 09 R260; reset: S 0). -/
  accN : Nat := 0
  /-- samples of the last 1 s, newest first: time, mA (4,000 × 96 bits; 08 R231; reset: S none). -/
  iHist : List (Nat × Int) := []
  /-- consecutive publications with the F54 condition (8 bits; 09 R259; reset: S 0). -/
  f54N : Nat := 0
  /-- last such publication (64 bits; 09 R259; reset: D1 0). -/
  f54OkT : Nat := 0
  /-- safe speed at the publications of the last 1 s, newest first, mm/s (21 × 96 bits; 09 R259; reset: S none). -/
  speeds : List (Nat × Nat) := []
  /-- emergency supply held by the host (1 bits; 19 R473, R474; reset: S false). -/
  emgHost : Bool := false
  /-- its lapse (64 bits; 19 R474; reset: S none). -/
  emgLapse : Option Nat := none
  /-- emergency supply held by safe message (1 bits; 14 R366; reset: S false). -/
  emgMsg : Bool := false
  /-- mass supplied by the host, kg (32 bits; 09 R257; reset: S none). -/
  mass : Option Nat := none
  /-- time it was written (64 bits; 09 R257; reset: D1 0). -/
  massT : Nat := 0
  /-- 100 ms interval count since power-on reset, at the last estimator records (32 bits; 08 R242; reset: S 0). -/
  tick100 : Nat := 0
  /-- port whose string node injects (4 bits; 06 R169; reset: S none). -/
  injPort : Option Nat := none
  /-- since when the designated node's port is out of READY (64 bits; 06 R169; reset: S none). -/
  isoOutT : Option Nat := none
  /-- the designated node has echoed the stop that goes before the backup's inject (1 bits; 06 R169; reset: S false). -/
  isoStopped : Bool := false
  /-- the stop of the backup node has been echoed (1 bits; 06 R169; reset: S false). -/
  isoBackStopped : Bool := false
  deriving DecidableEq, Repr, Inhabited

/-- One HVIL loop (chapter 14). -/
structure Hvil where
  /-- last code period passed (1 bits; 20 R505 SAFEIN_HVIL; reset: S false). -/
  passed : Bool := false
  /-- consecutive failing periods (2 bits; 14 R352; reset: S 0). -/
  fails : Nat := 0
  /-- consecutive passing periods, saturating at 100 (7 bits; 14 R352, R353; reset: S 0). -/
  oks : Nat := 0
  /-- last failure (2 bits; 14 R351; 20 R505; reset: S 0). -/
  kind : Nat := 0
  /-- return current, 0.01 mA (16 bits; 20 R505 SAFEIN_HVIL_I; reset: D2 0). -/
  cur : Nat := 0
  /-- 100 periods passed since power-on or wake from Peat (1 bits; 14 R353; 21 R524; reset: S false). -/
  proven : Bool := false
  deriving DecidableEq, Repr, Inhabited

/-- One dual-channel input, ISO or LID (chapter 14). -/
structure DualIn where
  /-- channel 0 closed (1 bits; 14 R355, R357; reset: S open until proven). -/
  c0 : Bool := false
  /-- channel 1 closed (1 bits; 14 R355, R357; reset: S open until proven). -/
  c1 : Bool := false
  /-- pulse error, channel 0 (1 bits; 14 R354; reset: S false). -/
  pe0 : Bool := false
  /-- pulse error, channel 1 (1 bits; 14 R354; reset: S false). -/
  pe1 : Bool := false
  /-- consecutive failing pulse checks, channel 0 (2 bits; 14 R354; reset: S 0). -/
  bad0 : Nat := 0
  /-- channel 1 (2 bits; 14 R354; reset: S 0). -/
  bad1 : Nat := 0
  /-- consecutive passing pulse checks, channel 0 (4 bits; 14 R354; reset: S 0). -/
  ok0 : Nat := 0
  /-- channel 1 (4 bits; 14 R354; reset: S 0). -/
  ok1 : Nat := 0
  /-- two pulse checks passed since power-on or wake from Peat (1 bits; 14 R357; reset: S false). -/
  prov0 : Bool := false
  /-- channel 1 (1 bits; 14 R357; reset: S false). -/
  prov1 : Bool := false
  /-- last Moss reading, channel 0 (1 bits; 14 R357; reset: S none). -/
  moss0 : Option Bool := none
  /-- last Moss reading, channel 1 (1 bits; 14 R357; reset: S none). -/
  moss1 : Option Bool := none
  /-- time since which both channels agree (64 bits; 14 R355; reset: D1 0). -/
  agreeT : Nat := 0
  /-- time since which both are closed without pulse error (64 bits; 14 R355; reset: D1 0). -/
  closedT : Nat := 0
  /-- time since which the channels differ (64 bits; 14 R355; reset: D1 0). -/
  diffT : Nat := 0
  deriving DecidableEq, Repr, Inhabited

/-- Safety inputs beside the loops (chapter 14). -/
structure SafeIn where
  /-- safe standstill declared (1 bits; 14 R358; 20 R495 [7]; reset: S false). -/
  standstill : Bool := false
  /-- standstill discrepancy (1 bits; 14 R359; 20 R505; reset: S false). -/
  stillDisc : Bool := false
  /-- speed discrepancy (1 bits; 14 R359; 20 R505; reset: S false). -/
  speedDisc : Bool := false
  /-- since when the standstill discrepancy holds (64 bits; 14 R359; reset: S none). -/
  stillDiscT : Option Nat := none
  /-- since when the speed discrepancy holds (64 bits; 14 R359; reset: S none). -/
  speedDiscT : Option Nat := none
  /-- last disagreement (64 bits; 14 R359; reset: D1 0). -/
  agreeT : Nat := 0
  /-- grid instant of the last periodic axle record (64 bits; 15 R385; reset: D1 0). -/
  recT : Nat := 0
  /-- when STATUS was last sent (64 bits; 14 R365; reset: D1 0). -/
  statT : Nat := 0
  /-- next seq of each sent message type (16 each bits; 14 R360; reset: D1 0). -/
  txSeq : Tab Nat Nat := []
  deriving DecidableEq, Repr, Inhabited

/-- One received safe message (chapter 14, R361, R362). -/
structure SafeMsg where
  /-- last seq accepted (16 bits; 14 R361; reset: S none (the first valid copy sets it)). -/
  lastSeq : Option Nat := none
  /-- first copies awaiting their partners, oldest first (14 R362; reset: S none). -/
  first : List SafeCopy := []
  /-- surviving bus of a single-bus condition (1 bits; 14 R362; reset: D1 0). -/
  surv : Nat := 0
  /-- time of the last delivery (64 bits; 14 R362; reset: D1 0). -/
  lastT : Nat := 0
  /-- time of the last valid copy on each bus (64 each bits; 14 R362; reset: D1 0). -/
  busT : Tab Nat Nat := []
  /-- misses and invalid copies, by bus (32 each bits; 14 R361, R362; reset: S 0). -/
  misses : Tab Nat Nat := []
  /-- F46 stands for it (1 bits; 14 R362; reset: S false). -/
  f46 : Bool := false
  /-- delivered from one bus only (1 bits; 14 R362; reset: S false). -/
  single : Bool := false
  /-- matching messages still needed after a mismatch (2 bits; 14 R362; reset: S 0). -/
  mismatch : Nat := 0
  /-- consecutive messages delivered from matching copies (4 bits; 14 R362; reset: S 0). -/
  okRun : Nat := 0
  deriving DecidableEq, Repr, Inhabited

/-- One axle channel (chapter 15). -/
structure Axle where
  /-- level of phase A (1 bits; 15 R373; reset: D2 low). -/
  a : Bool := false
  /-- level of phase B (1 bits; 15 R373; reset: D2 low). -/
  b : Bool := false
  /-- position count (32 signed bits; 15 R375; 20 R503; reset: D8 0). -/
  count : Int := 0
  /-- time of the edge that set the count (64 bits; 15 R375; reset: D1 0). -/
  tEdge : Nat := 0
  /-- last accepted edge of phase A (64 bits; 15 R374; reset: S none). -/
  tA : Option Nat := none
  /-- last accepted edge of phase B (64 bits; 15 R374; reset: S none). -/
  tB : Option Nat := none
  /-- index latch (32 signed bits; 15 R376; reset: D8 0). -/
  idx : Int := 0
  /-- time of the latched closing edge (64 bits; 15 R376; reset: D1 0). -/
  tIdx : Nat := 0
  /-- direction flag, true reverse (1 bits; 15 R381; 20 R503; reset: D8 forward). -/
  rev : Bool := false
  /-- direction of the last edge (1 bits; 15 R381; reset: D8 forward). -/
  lastDir : Bool := false
  /-- consecutive edges in the new direction (hysteresis mode) (2 bits; 15 R381; reset: S 0). -/
  revRun : Nat := 0
  /-- STILL flag (1 bits; 15 R381; reset: D8 STILL). -/
  still : Bool := true
  /-- when STILL was set (64 bits; 14 R358; 15 R381; reset: D1 0). -/
  stillT : Nat := 0
  /-- UNTIMED flag (1 bits; 15 R381; reset: S false). -/
  untimed : Bool := false
  /-- (interval ns, quarter pitches) of the last four speed intervals, newest first (15 R379; reset: S none). -/
  ivals : List (Nat × Nat) := []
  /-- last 8 intervals that span no gap and no reversal (15 R376; reset: S none). -/
  means : List Nat := []
  /-- last speed, mm/s (32 bits; 15 R379; reset: S 0). -/
  speed : Nat := 0
  /-- edges since the previous closing edge (16 bits; 15 R377; reset: D1 0). -/
  gapCnt : Nat := 0
  /-- a closing edge has been seen (1 bits; 15 R377; reset: S false). -/
  gapOne : Bool := false
  /-- the last gap had the right count (1 bits; 15 R378; reset: S false). -/
  gapGood : Bool := false
  /-- a reversal occurred in this revolution (1 bits; 15 R377; reset: S false). -/
  revd : Bool := false
  /-- revolution phase based (1 bits; 15 R378; reset: S false). -/
  based : Bool := false
  /-- revolution phase (16 bits; 15 R378; reset: D1 0). -/
  phase : Nat := 0
  /-- slip at each of the last 16 closing edges (16 bits; 15 R382; reset: S none). -/
  slips : List Bool := []
  /-- slip since the last record (1 bits; 15 R385 flags [5]; reset: S false). -/
  slipRec : Bool := false
  /-- since power-on reset, saturating (16 bits; 15 R374, R385; reset: S 0). -/
  glitches : Nat := 0
  /-- times of recent glitches (17 × 64 bits; 15 R382; reset: S none). -/
  glitchT : List Nat := []
  /-- phase A in wire disagreement (1 bits; 15 R373; reset: S false). -/
  wireA : Bool := false
  /-- phase B in wire disagreement (1 bits; 15 R373; reset: S false). -/
  wireB : Bool := false
  /-- times of recent disagreements (3 × 64 bits; 15 R382; reset: S none). -/
  wireT : List Nat := []
  /-- supply fault (1 bits; 15 R373; reset: S false). -/
  supply : Bool := false
  /-- a channel fault stands (1 bits; 15 R382; reset: S false). -/
  bad : Bool := false
  /-- last case of R382 (64 bits; 15 R382; reset: D1 0). -/
  badT : Nat := 0
  /-- the interval in progress is discarded (1 bits; 15 R381, R383; reset: S false). -/
  skip : Bool := false
  /-- event bits that interrupt (8 bits; 20 R503 SPDn_IRQ_EN; reset: S 0). -/
  irqEn : BitVec 8 := 0
  /-- start of the wire disagreement of phase A (64 bits; 15 R373, R382; reset: D1 0). -/
  wireTA : Nat := 0
  /-- start of the wire disagreement of phase B (64 bits; 15 R373, R382; reset: D1 0). -/
  wireTB : Nat := 0
  /-- direction in which the revolution phase counts up (1 bits; 15 R378; reset: D8 forward). -/
  phaseRev : Bool := false
  /-- a slip has occurred since the phase was based (1 bits; 15 R378; reset: S false). -/
  rebase : Bool := false
  deriving DecidableEq, Repr, Inhabited

/-- One CAN FD controller (chapter 16). -/
structure CanCtl where
  /-- 0 normal, 1 listen-only, 2 disabled (2 bits; 16 R397; 20 R502 [4:3]; reset: D2 disabled until a configuration enables it). -/
  mode : Nat := 2
  /-- 0 active, 1 passive, 2 bus-off (2 bits; 16 R398; 20 R502 [1:0]; reset: S error-active). -/
  errSt : Nat := 0
  /-- transmit error counter (9 bits; 16 R398; 20 R502 CANx_ERRCNT; reset: S 0). -/
  tec : Nat := 0
  /-- receive error counter (8 bits; 16 R398; 20 R502; reset: S 0). -/
  recCnt : Nat := 0
  /-- ALONE (1 bits; 16 R400; reset: S false). -/
  alone : Bool := false
  /-- consecutive ACK errors with no frame received (5 bits; 16 R400; reset: S 0). -/
  ackErrs : Nat := 0
  /-- single-shot on ALONE (1 bits; 16 R400; reset: S false). -/
  single : Bool := false
  /-- selection mode (1 bits; 16 R390; 20 R502 [9]; reset: D2 priority mode). -/
  prio : Bool := true
  /-- TB0 (16 R390; reset: S empty). -/
  tb0 : Option CanFrame := none
  /-- internal queue of TB0 (16 R390; reset: S empty). -/
  q : List CanFrame := []
  /-- TB1 (16 R390; reset: S empty). -/
  tb1 : Option TxBuf := none
  /-- TB2 (16 R390; reset: S empty). -/
  tb2 : Option TxBuf := none
  /-- submissions of the transmit ring not yet loaded (16 R390; reset: S empty). -/
  txq : List TxBuf := []
  /-- consecutive collisions of each buffer (2 each bits; 16 R401; reset: S 0). -/
  coll : Tab Nat Nat := []
  /-- collision counter, saturating (8 bits; 16 R401; 20 R502 CANx_COLL_CNT; reset: S 0). -/
  collCnt : Nat := 0
  /-- identifier of the last collision (32 bits; 20 R502 CANx_COLL_ID; reset: S 0). -/
  collId : Word := 0
  /-- received frames dropped, saturating (32 bits; 20 R502 CANx_RX_DROP; reset: S 0). -/
  rxDrop : Nat := 0
  /-- acceptance filters (32 × 80 bits; 16 R393; reset: D2 none set). -/
  filters : Tab Nat CanFilter := []
  /-- default action is RING (1 bits; 16 R393; reset: S DISCARD). -/
  defRing : Bool := false
  /-- high-priority buffer (16 R395; reset: S empty (window reads 0)). -/
  hp : Option HpFrame := none
  /-- new (1 bits; 16 R395 CANx_HP_STAT [0]; reset: S 0). -/
  hpNew : Bool := false
  /-- lock timed out (1 bits; 16 R395 CANx_HP_STAT [1]; reset: S 0). -/
  hpTimed : Bool := false
  /-- overrun count (8 bits; 16 R395 CANx_HP_STAT [15:8]; reset: S 0). -/
  hpOver : Nat := 0
  /-- buffer locked (1 bits; 16 R396; reset: S false). -/
  hpLock : Bool := false
  /-- time of the lock (64 bits; 16 R396; reset: D1 0). -/
  hpLockT : Nat := 0
  /-- one-frame hold (16 R396; reset: S empty). -/
  hpHold : Option HpFrame := none
  /-- buffer whose attempt is known to have begun (2 bits; 16 R391; reset: S none). -/
  started : Option Nat := none
  deriving DecidableEq, Repr, Inhabited

/-- The redundant pair and the Causeway (chapter 17). -/
structure Pair where
  /-- the Causeway was up at the entry to Moss and is to be retrained at the wake (1 bits; 21 R514; reset: S false). -/
  retrain : Bool := false
  /-- Causeway trained (1 bits; 17 R415; 20 R506 [4]; reset: S false). -/
  trained : Bool := false
  /-- role held (2 bits; 17 R408, R414; 20 R506 [3:2]; reset: S none). -/
  role : PairRole := .none
  /-- role gained by takeover (1 bits; 17 R414 state [5]; 20 R506 [10]; reset: S false). -/
  gained : Bool := false
  /-- partner heartbeats arriving (1 bits; 20 R506 [5]; reset: S false). -/
  hbOk : Bool := false
  /-- seq of the last heartbeat sent (16 bits; 17 R411; reset: D1 0). -/
  hbSeq : Nat := 0
  /-- seq of the last valid heartbeat received (16 bits; 17 R414; reset: D1 0). -/
  hbRxSeq : Nat := 0
  /-- time of its SOF (64 bits; 17 R418; reset: D1 0). -/
  hbRxT : Nat := 0
  /-- its t_tx (64 bits; 17 R414, R423; reset: D1 0). -/
  hbTx : Nat := 0
  /-- time heartbeats resumed (64 bits; 17 R427; reset: D1 0). -/
  hbResumeT : Nat := 0
  /-- payload last sent (40 B bits; 17 R414, R434; reset: S none). -/
  hbSent : List Byte := []
  /-- payload last received (40 B bits; 17 R414, R434; reset: S none (reads 0)). -/
  hbRcvd : List Byte := []
  /-- heartbeats missed, saturating (32 bits; 20 R506 PAIR_HB_MISS; reset: S 0). -/
  hbMiss : Nat := 0
  /-- frames failing their checks, saturating (32 bits; 20 R506 PAIR_CRC_ERR; reset: S 0). -/
  crcErr : Nat := 0
  /-- frames received in the last 10 s, newest first: time, whether the frame failed its checks (17 R413; reset: S none). -/
  win : List (Nat × Bool) := []
  /-- when the last heartbeat was sent (64 bits; 17 R412; reset: D1 0). -/
  hbT : Nat := 0
  /-- when the digests were last exchanged (64 bits; 17 R430; reset: D1 0). -/
  digT : Nat := 0
  /-- PAIR_STATUS as last recorded (32 bits; 17 R434; reset: S 0). -/
  statSeen : Nat := 0
  /-- group, member and step of the primary's sequence, as it told them (17 R417; reset: S none). -/
  seqTold : Option (Nat × Nat × Nat) := none
  /-- group, member and result of each member that ended in it (17 R417; reset: S none). -/
  resTold : List (Nat × Nat × Nat) := []
  /-- one-way delay, ns (32 bits; 20 R506 PAIR_DELAY; 17 R415; reset: S 0 until trained). -/
  delay : Nat := 0
  /-- offsets of the last 64 heartbeats, newest first (64 × 64 bits; 17 R415; reset: S none). -/
  ofs : List Int := []
  /-- since when the mean is beyond ±150 ns (64 bits; 17 R415; reset: S none). -/
  ofsBadT : Option Nat := none
  /-- proof window running (1 bits; 17 R423; 20 R506 [6]; reset: S false). -/
  proof : Bool := false
  /-- its end (64 bits; 17 R423; reset: D1 0). -/
  proofEnd : Nat := 0
  /-- time of the last proof of life of the partner (64 bits; 17 R423, R426; reset: S none). -/
  lifeT : Option Nat := none
  /-- the module held the primary role before the declaration (1 bits; 17 R424; reset: S false). -/
  wasPrim : Bool := false
  /-- closes barred until one further proof window shows no REED frame (1 bits; 17 R423; reset: S false). -/
  mute : Bool := false
  /-- end of that window (64 bits; 17 R423; reset: D1 0). -/
  muteEnd : Nat := 0
  /-- diverged regions, in the order of R428 (7 bits; 20 R506 PAIR_DIVERGED; 17 R428; reset: S 0). -/
  diverged : BitVec 7 := 0
  /-- records still to resynchronise (32 bits; 20 R506 PAIR_RESYNC; reset: S 0). -/
  resync : Nat := 0
  /-- fused sets differ (1 bits; 20 R506 [11]; 17 R416; reset: S false). -/
  fuseDiff : Bool := false
  /-- both modules report one position (1 bits; 17 R408; reset: S false). -/
  samePos : Bool := false
  /-- what the partner reported in training (17 R415; 20 R506 PAIR_PARTNER; reset: S 0). -/
  partner : PartnerId := {}
  /-- mirrored writes awaiting the standby's result (17 R428, R429; reset: S none). -/
  nvw : List NvwReq := []
  /-- (channel, time) of coil-off changes awaiting their echo (12 R331; reset: S none). -/
  coilWait : List (Nat × Nat) := []
  /-- partner channels that may still hold a coil (12 bits; 17 R414, R421; reset: D1 0). -/
  partCoils : BitVec 12 := 0
  /-- own channels whose coil-off the partner has not echoed in time (12 bits; 12 R331; 11 R287 F37; reset: S 0). -/
  noEcho : BitVec 12 := 0
  /-- until when they count as on (64 bits; 17 R421; reset: D1 0). -/
  partHoldEnd : Nat := 0
  /-- last seq of each Causeway frame type but the heartbeat (16 each bits; 17 R411; reset: D1 0). -/
  txSeq : Tab Nat Nat := []
  /-- partner's VCOIL_A and VCOIL_B, mV (2 × 32 bits; 17 R417; 12 R329; reset: D1 0). -/
  partVcoil : Nat × Nat := (0, 0)
  /-- currents of the partner's channels as mirrored, mA (12 × 16 bits; 13 R337; reset: D1 0). -/
  partCoilI : List Int := []
  /-- partner's mirrored safe speed, mm/s (32 bits; 15 R383; reset: S none). -/
  partSpeed : Option Nat := none
  /-- ROLE_HANDOVER awaiting the partner (17 R409; reset: S none). -/
  handover : Option CmdRef := none
  /-- MIRROR_CHECK awaiting the digests (19 R481; reset: S none). -/
  check : Option CmdRef := none
  deriving DecidableEq, Repr, Inhabited

/-- Non-volatile memory apart from the configuration copies (chapter 22). Records are held record by record. -/
structure Mram where
  /-- impedance tables, home copies, by global index (2.5 MB bits; 22 R528; 07 R195; reset: S none written). -/
  imp : Tab Nat NvRec := []
  /-- ageing records, copy A (512 KB bits; 22 R528; 08 R235; reset: S none written). -/
  ageA : Tab Nat NvRec := []
  /-- ageing records, copy B (512 KB bits; 22 R528; 08 R235; reset: S none written). -/
  ageB : Tab Nat NvRec := []
  /-- identifier at port × 64 + address (03 R80; 22 R528; reset: S none). -/
  roster : Tab Nat (BitVec 64) := []
  /-- string serial of each port's roster (16 B each bits; 03 R80; reset: S none). -/
  rosterSerial : Tab Nat (List Byte) := []
  /-- confirmed open taps, by global index of the lower cell (05 R164; reset: S none). -/
  taps : List Nat := []
  /-- learned offsets, by port (16 pack) (32 each bits; 06 R176; reset: S none). -/
  offs : Tab Nat Int := []
  /-- journal, newest first (128 KB bits; 22 R534; reset: S empty). -/
  journal : List JEntry := []
  /-- saved estimator state, copy A (64 KB bits; 22 R533; reset: S none). -/
  estA : Option NvRec := none
  /-- saved estimator state, copy B (64 KB bits; 22 R533; reset: S none). -/
  estB : Option NvRec := none
  /-- last commit sequence of each record kind (32 each bits; 22 R530; reset: S 0). -/
  commit : Tab Nat Nat := []
  /-- black-box event ring, newest first (352 KB bits; 22 R543, R544; reset: S empty). -/
  events : List BbEvent := []
  /-- snapshots, newest first (48 × 35 KB bits; 22 R545, R546; reset: S empty). -/
  snaps : List Snapshot := []
  /-- black-box sequence counter (32 bits; 22 R543; reset: S 0). -/
  bbSeq : Nat := 0
  /-- snapshots since the last clear (32 bits; 22 R546; reset: S 0). -/
  snapCount : Nat := 0
  /-- records written of the snapshot collecting on each port, + 1 (22 R545; reset: S none). -/
  collecting : Tab Nat Nat := []
  /-- black-box staging: sweeps of each port, newest first (512 KB bits; 22 R545; 01 R24; reset: S empty). -/
  staging : Tab Nat (List Staged) := []
  /-- remapped sectors (23 R553; reset: S none). -/
  remap : List Nat := []
  /-- records deferred or held, oldest first (22 R536, R537; reset: S none). -/
  held : List HeldRec := []
  /-- record starts are refused (interruption) (1 bits; 22 R537; reset: S false). -/
  refuse : Bool := false
  /-- firmware slots: 0 A, 1 B (2 × 768 KB bits; 22 R539; reset: D9 slot A valid, version 0). -/
  fw : Tab Nat FwSlot := []
  /-- active slot (1 bits; 22 R540; 19 R486; reset: D9 A). -/
  fwActive : Nat := 0
  /-- slot marked for trial at the next start (1 bits; 22 R540; reset: S none). -/
  fwTrial : Option Nat := none
  /-- start of the trial in progress (64 bits; 22 R540; reset: S none). -/
  fwTrialT : Option Nat := none
  /-- slot to revert to (1 bits; 22 R540; reset: D9 A). -/
  fwPrev : Nat := 0
  /-- image data loaded into each slot (22 R539; reset: S none). -/
  images : Tab Nat (List Byte) := []
  /-- version of the running firmware (32 bits; 20 R494 GLB_FW_VERSION; reset: D9 0). -/
  fwVersion : Nat := 0
  /-- when the table of a cell was written, since the power-on reset (7,680 × 64 bits; 07 R197, R199; reset: S none). -/
  impT : Tab Nat Nat := []
  /-- passports are due (1 bits; 03 R82; reset: S false). -/
  passDue : Bool := false
  deriving DecidableEq, Repr, Inhabited

/-- Self-repair (chapter 23, REPAIR block of 20). -/
structure Repair where
  /-- spare rows used (8 bits; 20 R499; 23 R549; reset: S 0). -/
  rows : Nat := 0
  /-- spare columns used (8 bits; 20 R499; 23 R549; reset: S 0). -/
  cols : Nat := 0
  /-- pages mapped out (8 bits; 23 R550; reset: S 0). -/
  pages : Nat := 0
  /-- port served by PE16 (4 bits; 20 R499; 23 R554; reset: S none). -/
  pe16Port : Option Nat := none
  /-- PE16 failed (1 bits; 20 R499 REPAIR_ENGINE [5]; reset: S false). -/
  pe16Bad : Bool := false
  /-- lane replaced by the spare (3 bits; 20 R499; 23 R556; reset: S none). -/
  spareLane : Option Nat := none
  /-- working lanes (4 bits; 20 R499; 01 R41; reset: S 8). -/
  lanes : Nat := 8
  /-- lanes declared failed, the spare as lane 8 (9 bits; 23 R556; reset: S 0). -/
  laneBad : BitVec 9 := 0
  /-- lockstep mismatch since power-on reset (1 bits; 20 R499 REPAIR_ENGINE [24]; reset: S false). -/
  lockstep : Bool := false
  /-- corrected errors, saturating (32 bits; 20 R499 REPAIR_ECC_CE; reset: S 0). -/
  ce : Nat := 0
  /-- uncorrectable errors, saturating (32 bits; 20 R499 REPAIR_ECC_UE; reset: S 0). -/
  ue : Nat := 0
  /-- time of the last corrected error of a word (23 R551; reset: S none). -/
  ceWords : Tab Nat Nat := []
  /-- repair records, newest first (16 B each bits; 23 R558; reset: S none (no factory repair, D3)). -/
  records : List RepairRec := []
  /-- elements failing the measurement reference check (3 bits; 23 R559, R560; reset: S 0). -/
  refBad : BitVec 3 := 0
  /-- engines failing their loopback test (17 bits; 23 R554, R560; reset: S 0). -/
  engBad : BitVec 17 := 0
  deriving DecidableEq, Repr, Inhabited

/-- The SX4096. -/
structure State where
  /-- commands waiting, first in, first out (the row's cut; reset: M empty). -/
  pending : List Instr := []
  /-- time base (01, 16; reset: see TimeBase). -/
  time : TimeBase := {}
  /-- power (20, 21; reset: see Power). -/
  pwr : Power := {}
  /-- host interface (18–20; reset: see HostIf). -/
  host : HostIf := {}
  /-- rings (64 bits; 18 R439; reset: S R459 (Ring.reset n)). -/
  rings : Tab Nat Ring := []
  /-- W1C registers and their event counters (15 × 40 bits; 20 R492–R506; reset: S 0, but GLB_RESET_CAUSE 0x0000_0001 with counter 0x01). -/
  ev : Tab EvReg EvSt := []
  /-- *_IRQ_CFG registers (12 × 32 bits; 20 R493; reset: S 0). -/
  irqCfg : Tab IrqBlk Word := []
  /-- fuses (11, 22; reset: see FuseBank). -/
  fuse : FuseBank := {}
  /-- configuration (14; reset: see CfgStore). -/
  cfg : CfgStore := {}
  /-- fault sources F00–F63 (64 bits; 11; reset: see LatchSt). -/
  faults : Tab Nat LatchSt := []
  /-- Wade mode (11; reset: see Wade). -/
  wade : Wade := {}
  /-- disconnects: by string, 16 the pack, 17 + c OTH contactor c (65 bits; 11 R290, R291; reset: see Disc). -/
  discs : Tab Nat Disc := []
  /-- contactors (48 bits; 12; reset: see Ctr). -/
  ctrs : Tab Nat Ctr := []
  /-- openings, by string (16 bits; 12; reset: see StrOpen). -/
  opens : Tab Nat StrOpen := []
  /-- pre-charge resistors, by string (16 bits; 12; reset: see Pre). -/
  pres : Tab Nat Pre := []
  /-- close sequence (12; reset: see Seq). -/
  seq : Seq := {}
  /-- OUT channels (12 bits; 13; reset: see OutCh). -/
  outs : Tab Nat OutCh := []
  /-- low-side switches (4 bits; 13; reset: see Lsw). -/
  lsws : Tab Nat Lsw := []
  /-- drive stage (13; reset: see Drv). -/
  drv : Drv := {}
  /-- chain ports (16 bits; 03–05; reset: see Port). -/
  ports : Tab Nat Port := []
  /-- nodes, by port × 64 + address (16 × 33 bits; 03, 04; reset: see Node). -/
  nodes : Tab Nat Node := []
  /-- chain commands awaiting a response, by port (04 R113; reset: S none). -/
  reqs : Tab Nat (List ChainReq) := []
  /-- next frame seq, by port × 2 + end (8 each bits; 04 R109; reset: D1 0). -/
  chainSeq : Tab Nat Nat := []
  /-- live cell state, by global index (8,192 bits; 05; reset: see CellLive). -/
  cells : Tab Nat CellLive := []
  /-- estimator state, by global index (8,192 bits; 07, 08; reset: see CellEst). -/
  ests : Tab Nat CellEst := []
  /-- temperature sensors (4,104 bits; 10; reset: see Sensor). -/
  sens : Tab Nat Sensor := []
  /-- zones (32 bits; 10; reset: see Zone). -/
  zones : Tab Nat Zone := []
  /-- junction (10; reset: see Therm). -/
  therm : Therm := {}
  /-- strings (16 bits; 06–09; reset: see Str). -/
  strs : Tab Nat Str := []
  /-- pack (06–09; reset: see Pack). -/
  pack : Pack := {}
  /-- HVIL loops (2 bits; 14; reset: see Hvil). -/
  hvil : Tab Nat Hvil := []
  /-- isolate request (14; reset: see DualIn). -/
  iso : DualIn := {}
  /-- box lid (14; reset: see DualIn). -/
  lid : DualIn := {}
  /-- other safety inputs (14; reset: see SafeIn). -/
  safe : SafeIn := {}
  /-- received safe messages (8 (8 the partner's STATUS) bits; 14; reset: see SafeMsg). -/
  msgs : Tab Nat SafeMsg := []
  /-- axle channels (2 bits; 15; reset: see Axle). -/
  axles : Tab Nat Axle := []
  /-- CAN controllers (2 bits; 16; reset: see CanCtl). -/
  cans : Tab Nat CanCtl := []
  /-- the pair (17; reset: see Pair). -/
  pair : Pair := {}
  /-- non-volatile memory (22; reset: see Mram). -/
  mram : Mram := {}
  /-- repairs (23; reset: see Repair). -/
  repair : Repair := {}
  /-- what the module has put on its connectors and into host memory, newest first (02, 18; reset: M empty). -/
  sent : List Output := []
  /-- counter of the free values drawn (Config.freeValue) (M; reset: D10 0). -/
  free : Nat := 0
  deriving DecidableEq, Repr

/-- Ring `n` at every reset of the HOST domain (18 R442, R459). -/
def Ring.reset (n : Nat) : Ring :=
  let r : Ring := { vector := n }
  if n = 0 then { r with typ := .submission, cq := 1, groups := 0x1FF#9 }
  else if n = 1 then { r with typ := .completion }
  else if n = 2 then { r with typ := .submission, cq := 3, groups := 0x018#9 }
  else if n = 3 then { r with typ := .completion }
  else if n < 40 then { r with typ := .stream, fn := n - 3 }
  else if n = 40 then { r with typ := .submission, fn := 0x30, cq := 1, groups := 0x040#9 }
  else if n = 41 then { r with typ := .stream, fn := 0x25 }
  else if n = 42 then { r with typ := .submission, fn := 0x31, cq := 1, groups := 0x040#9 }
  else if n = 43 then { r with typ := .stream, fn := 0x26 }
  else if n = 44 then { r with typ := .stream, fn := 0x27 }
  else if n = 45 then { r with typ := .submission, cq := 1, groups := 0x020#9 }
  else if n = 46 then { r with typ := .stream, fn := 0x28 }
  else if n = 47 then { r with typ := .stream, fn := 0x29 }
  else r

/-- The module right after power-on reset (20 R491, R496; 21 R522 step 1): every field at the value INVENTORY.md
lists; GLB_RESET_CAUSE reads 1, with its counter at 1, and the `reset` source of GLB_IRQ_STATUS is not set (R491). -/
def State.reset : State := { ev := [(.resetCause, { bits := 1, cnt := 1 })] }

end Sys2Proof.Machine
end

