-- ==== Sys2Proof/Machine/Ops.lean ====
section
/-! DEFINITION. The named operations every meaning is written with: keyed access to the state, the time base, what the
module puts out, event registers and interrupts, stream records, black-box and non-volatile records, the completion of
commands. -/

namespace Sys2Proof.Machine

open Sys2Proof

/-- What a command answers. -/
abbrev Out := Host.Outcome State Fault Refusal

/-! ## Keyed access -/

/-- The entry of `rings` at a key. -/
def State.ring (s : State) (k : Nat) : Ring := s.rings.getD k (Ring.reset k)
/-- `rings` with the entry at a key changed by `g`. -/
def State.onRing (s : State) (k : Nat) (g : Ring → Ring) : State := { s with rings := s.rings.set k (g (s.ring k)) }

/-- The entry of `ev` at a key. -/
def State.evr (s : State) (k : EvReg) : EvSt := s.ev.getD k ({} : EvSt)
/-- `ev` with the entry at a key changed by `g`. -/
def State.onEvr (s : State) (k : EvReg) (g : EvSt → EvSt) : State := { s with ev := s.ev.set k (g (s.evr k)) }

/-- The entry of `irqCfg` at a key. -/
def State.irqc (s : State) (k : IrqBlk) : Word := s.irqCfg.getD k (0 : Word)
/-- `irqCfg` with the entry at a key changed by `g`. -/
def State.onIrqc (s : State) (k : IrqBlk) (g : Word → Word) : State := { s with irqCfg := s.irqCfg.set k (g (s.irqc k)) }

/-- The entry of `faults` at a key. -/
def State.fault (s : State) (k : Nat) : LatchSt := s.faults.getD k ({} : LatchSt)
/-- `faults` with the entry at a key changed by `g`. -/
def State.onFault (s : State) (k : Nat) (g : LatchSt → LatchSt) : State := { s with faults := s.faults.set k (g (s.fault k)) }

/-- A source on one scope. -/
def State.mark (s : State) (n scope : Nat) : ScopeMark := (s.fault n).marks.getD scope {}
/-- … and changed. -/
def State.onMark (s : State) (n scope : Nat) (g : ScopeMark → ScopeMark) : State :=
  s.onFault n (fun f => { f with marks := f.marks.set scope (g (s.mark n scope)) })

/-- The entry of `discs` at a key. -/
def State.disc (s : State) (k : Nat) : Disc := s.discs.getD k ({} : Disc)
/-- `discs` with the entry at a key changed by `g`. -/
def State.onDisc (s : State) (k : Nat) (g : Disc → Disc) : State := { s with discs := s.discs.set k (g (s.disc k)) }

/-- The entry of `ctrs` at a key. -/
def State.ctr (s : State) (k : Nat) : Ctr := s.ctrs.getD k ({} : Ctr)
/-- `ctrs` with the entry at a key changed by `g`. -/
def State.onCtr (s : State) (k : Nat) (g : Ctr → Ctr) : State := { s with ctrs := s.ctrs.set k (g (s.ctr k)) }

/-- The entry of `opens` at a key. -/
def State.opn (s : State) (k : Nat) : StrOpen := s.opens.getD k ({} : StrOpen)
/-- `opens` with the entry at a key changed by `g`. -/
def State.onOpn (s : State) (k : Nat) (g : StrOpen → StrOpen) : State := { s with opens := s.opens.set k (g (s.opn k)) }

/-- The entry of `pres` at a key. -/
def State.pre (s : State) (k : Nat) : Pre := s.pres.getD k ({} : Pre)
/-- `pres` with the entry at a key changed by `g`. -/
def State.onPre (s : State) (k : Nat) (g : Pre → Pre) : State := { s with pres := s.pres.set k (g (s.pre k)) }

/-- The entry of `outs` at a key. -/
def State.outc (s : State) (k : Nat) : OutCh := s.outs.getD k ({} : OutCh)
/-- `outs` with the entry at a key changed by `g`. -/
def State.onOutc (s : State) (k : Nat) (g : OutCh → OutCh) : State := { s with outs := s.outs.set k (g (s.outc k)) }

/-- The entry of `lsws` at a key. -/
def State.lsw (s : State) (k : Nat) : Lsw := s.lsws.getD k ({} : Lsw)
/-- `lsws` with the entry at a key changed by `g`. -/
def State.onLsw (s : State) (k : Nat) (g : Lsw → Lsw) : State := { s with lsws := s.lsws.set k (g (s.lsw k)) }

/-- The entry of `ports` at a key. -/
def State.port (s : State) (k : Nat) : Port := s.ports.getD k ({} : Port)
/-- `ports` with the entry at a key changed by `g`. -/
def State.onPort (s : State) (k : Nat) (g : Port → Port) : State := { s with ports := s.ports.set k (g (s.port k)) }

/-- The entry of `nodes` at a key. -/
def State.node (s : State) (k : Nat) : Node := s.nodes.getD k ({} : Node)
/-- `nodes` with the entry at a key changed by `g`. -/
def State.onNode (s : State) (k : Nat) (g : Node → Node) : State := { s with nodes := s.nodes.set k (g (s.node k)) }

/-- The entry of `reqs` at a key. -/
def State.req (s : State) (k : Nat) : List ChainReq := s.reqs.getD k ([] : List ChainReq)
/-- `reqs` with the entry at a key changed by `g`. -/
def State.onReq (s : State) (k : Nat) (g : List ChainReq → List ChainReq) : State := { s with reqs := s.reqs.set k (g (s.req k)) }

/-- The entry of `chainSeq` at a key. -/
def State.cseq (s : State) (k : Nat) : Nat := s.chainSeq.getD k (0 : Nat)
/-- `chainSeq` with the entry at a key changed by `g`. -/
def State.onCseq (s : State) (k : Nat) (g : Nat → Nat) : State := { s with chainSeq := s.chainSeq.set k (g (s.cseq k)) }

/-- The entry of `cells` at a key. -/
def State.cell (s : State) (k : Nat) : CellLive := s.cells.getD k ({} : CellLive)
/-- `cells` with the entry at a key changed by `g`. -/
def State.onCell (s : State) (k : Nat) (g : CellLive → CellLive) : State := { s with cells := s.cells.set k (g (s.cell k)) }

/-- The entry of `ests` at a key. -/
def State.est (s : State) (k : Nat) : CellEst := s.ests.getD k ({} : CellEst)
/-- `ests` with the entry at a key changed by `g`. -/
def State.onEst (s : State) (k : Nat) (g : CellEst → CellEst) : State := { s with ests := s.ests.set k (g (s.est k)) }

/-- The entry of `sens` at a key. -/
def State.sensor (s : State) (k : Nat) : Sensor := s.sens.getD k ({} : Sensor)
/-- `sens` with the entry at a key changed by `g`. -/
def State.onSensor (s : State) (k : Nat) (g : Sensor → Sensor) : State := { s with sens := s.sens.set k (g (s.sensor k)) }

/-- The entry of `zones` at a key. -/
def State.zone (s : State) (k : Nat) : Zone := s.zones.getD k ({} : Zone)
/-- `zones` with the entry at a key changed by `g`. -/
def State.onZone (s : State) (k : Nat) (g : Zone → Zone) : State := { s with zones := s.zones.set k (g (s.zone k)) }

/-- The entry of `strs` at a key. -/
def State.str (s : State) (k : Nat) : Str := s.strs.getD k ({} : Str)
/-- `strs` with the entry at a key changed by `g`. -/
def State.onStr (s : State) (k : Nat) (g : Str → Str) : State := { s with strs := s.strs.set k (g (s.str k)) }

/-- The entry of `hvil` at a key. -/
def State.loop (s : State) (k : Nat) : Hvil := s.hvil.getD k ({} : Hvil)
/-- `hvil` with the entry at a key changed by `g`. -/
def State.onLoop (s : State) (k : Nat) (g : Hvil → Hvil) : State := { s with hvil := s.hvil.set k (g (s.loop k)) }

/-- The entry of `msgs` at a key. -/
def State.msg (s : State) (k : Nat) : SafeMsg := s.msgs.getD k ({} : SafeMsg)
/-- `msgs` with the entry at a key changed by `g`. -/
def State.onMsg (s : State) (k : Nat) (g : SafeMsg → SafeMsg) : State := { s with msgs := s.msgs.set k (g (s.msg k)) }

/-- The entry of `axles` at a key. -/
def State.axle (s : State) (k : Nat) : Axle := s.axles.getD k ({} : Axle)
/-- `axles` with the entry at a key changed by `g`. -/
def State.onAxle (s : State) (k : Nat) (g : Axle → Axle) : State := { s with axles := s.axles.set k (g (s.axle k)) }

/-- The entry of `cans` at a key. -/
def State.can (s : State) (k : Nat) : CanCtl := s.cans.getD k ({} : CanCtl)
/-- `cans` with the entry at a key changed by `g`. -/
def State.onCan (s : State) (k : Nat) (g : CanCtl → CanCtl) : State := { s with cans := s.cans.set k (g (s.can k)) }

/-- Key of the node at address `a` of port `p`. -/
def nk (p a : Nat) : Nat := 64 * p + a

/-! ## Time (01 R27–R31) -/

/-- `n` milliseconds in ns. -/
def ms (n : Nat) : Nat := n * 1000000

/-- `n` microseconds in ns. -/
def us (n : Nat) : Nat := n * 1000

/-- `n` seconds in ns. -/
def sec (n : Nat) : Nat := n * 1000000000

/-- `n` minutes in ns. -/
def mins (n : Nat) : Nat := sec (60 * n)

/-- The time base moved on to `t`, never backwards (R27): how an event that falls due at `t` reaches its instant
(assumption log 11). The ticks that pass count towards the next slewed one, and a wait of R31 is over once time goes on. -/
def State.at (s : State) (t : Nat) : State :=
  { s with time := { s.time with
      now := max s.time.now t, ticksSinceSlew := min 10000 (s.time.ticksSinceSlew + (t - s.time.now) / 10)
      stall := if s.time.now < t then 0 else s.time.stall } }

/-- The time base stepped forward to `t` (01 R30, R31): no tick passes. -/
def State.stepTo (s : State) (t : Nat) : State := { s with time := { s.time with now := max s.time.now t } }

/-- Module time. -/
def State.now (s : State) : Nat := s.time.now

/-- Held network time offset, ns, slewed towards its target at no more than the slew limit (16 R405). -/
def State.netHeld (s : State) : Int :=
  let t := s.time
  let slew := match s.cfg.work with | some b => b.cfg.net.slew | none => 1000
  let d := t.netTarget - t.netOfs
  let m : Nat := min d.natAbs ((t.now - t.netOfsT) * slew / 1000000)
  if d < 0 then t.netOfs - m else t.netOfs + m

/-- Network time (16 R405). -/
def State.netTime (s : State) : Nat := ((s.now : Int) + s.netHeld).toNat

/-! ## Outputs -/

/-- The items that carry a value of the time base (01 R28). -/
def Output.carriesTime : Output → Bool
  | .chain .. | .mark .. | .can .. | .heartbeat _ | .train .. | .result .. | .recordBody .. | .recordHeader .. => true
  | _ => false

/-- A value of the time base is read out: the last one is kept (01 R28). -/
def State.stamped (s : State) : State := { s with time := { s.time with lastOut := max s.time.lastOut s.time.now } }

/-- Puts one item on the connectors or into host memory; a time value that leaves the module is the last read out. -/
def State.emit (s : State) (o : Output) : State :=
  { s with
    sent := o :: s.sent
    time := if o.carriesTime then { s.time with lastOut := max s.time.lastOut s.time.now } else s.time }

/-- One Causeway frame of a type, with the next seq of that type (17 R411, R412). -/
def State.cause (s : State) (typ : Nat) (o : Nat → Output) : State :=
  let q := (s.pair.txSeq.getD typ 0 + 1) % 65536
  ({ s with pair := { s.pair with txSeq := s.pair.txSeq.set typ q } } : State).emit (o q)

/-- A coil channel change or its echo (12 R331). -/
def State.sendCoil (s : State) (f : CoilFrame) : State := s.cause 2 (fun q => .coil q f)

/-- An event frame. -/
def State.sendEvt (s : State) (e : PairEvt) : State := s.cause 3 (fun q => .pairEvt q e)

/-- A training frame. -/
def State.sendTrain (s : State) (i : PartnerId) : State := s.cause 4 (fun q => .train q i)

/-- A mirrored write or its result. -/
def State.sendNvw (s : State) (f : NvwFrame) : State := s.cause 5 (fun q => .nvw q f)

/-- Mirrored state, which the service cores assemble (01 R25). -/
def State.sendMirror (s : State) (i : MirrorItem) : State := if s.drv.svcUp then s.cause 6 (fun q => .mirror q i) else s

/-! ## The configuration and the fuses -/

/-- The configuration in force: that of the working copy while the seal is valid, and an empty one otherwise
(14 R369, R370). -/
def State.conf (s : State) : Cfg :=
  match s.cfg.work with
  | some b => if s.cfg.valid then b.cfg else {}
  | none => {}

/-- The general items of the configuration in force. -/
def State.gen (s : State) : GenCfg := s.conf.gen

/-- The configuration of a declared port. -/
def State.portCfg (s : State) (p : Nat) : PortCfg := s.conf.ports.getD p {}

/-- The port is declared. -/
def State.declared (s : State) (p : Nat) : Bool := s.conf.ports.any (fun x => x.1 == p)

/-- The declared ports, in port order. -/
def State.portList (s : State) : List Nat := (List.range 16).filter s.declared

/-- The module belongs to a pair (17 R407). -/
def State.isPair (s : State) : Bool := s.fuse.set.position != 0

/-- The module acts as primary: a single module always, a module of a pair as primary or provisional primary. -/
def State.actsPrimary (s : State) : Bool :=
  !s.isPair || s.pair.role == .primary || s.pair.role == .provisional

/-- The module may make mirrored writes, send ISO_CTRL and close contactors (17 R424). -/
def State.fullPrimary (s : State) : Bool := !s.isPair || s.pair.role == .primary

/-- The module serial number: bytes 0x34–0x3B of fuse slot 0 (22 R541). -/
def State.serial (s : State) : Nat := field (s.fuse.slots.getD 0 []) 0x34 8

/-- A fuse slot that is programmed passes its CRC-32C (11 R302; 22 R541). -/
def slotPasses (img : List Byte) : Bool :=
  img.length == 128 && field img 0x7C 4 == (crc32c (img.take 0x7C)).toNat

/-- FUSE_SET_CRC (22 R541): bytes 0x04–0x33 of the slot in force, bits [18:16] of the word at 0x2C taken as 0. -/
def State.fuseCrc (s : State) : Nat :=
  let img := s.fuse.slots.getD s.fuse.inForce []
  let b := (img.drop 4).take 0x30
  (crc32c (b.take 0x2A ++ le 1 ((field b 0x2A 1) / 8 * 8) ++ b.drop 0x2B)).toNat

/-- The Fastan seal in force, 0 when none (20 R494). -/
def State.sealInForce (s : State) : Nat := if s.cfg.valid then (s.cfg.sealVal.getD 0).toNat else 0

/-- The emergency-supply command is in force from either source (14 R366; 19 R473). -/
def State.emergency (s : State) : Bool := s.pack.emgHost || s.pack.emgMsg

/-! ## Event registers and interrupts (18 R457, R458; 20 R492, R493) -/

/-- The `*_IRQ_CFG` register and half that map an interrupt source of GLB_IRQ_STATUS (20 R493). -/
def irqMap (src : Nat) : IrqBlk × Bool :=
  match src with
  | 0 => (.glb0, false) | 1 => (.glb0, true) | 2 => (.glb1, false) | 3 => (.pwr, false) | 4 => (.time, false)
  | 5 => (.therm, false) | 6 => (.repair, false) | 7 => (.canA, false) | 8 => (.canA, true) | 9 => (.canB, false)
  | 10 => (.canB, true) | 11 => (.spd, false) | 12 => (.spd, true) | 13 => (.drv, false) | 14 => (.safein, false)
  | _ => (.pair, false)

/-- An interrupt source is enabled: bit [8], or [24] for the second source of its block. -/
def State.irqEnabled (s : State) (src : Nat) : Bool :=
  let m := irqMap src
  (s.irqc m.1).getLsbD (if m.2 then 24 else 8)

/-- The MSI-X vector an interrupt source is mapped to. -/
def State.irqVector (s : State) (src : Nat) : Nat :=
  let m := irqMap src
  (s.irqc m.1).toNat / (if m.2 then 65536 else 1) % 64

/-- Bits of `GLB_RING_PEND_LO` and `_HI` of rings whose `ie` is set. -/
def State.ringPendEnabled (s : State) : Bool :=
  (List.range 64).any (fun n =>
    (s.ring n).ie && ((s.evr (if n < 32 then .ringPendLo else .ringPendHi)).bits.getLsbD (n % 32)))

/-- Drives IRQ_N: low while MSI-X is disabled and an enabled bit of GLB_IRQ_STATUS is set (18 R458), but not in D3hot, which stops
interrupts (18 R438). -/
def State.driveIrq (s : State) : State :=
  let low := !s.host.msixEn && !s.host.d3hot && (s.ringPendEnabled ||
    (List.range 16).any (fun n => s.irqEnabled n && (s.evr .irqStatus).bits.getLsbD n))
  { s with host := { s.host with irqN := !low } }

/-- One MSI-X message, or the pending bit of a masked vector (18 R457). Nothing is sent in D3hot (18 R438). -/
def State.msix (s : State) (v : Nat) : State :=
  if s.host.msixMask.getLsbD v || s.host.d3hot then
    { s with host := { s.host with msixPend := s.host.msixPend ||| (1#64 <<< v) } }
  else s.emit (.msix v)

/-- Hardware sets bits of a W1C register: its counter increments at every setting, up to 0xFF (20 R492). -/
def State.setBits (s : State) (r : EvReg) (b : Word) : State :=
  s.onEvr r (fun e => { bits := e.bits ||| b, cnt := min (e.cnt + 1) 0xFF })

/-- An interrupt source is set (20 R493): its bit of GLB_IRQ_STATUS, a message when it is enabled and MSI-X is enabled,
and IRQ_N. -/
def State.raiseIrq (s : State) (src : Nat) : State :=
  let s := s.setBits .irqStatus (1#32 <<< src)
  let s := if s.host.msixEn && s.irqEnabled src then s.msix (s.irqVector src) else s
  s.driveIrq

/-- The interrupt source of a W1C register (20 R493); none for GLB_IRQ_STATUS and the ring bits. -/
def evIrq : EvReg → Option Nat
  | .resetCause => some 1 | .pwr => some 3 | .time => some 4 | .therm => some 5 | .repair => some 6
  | .canA => some 8 | .canB => some 10 | .spd0 => some 11 | .spd1 => some 12 | .drv => some 13
  | .safein => some 14 | .pair => some 15 | .irqStatus | .ringPendLo | .ringPendHi => none

/-- Bit `n` of an event register is set by hardware, and its interrupt source with it; an SPDn_EVENT bit interrupts
only while its SPDn_IRQ_EN bit is set (20 R493, R503). -/
def State.event (s : State) (r : EvReg) (n : Nat) : State :=
  let s := s.setBits r (1#32 <<< n)
  let on := match r with
    | .spd0 => (s.axle 0).irqEn.getLsbD n
    | .spd1 => (s.axle 1).irqEn.getLsbD n
    | _ => true
  match evIrq r with
  | some src => if on then s.raiseIrq src else s
  | none => s

/-! ## Stream records (18 R453–R459) -/

/-- Function codes of the stream rings (18 R459). -/
def fnCells (p : Nat) : Nat := 0x01 + p
def fnImp (p : Nat) : Nat := 0x11 + p
def fnEst : Nat := 0x21
def fnLimits : Nat := 0x22
def fnEvents : Nat := 0x23
def fnBlackBox : Nat := 0x24
def fnCanRx (c : Nat) : Nat := 0x25 + c
def fnAxle : Nat := 0x27
def fnNvOut : Nat := 0x28
def fnPair : Nat := 0x29

/-- The enabled stream ring that holds a function code; no ring serves code 0x00 (18 R459). -/
def State.streamRing (s : State) (fn : Nat) : Option Nat :=
  if fn = 0 then none
  else (List.range 64).find? (fun n => (s.ring n).en && (s.ring n).typ == .stream && (s.ring n).fn == fn)

/-- A record falls due on the ring of a function code. A function whose ring is disabled drops it without count
(18 R459). -/
def State.record (s : State) (fn : Nat) (body : List Byte) : State :=
  match s.streamRing fn with
  | some _ => { s with host := { s.host with streamQ := s.host.streamQ ++ [{ fn := fn, body := body }] } }
  | none => s

/-- A 32-byte event record other than a fault change (11 R305). -/
def State.eventRec (s : State) (kind code subject port : Nat) (v1 v2 v3 : Int) : State :=
  s.record fnEvents (le 1 kind ++ le 1 code ++ le 1 subject ++ le 1 port ++ leI 4 v1 ++ le 8 s.now ++ leI 4 v2 ++
    leI 4 v3 ++ zeros 8)

/-- A CAN event record (16 R402). -/
def State.canRec (s : State) (c code id : Nat) (v : Int) : State :=
  s.record fnEvents (le 1 5 ++ le 1 c ++ le 1 code ++ le 1 0 ++ le 4 id ++ le 8 s.now ++ leI 4 v ++ zeros 4)

/-! ## Non-volatile records (22 R530–R538) -/

/-- The commit word after `c`: neither 0x0000_0000 nor 0xFFFF_FFFF is used (22 R530). -/
def nextCommit (c : Nat) : Nat :=
  let n := (c + 1) % 2 ^ 32
  if n = 0 || n = 0xFFFFFFFF then 1 else n

/-- The next commit word of a record kind, from the module-wide counter of the kind. -/
def State.commitOf (s : State) (kind : Nat) : Nat := nextCommit (s.mram.commit.getD kind 0)

/-- Takes the next commit word of a record kind. -/
def State.takeCommit (s : State) (kind : Nat) : State :=
  { s with mram := { s.mram with commit := s.mram.commit.set kind (s.commitOf kind) } }

/-- The MRAM is mounted: step 5 of a start-up is past (21 R522, R527). -/
def State.mounted (s : State) : Bool := !(s.pwr.starting && decide (s.pwr.startStep < 5))

/-- A record may start: the MRAM is mounted, no interruption refuses it, PWR_HOLDUP reports at least 10 ms (22 R536, R537),
and in Run the service cores, which write the records, are not in reset (01 R25). In Peat only AON runs (21 R515). -/
def State.mayWrite (s : State) : Bool :=
  s.mounted && !s.mram.refuse && 100 ≤ s.pwr.holdup && (s.drv.svcUp || s.pwr.st == .moss)

/-- PWR_HOLDUP reports a value (21 R525; 22 R536). -/
def State.holdupNow (s : State) (h : Nat) : State := { s with pwr := { s.pwr with holdup := h } }

/-- The copy of an A/B record that a write targets: the one that does not hold the highest valid sequence, copy A when
neither is valid (22 R532); true for copy B. -/
def targetsB (a b : Option NvRec) : Bool :=
  match a, b with
  | none, _ => false
  | some _, none => true
  | some x, some y => y.commit ≤ x.commit

/-- The newest valid copy of an A/B record (22 R532). -/
def newest (a b : Option NvRec) : Option NvRec :=
  match a, b with
  | some x, some y => if x.commit < y.commit then some y else some x
  | some x, none => some x
  | none, y => y

/-- Look-up of an optional entry. -/
def Tab.find {α : Type} (t : Tab Nat α) (k : Nat) : Option α := (t.filter (fun x => x.1 == k)).head?.map Prod.snd

/-- The ageing record of a cell in force (08 R235). -/
def State.ageing (s : State) (g : Nat) : Option NvRec := newest (Tab.find s.mram.ageA g) (Tab.find s.mram.ageB g)

/-! ## The journal (22 R534, R584) -/

/-- One 80-byte entry of a kind 0x03 journal body. -/
def ctrEntry (port flags : Nat) (qNet : Int) (qIn qOut cycles hours : Nat) (dod : List Nat) : List Byte :=
  le 1 port ++ le 1 flags ++ zeros 6 ++ leI 8 qNet ++ le 8 qIn ++ le 8 qOut ++ le 4 cycles ++ le 4 hours ++
    (dod.map (le 4)).flatten

/-- Histogram of a string, bin 0 first. -/
def dodList (x : Str) : List Nat := (List.range 10).map (fun i => x.dod.getD i 0)

/-- A kind 0x03 journal body after its header: every configured string in port order, then the pack with the sums. -/
def State.counterBody (s : State) : List Byte :=
  let l := s.portList
  let sum (f : Str → Nat) : Nat := (l.map (fun p => f (s.str p))).sum
  let net : Int := (l.map (fun p => (s.str p).qNet)).sum
  let es := l.map (fun p =>
    let x := s.str p
    ctrEntry p (x.conn.toNat + 2 * x.subst.toNat) x.qNet x.qIn x.qOut x.cycles x.hours (dodList x))
  let pk := ctrEntry 255 ((l.any (fun p => (s.str p).conn)).toNat + 2 * s.pack.subst.toNat) net (sum (·.qIn)) (sum (·.qOut))
    (sum (·.cycles)) (sum (·.hours)) ((List.range 10).map (fun i => sum (fun x => x.dod.getD i 0)))
  le 8 s.now ++ le 1 (l.length + 1) ++ zeros 7 ++ es.flatten ++ pk

/-- Bytes of an entry: header, payload, CRC and commit word, aligned to 64 bytes. -/
def JEntry.size (e : JEntry) : Nat := (24 + e.body.length + 63) / 64 * 64

/-- The newest entries that fit in a number of bytes. -/
def journalFit : Nat → List JEntry → List JEntry
  | _, [] => []
  | n, e :: r => if e.size ≤ n then e :: journalFit (n - e.size) r else []

/-- A valid kind 0x03 entry. -/
def JEntry.counters (e : JEntry) : Bool := e.kind == 3 && e.commit != 0

/-- Appends an entry to the 128 KB of the journal, over the oldest ones. Where that would overwrite the newest valid kind
0x03 entry, a new one is written before it. -/
def State.journal (s : State) (e : JEntry) : State :=
  let l := journalFit 131072 (e :: s.mram.journal)
  if l.any (·.counters) || !s.mram.journal.any (·.counters) then { s with mram := { s.mram with journal := l } }
  else
    let k : JEntry := { kind := 3, body := s.counterBody, commit := s.commitOf 7 }
    let s := s.takeCommit 7
    { s with mram := { s.mram with journal := journalFit 131072 (e :: k :: s.mram.journal) } }

/-- An entry of kind 0x04 completes the entry with a commit word. -/
def State.isApplied (s : State) (c : Nat) : Bool := s.mram.journal.any (fun e => e.kind == 4 && e.commit != 0 && field e.body 0 4 == c)

/-- Commits the applied entry of a journal entry (22 R534): it holds the sequence of the entry it completes. -/
def State.applied (s : State) (c : Nat) : State :=
  let j := s.commitOf 7
  (s.takeCommit 7).journal { kind := 4, body := le 4 c, commit := j }

/-- The learning of a cell whose journal entry is committed and whose ageing record was not written since (22 R538). -/
def State.learningOpen (s : State) (g : Nat) : Option JEntry :=
  s.mram.journal.find? (fun e => e.kind == 2 && e.subject == g && e.commit != 0 && !s.isApplied e.commit)

/-! ## Snapshots (22 R545, R546) -/

/-- The slot of the next snapshot (22 R546): 0–7 for the first eight since the last clear, then 8–47 in turn. -/
def State.snapSlot (s : State) : Nat := if s.mram.snapCount < 8 then s.mram.snapCount else 8 + (s.mram.snapCount - 8) % 40

/-- Body of a snapshot's header record, as held at the trigger (22 R545). -/
def State.snapHeader (s : State) (p source cls pos : Nat) : List Byte :=
  let slot := s.snapSlot
  let pre := min 16 (s.mram.staging.getD p []).length
  let c := s.portCfg p
  let temps := (List.range 256).map (fun k => leI 2 ((s.sensor (256 * p + k)).last.getD 0))
  let stacks_ := (List.range 32).map (fun o => le 4 (s.node (nk p ((addrOf c o).getD 0))).stack)
  padTo 1016 (le 1 2 ++ le 1 p ++ le 1 source ++ le 1 cls ++ le 2 pos ++ le 1 slot ++ le 1 pre ++ le 8 s.now ++ le 1 c.m ++
    le 1 (portC c) ++ zeros 6 ++ temps.flatten ++ stacks_.flatten)

/-- The header record of a snapshot is committed (22 R545 step 1, R546): its slot is taken, and the port's last 16
sweeps up to the trigger wait in order to be written. -/
def State.snapCommit (s : State) (b : List Byte) : State :=
  let q := nextCommit s.mram.bbSeq
  let p := field b 1 1
  let t := field b 8 8
  let signed (n : Nat) : Int := (BitVec.ofNat 16 n).toInt
  let pre := (((s.mram.staging.getD p []).filter (fun x => x.t ≤ t)).take 16).reverse
  let todo := pre.zipIdx.map (fun x => { x.1 with idx := x.2 })
  let sn : Snapshot := {
    slot := s.snapSlot, port := p, source := field b 2 1, cls := field b 3 1, pos := field b 4 2, pre := todo.length
    t := t, m := field b 16 1, c := field b 17 1
    temps := (List.range 256).map (fun k => signed (field b (24 + 2 * k) 2))
    stackV := (List.range 32).map (fun o => field b (0x218 + 4 * o) 4), seq := q, todo := todo }
  { s with mram := { s.mram with
      bbSeq := q, snaps := sn :: s.mram.snaps.filter (fun x => x.slot ≠ sn.slot), snapCount := s.mram.snapCount + 1
      collecting := s.mram.collecting.set p 1 } }

/-! ## Commits -/

/-- A committed record of kind `r.kind` is in force in MRAM (22 R528–R535): an impedance table through the journal,
ageing and estimator records into the copy R532 names, the other system records in place. Bodies: roster 33 identifiers,
serial, generation; open taps the port's lower cells; offsets the offset and the time it was learned. -/
def State.nvCommit (s : State) (r : NvReq) : State :=
  let c := s.commitOf r.kind
  let s := s.takeCommit r.kind
  match r.kind with
  | 0x01 =>
    let j := s.commitOf 7
    let s := s.takeCommit 7
    let s := s.journal { kind := 1, target := 320 * r.key, subject := r.key, body := r.body, commit := j }
    ({ s with mram := { s.mram with imp := s.mram.imp.set r.key { body := r.body, commit := c }, impT := s.mram.impT.set r.key s.now } }).applied j
  | 0x02 =>
    let m := s.mram
    let t : State := if targetsB (Tab.find m.ageA r.key) (Tab.find m.ageB r.key) then
        { s with mram := { m with ageB := m.ageB.set r.key { body := r.body, commit := c } } }
      else { s with mram := { m with ageA := m.ageA.set r.key { body := r.body, commit := c } } }
    match t.learningOpen r.key with
    | some e => t.applied e.commit
    | none => t
  | 0x04 =>
    if targetsB s.mram.estA s.mram.estB then { s with mram := { s.mram with estB := some { body := r.body, commit := c } } }
    else { s with mram := { s.mram with estA := some { body := r.body, commit := c } } }
  | 0x07 =>
    if r.key = 2 then
      let g := field r.body 0 2
      let b := targetsB (Tab.find s.mram.ageA g) (Tab.find s.mram.ageB g)
      s.journal { kind := 2, target := (if b then 0x300000 else 0x280000) + 64 * g, subject := g, body := r.body, commit := c }
    else s.journal { kind := r.key, body := r.body, commit := c }
  | 0x08 =>
    let s := if s.actsPrimary then s else s.onStr r.key (fun x => { x with serial := [], gen := 0 })
    let ids := (List.range 33).map (fun a => (nk r.key (a + 1), BitVec.ofNat 64 (field r.body (8 * a) 8)))
    { s with mram := { s.mram with
        roster := ids.foldl (fun t x => t.set x.1 x.2) s.mram.roster
        rosterSerial := s.mram.rosterSerial.set r.key ((r.body.drop 264).take 17) } }
  | 0x09 =>
    let lower := (List.range (r.body.length / 2)).map (fun i => field r.body (2 * i) 2)
    { s with mram := { s.mram with taps := s.mram.taps.filter (fun g => g / 512 != r.key) ++ lower } }
  | 0x0A =>
    { s with mram := { s.mram with offs := s.mram.offs.set r.key (BitVec.ofNat 32 (field r.body 0 4)).toInt } }
  | 0x0B => { s with mram := { s.mram with remap := s.mram.remap ++ [r.key] } }
  | 0x0C =>
    let q := nextCommit s.mram.bbSeq
    let e : BbEvent := {
      code := field r.body 1 1, subject := field r.body 2 1, port := field r.body 3 1, value := field r.body 4 4
      t := field r.body 8 8, value2 := field r.body 16 4, value3 := field r.body 20 4, seq := q }
    { s with mram := { s.mram with bbSeq := q, events := (e :: s.mram.events).take 11264 } }
  | 0x0D => s.snapCommit r.body
  | _ => s

/-- A record falls due (22 R536, R537): it is written when a record may start, and is otherwise deferred or held in
SRAM, PWR_EVENT [3] reporting a hold-up below 10 ms. -/
def State.nvDue (s : State) (r : NvReq) : State :=
  if s.mayWrite then s.nvCommit r
  else
    let s := { s with mram := { s.mram with held := s.mram.held ++ [{ req := r, due := s.now }] } }
    if s.mram.refuse || !s.mounted || 100 ≤ s.pwr.holdup then s else s.event .pwr 3

/-- A black-box event falls due (22 R544). -/
def State.bbEvent (s : State) (code subject port : Nat) (v v2 v3 : Nat) : State :=
  let b := le 1 1 ++ le 1 code ++ le 1 subject ++ le 1 port ++ le 4 v ++ le 8 s.now ++ le 4 v2 ++ le 4 v3
  s.stamped.nvDue { kind := 0x0C, key := code, body := b }

/-! ## The mirror (17 R428, R429, R434) -/

/-- The mirrored region of a record kind, in the order of R428: configuration, roster, ageing record, impedance table,
confirmed open taps, learned offsets, the journal's string counters. -/
def regionOf (kind : Nat) : Nat :=
  match kind with
  | 0x08 => 1 | 0x02 => 2 | 0x01 => 3 | 0x09 => 4 | 0x0A => 5 | 0x07 => 6 | _ => 0

/-- PAIR_STATUS (20 R506); 0 on a single module. -/
def State.pairStatus (s : State) : Nat :=
  if s.isPair then
    let lat (n : Nat) : Nat := ((s.fault n).standing != 0#17).toNat
    s.fuse.set.position + 4 * s.pair.role.ctorIdx + 16 * s.pair.trained.toNat + 32 * s.pair.hbOk.toNat +
      64 * s.pair.proof.toNat + 128 * (s.pair.diverged != 0#7).toNat + 256 * lat 56 + 512 * lat 57 +
      1024 * s.pair.gained.toNat + 2048 * s.pair.fuseDiff.toNat
  else 0

/-- Mean of the offsets of the last 64 heartbeats (17 R415); 0 on a primary or single module (20 R500). -/
def State.pairOfs (s : State) : Int :=
  if s.isPair && s.pair.role == .standby && s.pair.ofs.length != 0 then s.pair.ofs.sum / (s.pair.ofs.length : Int) else 0

/-- The status record of a pair (17 R434). -/
def State.pairStatusRec (s : State) : State :=
  if s.isPair then
    ({ s with pair := { s.pair with statSeen := s.pairStatus } } : State).record fnPair (le 1 1 ++ le 1 s.fuse.set.position ++ le 1 s.pair.role.ctorIdx ++ le 1 0 ++ le 4 s.pairStatus ++
      le 8 s.pair.partner.serial.toNat ++ le 8 s.now ++ le 4 s.pair.diverged.toNat ++ le 4 s.pair.resync ++
      le 4 s.pair.delay ++ leI 4 s.pairOfs ++ le 4 s.pair.hbMiss ++ le 4 s.pair.crcErr ++ padTo 40 s.pair.hbSent ++
      padTo 40 (if s.pair.hbOk then s.pair.hbRcvd else []))
  else s

/-- A status record at every change of PAIR_STATUS (17 R434). -/
def State.pairChanged (s : State) : State := if s.pairStatus = s.pair.statSeen then s else s.pairStatusRec

/-- A pair event (17 R434): PAIR_EVENT bit `n`, its event record and a status record. -/
def State.pairEvent (s : State) (n : Nat) (before : PairRole) (v tRef : Nat) : State :=
  let s := s.event .pair n
  (s.record fnPair (le 1 2 ++ le 1 (n + 1) ++ le 1 before.ctorIdx ++ le 1 s.pair.role.ctorIdx ++ le 4 v ++ le 8 s.now ++
    le 8 tRef)).pairStatusRec

/-- Marks the mirror diverged for a region (17 R429, R430). -/
def State.diverge (s : State) (region : Nat) : State :=
  let d := s.pair.diverged ||| (1#7 <<< region)
  let s' := { s with pair := { s.pair with diverged := d } }
  if d = s.pair.diverged then s' else s'.pairEvent 5 s.pair.role d.toNat 0

/-- The partner is alive: heartbeats arrive over the trained Causeway. -/
def State.partnerUp (s : State) : Bool := s.isPair && s.pair.trained && s.pair.hbOk

/-- A mirrored record falls due (17 R428, R429): the primary writes its own copy and sends it in an NVW frame; without
a partner, or without the service cores that assemble it (01 R25), the write succeeds on one module only, and the mirror is
diverged. A provisional primary makes none (R424). -/
def State.mirrorDue (s : State) (r : NvReq) (ref : Option CmdRef) : State :=
  if !s.fullPrimary then s
  else
    let s := s.nvDue r
    if !s.isPair then s
    else if s.partnerUp && s.drv.svcUp then
      let s := s.sendNvw (.write r)
      { s with pair := { s.pair with nvw := s.pair.nvw ++ [{ req := r, t := s.now, ref := ref }] } }
    else s.diverge (regionOf r.kind)

/-! ## Completions and the command log (18 R449–R452; 19 R466, R487) -/

/-- Length-limited head of the command log: 64 entries (19 R487). -/
def State.logAdd (s : State) (e : LogEntry) : State := { s with host := { s.host with log := (e :: s.host.log).take 64 } }

/-- The log entry of a command, changed. -/
def State.logMod (s : State) (r : CmdRef) (g : LogEntry → LogEntry) : State :=
  { s with host := { s.host with log := s.host.log.map (fun e => if e.ref = r then g e else e) } }

/-- The command as it stands in the log and in its completion. -/
def State.refOf (s : State) (op : Nat) (d : Desc) : CmdRef := { d := d, opcode := op, t := s.now, gen := (s.ring d.sq).gen, epoch := s.host.epoch }

/-- One command of a submission ring has completed (18 R449); it counts towards the enable it was fetched under. -/
def State.release (s : State) (r : CmdRef) : State :=
  if (s.ring r.d.sq).gen = r.gen && s.host.epoch = r.epoch then s.onRing r.d.sq (fun q => { q with outst := q.outst - 1 })
  else s

/-- A command has finished (18 R450; 19 R466): it leaves the running commands, its outcome enters the command log, and
its completion is due, unless it asked for none on OK. No completion is written for a command started before a reset of
the host interface (18 R460). -/
def State.finish (s : State) (r : CmdRef) (status value : Nat) (result : List Byte) (isPartial : Bool) : State :=
  let s := s.logMod r (fun e => { e with
    tEnd := s.now, status := status, value := value, isPartial := isPartial
    ok := if isPartial then field result 4 1 else 0 })
  let s := { s with host := { s.host with running := s.host.running.filter (fun c => c.ref ≠ r) } }
  if r.epoch ≠ s.host.epoch then s
  else if r.d.noCpl && status == 0 then s.release r
  else { s with host := { s.host with finished := s.host.finished ++
      [{ ref := r, status := status, value := value, result := result, isPartial := isPartial }] } }

/-- A started command goes on (18 R449). -/
def State.keep (s : State) (c : RunCmd) : State := { s with host := { s.host with running := s.host.running ++ [c] } }

/-- A command of an opcode is running. -/
def State.busy (s : State) (op : Nat) : Bool := s.host.running.any (fun c => c.ref.opcode == op)

/-- The module accepts a command: it enters the log (19 R487), and an open maintenance session counts its 30 min from
it (14 R371). -/
def State.accept (s : State) (r : CmdRef) : State :=
  let s := s.logAdd { ref := r }
  if s.cfg.maint then { s with cfg := { s.cfg with maintT := s.now } } else s

/-- The PARTIAL member array (19 R468): header and entries of (member, result, state_a, state_b, value_a, value_b,
value_c). -/
def memberArray (kind ok : Nat) (es : List (Nat × Nat × Nat × Nat × Int × Nat × Nat)) : List Byte :=
  le 1 kind ++ le 1 es.length ++ le 1 16 ++ le 1 0 ++ le 1 ok ++ zeros 3 ++
    (es.map (fun (m, r, a, b, va, vb, vc) =>
      le 1 m ++ le 1 r ++ le 1 a ++ le 1 b ++ leI 4 va ++ le 4 vb ++ le 4 vc)).flatten

/-- Words of the factory repair record in fuse slot 0 that hold a repair (23 R558). -/
def State.factoryRepairs (s : State) : List Nat :=
  ((List.range 15).map (fun i => field (s.fuse.slots.getD 0 []) (0x3C + 4 * i) 4)).filter (fun w => 2 ^ 30 ≤ w)

/-- Spare rows and columns used (23 R549): by the factory repairs, kinds 1 and 2, and in the field. -/
def State.rowsUsed (s : State) : Nat := (s.factoryRepairs.filter (fun w => w / 2 ^ 30 == 1)).length + s.repair.rows
def State.colsUsed (s : State) : Nat := (s.factoryRepairs.filter (fun w => w / 2 ^ 30 == 2)).length + s.repair.cols

/-- A field repair is recorded, with its black-box event; factory entries come first in the numbering (23 R558). -/
def State.repairRec (s : State) (kind unit detail : Nat) : State :=
  let r : RepairRec := { kind := kind, origin := 1, unit := unit, detail := detail, t := s.now }
  let s := { s with repair := { s.repair with records := r :: s.repair.records } }
  s.bbEvent 7 kind 255 (s.factoryRepairs.length + s.repair.records.length - 1) 0 0

/-- A repair is reported (23 R558): its record, REPAIR_EVENT bit and black-box event. -/
def State.repaired (s : State) (kind unit detail bit : Nat) : State := (s.event .repair bit).repairRec kind unit detail

/-! ## Free values -/

/-- Draws the next free value (assumption log 10): what it is, and the state with the counter advanced. -/
def State.draw (s : State) : Nat × State := (Config.freeValue s.free, { s with free := s.free + 1 })

/-- PWR_HOLDUP reports a value that no command tells: a free value (assumption log 10). -/
def State.holdupDrawn (s : State) : State :=
  let (h, s) := s.draw
  s.holdupNow (h % 2 ^ 32)

/-! ## Items of the configuration that have no default (06 R582; 07 R208) -/

/-- The pack current input is in voltage mode; its sensor ratio, mA per mA or V. -/
def State.packVolt (s : State) : Bool := s.gen.packVolt.getD false
def State.packRatio (s : State) : Int := s.gen.packRatio.getD 0

/-- Offset bound of a string, mA. -/
def offB (c : PortCfg) : Nat := c.oS.getD 0

end Sys2Proof.Machine
end

