-- ==== Sys2Proof/Machine/Flags.lean ====
section
/-! DEFINITION. The fault sources' fixed properties and effective classes (11 R284–R287, R296), what latches cover a
scope, and the status words of the register blocks (20 R495–R506). Scopes 0–15 are strings, 16 is pack or module. -/

namespace Sys2Proof.Machine

open Sys2Proof

/-! ## The sources (11 R287) -/

/-- Scope kind of a source as in the fault record: 0 module, 1 pack, 2 string (F52: as detected, by the scope). -/
def scopeKind (n scope : Nat) : Nat :=
  if n ∈ [14, 15, 37, 38, 39, 55, 56, 57, 58, 59, 60, 61, 62, 63] then 0
  else if n ∈ [13, 16, 17, 19, 20, 34, 40, 41, 42, 43, 44, 45, 46, 47, 48, 53, 54] then 1
  else if n = 52 && scope == 16 then 1
  else 2

/-- Default classes of F00–F63. -/
def defClass : List Nat :=
  [0, 0, 1, 1, 4, 2, 2, 1, 0, 3, 3, 1, 4, 2, 1, 4] ++
  [0, 1, 1, 3, 3, 3, 3, 1, 3, 0, 3, 3, 1, 3, 3, 2] ++
  [1, 4, 0, 4, 4, 2, 1, 1, 0, 0, 0, 3, 1, 3, 3, 3] ++
  [4, 3, 4, 4, 2, 2, 3, 4, 3, 3, 4, 1, 0, 1, 2, 1]

/-- Sources that act in class A whatever the configuration and the fuses hold (11 R286). -/
def isFixed (n : Nat) : Bool := n ∈ [0, 1, 8, 16, 40, 41, 42, 60]

/-- Sources that enter Wade mode in class D. -/
def isW (n : Nat) : Bool := n ∈ [19, 20, 21, 24, 26, 43, 45, 46, 47, 56, 57]

/-- Redundancy group of a W source (11 R296): one per chain port for F24 and F26. -/
def wGroup (n scope : Nat) : Nat :=
  if n = 24 || n = 26 then 100 + scope
  else if n ≤ 21 then 1
  else if n = 56 || n = 57 then 56
  else n

/-- Default persistence, ms; 0 where the persistence is in the detection rule. -/
def defPers (n : Nat) : Nat :=
  match n with
  | 2 | 3 => 50 | 4 => 60000 | 6 | 7 => 1000 | 13 => 1000 | 18 => 20 | 22 => 5000 | 39 => 10 | 53 => 10000
  | 62 => 1000 | _ => 0

/-- Default derate factor of a class D source, per mille. -/
def defFactor (n : Nat) : Nat := if n ∈ [10, 29, 30, 49] then 1000 else 500

/-- Class code of a fused minimum-class field: codes 5–7 act as class A (22 R541). -/
def fusedClass (c : Nat) : Nat := if c ≥ 5 then 0 else c

/-- Settings of a source. -/
def State.faultCfg (s : State) (n : Nat) : FaultCfg := s.conf.faults.getD n {}

/-- Persistence of a source, ns; F07 takes 3 s in Moss. -/
def State.persistence (s : State) (n : Nat) : Nat :=
  if n = 7 && s.pwr.st == .moss then sec 3 else ms ((s.faultCfg n).pers.getD (defPers n))

/-- Derate factor of a source, per mille. -/
def State.factor (s : State) (n : Nat) : Nat := (s.faultCfg n).factor.getD (defFactor n)

/-- An end of the port is supervised: it holds lock and receives idle ordered sets (11 R287 F24). -/
def State.supervised (s : State) (p : Nat) : Bool :=
  let q := s.port p
  let e := (s.fault 24).ends
  (q.lockN && !e.getLsbD (2 * p)) || (q.lockS && !e.getLsbD (2 * p + 1))

/-- Effective class of a source on a scope (11 R286): the stricter of the configured and the fused minimum class; F24
with no end supervised is at least class B; escalations of R291 and R297 hold until the latch clears. -/
def State.effClass (s : State) (n scope : Nat) : Nat :=
  let f := s.fault n
  if isFixed n then 0
  else
    let c := min ((s.faultCfg n).cls.getD (defClass.getD n 4)) (fusedClass (s.fuse.set.minCls.getD n 4))
    let c := if n = 24 && !s.supervised scope then min c 1 else c
    let c := if f.escC.getLsbD scope then min c 2 else c
    if f.escB.getLsbD scope then min c 1 else c

/-- A source is latched on a scope. -/
def State.isLatched (s : State) (n scope : Nat) : Bool := (s.fault n).latched.getLsbD scope

/-- A source's condition stands on a scope. -/
def State.stands (s : State) (n scope : Nat) : Bool := (s.fault n).standing.getLsbD scope

/-- A source is latched on a scope or on the pack or module. -/
def State.covers (s : State) (n scope : Nat) : Bool := s.isLatched n scope || s.isLatched n 16

/-- The effective class with which a source acts on a scope, 4 when it does not cover it. -/
def State.coverClass (s : State) (n scope : Nat) : Nat :=
  min (if s.isLatched n scope then s.effClass n scope else 4) (if s.isLatched n 16 then s.effClass n 16 else 4)

/-- The strictest effective class among the latches that cover a scope (11 R298); 4 when none does. -/
def State.scopeClass (s : State) (scope : Nat) : Nat :=
  (List.range 64).foldl (fun c n => min c (s.coverClass n scope)) 4

/-- Close commands for a scope are refused (11 R295; R297 for W sources that still stand after the expiry). -/
def State.closeBarred (s : State) (scope : Nat) : Bool :=
  s.scopeClass scope ≤ 2 ||
    (s.wade.expired && (List.range 64).any (fun n => isW n && (s.fault n).wade && (s.stands n scope || s.stands n 16)))

/-- Remaining Wade timer, ms (11 R297). -/
def State.wadeLeft (s : State) : Nat :=
  if s.wade.on then s.wade.left - (s.now - s.wade.since) / 1000000 else 0xFFFFFFFF

/-- Remaining hold window, ms (20 R504 DRV_HOLD). -/
def State.holdLeft (s : State) : Nat := if s.drv.hold then (s.drv.holdEnd - s.now) / 1000000 else 0

/-- Permission C (19 R465): the safety cores are supervising, no hold window is running, F63 is not standing. -/
def State.coresOk (s : State) : Bool := s.drv.coresUp && !s.drv.hold && !s.stands 63 16

/-- Every configured contactor is OPEN (permission O, 19 R465). -/
def State.allOpen (s : State) : Bool := (List.range s.conf.ctrs.length).all (fun i => (s.ctr i).st == .isOpen)

/-- The OUT channel is selected for limp-home (11 R300; 13 R345). -/
def State.limpSel (s : State) (ch : Nat) : Bool := s.fuse.set.limpSel.getLsbD ch

/-! ## Status words -/

/-- Bits of a list of Booleans, first at bit 0. -/
def bitsOf (l : List Bool) : Nat := l.foldr (fun b r => b.toNat + 2 * r) 0

/-- Flags [9:0] shared by GLB_STATUS and the module entry (19 R486; 20 R495). -/
def State.moduleFlags (s : State) : Nat :=
  bitsOf [s.cfg.valid, s.cfg.pend.isSome, s.cfg.maint, s.wade.on, s.drv.limp, s.drv.hold, s.pair.diverged != 0#7,
    s.safe.standstill, s.pack.reserve, s.emergency]

/-- GLB_STATUS (20 R495). -/
def State.glbStatus (s : State) : Nat :=
  s.moduleFlags + 1024 * s.coresOk.toNat + 2048 * s.host.ready.toNat + 4096 * s.fuse.set.position +
    16384 * s.pair.role.ctorIdx

/-- Bit n set while Fn is latched at any scope (20 R494 GLB_FAULT; 17 R414). -/
def State.latchedMask (s : State) : Nat := bitsOf ((List.range 64).map (fun n => (s.fault n).latched != 0#17))

/-- Bit n set while the condition of Fn stands at any scope (20 R494 GLB_STANDING). -/
def State.standingMask (s : State) : Nat := bitsOf ((List.range 64).map (fun n => (s.fault n).standing != 0#17))

/-- DRV_OUT_STATE (20 R504). -/
def State.outState (s : State) : Nat :=
  bitsOf ((List.range 12).map (fun n => (s.outc n).on)) + 65536 * bitsOf ((List.range 12).map (fun n => (s.outc n).cmd))

/-- DRV_OUT_FLAGS (20 R504). -/
def State.outFlags (s : State) : Nat :=
  bitsOf ((List.range 12).map (fun n => (s.outc n).tripped)) +
    65536 * bitsOf ((List.range 12).map (fun n => (s.outc n).openLoad))

/-- DRV_LSW_STATE (20 R504). -/
def State.lswState (s : State) : Nat :=
  bitsOf ((List.range 4).map (fun n => (s.lsw n).closed)) +
    16 * bitsOf ((List.range 4).map (fun n => s.gen.lswUsed.getD n false)) +
    256 * bitsOf ((List.range 4).map (fun n => (s.lsw n).f38)) +
    4096 * bitsOf ((List.range 4).map (fun n => (s.lsw n).hwOpen))

/-- DRV_LIMP (20 R504). -/
def State.limpStatus (s : State) : Nat :=
  s.drv.limp.toNat + 2 * (!s.drv.limpN).toNat + 4 * s.drv.limpWd.toNat + 16 * s.drv.din.toNat

/-- One loop's byte of SAFEIN_HVIL (20 R505). -/
def State.hvilByte (s : State) (n : Nat) : Nat :=
  let l := s.loop n
  l.passed.toNat + 2 * (s.stands (40 + n) 16).toNat + 4 * l.kind

/-- SAFEIN_ISO and SAFEIN_LID (20 R505). -/
def State.dualStatus (s : State) (d : DualIn) (both disc : Nat) : Nat :=
  bitsOf [d.c0, d.c1, d.pe0, d.pe1, s.stands both 16, s.stands disc 16]

/-- Each channel of a pair has passed its pulse check since power-on or wake from Peat, or has failed it: only a pair that is
judged is evaluated (14 R354, R357; assumption log 49). -/
def DualIn.judged (d : DualIn) : Bool := (d.prov0 || d.pe0) && (d.prov1 || d.pe1)

/-- Channel 0 reads closed: a channel with a pulse error, or not proven yet, counts as open (14 R354). -/
def DualIn.closed0 (d : DualIn) : Bool := d.c0 && !d.pe0 && d.prov0

/-- As `closed0`, channel 1. -/
def DualIn.closed1 (d : DualIn) : Bool := d.c1 && !d.pe1 && d.prov1

/-- Configuration of an axle channel, when its sensor is configured (15 R384). -/
def State.axleCfg (s : State) (n : Nat) : Option AxleCfg := Tab.find s.conf.axles n

/-- An axle channel is valid: configured, and no case of R382 stands. -/
def State.axleValid (s : State) (n : Nat) : Bool := (s.axleCfg n).isSome && !(s.axle n).bad

/-- Distance of `q` quarter pitches in `ns`, mm/s (15 R379). -/
def spdOf (c : AxleCfg) (q ns : Nat) : Nat := if c.n = 0 || ns = 0 then 0 else c.circ * q * 1000000000 / (4 * c.n * ns)

/-- Edges of one revolution: 4 × (N − M) (15). -/
def revEdges (c : AxleCfg) : Nat := 4 * (c.n - c.m)

/-- Reported speed of an axle channel at the present time, mm/s (15 R380, R381). -/
def State.axleSpeed (s : State) (n : Nat) : Nat :=
  let x := s.axle n
  match s.axleCfg n with
  | none => 0
  | some c =>
    if x.still || x.untimed then 0
    else
      let atGap := if x.lastDir == x.phaseRev then x.phase + 1 == revEdges c else x.phase == 0
      let q := if x.based && atGap then 4 * c.m + 1 else 1
      if s.now ≤ x.tEdge then x.speed else min x.speed (spdOf c q (s.now - x.tEdge))

/-- Safe speed, mm/s: the higher speed of the valid channels (14 R358), or the partner's mirrored speed when neither of
the module's own channels is valid (15 R383). -/
def State.safeSpeed (s : State) : Option Nat :=
  let own := ((List.range 2).filter s.axleValid).map s.axleSpeed
  if own.isEmpty then (if s.partnerUp then s.pair.partSpeed else none) else some (own.foldl max 0)

end Sys2Proof.Machine
end

