-- ==== Sys2Proof/Machine/Frame.lean ====
section
/-! DEFINITION. Frames of the chain (04 R108–R126): the header, the two checks, the frames a master end sends, and what
the frames it receives hold. -/

namespace Sys2Proof.Machine

open Sys2Proof

/-! ## The header check (R110) -/

/-- One bit of the CRC-8 register: polynomial 0x07, not reflected. -/
def crc8Bit (c : Byte) : Byte := if c.getLsbD 7 then (c <<< 1) ^^^ 0x07#8 else c <<< 1

/-- One byte of the CRC-8 register. -/
def crc8Byte (c b : Byte) : Byte :=
  crc8Bit (crc8Bit (crc8Bit (crc8Bit (crc8Bit (crc8Bit (crc8Bit (crc8Bit (c ^^^ b))))))))

/-- CRC-8 over bytes. -/
def crc8 (bs : List Byte) : Byte := bs.foldl crc8Byte 0#8

/-! ## Frames (R108, R109) -/

/-- A frame: the fields of its header and its payload. -/
structure Frame where
  /-- 1 CMD, 2 RSP, 3 REED, 4 COLLECT, 5 EVT (R111) -/
  typ : Nat
  /-- master frames: 0 N end, 1 S end -/
  end_ : Nat := 0
  tone : Bool := false
  dst : Nat := 0
  src : Nat := 0
  seq : Nat := 0
  /-- payload length in words; 0 in COLLECT -/
  len : Nat := 0
  ack : Bool := false
  rtx : Bool := false
  turned : Bool := false
  tag : Nat := 0
  payload : List Byte := []
  deriving DecidableEq, Repr, Inhabited

/-- Bytes 0–6 of the header; the version is 01b. -/
def Frame.head (f : Frame) : List Byte :=
  le 1 (16 * f.typ + 4 + 2 * f.end_ + f.tone.toNat) ++ le 1 (f.dst % 64) ++ le 1 (f.src % 64) ++ le 1 f.seq ++
    le 2 (f.len % 1024 + 1024 * f.ack.toNat + 2048 * f.rtx.toNat + 4096 * f.turned.toNat) ++ le 1 f.tag

/-- The bytes of a frame between SOF and EOF: header with its CRC-8, payload, CRC-32C. -/
def Frame.bytes (f : Frame) : List Byte :=
  let b := f.head ++ [crc8 f.head] ++ f.payload
  b ++ le 4 (crc32c b).toNat

/-- CMD (R113, R123): a response is requested unless the frame goes to all nodes. -/
def cmdFrame (e addr tag seq : Nat) (rtx : Bool) (payload : List Byte) : List Byte :=
  ({ typ := 1, end_ := e, dst := addr, seq := seq, len := payload.length / 4, ack := addr != 63, rtx := rtx, tag := tag
     payload := payload } : Frame).bytes

/-- REED (R115): t_stamp, sweep sequence number, mode and flags, corner. -/
def reedFrame (e cseq t seq flags corner : Nat) : List Byte :=
  ({ typ := 3, end_ := e, dst := 63, seq := cseq, len := 3, tag := seq % 256
     payload := le 8 t ++ le 2 seq ++ le 1 flags ++ le 1 corner } : Frame).bytes

/-- COLLECT as it is launched (R117): an empty payload, to all nodes, address 63, for the spec names no dst (DESIGN CHOICE, assumption
log 117). -/
def collectFrame (e cseq seq : Nat) : List Byte :=
  ({ typ := 4, end_ := e, dst := 63, seq := cseq, tag := seq % 256 } : Frame).bytes

/-! ## Receiving (R100, R110–R112) -/

/-- Why a received frame is discarded: a line error in it, its header check, its version or type, its CRC-32C or its
length. After a header that fails everything up to the next EOF is discarded, which is what the frame's bytes are. -/
inductive FrameErr where | line | header | kind | check
  deriving DecidableEq, Repr

/-- A bit of a byte of the header. -/
def hbit (b : List Byte) (i j : Nat) : Bool := (b.getD i 0).getLsbD j

/-- The header's fields and the payload of a frame that is `b`. -/
def frameOf (b : List Byte) : Frame :=
  { typ := field b 0 1 / 16, end_ := field b 0 1 / 2 % 2, tone := hbit b 0 0, dst := field b 1 1 % 64, src := field b 2 1 % 64
    seq := field b 3 1, len := field b 4 2 % 1024, ack := hbit b 5 2, rtx := hbit b 5 3, turned := hbit b 5 4
    tag := field b 6 1, payload := (b.drop 8).take (b.length - 12) }

/-- The CRC-32C at the end of a frame holds. -/
def crcHolds (b : List Byte) : Bool := field b (b.length - 4) 4 == (crc32c (b.take (b.length - 4))).toNat

/-- A frame as its checks find it, in their order: line, header CRC-8, version and type, CRC-32C and length. -/
def frameParse (r : RawFrame) : Except FrameErr Frame :=
  let f := frameOf r.bytes
  if r.lineErr then .error .line
  else if r.bytes.length < 12 || r.bytes.getD 7 0 != crc8 (r.bytes.take 7) then .error .header
  else if field r.bytes 0 1 / 4 % 4 ≠ 1 || f.typ = 0 || 5 < f.typ then .error .kind
  else if !crcHolds r.bytes || (f.typ ≠ 4 && f.payload.length ≠ 4 * f.len) then .error .check
  else .ok f

/-- Where the header holds, the sweep a COLLECT frame belongs to is known whether or not its CRC-32C holds (R112). -/
def collectHead (r : RawFrame) : Option Nat :=
  let f := frameOf r.bytes
  if !r.lineErr && 12 ≤ r.bytes.length && r.bytes.getD 7 0 == crc8 (r.bytes.take 7) && f.typ = 4 then some f.tag else none

/-! ## Payloads (R115, R123–R126) -/

/-- The identity reply (R125). -/
def identityParse (b : List Byte) : Identity :=
  { uid := BitVec.ofNat 64 (field b 0 8), typ := field b 8 1, cells := field b 9 1, sensors := field b 10 1
    caps := b.getD 11 0, tta := field b 12 2, major := field b 14 1, minor := field b 15 1
    build := BitVec.ofNat 64 (field b 16 8) }

/-- Response data of a command (R123, R124). -/
def rspData (tag : Nat) (b : List Byte) : RspData :=
  match tag with
  | 0x01 | 0x02 => if b.length = 24 then .identity (identityParse b) else .none
  | 0x03 => .none
  | 0x0B => if b.length = 256 then .passport b else .none
  | 0x0E => if b.length = 4 then .tone (hbit b 0 0) else .none
  | 0x0F => if b.length = 4 then .selfTest (BitVec.ofNat 32 (field b 0 4)) else .none
  | 0x10 => if b.length = 16 then .status b else .none
  | _ => .echo b

/-- An RSP frame: the status word and the response data. -/
def rspOf (f : Frame) : Rsp :=
  { src := f.src, tag := f.tag, seq := f.seq, status := field f.payload 0 1, data := rspData f.tag (f.payload.drop 4) }

/-- What a REED frame says (R115). -/
structure Reed where
  t : Nat
  seq : Nat
  mode : Nat
  ow : Bool
  temps : Bool
  stack : Bool
  corner : Nat
  deriving DecidableEq, Repr, Inhabited

/-- The payload of a REED frame. -/
def reedOf (f : Frame) : Reed :=
  let b := f.payload
  { t := field b 0 8, seq := field b 8 2, mode := field b 10 1 % 4, ow := hbit b 10 2, temps := hbit b 10 3, stack := hbit b 10 4
    corner := field b 11 1 % 16 }

/-! ## Blocks (R119, R120) -/

/-- What is needed to delimit a node's block: its type (a string node or a monitor) and counts as its identity reply gives them, and
the REED flags of the sweep. -/
structure BlockShape where
  str : Bool
  cells : Nat
  sensors : Nat
  mode : Nat
  stack : Bool
  temps : Bool
  deriving DecidableEq, Repr, Inhabited

/-- A monitor block's cell sample at an offset: M3 in 100 µV, otherwise the voltage in 10 µV with its flags sense suspect
and balancing active. -/
def sampleAt (mode : Nat) (b : List Byte) (o : Nat) : Nat × Bool × Bool :=
  if mode = 3 then (field b o 2, false, false)
  else
    let w := field b o 3
    (w % 2 ^ 20, w / 2 ^ 20 % 2 == 1, w / 2 ^ 23 % 2 == 1)

/-- A signed field of `n` bytes. -/
def fieldI (b : List Byte) (o n : Nat) : Int := (BitVec.ofNat (8 * n) (field b o n)).toInt

/-- Bytes of a cell sample. -/
def sampleLen (mode : Nat) : Nat := if mode = 3 then 2 else 3

/-- Length of the block that begins at the head of `b` (R119): it follows from the node's type and counts and the REED
flags. -/
def BlockShape.length (h : BlockShape) (b : List Byte) : Nat :=
  if h.str then 15 + (if hbit b 1 6 then 4 else 0)
  else 3 + h.cells * sampleLen h.mode + (if h.stack then 4 else 0) + (if h.temps then 2 * h.sensors else 0)

/-- The block at the head of `b`, whose shape is `h`. A kind that is not its node's fails the check, like a wrong CRC-8. -/
def blockOf (h : BlockShape) (b : List Byte) : Block :=
  let n := h.length b
  let k := sampleLen h.mode
  let os := 2 + k * h.cells
  let ot := os + (if h.stack then 4 else 0)
  let str := h.str
  { addr := field b 0 1 % 64, isString := str, tone := hbit b 1 0, missed := hbit b 1 1, ow := hbit b 1 2
    settleShort := hbit b 1 3, selftest := hbit b 1 4, damaged := hbit b 1 5
    crcOk := b.getD (n - 1) 0 == crc8 (b.take (n - 1)) && field b 0 1 / 64 == h.str.toNat
    cells := if str then [] else (List.range h.cells).map (fun i => sampleAt h.mode b (2 + k * i))
    stack := if !str && h.stack then some (field b os 4) else none
    temps := if !str && h.temps then (List.range h.sensors).map (fun i => fieldI b (ot + 2 * i) 2) else []
    cur := if str then fieldI b 2 4 else 0, vStr := if str then fieldI b 6 4 else 0, vx := if str then fieldI b 10 4 else 0
    iso := if str && hbit b 1 6 then some (field b 14 4) else none }

/-- The blocks of a COLLECT frame's payload, in their order. `shape` gives what is known of a node. Bytes that no known
node's block fits end the list and count as one block that fails its check, which the spec does not say (DESIGN CHOICE,
assumption log 117). At most `n` blocks. -/
def blocksOf (shape : Nat → Option BlockShape) (n : Nat) (b : List Byte) : List Block :=
  match n with
  | 0 => []
  | n + 1 =>
    if b.isEmpty then []
    else match shape (field b 0 1 % 64) with
      | none => [{ addr := 0, crcOk := false }]
      | some h =>
        let k := h.length b
        if b.length < k then [{ addr := 0, crcOk := false }]
        else blockOf h b :: blocksOf shape n (b.drop k)

/-! ## Frames of the Causeway (17 R411, R412) -/

/-- A Causeway frame between SOF and EOF: the 8-byte header with its CRC-8, the payload, the CRC-32C. -/
def causeFrame (typ seq sub : Nat) (echo rtx : Bool) (payload : List Byte) : List Byte :=
  let h := le 1 (16 * typ + 1) ++ le 1 (echo.toNat + 2 * rtx.toNat) ++ le 2 seq ++ le 2 (payload.length / 4) ++ le 1 sub
  let b := h ++ [crc8 h] ++ payload
  b ++ le 4 (crc32c b).toNat

/-- A received Causeway frame passes its checks: header CRC-8, version, type, CRC-32C and length. -/
def causeOk (r : RawFrame) : Bool :=
  let b := r.bytes
  let typ := field b 0 1 / 16
  !r.lineErr && 12 ≤ b.length && b.getD 7 0 == crc8 (b.take 7) && field b 0 1 % 16 == 1 && 1 ≤ typ && typ ≤ 6 && crcHolds b &&
    b.length == 12 + 4 * (field b 4 2 % 512)

/-- The 40-byte payload of a heartbeat (17 R414). -/
def hbBytes (h : Heartbeat) : List Byte :=
  le 8 h.tTx ++ le 8 h.tRx ++ le 2 h.echo ++ le 1 h.role ++
    le 1 (h.sealValid.toNat + 2 * h.diverged.toNat + 4 * h.wade.toNat + 8 * h.limp.toNat + 16 * h.hold.toNat + 32 * h.gained.toNat) ++
    le 4 h.wadeLeft ++ le 2 h.coils.toNat ++ le 1 h.lsw.toNat ++ le 1 0 ++ le 4 h.sealVal.toNat ++ le 8 h.latched.toNat

/-- A heartbeat frame (17 R411, R414). -/
def hbFrame (h : Heartbeat) : List Byte := causeFrame 1 h.seq 0 false false (hbBytes h)

/-- The heartbeat that a frame holds; `none` for a frame of another type. -/
def hbParse (r : RawFrame) : Option Heartbeat :=
  let b := r.bytes.drop 8
  if field r.bytes 0 1 / 16 ≠ 1 || field r.bytes 4 2 % 512 ≠ 10 then none
  else some {
    seq := field r.bytes 2 2, tTx := field b 0 8, tRx := field b 8 8, echo := field b 16 2, role := field b 18 1
    sealValid := hbit b 19 0, diverged := hbit b 19 1, wade := hbit b 19 2, limp := hbit b 19 3, hold := hbit b 19 4
    gained := hbit b 19 5, wadeLeft := field b 20 4, coils := BitVec.ofNat 12 (field b 24 2), lsw := BitVec.ofNat 4 (field b 26 1)
    sealVal := BitVec.ofNat 32 (field b 28 4), latched := BitVec.ofNat 64 (field b 32 8) }

end Sys2Proof.Machine
end

