-- ==== Sys2Proof/Machine/ChainBase.lean ====
section
/-! DEFINITION. What the port engines send and how a port is woken (03 R70–R74; 04 R109–R131). -/

namespace Sys2Proof.Machine

open Sys2Proof

/-! ## Ends -/

/-- The ends of a port that belong to this module: those wired; in a pair the N ends on module A and the S ends on
module B (03 R70, R83). -/
def State.ownEnds (s : State) (p : Nat) : List Nat :=
  let c := s.portCfg p
  let w := (if c.endN then [0] else []) ++ (if c.endS then [1] else [])
  if s.fuse.set.position = 1 then w.filter (· == 0)
  else if s.fuse.set.position = 2 then w.filter (· == 1)
  else w

/-- The domains of the engine that serves a port are powered (01 R34; 02 R48): CHN_LO for P0–P7, CHN_HI for P8–P15 and for
PE16. -/
def State.chnUp (s : State) (p : Nat) : Bool :=
  s.pwr.domains.getLsbD (if p < 8 then 7 else 8) && (!(s.port p).engineBad || s.pwr.domains.getLsbD 8)

/-- The PHY of an end is powered (02 R50): the PHYs of a port's declared ends that belong to this module are switched
together. -/
def State.phyOn (s : State) (p e : Nat) : Bool := (s.port p).phy && (s.ownEnds p).contains e

/-- The end of every port that belongs to this module of a pair (03 R70, R83). -/
def State.pairEnd (s : State) : Nat := if s.fuse.set.position = 2 then 1 else 0

/-- The end enumeration and commands leave from: N in a single module; in a pair the end on the module that holds the
primary role (03 R70). -/
def State.activeEnd (s : State) (p : Nat) : Nat :=
  if s.isPair then (if s.actsPrimary then s.pairEnd else 1 - s.pairEnd)
  else if (s.portCfg p).endN then 0 else 1

/-- An end of a port is declared wired (03 R71). -/
def State.wired (s : State) (p e : Nat) : Bool := if e = 0 then (s.portCfg p).endN else (s.portCfg p).endS

/-- The acting module reaches an end of a port: its own, or the partner's over the Causeway (03 R91; assumption log 86). -/
def State.reaches (s : State) (p e : Nat) : Bool :=
  s.actsPrimary && ((s.ownEnds p).contains e || (s.partnerUp && s.wired p e && decide (e < 2)))

/-- The end that reaches a node: the active end, or in split mode the end on its side of the break (03 R89, R91). -/
def State.endTo (s : State) (p a : Nat) : Nat :=
  if (s.port p).split then (if a ≤ (s.port p).brkNode then 0 else 1) else s.activeEnd p

/-! ## Frames sent -/

/-- A frame leaves a master end at `t`; the end's sequence number advances (04 R109). -/
def State.chainOut (s : State) (p e t : Nat) (bytes : List Byte) : State :=
  (s.onCseq (2 * p + e) (fun n => (n + 1) % 256)).emit (.chain p e t bytes)

/-- Sends a CMD frame from an end (04 R109–R113), from the partner's over the Causeway. `addr` 63 is every node, 62 the
unaddressed node; a command to one node awaits its response. -/
def State.sendCmd (s : State) (p e addr tag : Nat) (payload : List Byte) (ref : Option CmdRef) : State :=
  let own := (s.ownEnds p).contains e
  let q := s.cseq (2 * p + e)
  let s := if own then s.chainOut p e s.now (cmdFrame e addr tag q false payload)
    else s.sendEvt (.chainCmd p addr tag false payload)
  if addr = 63 then s
  else s.onReq p (fun l => l ++ [{
    end_ := e, addr := addr, tag := tag, seq := q, payload := payload, cmd := ref, t := s.now }])

/-- Sends a command to a node of a port by the end that reaches it. -/
def State.sendTo (s : State) (p addr tag : Nat) (payload : List Byte) (ref : Option CmdRef) : State :=
  let e := s.endTo p addr
  if s.reaches p e then s.sendCmd p e addr tag payload ref else s

/-- Sends a broadcast to a port: from the active end, and in split mode from each end to its own segment (03 R91;
05 R156). -/
def State.broadcast (s : State) (p tag : Nat) (payload : List Byte) : State :=
  let es := [0, 1].filter (fun e => s.reaches p e && ((s.port p).split || e == s.activeEnd p))
  es.foldl (fun s e => s.sendCmd p e 63 tag payload none) s

/-- From now on a BALANCE command holds the balancing switches of these channels of a node, each to the end of its remaining duration,
and no other of the node's (08 R213; 04 R128, R132). -/
def State.balHold (s : State) (p a : Nat) (chs : List Nat) : State :=
  match monOrder (s.portCfg p) a with
  | none => s
  | some o => (List.range 16).foldl (fun s ch => s.onCell (gi p (16 * o + ch)) (fun c =>
      if chs.contains ch then { c with heldT := if s.now < c.heldEnd then c.heldT else s.now, heldEnd := c.bal }
      else { c with heldEnd := min c.heldEnd s.now })) s

/-- Sends a wake tone from an end (03 R73). -/
def State.toneSend (s : State) (p e : Nat) : State :=
  if (s.ownEnds p).contains e then s.emit (.wakeTone p e) else s.sendEvt (.chainWake p)

/-- ENUMERATE of the node being enumerated (04 R123): dst 62, address, end. -/
def State.enumerate (s : State) (p e addr : Nat) : State :=
  s.sendCmd p e 62 0x01 (le 1 addr ++ le 1 e ++ zeros 2) none

/-- Hard over-temperature limit of a port, 0.01 °C. -/
def State.hardOt (s : State) (p : Nat) : Int := min s.fuse.set.hardOt ((s.portCfg p).hardOt.getD s.fuse.set.hardOt)

/-- Hard over-temperature limit of a node: the lowest of its port's and of those of the zones that hold one of its sensors (10 R269,
R270). -/
def State.nodeOt (s : State) (p a : Nat) : Int :=
  match monOrder (s.portCfg p) a with
  | some o =>
    let own := (List.range (sensorsOf (s.portCfg p) o)).map (fun k => si p (8 * o + k))
    ((s.conf.zones.filter (fun z => z.2.sensors.any own.contains)).filterMap (fun z => z.2.hard)).foldl min (s.hardOt p)
  | none => s.hardOt p

/-- THRESH of a node (04 R124, R130): the fused hard limits within which the configuration may tighten, and the masks of
supervised channels and sensors. -/
def State.threshPayload (s : State) (p a : Nat) : List Byte :=
  let c := s.portCfg p
  let f := s.fuse.set
  let ov := min f.hardOv (c.hardOv.getD f.hardOv)
  let uv := max f.hardUv (c.hardUv.getD f.hardUv)
  let o := monOrder c a
  let nc := match o with | some o => cellsOf c o | none => 0
  let ns := match o with | some o => sensorsOf c o | none => 0
  le 4 ov ++ le 4 uv ++ leI 2 (s.nodeOt p a) ++ le 2 (2 ^ nc - 1) ++ le 2 (2 ^ ns - 1) ++ zeros 2

/-- Hard over-voltage limit of a port, 10 µV: the stricter of the fused and the configured limit (11 R300). -/
def State.hardOv (s : State) (p : Nat) : Nat := min s.fuse.set.hardOv ((s.portCfg p).hardOv.getD s.fuse.set.hardOv)

/-- Hard under-voltage limit of a port, 10 µV. -/
def State.hardUv (s : State) (p : Nat) : Nat := max s.fuse.set.hardUv ((s.portCfg p).hardUv.getD s.fuse.set.hardUv)

/-- The limits written to a string's nodes, the stricter of the fused and the configured ones, leave the under-voltage limit
below the over-voltage limit (04 R130). -/
def limitsOk (f : FuseSet) (c : PortCfg) : Bool :=
  decide (max f.hardUv (c.hardUv.getD f.hardUv) < min f.hardOv (c.hardOv.getD f.hardOv))

/-- … for every string of a configuration, under the fuse set in force. -/
def State.limitsFit (s : State) (c : Cfg) : Bool := c.ports.all (fun x => limitsOk s.fuse.set x.2)

/-- SET_DELAYS of a node (04 R123): d_N, d_S and D. -/
def State.delaysPayload (s : State) (p a D : Nat) : List Byte :=
  let n := s.node (nk p a)
  le 2 n.dN ++ le 2 n.dS ++ le 2 D ++ zeros 2

/-- PAIR_SUM of the pair of cells c, c + 1 of a node (04 R131). -/
def State.pairSumPayload (s : State) (p c : Nat) : List Byte :=
  le 1 c ++ zeros 3 ++ le 4 (2 * s.hardOv p - 5000) ++ le 4 (2 * s.hardUv p + 5000)

/-- SWEEP_CFG of a port (04 R123): settle time and every temperature sensor, for the mask to write is stated nowhere (DESIGN
CHOICE, assumption log 117). -/
def State.sweepCfgPayload (s : State) (p : Nat) : List Byte := le 2 (s.portCfg p).plan.settle ++ le 1 0xFF ++ zeros 1

/-! ## Waking a port (03 R73, R74) -/

/-- Starts the wake of a port at its active end; a standby's end listens. `hb` marks a heartbeat wake or the wake from Moss, in which retained
addresses, delays and thresholds stay (05 R155). On a port without an engine the recognisers keep their lock (01 R18). -/
def State.wakePort (s : State) (p : Nat) (warm hb : Bool) : State :=
  let e := s.activeEnd p
  let s := s.onPort p (fun q => { q with
    st := .wake, hop := 1, fromFar := 0, retried := false, warm := warm, heartbeat := hb, nap := false
    phy := true, lockN := !q.engine && q.lockN, lockS := !q.engine && q.lockS, reWake := false, far := e == 1
    dW := if hb then q.dW else 5100, calibrated := hb && q.calibrated, split := false, splitReq := false
    hopT := s.now, answered := false
    sweepOpen := false, endsDone := 0, owStep := 0, sedge := false, sedgeSel := [], burst := false, quiet := false
    recal := false, recalOn := false, recalTried := false, calRepeat := false, swOw := false })
  let s := if s.gen.isoPort == some p then
      { s with pack := { s.pack with isoOutT := some (s.pack.isoOutT.getD s.now) } } else s
  let s := s.onReq p (fun _ => [])
  let s := (addrs (s.portCfg p)).foldl (fun s a => s.onNode (nk p a) (fun n => { n with
    st := if hb then .nap else .deep, passTried := false, blocks := false, rewrites := 0 })) s
  if (s.ownEnds p).contains e && s.actsPrimary then s.emit (.wakeTone p e) else s

/-! ## Sweep modes (05 R143, R148, R153; 04 R132) -/

/-- Sweep period of a mode, ns. -/
def period (mode : Nat) : Nat := [ms 40, ms 5, us 500, us 250].getD mode (us 250)

/-- Sweeps per second of a mode. -/
def sweepRate (mode : Nat) : Nat := [25, 200, 2000, 4000].getD mode 4000

/-- Conversion bound of a mode, ns (04 R132). -/
def tConv (mode : Nat) : Nat := [ms 2, us 500, us 50, us 25].getD mode (us 25)

/-- Mode in force at grid instant `S` (R153). -/
def State.modeOn (s : State) (p S : Nat) : Nat := let q := s.port p; if S < q.modeS then q.modePrev else q.mode

/-- How long before a sample a node of a port has had the REED frame, in M0 and M1: the delay to it and the lead of the frame (05 R148),
taken at the port's common delay for every node (assumption log 94). -/
def State.balLead (s : State) (p mode : Nat) : Nat := if mode < 2 then us (10 * (s.portCfg p).plan.settle + 10) else us 10

end Sys2Proof.Machine
end

