-- ==== Sys2Proof/Machine/CanBase.lean ====
section
/-! DEFINITION. Frames the module originates on CAN: the queue of TB0 (16 R390) and the safe messages (14 R360, R363,
R365); and the limits publication, record and message (09 R246, R261–R264). -/

namespace Sys2Proof.Machine

open Sys2Proof

/-- Arbitration field of a frame as a number; the lower value wins arbitration (16 R390). -/
def arbKey (f : CanFrame) : Nat :=
  if f.ide then ((f.id / 2 ^ 18) * 4 + 3) * 2 ^ 19 + (f.id % 2 ^ 18) * 2 + f.rtr.toNat
  else (f.id * 4 + 2 * f.rtr.toNat) * 2 ^ 19

/-- The queue with a frame inserted where its arbitration field would win (16 R390). -/
def arbInsert (f : CanFrame) : List CanFrame → List CanFrame
  | [] => [f]
  | g :: r => if arbKey f < arbKey g then f :: g :: r else g :: arbInsert f r

/-- A frame the module originates on a controller: into TB0, or its queue when TB0 is loaded. A controller in
listen-only, disabled or bus-off takes none (16 R397, R398), nor does TB0 while the safety cores are down (16 R406). -/
def State.originate (s : State) (c : Nat) (f : CanFrame) : State :=
  let k := s.can c
  if k.mode ≠ 0 || k.errSt == 2 || !s.drv.coresUp then s
  else match k.tb0 with
    | none => s.onCan c (fun k => { k with tb0 := some f })
    | some _ => s.onCan c (fun k => { k with q := arbInsert f k.q })

/-- Data length code of a CAN FD data length (16 R387). -/
def dlcOf (len : Nat) : Nat :=
  if len ≤ 8 then len else if len ≤ 12 then 9 else if len ≤ 16 then 10 else if len ≤ 20 then 11
  else if len ≤ 24 then 12 else if len ≤ 32 then 13 else if len ≤ 48 then 14 else 15

/-- Data length of a data length code; a classical frame holds at most 8 bytes (16 R387). -/
def lenOf (fdf : Bool) (dlc : Nat) : Nat :=
  if dlc ≤ 8 then dlc
  else if fdf then [12, 16, 20, 24, 32, 48, 64].getD (dlc - 9) 64
  else 8

/-- CRC-32C of a safe message (14 R360): over the identifier with bit 31 set, then the bytes before the CRC. -/
def safeCrc (id : Nat) (bytes : List Byte) : Nat := (crc32c (le 4 (id % 2 ^ 29 + 2 ^ 31) ++ bytes)).toNat

/-- The data bytes of a safe message of length `len` (14 R360). -/
def safeBytes (id src typ seq len : Nat) (data : List Byte) : List Byte :=
  let b := padTo (len - 4) (le 1 src ++ le 1 typ ++ le 2 seq ++ data)
  b ++ le 4 (safeCrc id b)

/-- Sends a safe message on both controllers with one sequence number (14 R363). A module without a source byte sends
none. -/
def State.sendSafe (s : State) (id typ len : Nat) (data : List Byte) : State :=
  match s.gen.srcByte with
  | none => s
  | some src =>
    let q := (s.safe.txSeq.getD typ 0 + 1) % 65536
    let s := { s with safe := { s.safe with txSeq := s.safe.txSeq.set typ q } }
    let f : CanFrame := { id := id, ide := true, fdf := true, dlc := dlcOf len, data := safeBytes id src typ q len data }
    (s.originate 0 f).originate 1 f

/-! ## Sensors and cell temperature (10 R266–R268; 08 R214) -/

/-- Median of three. -/
def med3 (a b c : Int) : Int := max (min a b) (min (max a b) c)

/-- The value of a sensor for levels and rates: the median of its last three readings (10 R267). -/
def Sensor.median (x : Sensor) : Option Int :=
  match x.last, x.r2, x.r3 with
  | some a, some b, some c => some (med3 a b c)
  | some a, some b, none => some (min a b)
  | some a, none, _ => some a
  | none, _, _ => none

/-- A sensor of a port that runs M3 outside the temperature sweeps of 05 R147: its age does not count (10 R268). -/
def State.inM3 (s : State) (k : Nat) : Bool := k < 4096 && (s.port (k / 256)).mode == 3

/-- A sensor is valid (10 R268). -/
def State.sensorOk (s : State) (k : Nat) : Bool :=
  let x := s.sensor k
  x.last.isSome && x.openShort == 0 && !x.f12 && (x.implT.length < 3 || x.implT.getD 2 0 + sec 10 ≤ s.now) &&
    (s.now ≤ x.t + sec 2 || s.inM3 k)

/-- Node sensors of a port that are valid. -/
def State.portTemps (s : State) (p : Nat) : List Int :=
  ((declSensors (s.portCfg p)).filter (fun k => s.sensorOk (si p k))).filterMap (fun k => (s.sensor (si p k)).last)

/-- Mean of a list. -/
def mean (l : List Int) : Int := if l.isEmpty then 0 else l.sum / (l.length : Int)

/-- Temperature of a cell and whether it is substituted (08 R214): the mean of its valid sensors, then of all valid node
sensors of its port; with none of those, a value the spec does not state. -/
def State.cellTemp (s : State) (g : Nat) : Int × Bool :=
  let own := ((s.conf.cellSens.getD g []).filter s.sensorOk).filterMap (fun k => (s.sensor k).last)
  if !own.isEmpty then (mean own, false)
  else
    let l := s.portTemps (g / 512)
    (if l.isEmpty then Config.noTemp g s.now else mean l, true)

/-! ## Cells of a string (05 R163; 08 R213) -/

/-- Global indices of a string's cells. -/
def State.cellsOfStr (s : State) (p : Nat) : List Nat := (occPos (s.portCfg p)).map (gi p)

/-- Connected strings. -/
def State.connList (s : State) : List Nat := s.portList.filter (fun p => (s.str p).conn)

/-- The cell is one of a confirmed open tap's pair (05 R163). -/
def State.paired (s : State) (g : Nat) : Bool :=
  (s.cell g).openTap || (g % 16 ≠ 0 && (s.cell (g - 1)).openTap)

/-- The other cell of a pair-sum. -/
def State.mate (s : State) (g : Nat) : Nat := if (s.cell g).openTap then g + 1 else g - 1

/-! ## The limits publication -/

/-- Terminal voltage of a string, mV: its string node's; of a string without a string node the sum of its cells
(DESIGN CHOICE, assumption log 73). -/
def State.termV (s : State) (p : Nat) : Option Int :=
  if (s.portCfg p).strNode.isSome then (s.str p).vStr
  else some ((((occPos (s.portCfg p)).map (fun pos => (s.cell (gi p pos)).v)).sum : Nat) / 100)

/-- Mean terminal voltage of the connected strings, mV (09 R253); 0 with none. -/
def State.vPack (s : State) : Int :=
  let l := (s.portList.filter (fun p => (s.str p).conn)).filterMap s.termV
  if l.isEmpty then 0 else l.sum / (l.length : Int)

/-- Supplied mass while it holds, otherwise the configured maximum, kg (09 R257). -/
def State.massNow (s : State) : Nat := s.pack.mass.getD (s.gen.massMax.getD 0)

/-- A mass lies in the configured range (09 R257). -/
def State.massIn (s : State) (m : Nat) : Bool :=
  match s.gen.massMin, s.gen.massMax with | some lo, some hi => decide (lo ≤ m ∧ m ≤ hi) | _, _ => false

/-- Q_dis and Q_chg of a string (08 R227), in 0.0001 % × 0.01 Ah: the charge to the first empty and the first full cell. -/
def State.useCap (s : State) (p : Nat) : Nat × Nat :=
  let g := (List.range 512).filter (fun i => (s.est (512 * p + i)).seeded)
  let dis := g.map (fun i => let e := s.est (512 * p + i); (min (max e.soc 0) 1000000).toNat * e.cap)
  let chg := g.map (fun i => let e := s.est (512 * p + i); (1000000 - min (max e.soc 0) 1000000).toNat * e.cap)
  let mn (l : List Nat) : Nat := match l with | [] => 0 | x :: r => r.foldl min x
  (mn dis, mn chg)

/-- The regen quantities (09 R256): v, m, P_r, P_c, P margin, E_r, E_room, E margin, v_b; `none` when headroom is
invalid (R258). -/
structure Regen where
  v : Nat
  m : Nat
  pr : Nat
  pc : Nat
  pMargin : Int
  er : Nat
  eRoom : Nat
  eMargin : Int
  vb : Nat
  deriving DecidableEq, Repr, Inhabited

/-- Regenerative headroom of the present publication (09 R256, R258), in the units of R261. -/
def State.regen (s : State) : Option Regen :=
  let conn := s.portList.filter (fun p => (s.str p).conn)
  match s.safeSpeed with
  | none => none
  | some v =>
    if s.conf.axles.isEmpty || conn.isEmpty then none
    else
      let m := s.massNow
      let pr := s.gen.eta * m * s.gen.decel * v / 1000000000
      let pc := (s.pack.lim.getD 1 0) * s.vPack.toNat / 1000000
      let er := s.gen.eta * m * v * v / 2 / 1000000000 / 3600
      let room : Int := (conn.map (fun p =>
        let (d, c) := s.useCap p
        let top : Int := ((d + c) * s.gen.socTop / 10000 : Nat) - (d : Int)
        top * (((s.termV p).getD 0).toNat) / 100000000000)).sum
      let vb := if s.gen.eta * m * s.gen.decel = 0 then 0xFFFFFFFF
        else pc * 1000000000 / (s.gen.eta * m * s.gen.decel)
      some {
        v := v, m := m, pr := pr, pc := pc, pMargin := (pc : Int) - pr, er := er, eRoom := room.toNat
        eMargin := room - er, vb := vb }

/-- The cell enters the projection widened (R250): F49, a substituted temperature, or no measurement for 1 s. -/
def State.widened (s : State) (g : Nat) : Bool :=
  (s.est g).f49 || (s.cellTemp g).2 || (s.est g).measT + sec 1 < s.now

/-- The cell's data has been stale for longer than the persistence of F07 (R250). -/
def State.lost (s : State) (g : Nat) : Bool :=
  match (s.cell g).validT with
  | some t => decide (t + s.persistence 7 < s.now)
  | none => true

/-- R250 applies to the cell: widened, under a pair-sum, or lost. -/
def State.under250 (s : State) (g : Nat) : Bool := s.widened g || s.paired g || s.lost g

/-- The smallest factor in force on a scope, per mille (R248 step 6; 11 R292, R297, R298): its class D latches and its
pending class C; the Wade factor where a W source in Wade mode stands. A string that is not connected also takes those of
pack scope. -/
def State.factorOf (s : State) (scope : Nat) : Nat :=
  let scs := if scope < 16 && !(s.str scope).conn then [scope, 16] else [scope]
  let one (sc n : Nat) : Nat :=
    let d := if s.isLatched n sc && s.effClass n sc = 3 then s.factor n else 1000
    let w := if s.wade.on && (s.fault n).wade && s.stands n sc then s.gen.wadeFac else 1000
    min d w
  scs.foldl (fun m sc =>
    let m := if (s.disc sc).kind == .classC then min m s.gen.facC else m
    (List.range 64).foldl (fun m n => min m (one sc n)) m) 1000

/-- A source in force on a scope, or its opening under the steps of class B, requires zero limits (11 R288–R291; 12 R323). -/
def State.zeroBy (s : State) (scope : Nat) : Bool := s.scopeClass scope ≤ 1 || (s.disc scope).kind == .classB

/-- One 40-byte entry of the limits record (09 R261). -/
def limEntry (port flags : Nat) (lim bind : Tab Nat Nat) (share : Nat) : List Byte :=
  le 1 port ++ le 1 flags ++ le 1 (bind.getD 1 0) ++ le 1 (bind.getD 5 0) ++
    ((List.range 8).map (fun i => le 4 (lim.getD i 0))).flatten ++ le 2 share ++ le 2 0

/-- Flags of a string's or the pack's entry (09 R261). -/
def State.limFlags (s : State) (scope : Nat) (conn cell250 : Bool) : Nat :=
  bitsOf [conn, s.zeroBy scope, s.factorOf scope < 1000 || (scope < 16 && s.factorOf 16 < 1000), s.wade.on,
    (if scope < 16 then s.stands 10 scope else s.portList.any (fun p => s.stands 10 p)), cell250, s.stands 52 scope]

/-- Body of the limits record at grid instant `t` (09 R261); `extra` marks an extra publication of R246. -/
def State.limBody (s : State) (t : Nat) (extra : Bool) : List Byte :=
  let r := s.regen
  let flags := bitsOf [s.pack.reserve && !s.emergency, s.emergency, s.pack.r26, r.isSome, s.pack.mass.isSome, extra,
    s.stands 54 16]
  let hdr := le 8 t ++ le 4 s.pack.limSeq ++ le 1 s.portList.length ++ le 1 flags ++ le 2 0 ++ leI 4 s.vPack ++ le 4 0
  let pk := limEntry 255 (s.limFlags 16 (s.portList.any (fun p => (s.str p).conn))
    (s.connList.any (fun p => (s.cellsOfStr p).any s.under250))) s.pack.lim s.pack.bind 10000
  let es := (s.portList.map (fun p =>
    let x := s.str p
    limEntry p (s.limFlags p x.conn ((s.cellsOfStr p).any s.under250)) x.lim x.bind (if x.conn then x.share else 0))).flatten
  let rg := match r with
    | some r => le 4 r.v ++ le 4 r.m ++ le 4 r.pr ++ le 4 r.pc ++ leI 4 r.pMargin ++ le 4 r.er ++ le 4 r.eRoom ++
        leI 4 r.eMargin ++ le 4 r.vb ++ le 4 0
    | none => (List.replicate 9 (le 4 0xFFFFFFFF)).flatten ++ le 4 0
  hdr ++ pk ++ es ++ rg

/-- The 28 data bytes of the CAN limits message (09 R264): limits in whole amperes rounded down, margins towards minus
infinity; a margin outside its field is the free value `d` (assumption log 101), one of an invalid headroom all ones. -/
def State.limMessage (s : State) (d : Nat) : List Byte :=
  let r := s.regen
  let sat (x : Int) : List Byte := if -32768 ≤ x && x ≤ 32767 then leI 2 x else le 2 d
  let cur := ((List.range 8).map (fun i => le 2 (min (s.pack.lim.getD i 0 / 1000) 65535))).flatten
  let zero := (List.range 8).any (fun i => s.pack.bind.getD i 0 == 5 ||
    s.portList.any (fun p => (s.str p).conn && (s.str p).bind.getD i 0 == 5))
  let flags := bitsOf [s.pack.reserve, s.emergency, r.isSome, zero, s.wade.on, s.pack.r26]
  let vb := match r with | some r => if r.vb ≥ 655350 then 0xFFFF else r.vb / 10 | none => 0xFFFF
  let pm := match r with | some r => r.pMargin / 1000 | none => -1
  let em := match r with | some r => r.eMargin / 100 | none => -1
  cur ++ le 2 (s.pack.rep / 100) ++ le 1 flags ++ le 1 (s.pack.resLeft / 100) ++ le 2 vb ++ sat pm ++ sat em ++
    le 2 (s.vPack / 100).toNat

/-- Writes the limits record of instant `t`, sends the CAN limits message, and mirrors the publication (09 R245, R246,
R261–R264). A module that does not act as primary publishes nothing of its own, nor do safety cores that are down (13 R344); while the seal is invalid no LIMITS
message is sent (14 R370), nor in a save window (21 R525). -/
def State.publish (s : State) (t : Nat) (extra : Bool) : State :=
  if !s.actsPrimary || !s.drv.coresUp then s
  else
    let s := { s with pack := { s.pack with limSeq := (s.pack.limSeq + 1) % 2 ^ 32 } }
    let b := s.limBody t extra
    let s := { s with pack := { s.pack with lastLim := b } }
    let s := s.record fnLimits b
    let (d, s) := s.draw
    let s := if s.cfg.valid && s.pwr.intr != .saveWindow then s.sendSafe s.gen.idLimits 1 48 (s.limMessage d) else s
    if s.partnerUp then s.sendMirror (.limits b ((List.range 8).map (fun i => s.pack.lim.getD i 0))) else s

/-! ## The evaluations of F52 (09 R260) -/

/-- Horizon of a limit, ms. -/
def horizon (idx : Nat) : Nat := [2000, 10000, 30000, 600000].getD (idx % 4) 2000

/-- A mean current above its mean limit by more than 5 % and the offset bound, over the time since `t`, for a limit: each interval
counts with its length. -/
def limViol (h : List (Nat × Nat × Nat × Nat × List Nat)) (t idx o : Nat) : Bool :=
  let l := (h.filter (fun x => decide (t < x.1))).map (fun x =>
    (min x.2.1 (x.1 - t), if idx < 4 then x.2.2.1 else x.2.2.2.1, x.2.2.2.2.getD idx 0))
  let w := (l.map (·.1)).sum
  let i := (l.map (fun x => x.1 * x.2.1)).sum
  let m := (l.map (fun x => x.1 * x.2.2)).sum
  w ≠ 0 && decide (105 * m + 100 * o * w < 100 * i)

/-- Some limit is violated: over each horizon, or since the connection; a published zero limit by any current beyond the
offset bound. -/
def State.violated (s : State) (h : List (Nat × Nat × Nat × Nat × List Nat)) (since o : Nat) (lim : Tab Nat Nat) (i : Int) : Bool :=
  (List.range 8).any (fun k => limViol h (max since (s.now - ms (horizon k))) k o) ||
    (Tab.find lim 0 == some 0 && decide ((o : Int) < i)) || (Tab.find lim 4 == some 0 && decide (i < -(o : Int)))

/-- The limits of a table as a list. -/
def limList (t : Tab Nat Nat) : List Nat := (List.range 8).map (fun i => t.getD i 0)

/-- An interval that ends now joins those of the last 600 s; its length is the time since the one before, at most the 50 ms of a
publication. -/
def State.limPush (s : State) (h : List (Nat × Nat × Nat × Nat × List Nat)) (pos neg : Nat) (lim : Tab Nat Nat) :
    List (Nat × Nat × Nat × Nat × List Nat) :=
  let dt := match h with | x :: _ => min (ms 50) (s.now - x.1) | [] => ms 50
  let h := h.filter (fun x => s.now < x.1 + sec 600)
  if dt = 0 then h else (s.now, dt, pos, neg, limList lim) :: h

/-- The evaluation of F52 of a string at a publication (R260), with the limits in force before it. Violations of different horizons and
directions count to one run (DESIGN CHOICE, assumption log 121). -/
def State.f52Str (s : State) (p : Nat) : State :=
  let x := s.str p
  let t := match x.limHist with | y :: _ => max y.1 (s.now - ms 50) | [] => s.now - ms 50
  let l := (x.iHist.filter (fun y => t < y.1)).map (·.2)
  let i := if l.isEmpty then x.i.getD 0 else mean l
  let pos := if l.isEmpty then (max 0 i).toNat else (mean (l.map (max 0))).toNat
  let neg := if l.isEmpty then (max 0 (-i)).toNat else (mean (l.map (fun v => max 0 (-v)))).toNat
  let h := s.limPush x.limHist pos neg x.lim
  let bad := x.conn && s.violated h x.connT (offB (s.portCfg p)) x.lim i
  s.onStr p (fun x => { x with
    limHist := h, f52T := if bad then some (x.f52T.getD s.now) else none, f52OkT := if bad then s.now else x.f52OkT })

/-- The evaluation of F52 of the pack. -/
def State.f52Pack (s : State) : State :=
  let x := s.pack
  let i := x.i.getD 0
  let pos := if x.accN = 0 then (max 0 i).toNat else x.accPos / x.accN
  let neg := if x.accN = 0 then (max 0 (-i)).toNat else x.accNeg / x.accN
  let h := s.limPush x.limHist pos neg x.lim
  let conn := s.connList
  let since := conn.foldl (fun m p => max m (s.str p).connT) 0
  let bad := !conn.isEmpty && s.violated h since s.gen.oP x.lim i
  { s with pack := { x with
      limHist := h, f52T := if bad then some (x.f52T.getD s.now) else none, f52OkT := if bad then s.now else x.f52OkT
      accPos := 0, accNeg := 0, accN := 0 } }

/-- The evaluations of a publication, an extra one of R246 included: every string's and the pack's. What they find is raised at the
publication's own instant by `f52Settle`, after an extra one at the next of the 50 ms (assumption log 121). -/
def State.f52Eval (s : State) : State :=
  if s.pwr.st == .run && s.pwr.firstLimits && s.actsPrimary then (s.portList.foldl (fun s p => s.f52Str p) s).f52Pack else s

/-- Some limits of a scope go to zero with a cause: those of each string of the scope, and of the pack when the scope is the pack or
holds a connected string, which is then the weakest (09 R252). Where a limit is zero already, the lower code of the two causes stands
(R255). -/
def State.limitsZero (s : State) (scope : Nat) (idx : List Nat) (code : Nat) : State :=
  let s := s.f52Eval
  let cut (code : Nat) (l b : Tab Nat Nat) : Tab Nat Nat × Tab Nat Nat :=
    idx.foldl (fun x i => (x.1.set i 0, x.2.set i (if Tab.find x.1 i == some 0 then min (x.2.getD i code) code else code))) (l, b)
  let ps := if scope < 16 then [scope] else s.portList
  let s := ps.foldl (fun s p => s.onStr p (fun x => { x with lim := (cut code x.lim x.bind).1, bind := (cut code x.lim x.bind).2 })) s
  if scope ≥ 16 || (s.str scope).conn then
    let c := if scope ≥ 16 then code else 0x0A
    { s with pack := { s.pack with lim := (cut c s.pack.lim s.pack.bind).1, bind := (cut c s.pack.lim s.pack.bind).2 } }
  else s

/-- Zero limits for a scope by the fault matrix (11 R288, R290). -/
def State.zeroLimits (s : State) (scope : Nat) : State := s.limitsZero scope (List.range 8) 5

/-- A change to zero or to the emergency profile is published at once (09 R246), in Run and once limits have been published since
start or wake (R247). Its record names the grid instant of the computation whose limits it carries on (DEDUCED, assumption log 121). -/
def State.publishExtra (s : State) : State :=
  if s.pwr.st == .run && s.pwr.firstLimits then s.publish s.pack.limT true else s

/-- Zero limits for a scope, published at once (09 R246). Publication needs the estimates' first publication after
start or wake, and Run (09 R247). -/
def State.publishZero (s : State) (scope : Nat) : State := (s.zeroLimits scope).publishExtra

end Sys2Proof.Machine
end

