-- ==== Sys2Proof/Machine/Coils.lean ====
section
/-! DEFINITION. Contactors and their coils: states, channels, the opening of a string (12 R311, R323–R325), the end of a
group member (12 R314, R315), the commands that wait for contactors, and the fault event record (11 R304). -/

namespace Sys2Proof.Machine

open Sys2Proof

/-! ## The fault event record (11 R304) -/

/-- One fault change: its record, GLB_IRQ_STATUS bit 0 and its black-box event (11 R293, R304; 20 R493). -/
def State.faultRec (s : State) (n scope change : Nat) (w : Why) (flags : Nat) : State :=
  let f := s.fault n
  let port := if scope < 16 then scope else if n = 34 then w.port else 255
  let fl := flags + 4 * w.unconf.toNat + 8 * w.hw.toNat + 16 * w.partner.toNat
  let left := if s.wade.on then s.wadeLeft / 1000 else 0xFFFFFFFF
  let s := s.record fnEvents (le 1 1 ++ le 1 n ++ le 1 change ++ le 1 (s.effClass n scope) ++ le 1 (scopeKind n scope) ++
    le 1 port ++ le 2 w.pos ++ le 8 s.now ++ leI 4 w.value ++ le 1 fl ++ zeros 3 ++ le 4 left ++ le 4 f.count)
  (s.raiseIrq 0).bbEvent 1 n port change 0 0

/-! ## Which contactors -/

/-- Configuration of a contactor. -/
def State.ctrCfg (s : State) (i : Nat) : Option CtrCfg := s.conf.ctrs[i]?

/-- The port whose contactors serve a string: the leader of its string set, or the string itself (12 R307). -/
def State.leadOf (s : State) (p : Nat) : Nat :=
  match s.conf.sets.find? (fun x => x.2.contains p) with
  | some x => x.1
  | none => p

/-- The strings that the contactors of a leading port serve. -/
def State.setOf (s : State) (p : Nat) : List Nat :=
  match s.conf.sets.find? (fun x => x.1 == p) with
  | some x => x.2
  | none => [p]

/-- Index of the contactor of a role of a string. -/
def State.ctrOf (s : State) (p : Nat) (r : Role) : Option Nat :=
  (List.range s.conf.ctrs.length).find? (fun i => match s.ctrCfg i with
    | some c => c.role == r && c.port == s.leadOf p && r != .oth
    | none => false)

/-- Indices of the contactors of a scope: a string's, or all. -/
def State.ctrsOf (s : State) (scope : Nat) : List Nat :=
  (List.range s.conf.ctrs.length).filter (fun i => match s.ctrCfg i with
    | some c => scope ≥ 16 || (c.role != .oth && c.port == s.leadOf scope)
    | none => false)

/-- Indices of the contactors of a group member. -/
def State.memberCtrs (s : State) (m : Member) : List Nat :=
  match m with
  | .string p => s.ctrsOf p
  | .oth c => [c]

/-- Where the disconnect of an OTH contactor stands among the disconnects: after the strings and the pack's own entry. -/
def othKey (c : Nat) : Nat := 17 + c

/-- The OTH contactors. -/
def State.othList (s : State) : List Nat :=
  (List.range s.conf.ctrs.length).filter (fun i => match s.ctrCfg i with | some c => c.role == .oth | none => false)

/-- The entries of the disconnects of a scope: a string's, or every string's, every OTH contactor's and the pack's. -/
def State.discKeys (s : State) (scope : Nat) : List Nat :=
  if scope < 16 then [scope] else s.portList ++ s.othList.map othKey ++ [16]

/-- The entry of a contactor's disconnect. -/
def State.discOf (s : State) (i : Nat) : Nat :=
  match s.ctrCfg i with | some c => if c.role == .oth then othKey i else c.port | none => othKey i

/-- Entry of a group member's disconnect. -/
def memberKey (m : Member) : Nat := match m with | .string p => p | .oth c => othKey c

/-- Scope of a group member. -/
def memberScope (m : Member) : Nat := match m with | .string p => p | .oth _ => 16

/-- The scopes of a member: the strings of its set, or the pack's for an OTH contactor. -/
def State.memberScopes (s : State) (m : Member) : List Nat :=
  match m with | .string p => s.setOf (s.leadOf p) | .oth _ => [16]

/-- Entries of the disconnects that open a group member: those of every string of its set, or its own. -/
def State.memberKeys (s : State) (m : Member) : List Nat :=
  match m with | .string p => s.setOf (s.leadOf p) | .oth c => [othKey c]

/-- Every contactor of a member that must be closed is CLOSED. -/
def State.memberClosed (s : State) (m : Member) : Bool :=
  match m with
  | .string p => match s.ctrOf p .kn, s.ctrOf p .kp with
    | some a, some b => (s.ctr a).st == .closed && (s.ctr b).st == .closed
    | _, _ => false
  | .oth c => (s.ctr c).st == .closed

/-- Use of an OUT channel. -/
def State.outCfg (s : State) (ch : Nat) : OutCfg := s.conf.outs.getD ch {}

/-- A channel is assigned to a contactor or pre-charge coil. -/
def State.isCoil (s : State) (ch : Nat) : Bool := s.conf.ctrs.any (fun c => c.out == ch)

/-- Retry count of a channel: 0 for a coil channel whatever is configured (13 R340). -/
def State.retriesOf (s : State) (ch : Nat) : Nat := if s.isCoil ch then 0 else (s.outCfg ch).retries

/-- The configured retry counts come into force on the channels where they differ from `old` (13 R339, R340, R349). -/
def State.retriesTake (s : State) (old : List Nat) : State :=
  (List.range 12).foldl (fun s ch =>
    if old[ch]? = some (s.retriesOf ch) then s else s.onOutc ch (fun o => { o with retries := s.retriesOf ch })) s

/-- The contactor is open for good: coil off and no further command can open it (11 R294; 19 R475). -/
def CtrState.settled (c : CtrState) : Bool := c == .isOpen || c == .welded || c == .unknown

/-! ## Results of group commands -/

/-- V_x of a string, mV; 0x8000_0000 when none (19 R486). -/
def State.vxOf (s : State) (p : Nat) : Int := (s.str p).vx.getD (-2147483648)

/-- State code of a contactor by role, 0xFF when the member has none (19 R468). -/
def State.roleCode (s : State) (m : Member) (r : Role) : Nat :=
  match m with
  | .string p => match s.ctrOf p r with | some i => (s.ctr i).st.ctorIdx | none => 0xFF
  | .oth c => if r == .kp then (s.ctr c).st.ctorIdx else 0xFF

/-- Member entries of a kind 1 array with the final states (19 R468). -/
def State.groupEntries (s : State) (g : GroupCfg) (rs : List MemberRes) : List (Nat × Nat × Nat × Nat × Int × Nat × Nat) :=
  rs.map (fun r =>
    let m := g.members.getD r.member (.oth 0)
    (r.member, r.result, s.roleCode m .kp, s.roleCode m .kn, r.valueA, r.tau, r.cest))

/-- Group of the configuration. -/
def State.groupCfg (s : State) (g : Nat) : GroupCfg := s.conf.groups.getD g { members := [], allOrNone := false }

/-- A member is in the state its command requests: DONE or ALREADY (12 R315). -/
def resOk (code : Nat) : Bool := code == 0 || code == 0x11

/-- Completes a group command: OK when every member is in the requested state, otherwise PARTIAL with the member array
(12 R315); the value is the number of members DONE (19 R475). A command that has completed already, with TIMEOUT at a
reset of the service cores (18 R460), completes no second time. -/
def State.finishGroup (s : State) (r : CmdRef) (g : Nat) (rs : List MemberRes) : State :=
  if !s.host.running.any (fun c => c.ref == r) then s else
  let ok := rs.countP (fun m => resOk m.result)
  let v := rs.countP (fun m => m.result == 0)
  if rs.all (fun m => resOk m.result) then s.finish r 0 v [] false
  else s.finish r 1 v (memberArray 1 ok (s.groupEntries (s.groupCfg g) rs)) true

/-- Result of a member of a group open: DONE or ALREADY once its contactors are open, WELD, or FAIL_TO_OPEN. -/
def State.openResult (s : State) (g : GroupCfg) (already : List (Nat × Nat)) (i : Nat) : MemberRes :=
  let m := g.members.getD i (.oth 0)
  let st := (s.memberCtrs m).map (fun c => (s.ctr c).st)
  let code := if already.any (fun x => x.1 == i) then 0x11
    else if s.roleCode m .kp = 4 && s.roleCode m .kn = 4 then 9
    else if st.contains .welded then 7 else if st.contains .unknown then 9 else 0
  { member := i, result := code, valueA := s.vxOf (memberScope m) }

/-- A contactor whose opening is over as far as its own string goes: no longer asked for, and held on by the strings that
share its channel (12 R324). -/
def State.heldOn (s : State) (i : Nat) : Bool :=
  !(s.ctr i).coil && ((s.ctr i).st == .closed || (s.ctr i).st == .closing)

/-- The running commands that wait for contactors: GROUP_OPEN, DISCONNECT and a GROUP_CLOSE that reverts end when every
contactor they wait for is OPEN, WELDED or UNKNOWN (12 R314, R315; 19 R475); for a group a shared KN that other strings
hold on counts as well (12 R324; assumption log 27). -/
def State.settleCmds (s : State) : State :=
  let quiet (group : Bool) (l : List Nat) : Bool := l.all (fun i =>
    let k := s.discOf i
    ((s.ctr i).st.settled || (group && s.heldOn i)) && (s.disc k).kind != .classB &&
      !(k < 16 && (s.opn (s.leadOf k)).ph != .idle))
  let s := s.host.running.foldl (fun s c =>
    if !quiet (c.ref.opcode == 0x31) c.todo then s
    else if c.ref.opcode = 0x31 then
      let g := c.ref.d.imm.toNat % 16
      let n := (s.groupCfg g).members.length
      s.finishGroup c.ref g ((List.range n).map (s.openResult (s.groupCfg g) c.members))
    else if c.ref.opcode = 0x32 then
      let w := c.todo.countP (fun i => (s.ctr i).st == .welded)
      s.finish c.ref (if w = 0 then 0 else 6) w [] false
    else s) s
  if s.seq.active && s.seq.reverting && quiet true ((s.seq.closed.map (fun i =>
      s.memberCtrs ((s.groupCfg s.seq.group).members.getD i (.oth 0)))).flatten) then
    let q := s.seq
    let s := { s with seq := { s.seq with active := false, reverting := false } }
    s.finishGroup q.cmd q.group q.results
  else s

/-! ## Contactor states and coils -/

/-- The strings that a port's contactors connect are connected no longer; the energies are due where one was (08 R228). -/
def State.connEnd (s : State) (port : Nat) : State :=
  (s.setOf port).foldl (fun s p => s.onStr p (fun x => { x with conn := false }))
    { s with pack := { s.pack with energyDue := s.pack.energyDue || (s.setOf port).any (fun p => (s.str p).conn) } }

/-- A contactor of a port is found open: the time from which its sensors must read zero (06 R176). -/
def State.openMark (s : State) (port : Nat) : State :=
  let s := (s.setOf port).foldl (fun s p => s.onStr p (fun x => { x with openT := s.now })) s
  { s with pack := { s.pack with openT := s.now } }

/-- A contactor enters a state (12 R311): event record, mirror to the partner; a string whose KN or KP is no longer
CLOSED is no longer connected, and waiting commands are looked at. -/
def State.setCtr (s : State) (i : Nat) (st : CtrState) : State :=
  let prev := (s.ctr i).st
  if prev = st then s
  else
    let s := s.onCtr i (fun c => { c with st := st })
    let port := match s.ctrCfg i with | some c => if c.role == .oth then 255 else c.port | none => 255
    let s := s.eventRec 3 1 i port st.ctorIdx prev.ctorIdx 0
    let s := if s.partnerUp && s.pair.role == .primary then s.sendEvt (.contactor i st.ctorIdx) else s
    let role := match s.ctrCfg i with | some c => c.role | none => .oth
    let s := if st != .closed && port < 16 && (role == .kn || role == .kp) then s.connEnd port else s
    let s := if st == .isOpen && port < 16 then s.openMark port else s
    s.settleCmds

/-- The drive stage is supplied (02 R45; 01 R34): VSUP is present or ridden through, and the module is not in Peat. Otherwise
all outputs stay off and the LSW latches are not changed; nor are they when neither coil supply is present, which R45
leaves open (assumption log 82). -/
def State.drvUp (s : State) : Bool := s.pwr.intr != .over && s.pwr.st != .peat

/-- OUT channels may be on: the drive stage is supplied and VSUP has not failed beyond the ride-through (13 R343). -/
def State.outUp (s : State) : Bool := s.drvUp && s.pwr.intr != .saveWindow

/-- The coil supply of a channel is present: a channel that its own supply does not feed is off (02 R45; 24 R565). -/
def State.fed (s : State) (ch : Nat) : Bool := decide (0 < (if ch < 6 then s.pwr.vcoilA else s.pwr.vcoilB))

/-- Switches an OUT channel as the safety cores command (13 R334). A tripped channel and one without supply stay off; a channel
selected in limp-home follows its DIN and not the cores (13 R346). -/
def State.channel (s : State) (ch : Nat) (on : Bool) : State :=
  if s.drv.limp && s.limpSel ch then s
  else s.onOutc ch (fun o => { o with
    cmd := on && s.outUp, on := on && !o.tripped && s.outUp && s.fed ch, onT := if on && !o.on then s.now else o.onT
    restart := o.restart && on, changeT := s.now })

/-- Switches a coil channel; the primary of a pair tells the partner's paralleled channel (12 R331); a coil-off awaits its echo. After a
takeover the former primary's channels count as on for the hold window, and a coil opened then awaits an echo too
(17 R421). -/
def State.coil (s : State) (ch : Nat) (on : Bool) : State :=
  let s := s.channel ch on
  let wait (s : State) : State := { s with pair := { s.pair with coilWait := s.pair.coilWait ++ [(ch, s.now)] } }
  if s.partnerUp && s.pair.role == .primary then
    let s := s.sendCoil { ch := ch, on := on, echo := false }
    if on then s else wait s
  else if !on && s.isPair && decide (s.now < s.pair.partHoldEnd) && s.pair.partCoils.getLsbD ch then wait s
  else s

/-- The contactors of a coil channel, a coil set (12 R307). -/
def State.ctrsOn (s : State) (ch : Nat) : List Nat :=
  (List.range s.conf.ctrs.length).filter (fun i => match s.ctrCfg i with | some c => c.out == ch | none => false)

/-- Another contactor on the same channel has its coil on. -/
def State.channelShared (s : State) (i : Nat) : Bool :=
  match s.ctrCfg i with
  | none => false
  | some c => (s.ctrsOn c.out).any (fun j => j != i && (s.ctr j).coil)

/-- The channel of a contactor is a shared KN channel that another string still asks for, one that is not opening itself, and stays on
(12 R324, R325). -/
def State.knShared (s : State) (i : Nat) (leaving : List Nat) : Bool :=
  match s.ctrCfg i with
  | none => false
  | some c => (s.ctrsOn c.out).any (fun j =>
      j != i && !leaving.contains j && (s.ctr j).coil &&
        (match s.ctrCfg j with | some d => d.role == .kn && (s.opn d.port).ph == .idle | none => false))

/-- Re-arms an LSW latch, unless a class A latch of the module stands (11 R289; 13 R341). -/
def State.rearm (s : State) (j : Nat) : State :=
  if (List.range 17).any (fun sc => s.scopeClass sc == 0) then s
  else s.onLsw j (fun l => { l with closed := true, hwOpen := false })

/-- A contactor is on a coil channel that limp-home has taken (13 R346). -/
def State.limpCtr (s : State) (i : Nat) : Bool :=
  match s.ctrCfg i with | some c => s.drv.limp && s.limpSel c.out | none => false

/-- The others of a coil set go on with their channel (12 R307): one that no command of its own asks for is CLOSING, held on by its
channel, unless it is CLOSED or WELDED. -/
def State.setOn (s : State) (ch i : Nat) : State :=
  ((s.ctrsOn ch).filter (fun j => j != i && (s.ctr j).st != .closed && (s.ctr j).st != .welded)).foldl
    (fun s j => s.setCtr j .closing) s

/-- Switches a contactor on: its LSW latch is re-armed unless a class A latch stands (11 R289; 13 R341), its channel is
switched on with the coil set, and it is CLOSING. -/
def State.ctrOn (s : State) (i : Nat) : State :=
  match s.ctrCfg i with
  | none => s
  | some c =>
    if s.drv.limp && s.limpSel c.out then s else
    let s := s.rearm c.lsw
    let s := s.onCtr i (fun k => { k with coil := true, above := false, t := s.now })
    let s := if (s.outc c.out).on then s else s.coil c.out true
    (s.setCtr i .closing).setOn c.out i

/-- An opening takes this contactor: its coil is on, or it is UNKNOWN and is judged like a closed one (12 R311); a channel
that limp-home has taken is left alone. -/
def State.toOpen (s : State) (i : Nat) : Bool :=
  match s.ctrCfg i with
  | none => false
  | some c => ((s.ctr i).coil || (s.ctr i).st == .unknown) && !(s.drv.limp && s.limpSel c.out)

/-- The others of a coil set go off with their channel (12 R307, R324): each is OPENING, and a string whose own opening
was over or had not begun is checked: by the current where the contactor was still asked for, and otherwise by its
auxiliary contact. -/
def State.setOff (s : State) (ch i : Nat) : State :=
  ((s.ctrsOn ch).filter (fun j => j != i && ((s.ctr j).coil || s.heldOn j))).foldl (fun s j =>
    let asked := (s.ctr j).coil
    let s := (s.onCtr j (fun k => { k with coil := false, above := false, t := s.now })).setCtr j .opening
    match s.ctrCfg j with
    | some c =>
      if (c.role == .kp || c.role == .kn) && (s.opn c.port).ph == .idle then
        s.onOpn c.port (fun o => if !s.actsPrimary then o else { o with
          ph := if asked then .first else .second, first := if asked then c.role else if c.role == .kn then .kp else .kn
          t := s.now, loaded := false, await := false, wasConn := false, reqs := o.reqs + 1 })
      else s
    | none => s) s

/-- Switches a contactor off: its channel too, and with it the coil set, unless it is a KN channel that strings outside
`leaving` still ask for (12 R324); it is OPENING, as is an UNKNOWN one whose coil is off. -/
def State.ctrOff (s : State) (i : Nat) (leaving : List Nat) (above : Bool) : State :=
  match s.ctrCfg i with
  | none => s
  | some c =>
    if !s.toOpen i then s
    else if !(s.ctr i).coil then (s.onCtr i (fun k => { k with above := above, t := s.now })).setCtr i .opening
    else
      let s := s.onCtr i (fun k => { k with coil := false, above := above, t := s.now })
      if s.knShared i leaving then s
      else ((s.coil c.out false).setCtr i .opening).setOff c.out i

/-- Offset bound of a string current plus 0.01 C (12 R316, R324), mA. -/
def State.zeroLevel (s : State) (p : Nat) : Int := offB (s.portCfg p) + (s.portCfg p).nameplate / 10

/-- String current used for disconnects and checks: the valid sample or its substitute (06 R183; 11 R290). -/
def State.strCur (s : State) (p : Nat) : Option Int := (s.str p).i

/-- Current through the contactors of a string: of a string set the sum over its strings (11 R290; 12 R307). -/
def State.ctrCur (s : State) (p : Nat) : Option Int :=
  (s.setOf (s.leadOf p)).foldl (fun m q => match m, s.strCur q with | some a, some b => some (a + b) | _, _ => none) (some 0)

/-- The string whose current stands for the current of a scope: its own, or the only string's where the pack input is unused. -/
def State.scopeStr (s : State) (scope : Nat) : Option Nat :=
  if scope < 16 then some scope else if s.gen.packUsed then none else s.portList.head?

/-- The current of a scope. -/
def State.scopeCur (s : State) (scope : Nat) : Option Int :=
  match s.scopeStr scope with | some p => s.ctrCur p | none => s.pack.i

/-- The current magnitude of a string, or of any of its set, is above o_s + 0.01 C; `none` without a valid sample or substitute. -/
def State.flows (s : State) (p : Nat) : Option Bool :=
  (s.setOf (s.leadOf p)).foldl (fun m q => match m, s.strCur q with
    | some a, some i => some (a || decide (s.zeroLevel q < (i.natAbs : Int)))
    | _, _ => none) (some false)

/-- Supply of an OUT channel, mV: VCOIL_A for OUT0–OUT5, VCOIL_B for the others; in a pair the higher of the two modules'
(12 R329). -/
def State.supplyOf (s : State) (ch : Nat) : Nat :=
  let own := if ch < 6 then s.pwr.vcoilA else s.pwr.vcoilB
  let par := if ch < 6 then s.pair.partVcoil.1 else s.pair.partVcoil.2
  if s.partnerUp then max own par else own

/-- The closed contactors whose channel is fed from a supply below the coil minimum (11 R287 F39; 12 R329). -/
def State.f39List (s : State) : List Nat :=
  (List.range s.conf.ctrs.length).filter (fun i =>
    (s.ctr i).st == .closed && (match s.ctrCfg i with
      | some c => decide (s.supplyOf c.out < s.gen.coilMin)
      | none => false))

/-- The coil supplies, 0 for VCOIL_A and 1 for VCOIL_B, that F39 finds too low. -/
def State.f39Banks (s : State) : List Nat :=
  [0, 1].filter (fun b => s.f39List.any (fun i => match s.ctrCfg i with | some c => c.out / 6 == b | none => false))

/-- The contactors on some coil supplies, which F39 names in its records (12 R329). -/
def State.f39Names (s : State) (banks : List Nat) : List Nat :=
  (List.range s.conf.ctrs.length).filter (fun i => match s.ctrCfg i with | some c => banks.contains (c.out / 6) | none => false)

/-- The first contactor of the present opening of a string: KP, or KN when its channel may be switched off. -/
def State.firstOf (s : State) (p : Nat) : Role := (s.opn p).first

/-- The other contactor of a string's opening. -/
def otherRole (r : Role) : Role := if r == .kp then .kn else .kp

/-- KN of a string shares its channel with a string that still asks for it (12 R324). -/
def State.knHeld (s : State) (p : Nat) : Bool :=
  match s.ctrOf p .kn with
  | none => true
  | some i => s.knShared i (s.ctrsOf p)

/-- Opens a string in the order of R324: the PRE, then F; the other contactor follows at the check of R327. F is the
next choice, or KP while the KN channel must stay on. A string with nothing to open stays as it is, and one whose
opening is under way goes on. -/
def State.beginOpen (s : State) (p : Nat) (above : Bool) : State :=
  let p := s.leadOf p
  let on := (s.ctrsOf p).filter s.toOpen
  if on.isEmpty || (s.opn p).ph != .idle then s
  else
    let f := if s.knHeld p then .kp else (s.opn p).nextFirst
    let sel (r : Role) : Bool := match s.ctrOf p r with | some i => s.limpCtr i | none => false
    let f := if sel f then otherRole f else f
    let loaded := s.flows p == some true
    let was := (s.setOf p).any (fun q => (s.str q).conn)
    let s := match s.ctrOf p .pre with | some i => s.ctrOff i [] false | none => s
    let s := match s.ctrOf p f with | some i => s.ctrOff i (s.ctrsOf p) above | none => s
    if sel f then s
    else s.onOpn p (fun o => { o with ph := .first, first := f, t := s.now, loaded := loaded, await := false, wasConn := was, reqs := o.reqs + 1 })

/-- Opens a string at once (11 R288; 12 R325): every channel of the string together, a KN shared with strings outside
stays on, and the check at open runs with F = KP. The module that acts as primary makes the checks (12 R331). -/
def State.openAll (s : State) (p : Nat) : State :=
  let p := s.leadOf p
  let l := (s.ctrsOf p).filter s.toOpen
  if l.isEmpty then s
  else
    let was := (s.setOf p).any (fun q => (s.str q).conn)
    let s := l.foldl (fun s i => s.ctrOff i l false) s
    s.onOpn p (fun o => if !s.actsPrimary then o else { o with
      ph := .first, first := .kp, t := s.now, loaded := false, await := false, wasConn := was, reqs := o.reqs + 1 })

/-- Releases an LSW by the two-signal release (13 R341): 1 by the safety cores, 2 by the tone path, 3 by the fast
comparator; the release cancels the restart of every coil channel that returns through it (13 R348). -/
def State.releaseLsw (s : State) (j by_ : Nat) : State :=
  let was := (s.lsw j).closed
  let s := s.onLsw j (fun l => { l with closed := false, hwOpen := l.hwOpen || by_ != 1 })
  let s := (s.conf.ctrs.filter (fun c => c.lsw == j)).foldl (fun s c =>
    s.onOutc c.out (fun o => { o with restart := false })) s
  if was then ((s.emit (.lswRelease j by_)).event .drv 4).eventRec 2 6 (12 + j) 255 by_ 0 0 else s

/-- Opens every coil of the module: LSW0–LSW3 released, every coil channel off; the check at open of each string that
had a coil on runs with F = KP (11 R288, R289; 12 R325). -/
def State.openModule (s : State) (by_ : Nat) : State :=
  let s := (List.range 4).foldl (fun s j => s.releaseLsw j by_) s
  let l := (List.range s.conf.ctrs.length).filter s.toOpen
  let on := (List.range 16).filter (fun p => s.leadOf p == p && (s.ctrsOf p).any l.contains)
  let was := on.filter (fun p => (s.setOf p).any (fun q => (s.str q).conn))
  let s := l.foldl (fun s i => s.ctrOff i l false) s
  on.foldl (fun s p => s.onOpn p (fun o => if !s.actsPrimary then o else { o with
    ph := .first, first := .kp, t := s.now, loaded := false, await := false, wasConn := was.contains p, reqs := o.reqs + 1 })) s

/-! ## Disconnects (11 R290, R291; 12 R323) -/

/-- The break-rating wait W in force, ms: the configured one within the fused maximum (11 R300, R303). -/
def State.waitW (s : State) : Nat := min s.gen.wait s.fuse.set.wait

/-- The class C deadline in force, min. -/
def State.deadC (s : State) : Nat := min s.gen.deadC s.fuse.set.deadC

/-- One entry waits for its break rating, `w` ms at most. A wait already running keeps the earlier deadline (11 R298). -/
def State.startWait (s : State) (key w : Nat) (cmd : Option CmdRef) : State :=
  if (s.disc key).kind == .classB then
    s.onDisc key (fun d => { d with cmd := d.cmd <|> cmd, deadline := min d.deadline (s.now + ms w), fromC := false })
  else s.onDisc key (fun _ => { kind := .classB, start := s.now, deadline := s.now + ms w, low := 0, cmd := cmd })

/-- Zero limits, published at once, for a scope that opens: a string's with every string of its set, which opens with it (12 R307,
R323). -/
def State.publishZeros (s : State) (scope : Nat) : State :=
  if scope < 16 then ((s.setOf (s.leadOf scope)).foldl (fun s q => s.zeroLimits q) s).publishExtra else s.publishZero scope

/-- Starts an opening of a scope under the steps of class B: zero limits, then the waits of `w` ms for the break
ratings of what there is to open. -/
def State.startB (s : State) (scope w : Nat) (cmd : Option CmdRef) : State :=
  let keys := (s.discKeys scope).filter (fun q =>
    (if q ≤ 16 then s.ctrsOf q else [q - 17]).any s.toOpen)
  keys.foldl (fun s q => s.startWait q w cmd) (s.publishZeros scope)

/-- Starts a pending class C disconnect of a scope; an opening or a pending disconnect goes on. -/
def State.startC (s : State) (scope : Nat) : State :=
  if (s.disc scope).kind == .none then
    s.onDisc scope (fun _ => { kind := .classC, start := s.now, deadline := s.now + mins s.deadC })
  else s

/-- The lowest break rating of a string's contactors, mA (11 R291). -/
def State.breakOf (s : State) (p : Nat) : Int :=
  (s.ctrsOf p).foldl (fun m i => match s.ctrCfg i with | some c => min m (c.breakI : Int) | none => m) 4000000000

/-- The contactor that opens first at the next opening of a string (12 R324): F, or the other when F has nothing to
open; KP while the KN channel must stay on. -/
def State.nextOpen (s : State) (p : Nat) : Option Nat :=
  let f := if s.knHeld p then .kp else (s.opn p).nextFirst
  let l := ((s.ctrOf p f).toList ++ (s.ctrOf p (otherRole f)).toList).filter s.toOpen
  l.head?

/-- Break rating that a wait of a string watches, mA (11 R290; 12 R324): that of the contactor that opens first, and of a
PRE that is on. -/
def State.breakFirst (s : State) (p : Nat) : Int :=
  let p := s.leadOf p
  let l := (s.nextOpen p).toList ++ ((s.ctrOf p .pre).toList.filter (fun i => (s.ctr i).coil))
  l.foldl (fun m i => match s.ctrCfg i with | some c => min m (c.breakI : Int) | none => m) 4000000000

/-- What a source was last raised with on a scope. -/
def State.why (s : State) (n scope : Nat) : Why := (s.mark n scope).why

/-- The records of a scope that opens, one for each latch of class C or stricter it opens under (11 R293, R304): change 4, flag [1] above
the break rating. -/
def State.openedRec (s : State) (scope : Nat) (above : Bool) : State :=
  ((List.range 64).filter (fun n => s.isLatched n scope && s.effClass n scope ≤ 2)).foldl
    (fun s n => s.faultRec n scope 4 (s.why n scope) (2 * above.toNat)) s

/-- The pack's own entry ends when the last string or OTH contactor of its disconnect has opened. -/
def State.packOpened (s : State) (above : Bool) : State :=
  if (s.disc 16).kind == .classB && (s.discKeys 16).all (fun q => q = 16 || (s.disc q).kind != .classB) then
    (s.onDisc 16 (fun d => { d with kind := .none, above := above || d.above })).openedRec 16 (above || (s.disc 16).above)
  else if (s.disc 16).kind == .classB then s.onDisc 16 (fun d => { d with above := above || d.above })
  else s

/-- Opens what an entry of the disconnects opens: a string, or an OTH contactor. -/
def State.openScope (s : State) (key : Nat) (above : Bool) : State :=
  let s := s.onDisc key (fun d => { d with kind := .none, above := above })
  let s := if key < 16 then (s.openedRec key above).beginOpen key above
    else if key = 16 then s.openedRec 16 above
    else s.ctrOff (key - 17) [key - 17] above
  (s.packOpened above).settleCmds

/-- A current sample of an entry during its break-rating wait (11 R290 steps 3 and 4): two consecutive samples at or
below the break rating open it. Safety cores that are not supervising open nothing (12 R330). -/
def State.discSample (s : State) (key : Nat) (i : Int) : State :=
  let d := s.disc key
  if d.kind != .classB || key = 16 || !s.drv.coresUp then s
  else
    let lim : Int := if key < 16 then s.breakFirst key
      else match s.ctrCfg (key - 17) with | some c => c.breakI | none => 4000000000
    if (i.natAbs : Int) ≤ lim then
      if d.low ≥ 1 then s.openScope key false else s.onDisc key (fun d => { d with low := d.low + 1 })
    else s.onDisc key (fun d => { d with low := 0 })

/-! ## The end of a group member (12 R314, R315) -/

/-- The member in progress. -/
def State.seqMember (s : State) : Member := (s.groupCfg s.seq.group).members.getD s.seq.idx (.oth 0)

/-- The result of the member in progress, with V_x at its close and its pre-charge figures (12 R315; 19 R468). -/
def State.seqRes (s : State) (code : Nat) : MemberRes :=
  let q := s.seq
  { member := q.idx, result := code
    valueA := match s.seqMember with
      | .string p => match s.ctrOf p .kp with
        | some i => if (s.ctr i).vxClose = -2147483648 then s.vxOf p else (s.ctr i).vxClose
        | none => -2147483648
      | .oth _ => -2147483648
    tau := if q.tc ≠ 0 then (q.fitRep.getD (0, 0)).1 else 0xFFFFFFFF
    cest := if q.tc ≠ 0 then (q.fitRep.getD (0, 0)).2 else 0xFFFFFFFF }

/-- A commanded open of members (12 R323): zero limits for all of them at once, then their waits. -/
def State.commandOpen (s : State) (l : List Member) (cmd : Option CmdRef) : State :=
  let s := l.foldl (fun s m => match m with
    | .string p => (s.setOf (s.leadOf p)).foldl (fun s q => s.zeroLimits q) s
    | .oth _ => s) s
  let s := if l.isEmpty then s else s.publishExtra
  (l.filter (fun m => (s.memberCtrs m).any s.toOpen)).foldl (fun s m => s.startWait (memberKey m) s.waitW cmd) s

/-- Reopens the members closed by the command, newest first, under the steps of class B (12 R314, R323). -/
def State.revert (s : State) : State :=
  let q := s.seq
  let rs := q.results.map (fun r => if q.closed.contains r.member then { r with result := 2 } else r)
  let s := { s with seq := { s.seq with reverting := true, results := rs } }
  let ms_ := q.closed.map (fun i => (s.groupCfg q.group).members.getD i (.oth 0))
  (s.commandOpen ms_ none).settleCmds

/-- A result at the end of the command (12 R315): a member that was closed and has been opened since is not in the requested state. The
rule names no code for it: the model reports ABORTED_BY_FAULT where a latch bars its scope and ABORTED_BY_OPEN otherwise (DESIGN
CHOICE, assumption log 122). -/
def State.resNow (s : State) (r : MemberRes) : MemberRes :=
  let m := (s.groupCfg s.seq.group).members.getD r.member (.oth 0)
  if !resOk r.result || s.memberClosed m then r
  else { r with result := if (s.memberScopes m).any s.closeBarred then 0x0E else 0x0D }

/-- The last member of the command has finished: the members that are closed now are counted (12 R314, R315). -/
def State.seqFinish (s : State) : State :=
  let s := { s with seq := { s.seq with results := s.seq.results.map s.resNow } }
  let q := s.seq
  let g := s.groupCfg q.group
  let done := q.results.countP (fun r => resOk r.result)
  if !g.allOrNone && done < g.min && !q.closed.isEmpty then s.revert
  else ({ s with seq := { s.seq with active := false } } : State).finishGroup q.cmd q.group q.results

/-- The primary tells its standby a step of the sequence (17 R417). -/
def State.seqTell (s : State) : State :=
  if s.partnerUp && s.pair.role == .primary then s.sendEvt (.seqStep s.seq.group s.seq.idx s.seq.ph.ctorIdx) else s

/-- The primary tells its standby the result of a member (17 R417). -/
def State.resTell (s : State) (code : Nat) : State :=
  if s.partnerUp && s.pair.role == .primary then s.sendEvt (.seqResult s.seq.group s.seq.idx code) else s

/-- The member in progress ends with a result code: the next member starts at the next sample, or the command ends
(12 R313, R314). -/
def State.memberEnd (s : State) (code : Nat) : State :=
  let s := s.resTell code
  let q := s.seq
  let g := s.groupCfg q.group
  let rs := q.results ++ [s.seqRes code]
  let rest := (List.range g.members.length).filter (fun i => q.idx < i)
  let na := rest.map (fun i => ({ member := i, result := 1 } : MemberRes))
  let closed := if code = 0 then q.idx :: q.closed else q.closed
  if code = 0x0F then
    ({ s with seq := { s.seq with results := rs ++ na, active := false } } : State).finishGroup q.cmd q.group (rs ++ na)
  else if g.allOrNone && !resOk code then
    let s := { s with seq := { s.seq with results := rs ++ na, closed := closed } }
    if closed.isEmpty then s.seqFinish else s.revert
  else
    let s := { s with seq := { s.seq with
      results := rs, closed := closed, idx := q.idx + 1, ph := .waitReady, t := s.now, tc := 0, tau := 0, cest := 0, fitRep := none, winOk := []
      samples := [], okSamples := 0, outOfWin := 0, fitted := false, busH := [] } }
    if rest.isEmpty then s.seqFinish else s

/-- The close of the member in progress stops (12 R330): an open command's or a latch's own steps open what is on, and the member ends with
`code`. -/
def State.seqStop (s : State) (code : Nat) : State := if !s.seq.active || s.seq.reverting then s else s.memberEnd code

/-- A latch of class C or stricter stops the close of the member in progress (11 R298; 12 R330): the class opens it, but for the PRE under
class C, which goes off at once (DEDUCED, assumption log 122). -/
def State.seqFault (s : State) (c : Nat) : State :=
  if !s.seq.active || s.seq.reverting then s
  else
    let pre := match s.seqMember with | .string p => s.ctrOf p .pre | .oth _ => none
    let s := match pre with | some i => if c = 2 then s.ctrOff i [i] false else s | none => s
    s.seqStop 0x0E

/-- Aborts the sequence of the member in progress (12 R316): PRE, KN and KP off, then the member ends with `code`. -/
def State.seqAbort (s : State) (code : Nat) : State :=
  if !s.seq.active || s.seq.reverting then s
  else match s.seqMember with
    | .oth c => (s.ctrOff c [c] false).memberEnd code
    | .string p =>
      let l := s.ctrsOf p
      let on := l.any s.toOpen
      let off (s : State) (r : Role) : State := match s.ctrOf p r with | some i => s.ctrOff i l false | none => s
      let s := off (off (off s .pre) .kn) .kp
      let s := if on then s.onOpn (s.leadOf p) (fun o => { o with ph := .first, first := .kp, t := s.now, loaded := false, await := false, wasConn := false }) else s
      s.memberEnd code

end Sys2Proof.Machine
end

