-- ==== Sys2Proof/Machine/Tick.lean ====
section
/-! DEFINITION. The time base between commands (01 R27, R28, R30, R31). -/

namespace Sys2Proof.Machine

open Sys2Proof

/-- One tick of the time base (01 R27): 10 ns; 0 ns while a standby that is ahead waits (R31); one cycle of the keeper,
30,517 37/64 ns, while the PLL is stopped (R28). -/
def State.tick (s : State) : State :=
  let t := s.time
  if t.keeper then
    let f := t.frac + 37
    { s with time := { t with now := t.now + 30517 + f / 64, frac := f % 64 } }
  else
    let n := min (t.ticksSinceSlew + 1) 10000
    if 0 < t.stall then { s with time := { t with stall := t.stall - 10, ticksSinceSlew := n } }
    else { s with time := { t with now := t.now + 10, ticksSinceSlew := n } }

/-- The PLL stops and the keeper carries the time base (R28). -/
def State.keeperOn (s : State) : State := { s with time := { s.time with keeper := true } }

/-- The PLL runs again: the time base resumes from the keeper's value rounded down to 10 ns, or from the last value read
out plus 10 ns when that is greater (R28). -/
def State.keeperOff (s : State) : State :=
  let t := s.time
  if t.keeper then
    let v := t.now / 10 * 10
    { s with time := { t with keeper := false, now := if v < t.lastOut then t.lastOut + 10 else v } }
  else s

end Sys2Proof.Machine
end

