-- ==== Sys2Proof/Machine/Wake.lean ====
section
/-! DEFINITION. Resets recorded, changes of the power state, the wake from Moss, and readiness to close
(20 R496; 21 R508–R524). -/

namespace Sys2Proof.Machine

open Sys2Proof

/-- A reset reaches a domain (20 R496): its bit, GLB_RESET_TIME and a black-box record. -/
def State.resetCause (s : State) (n : Nat) : State :=
  let s := s.event .resetCause n
  let s := { s with host := { s.host with resetTime := s.now } }
  s.bbEvent 2 0 255 (s.evr .resetCause).bits.toNat 0 0

/-- The power state changes (21 R508; 11 R305): PWR_EVENT [0], the module record and PWR_STATE. -/
def State.powerState (s : State) (st : PState) (code src : Nat) : State :=
  let wt := match st with | .run => some s.now | _ => none
  let s := { s with pwr := { s.pwr with st := st, entering := code, wakeSrc := src, wakeT := wt } }
  (s.event .pwr 0).eventRec 6 4 0 255 code src 0

/-- Every domain powered (21 R517). -/
def allDomains : BitVec 12 := 0xFFF#12

/-- Wake from Moss to Run (21 R514): domains up, every port's nodes woken, the Causeway to be retrained, limits to be
published anew (09 R247). Outside Moss and its entry nothing happens. -/
def State.wakeRun (s : State) (src : Nat) : State :=
  if s.pwr.st != .moss then s
  else
    let s := s.keeperOff.powerState .run 0 src
    let s := { s with pwr := { s.pwr with domains := allDomains, startT := s.now, ready := false, firstLimits := false, peatDue := false } }
    let s := { s with
      pair := { s.pair with trained := false }, drv := { s.drv with svcUp := true }, time := { s.time with reedIssued := false } }
    let s := s.resetCause 10
    s.portList.foldl (fun s p => s.wakePort p true true) s

/-- A wake source acts (R512): from Moss it wakes the module to Run; of several in one cycle the lowest code is recorded. -/
def State.wakeBy (s : State) (code : Nat) : State :=
  if s.pwr.st == .moss then s.wakeRun code
  else if s.pwr.wakeT == some s.now && code < s.pwr.wakeSrc then { s with pwr := { s.pwr with wakeSrc := code } }
  else s

/-- The HVIL loops have passed (14 R353). -/
def State.loopsProven (s : State) : Bool := (s.loop 0).proven && (s.loop 1).proven

/-- The conditions of ready to close (21 R524). -/
def State.readyNow (s : State) : Bool :=
  s.cfg.valid && s.portList.all (fun p => (s.port p).st == .ready || (s.port p).st == .held) && s.pwr.estSeeded &&
    s.pwr.firstLimits && s.loopsProven && s.iso.prov0 && s.iso.prov1 && s.lid.prov0 && s.lid.prov1 && s.drv.coresUp

end Sys2Proof.Machine
end

