-- ==== Sys2Proof/Machine/Protect.lean ====
section
/-! DEFINITION. Latching, acting and clearing (11 R284–R299, R583): what a source does when it latches, how its condition
stands and ceases, how a latch clears, and Wade mode. -/

namespace Sys2Proof.Machine

open Sys2Proof

/-! ## Wade mode (11 R296, R297) -/

/-- Wade duration in force, ms: the configured one within the fused maximum. -/
def State.wadeMs (s : State) : Nat := min s.gen.wadeMin s.fuse.set.wade * 60000

/-- A group already takes part in Wade mode, apart from a latch of source `n` on `scope`. -/
def State.groupInWade (s : State) (n scope : Nat) : Bool :=
  (List.range 64).any (fun m => isW m && (s.fault m).wade && (List.range 17).any (fun sc =>
    !(m == n && sc == scope) && s.isLatched m sc && wGroup m sc == wGroup n scope))

/-- Wade mode is entered: the timer starts with the full duration, or with the value it held at an end within the last
10 min. -/
def State.wadeEnter (s : State) : State :=
  let w := s.wade
  let left := if w.everEnded && s.now < w.endT + mins 10 then w.left else s.wadeMs
  let s := { s with wade := { w with on := true, left := left, since := s.now, expired := false } }
  s.eventRec 6 5 0 255 1 (left / 1000) 0

/-- Wade mode ends when every W source that took part has been cleared. -/
def State.wadeCheckEnd (s : State) : State :=
  if s.actsPrimary && s.wade.on && !(List.range 64).any (fun m => (s.fault m).wade) then
    let left := s.wadeLeft
    let s := s.eventRec 6 5 0 255 0 (left / 1000) 0
    { s with wade := { s.wade with on := false, left := left, endT := s.now, everEnded := true, expired := false } }
  else s

/-- What a W latch of class D does to Wade mode (R297): it enters it, joins its own group, or as a second group
escalates to class C. Answers the state and whether it entered. -/
def State.wadeJoin (s : State) (n scope : Nat) : State × Bool :=
  if !(isW n && s.effClass n scope == 3 && s.actsPrimary) then (s, false)
  else if !s.wade.on then ((s.onFault n (fun f => { f with wade := true })).wadeEnter, true)
  else if s.groupInWade n scope then (s.onFault n (fun f => { f with wade := true }), false)
  else (s.onFault n (fun f => { f with wade := true, escC := f.escC ||| (1#17 <<< scope) }), false)

/-- A class C disconnect is requested for every scope that a W source in Wade mode holds (R297). -/
def State.wadeOpens (s : State) : State :=
  if !s.actsPrimary || !s.drv.coresUp then s
  else
    let l := (List.range 17).filter (fun q => (List.range 64).any (fun n =>
      isW n && (s.fault n).wade && s.stands n q && s.isLatched n q))
    l.foldl (fun s q => s.startC q) s

/-- A module that takes the role of primary over takes up Wade mode (R299; 17 R420): the W sources of class D that are latched take part in
it, from the last mirrored value of its timer, and it begins where it was not in force. -/
def State.wadeAdopt (s : State) : State :=
  let was := s.wade.on
  let l := (List.range 64).flatMap (fun n => ((List.range 17).filter (fun sc => s.isLatched n sc)).map (fun sc => (n, sc)))
  let join (s : State) (x : Nat × Nat) : State :=
    if !(isW x.1 && s.effClass x.1 x.2 == 3) then s
    else if was then s.onFault x.1 (fun f => { f with wade := true })
    else (s.wadeJoin x.1 x.2).1
  (l.foldl join s).wadeCheckEnd

/-! ## Acting (11 R288–R292, R298, R299) -/

/-- A scope opens at once (R288): the coils of the scope off, and for a pack or module scope every LSW released; zero
limits are published; waits of the scope are over. In limp-home class A still releases the LSWs (13 R346): for a string
scope, those through which its coils on selected channels return, which follow their DIN (assumption log 83). -/
def State.actA (s : State) (scope by_ : Nat) : State :=
  let limp := (s.ctrsOf scope).filterMap (fun i => match s.ctrCfg i with
    | some c => if s.drv.limp && s.limpSel c.out then some c.lsw else none
    | none => none)
  let s := if scope < 16 then limp.dedup.foldl (fun s j => s.releaseLsw j by_) (s.openAll scope) else s.openModule by_
  let l := s.discKeys scope
  let s := l.foldl (fun s q => s.onDisc q (fun d => { d with kind := .none })) s
  s.publishZeros scope

/-- The coils of a scope that are on. -/
def State.scopeOn (s : State) (scope : Nat) : Bool := (s.ctrsOf scope).any (fun i => (s.ctr i).coil)

/-- Break-rating wait of a source, ms: 980 ms at most for F14 (10 R283). -/
def State.waitOf (s : State) (n : Nat) : Nat := if n = 14 then min s.waitW 980 else s.waitW

/-- What a class D latch drives to zero is published at once (09 R246): charge limits for F10, every limit for a factor of 0
(R292). -/
def State.derateZero (s : State) (n scope : Nat) : State :=
  if n = 10 then (s.limitsZero scope [0, 1, 2, 3] 5).publishExtra
  else if s.factor n = 0 then (s.limitsZero scope (List.range 8) 6).publishExtra
  else s

/-- A latch acts with its class on its scope, and stops a close of it, or of a string of its set (R298; 12 R307). Class A acts in each module; classes B and C in the module that acts as
primary (R299). Safety cores that are not supervising act on nothing (13 R344; 21 R520). -/
def State.act (s : State) (n scope : Nat) (hwBy : Nat) : State :=
  let c := s.effClass n scope
  if !s.drv.coresUp then s else
  let s := if c = 0 then (if s.scopeOn scope then s.openedRec scope false else s).actA scope hwBy
    else if c = 1 && s.actsPrimary then s.startB scope (s.waitOf n) none
    else if c = 2 && s.actsPrimary then s.startC scope
    else if c = 3 then s.derateZero n scope
    else s
  if c ≤ 2 && s.seq.active && (scope = 16 || (s.memberScopes s.seqMember).contains scope) then s.seqFault c else s

/-- Starts a snapshot of a port unless one is collecting there (22 R545, R548). -/
def State.snapshot (s : State) (p n cls pos : Nat) : State :=
  if s.mram.collecting.getD p 0 ≠ 0 then s
  else s.stamped.nvDue { kind := 0x0D, key := p, body := s.snapHeader p n cls pos }

/-- Records of F39 for contactors of a low supply, but for one that is named already (12 R329; assumption log 104). -/
def State.f39Rec (s : State) (l : List Nat) (but : Nat) : State :=
  (l.filter (· ≠ but)).foldl (fun s i => s.faultRec 39 16 0 { s.why 39 16 with pos := i } 0) s

/-- Records of F37 for contactors on a channel, which it names (13 R340; assumption log 104). -/
def State.f37Rec (s : State) (l : List Nat) (ch : Nat) : State :=
  l.foldl (fun s i => s.faultRec 37 16 0 { s.why 37 16 with pos := i, value := ch } 0) s

/-- A source latches on a scope (R284, R286, R293): the latch, its record and black-box event, a snapshot for class A or
B of string scope, a wake from Moss for class D or stricter unless the hardware release path acted (R298; 21 R512), the
partner told (R299), and the action. F39 names every contactor of the supply, each in a record (12 R329; assumption log 104). A latch
already set changes nothing. -/
def State.latch (s : State) (n scope : Nat) (w : Why) : State :=
  if s.isLatched n scope then s
  else
    let s := s.onFault n (fun f => { f with
      latched := f.latched ||| (1#17 <<< scope), change := s.now, count := min (f.count + 1) 0xFFFFFFFF })
    let s := s.onMark n scope (fun m => { m with why := w })
    let won := (s.mark n scope).clearT == some s.now
    let s := s.onMark n scope (fun m => { m with latchT := some s.now })
    let (s, entered) := s.wadeJoin n scope
    let s := s.faultRec n scope 0 w (entered.toNat + 32 * won.toNat)
    let s := if n = 39 then ({ s with pwr := { s.pwr with f39Named := s.f39Banks } } : State).f39Rec (s.f39Names s.f39Banks) w.pos else s
    let s := if n = 37 then s.f37Rec ((s.ctrsOn w.value.toNat).drop 1) w.value.toNat else s
    let s := if (s.fault n).escC.getLsbD scope then s.faultRec n scope 3 w 0 else s
    let c := s.effClass n scope
    let s := if scope < 16 && c ≤ 1 then s.snapshot scope n c w.pos else s
    let s := if c ≤ 3 && !w.hw then s.wakeBy 10 else s
    let s := if s.partnerUp && !w.partner then s.sendEvt (.latch n scope true) else s
    s.act n scope 1

/-! ## Standing, ceasing, clearing (11 R284, R294, R583) -/

/-- A condition begins to stand on a scope: it latches at once without a persistence of its own, and otherwise at its
persistence's end (the row PERSISTENCE_EXPIRY). -/
def State.stand (s : State) (n scope : Nat) (w : Why) : State :=
  let was := s.stands n scope
  let s := s.onFault n (fun f => { f with
    standing := f.standing ||| (1#17 <<< scope) })
  let s := s.onMark n scope (fun m => { m with
    since := if was then m.since else s.now, why := if s.isLatched n scope then m.why else w })
  if s.persistence n = 0 then s.latch n scope w else s

/-- W sources of a scope stand after the expiry of the Wade timer, which asked for its disconnect (R297). -/
def State.wadeHolds (s : State) (scope : Nat) : Bool :=
  s.wade.expired && (List.range 64).any (fun n => isW n && (s.fault n).wade && (s.stands n scope || s.stands n 16))

/-- A pending class C disconnect of a scope is cancelled, before its low-current window or in the wait that began at it, once no latch of
class C or stricter covers it, no host command asked for it, and no expired Wade mode holds it (R294, R297). -/
def State.cancelC (s : State) (scope : Nat) : State :=
  (s.discKeys scope).foldl (fun s q =>
    let d := s.disc q
    let sc := if q < 16 then q else 16
    if (d.kind == .classC || (d.kind == .classB && d.fromC)) && d.cmd.isNone && s.scopeClass sc > 2 && !s.wadeHolds sc then
      s.onDisc q (fun d => { d with kind := .none, fromC := false })
    else s) s

/-- A latch is cleared (R294): change 2, its escalations end, a pending class C disconnect of its scope with no other
class C latch is cancelled; a cleared F32 returns its contactors from WELDED to UNKNOWN (R583); the substitution of a
cleared F20 or F21 ends (06 R183). -/
def State.unlatch (s : State) (n scope : Nat) : State :=
  if !s.isLatched n scope then s
  else
    let m := ~~~(1#17 <<< scope)
    let s := s.onFault n (fun f =>
      let l := f.latched &&& m
      { f with
        latched := l, escC := f.escC &&& m, escB := f.escB &&& m, change := s.now
        wade := f.wade && l != 0#17 })
    let s := (s.onMark n scope (fun m => { m with clearT := some s.now })).faultRec n scope 2 (s.why n scope) 0
    let s := s.cancelC scope
    let s := if n = 32 then
        (if scope < 16 then s.ctrsOf scope else s.othList).foldl (fun s i => if (s.ctr i).st == .welded then s.setCtr i .unknown else s) s
      else s
    let s := if s.partnerUp then s.sendEvt (.latch n scope false) else s
    let s := if n = 20 then { s with pack := { s.pack with subst := false } }
      else if n = 21 && scope < 16 then s.onStr scope (fun x => { x with subst := false }) else s
    s.wadeCheckEnd

/-- Class D release time of a source, ns. -/
def State.releaseTime (s : State) (n : Nat) : Nat := ms (s.faultCfg n).release

/-- A condition ceases on a scope: change 1 for a latch; a class E latch clears by itself, and a class D latch whose
release time is 0. -/
def State.cease (s : State) (n scope : Nat) : State :=
  if !s.stands n scope then s
  else
    let s := s.onFault n (fun f => { f with standing := f.standing &&& ~~~(1#17 <<< scope) })
    let s := s.onMark n scope (fun m => { m with ceased := s.now })
    if !s.isLatched n scope then s
    else
      let s := (s.onFault n (fun f => { f with change := s.now })).faultRec n scope 1 (s.why n scope) 0
      let s := if s.partnerUp then s.sendEvt (.latchOver n scope) else s
      let c := s.effClass n scope
      if c = 4 || (c = 3 && s.releaseTime n = 0 && !(s.faultCfg n).latching) then s.unlatch n scope else s

/-- A condition stands or ceases as `b` says. -/
def State.setCond (s : State) (n scope : Nat) (b : Bool) (w : Why) : State := if b then s.stand n scope w else s.cease n scope

/-- A finding made at one moment (R583: F30 as a finding, F32, F33, F35, F36): its condition stands and ceases at once. -/
def State.finding (s : State) (n scope : Nat) (w : Why) : State := (s.stand n scope w).cease n scope

/-- Every contactor of a scope is OPEN or WELDED (R294). -/
def State.scopeOpen (s : State) (scope : Nat) : Bool :=
  (s.ctrsOf scope).all (fun i => (s.ctr i).st == .isOpen || (s.ctr i).st == .welded)

/-- A fault clear command meets one latch (R294): answers the state and whether it cleared. A refused clear writes a
record with change 5. A latch set in the same cycle, at the same module time, stays set, and flag [5] says so (R298); one taken from the
partner stays while its condition stands there (R299). -/
def State.tryClear (s : State) (n scope : Nat) : State × Bool :=
  let m := s.mark n scope
  if s.isLatched n scope && m.latchT == some s.now then (s.faultRec n scope 5 (s.why n scope) 32, false)
  else if s.stands n scope || (m.there && m.why.partner && s.partnerUp) then (s.faultRec n scope 5 (s.why n scope) 0, false)
  else
    let c := s.effClass n scope
    if c ≤ 1 && !s.scopeOpen scope then (s.faultRec n scope 5 (s.why n scope) 0, false)
    else (s.unlatch n scope, true)

/-! ## The matrix settles (11 R298) -/

/-- Settles the action on one scope by the strictest class that covers it: A opens a scope still on, B starts its wait,
C its pending disconnect; a stricter class in force is not relaxed. -/
def State.settleScope (s : State) (scope : Nat) : State :=
  let c := s.scopeClass scope
  if !s.drv.coresUp || !s.scopeOn scope then s
  else if c = 0 then (s.openedRec scope false).actA scope 1
  else if !s.actsPrimary then s
  else if c = 1 && (s.disc scope).kind != .classB then s.startB scope (s.waitOf (if s.isLatched 14 16 then 14 else 0)) none
  else if c = 2 then s.startC scope
  else s

/-- Settles the action on every contactor anew. -/
def State.settle (s : State) : State := (16 :: List.range 16).foldl (fun s q => s.settleScope q) s

/-! ## The tone path (04 R104, R107; 11 R289) -/

/-- The hardware release path acts on recognition of the fault tone or the alarm tone at an end of a port: every LSW of
the module opens, F25 latches, every coil channel is switched off and zero limits are published. Without supply the LSW
latches are not changed (02 R45). -/
def State.toneTrip (s : State) (p e : Nat) : State :=
  if !s.drvUp then s
  else
  let on := s.scopeOn 16
  let s := (List.range 4).foldl (fun s j => s.releaseLsw j 2) s
  let s := s.onFault 25 (fun f => { f with ends := f.ends ||| (1#32 <<< (2 * p + e)) })
  let s := s.onFault 25 (fun f => { f with standing := f.standing ||| (1#17 <<< p) })
  let s := if s.drv.coresUp then s.openModule 2 else s
  let s := s.latch 25 p { hw := true }
  if on && s.drv.coresUp then s.openedRec p false else s

/-- A pending class C disconnect passes to the steps of class B at its window; a clear before the scope opens still cancels the waits that
begin with it (R291, R294). -/
def State.startWindow (s : State) (scope : Nat) : State :=
  let new := (s.discKeys scope).filter (fun q => (s.disc q).kind != .classB)
  new.foldl (fun s q => if (s.disc q).kind == .classB then s.onDisc q (fun d => { d with fromC := true }) else s)
    (s.startB scope s.waitW none)

end Sys2Proof.Machine
end

