-- ==== Sys2Proof/Machine/Operands.lean ====
section
/-! DEFINITION. What every host command shares (19 R464–R467): the fields of imm, the order of the checks, the permission
codes, and the answer. -/

namespace Sys2Proof.Machine

open Sys2Proof

/-- Field [hi:lo] of an immediate parameter. -/
def immF (v : Word) (hi lo : Nat) : Nat := v.toNat / 2 ^ lo % 2 ^ (hi - lo + 1)

/-- The reserved bits of an immediate parameter are 0. -/
def immOnly (v : Word) (mask : Word) : Bool := v &&& ~~~mask == 0#32

/-- Permission codes (19 R465); A takes none. V is S as PAIR_ADOPT can meet it: its partner has no seal yet (17 R432 step 5),
so only the seal in force counts (assumption log 25). -/
inductive Perm where | X | P | S | V | m | M | O | C
  deriving DecidableEq, Repr, Inhabited

/-- A permission is met. `bars` marks the commands a provisional primary is refused: those that close a contactor, start
pre-charge or make a mirrored write (17 R424). -/
def State.permits (s : State) (bars : Bool) (p : Perm) : Bool :=
  match p with
  | .X => s.isPair
  | .P => !s.isPair || s.pair.role == .primary || (s.pair.role == .provisional && !bars)
  | .S => s.cfg.valid && (!s.partnerUp || (s.pair.partner.sealValid && s.pair.partner.sealVal.toNat == s.sealInForce))
  | .V => s.cfg.valid
  | .m => !s.cfg.valid || s.cfg.maint
  | .M => s.cfg.maint
  | .O => s.allOpen
  | .C => s.coresOk

/-- Completion status of a failing permission: SEAL_INVALID for S and V, otherwise STATE_NOT_PERMITTED. -/
def permStatus (p : Perm) : Nat := if p == .S || p == .V then 2 else 4

/-- A host command (19 R464): the parameters, then the permissions in order, then a command it would meet; the first
check that fails decides the status, and the command has no further effect. An accepted command enters the log, and
`body` does what it does. -/
def State.command (s : State) (op : Nat) (d : Desc) (okPar : Bool) (perms : List Perm) (bars busy : Bool)
    (body : State → CmdRef → State) : State :=
  let r := s.refOf op d
  if !okPar then s.finish r 7 0 [] false
  else match perms.find? (fun p => !s.permits bars p) with
    | some p => s.finish r (permStatus p) 0 [] false
    | none => if busy || s.busy op then s.finish r 3 0 [] false else body (s.accept r) r

/-- Completes with OK, a value and a result. -/
def State.okay (s : State) (r : CmdRef) (value : Nat) (result : List Byte) : State := s.finish r 0 value result false

/-- Completes with a status other than OK. -/
def State.fail (s : State) (r : CmdRef) (status : Nat) : State := s.finish r status 0 [] false

/-- A kind 2 array: primary, then standby (19 R468). -/
def State.pairMembers (s : State) (r0 r1 : Nat) (c0 c1 : Nat) : List Byte :=
  let pos := s.fuse.set.position
  memberArray 2 ((if r0 = 0 then 1 else 0) + (if r1 = 0 then 1 else 0))
    [(0, r0, 0, 0, (pos : Int), c0, 0), (1, r1, 0, 0, ((3 - pos : Nat) : Int), c1, 0)]

end Sys2Proof.Machine
end

