-- ==== Sys2Proof/Machine/Axle.lean ====
section
/-! DEFINITION. The axle speed and position inputs (15 R373–R386) and the discrepancies between them (14 R359). -/

namespace Sys2Proof.Machine

open Sys2Proof

/-- An event of an axle channel (15 R386; 20 R503): its record, and SPDn_EVENT bit e − 1. -/
def State.axleEvent (s : State) (ch e t : Nat) (v : Int) : State :=
  let s := s.record fnAxle (le 1 2 ++ le 1 ch ++ le 1 e ++ le 1 0 ++ leI 4 (s.axle ch).count ++ le 8 t ++ leI 4 v ++ zeros 4)
  s.event (if ch = 0 then .spd0 else .spd1) (e - 1)

/-- F47 stands while a channel fault or a discrepancy stands (15 R382; 14 R359). -/
def State.f47Settle (s : State) (ch : Nat) : State :=
  s.setCond 47 16 ((s.axle 0).bad || (s.axle 1).bad || s.safe.stillDisc || s.safe.speedDisc) { value := ch }

/-- A case of R382 occurs on a channel: the channel fault stands, and 10 s count from it. -/
def State.axleBad (s : State) (ch : Nat) : State :=
  (s.onAxle ch (fun x => { x with bad := true, badT := s.now })).f47Settle ch

/-- A glitch is counted; more than 16 within 1 s are a channel fault (15 R374, R382). -/
def State.axleGlitch (s : State) (ch t : Nat) : State :=
  let s := s.onAxle ch (fun x => { x with glitches := min (x.glitches + 1) 65535, glitchT := (t :: x.glitchT).take 17 })
  let l := (s.axle ch).glitchT
  if l.length = 17 && t < l.getLastD 0 + sec 1 then s.axleBad ch else s

/-- Direction of an edge of one phase, true reverse (15 R375): the levels (A, B) step 00, 10, 11, 01 forwards when A
leads. -/
def edgeRev (c : AxleCfg) (phaseB a b : Bool) : Bool :=
  let fwd := if phaseB then a == b else a != b
  fwd != c.aLeads

/-- The index is latched at the closing edge of a gap and the gap count is checked (15 R376–R378). -/
def State.closingEdge (s : State) (ch : Nat) (c : AxleCfg) (t : Nat) (rev : Bool) : State :=
  let x := s.axle ch
  let checked := x.gapOne && !x.revd
  let good := checked && x.gapCnt == revEdges c
  let slip := checked && !good
  let base := good && x.gapGood
  let newly := base && (!x.based || x.rebase)
  let s := s.onAxle ch (fun x => { x with
    idx := x.count, tIdx := t, gapOne := true, revd := false, gapGood := good, slips := (slip :: x.slips).take 16
    slipRec := x.slipRec || slip, rebase := (x.rebase || slip) && !base, based := x.based || base
    phase := if base then 0 else x.phase, phaseRev := if base then rev else x.phaseRev })
  let s := s.axleEvent ch 1 t 0
  let s := if slip then
      let s := s.axleEvent ch 2 t x.gapCnt
      if 4 ≤ (s.axle ch).slips.countP id then s.axleBad ch else s
    else s
  let s := if newly then s.axleEvent ch 8 t 0 else s
  s.onAxle ch (fun x => { x with gapCnt := 0 })

/-- Speed over the last four intervals kept (15 R379). -/
def ivalSpeed (c : AxleCfg) (l : List (Nat × Nat)) : Nat := spdOf c ((l.map (·.2)).sum) ((l.map (·.1)).sum)

/-- The revolution phase one edge on, by the direction of the edge (15 R378). -/
def phaseStep (c : AxleCfg) (up : Bool) (ph : Nat) : Nat :=
  let n := max (revEdges c) 1
  if up then (ph + 1) % n else (ph + n - 1) % n

/-- An accepted edge of one phase: counted and stamped (15 R375), direction, speed, gap and flags (R376–R381). Safe
standstill ends at it (14 R358). -/
def State.axleAccept (s : State) (ch : Nat) (c : AxleCfg) (phaseB a b : Bool) (t : Nat) : State :=
  let x := s.axle ch
  let rev := edgeRev c phaseB a b
  let n := t - x.tEdge
  let turned := !x.still && rev != x.lastDir
  let gap := !x.still && !turned && x.means.length == 8 && decide (x.means.sum * (c.m + 1) < n * 5)
  let q := if gap then 4 * c.m + 1 else 1
  let keep := !x.still && !turned && !x.skip
  let ivals := if x.still || turned then [] else if x.skip then x.ivals else ((n, q) :: x.ivals).take 4
  let run := if rev == x.rev then 0 else if turned || x.still then 1 else x.revRun + 1
  let flip := if c.flagMode || x.still then rev != x.rev else 2 ≤ run
  let s := s.onAxle ch (fun x => { x with
    a := a, b := b, count := (BitVec.ofInt 32 (x.count + (if rev then -1 else 1))).toInt, tEdge := t
    tA := if phaseB then x.tA else some t, tB := if phaseB then some t else x.tB
    lastDir := rev, rev := if flip then rev else x.rev, revRun := if flip then 0 else run
    revd := x.revd || rev != x.lastDir, still := false, ivals := ivals
    untimed := if x.still || turned then true else x.untimed && ivals.isEmpty
    speed := if x.still || turned then 0 else if ivals.isEmpty then x.speed else ivalSpeed c ivals
    means := if x.still || turned then [] else if gap || !keep then x.means else (n :: x.means).take 8
    skip := x.wireA || x.wireB
    phase := phaseStep c (rev == x.phaseRev) x.phase })
  let s := if x.still then s.axleEvent ch 5 t 0 else if flip then s.axleEvent ch 3 t 0 else s
  let s := if gap then s.closingEdge ch c t rev else s
  let s := s.onAxle ch (fun x => { x with gapCnt := min (x.gapCnt + 1) 65535 })
  if s.safe.standstill then ({ s with safe := { s.safe with standstill := false } } : State).event .safein 6 else s

/-- The channel is at standstill since T_still after its last edge (15 R381). -/
def State.axleStill (s : State) (ch : Nat) (c : AxleCfg) : State :=
  let t := (s.axle ch).tEdge + ms c.tStill
  (s.onAxle ch (fun x => { x with
    still := true, stillT := t, untimed := false, speed := 0, ivals := [], means := [] })).axleEvent ch 4 t 0

/-- An interval that has reached T_still by time `t` is a standstill, whatever edge ends it (15 R383). -/
def State.stillBy (s : State) (ch : Nat) (c : AxleCfg) (t : Nat) : State :=
  if !(s.axle ch).still && (s.axle ch).tEdge + ms c.tStill ≤ t then s.axleStill ch c else s

/-- Wire disagreement of a phase ends when the phase shows a level again: a new one, or the same one when neither phase
changes (assumption log 17). -/
def State.wireEnd (s : State) (ch : Nat) (a b : Bool) : State :=
  let x := s.axle ch
  let same := a == x.a && b == x.b
  s.onAxle ch (fun x => { x with wireA := x.wireA && !(same || a != x.a), wireB := x.wireB && !(same || b != x.b) })

/-- Time of a phase's last accepted edge. -/
def Axle.last (x : Axle) (phaseB : Bool) : Option Nat := if phaseB then x.tB else x.tA

/-- AXLE_EDGE (R374, R375): the levels after a change, at `t`. A change of both phases and a change within t_min of the
phase's last accepted edge are glitches. -/
def execAxleEdge (ch : Nat) (a : Bool) (b : Bool) (t : Nat) (s : State) : Out :=
  .next (
    match s.axleCfg ch with
    | none => s
    | some c =>
      let s := (s.at t).stillBy ch c t
      let x := s.axle ch
      let s := s.wireEnd ch a b
      if a == x.a && b == x.b then s
      else if a != x.a && b != x.b then (s.onAxle ch (fun x => { x with a := a, b := b })).axleGlitch ch t
      else
        let ph := b != x.b
        let early := match x.last ph with | some l => decide (t < l + us c.tMin) | none => false
        if early then s.axleGlitch ch t else s.axleAccept ch c ph a b t)

/-- EDGE_REREAD (R374): t_min after an accepted edge its phase is read again, and a level that differs is an edge; none is taken
from a phase in wire disagreement (R373). -/
def execEdgeReread (ch : Nat) (a : Bool) (b : Bool) (t : Nat) (s : State) : Out :=
  .next (
    match s.axleCfg ch with
    | none => s
    | some c =>
      let s := (s.at t).stillBy ch c t
      let x := s.axle ch
      let due (l : Option Nat) : Bool := match l with | some l => l + us c.tMin == t | none => false
      if due x.tA && !x.wireA && a != x.a then s.axleAccept ch c false a x.b t
      else if due x.tB && !x.wireB && b != x.b then s.axleAccept ch c true x.a b t
      else s)

/-- AXLE_STANDSTILL (R381): no edge for T_still. -/
def execAxleStandstill (ch : Nat) (s : State) : Out :=
  .next (
    match s.axleCfg ch with
    | none => s
    | some c =>
      if (s.axle ch).still then s
      else (s.at ((s.axle ch).tEdge + ms c.tStill)).axleStill ch c)

/-- WIRE_DISAGREEMENT (R373, R382): the phase comes into disagreement: no edge is taken from it, and the speed interval is discarded;
the third within 1 s is a channel fault. -/
def execWireDisagreement (ch : Nat) (phaseB : Bool) (s : State) : Out :=
  .next (
    if (s.axleCfg ch).isNone || (if phaseB then (s.axle ch).wireB else (s.axle ch).wireA) then s
    else
      let s := s.onAxle ch (fun x =>
        let x := { x with skip := true, wireT := (s.now :: x.wireT).take 3 }
        if phaseB then { x with wireB := true, wireTB := s.now } else { x with wireA := true, wireTA := s.now })
      let s := s.axleEvent ch 6 s.now phaseB.toNat
      let l := (s.axle ch).wireT
      if l.length = 3 && s.now < l.getLastD 0 + sec 1 then s.axleBad ch else s)

/-- SPD_SUPPLY_FAULT (R373, R382). -/
def execSpdSupplyFault (ch : Nat) (s : State) : Out :=
  .next (
    if (s.axleCfg ch).isNone then s
    else ((s.onAxle ch (fun x => { x with supply := true })).axleEvent ch 7 s.now 0).axleBad ch)

/-- The status flags of a channel (15 R385; 20 R503). -/
def State.axleFlags (s : State) (ch : Nat) : Nat :=
  let x := s.axle ch
  bitsOf [s.axleValid ch, x.still, x.untimed, x.rev, x.based, x.slipRec, x.wireA || x.wireB, x.supply]

/-- One 40-byte entry of the axle record (15 R385). -/
def State.axleEntry (s : State) (ch : Nat) : List Byte :=
  let x := s.axle ch
  le 1 ch ++ le 1 (s.axleFlags ch) ++ le 2 x.glitches ++ le 4 (s.axleSpeed ch) ++ leI 4 x.count ++ zeros 4 ++ le 8 x.tEdge ++
    leI 4 x.idx ++ le 2 (if x.based then x.phase else 0xFFFF) ++ le 1 (x.slips.countP id) ++ zeros 1 ++ le 8 x.tIdx

/-- Channel faults at an evaluation (15 R382): a disagreement that has lasted 10 ms is one; without a case for 10 s the
channel fault is over. -/
def State.axleCheck (s : State) (ch : Nat) : State :=
  let x := s.axle ch
  let long := (x.wireA && x.wireTA + ms 10 ≤ s.now) || (x.wireB && x.wireTB + ms 10 ≤ s.now)
  if long then s.axleBad ch
  else if x.bad && x.badT + sec 10 ≤ s.now then
    (s.onAxle ch (fun x => { x with bad := false, supply := false })).f47Settle ch
  else s

/-- The discrepancies between the channels at an evaluation (14 R359). -/
def State.axleCompare (s : State) : State :=
  if !(s.axleValid 0 && s.axleValid 1) then { s with safe := { s.safe with stillDiscT := none, speedDiscT := none } }
  else
    let v0 := s.axleSpeed 0
    let v1 := s.axleSpeed 1
    let st := ((s.axle 0).still && 1000 < v1) || ((s.axle 1).still && 1000 < v0)
    let hi := max v0 v1
    let sp := !(s.axle 0).still && !(s.axle 1).still && decide (s.gen.spdDiff * 100 + hi * s.gen.spdPct < (hi - min v0 v1) * 100)
    let a := s.safe
    let stT := if st then some (a.stillDiscT.getD s.now) else none
    let spT := if sp then some (a.speedDiscT.getD s.now) else none
    let stOn := match stT with | some t => decide (t + sec 2 ≤ s.now) | none => false
    let spOn := match spT with | some t => decide (t + sec s.gen.spdSec ≤ s.now) | none => false
    let agree := if st || sp then s.now else a.agreeT
    let ended := decide (agree + sec 10 ≤ s.now)
    let s := { s with safe := { s.safe with
      stillDiscT := stT, speedDiscT := spT, agreeT := agree
      stillDisc := stOn || (a.stillDisc && !ended), speedDisc := spOn || (a.speedDisc && !ended) } }
    s.f47Settle 255

/-- The periodic axle record of instant `S`, after the checks of the channels and of the two against each other
(R380–R385). -/
def State.axleRecs (s : State) (S : Nat) : State :=
  let l := (List.range 2).filter (fun n => (s.axleCfg n).isSome)
  let s := l.foldl (fun s n => s.axleCheck n) s
  let s := s.axleCompare
  let s := s.record fnAxle (le 1 1 ++ le 1 l.length ++ zeros 6 ++ le 8 S ++ (l.map s.axleEntry).flatten)
  let s := l.foldl (fun s n => s.onAxle n (fun x => { x with slipRec := false })) s
  let own := ((List.range 2).filter s.axleValid).map s.axleSpeed
  if s.partnerUp then
    s.sendMirror (.axle (if own.isEmpty then none else some (own.foldl max 0)))
  else s

/-- AXLE_RECORD (R385): at every grid instant that is a multiple of 10 ms, once, the channels are evaluated and their periodic record is written; in a pair the safe
speed is mirrored. -/
def execAxleRecord (S : Nat) (s : State) : Out :=
  .next (
    if S % ms 10 ≠ 0 || S ≤ s.safe.recT then s
    else (({ s with safe := { s.safe with recT := S } } : State).at S).axleRecs S)

end Sys2Proof.Machine
end

