-- ==== Sys2Proof/Machine/PairBase.lean ====
section
/-! DEFINITION. Roles of a pair and the proof of life (17 R408, R422–R426, R431). -/

namespace Sys2Proof.Machine

open Sys2Proof

/-- The safety cores switch a paralleled coil channel as the partner asks (01 R15; 12 R331): only while they supervise; and
on only with a valid seal and without a class A latch of their own over the coil (11 R299; assumption log 84). -/
def State.pairMay (s : State) (ch : Nat) (on : Bool) : Bool :=
  s.drv.coresUp && (!on || (s.cfg.valid && (s.ctrsOn ch).all (fun i =>
    match s.ctrCfg i with | some c => s.scopeClass (if c.role == .oth then 16 else c.port) != 0 | none => true)))

/-- The paralleled coil channels go to a mask, and the coils read as commanded by it (17 R425, R427; 12 R331). -/
def State.coilMask (s : State) (mask : BitVec 12) : State :=
  (List.range s.conf.ctrs.length).foldl (fun s i =>
    match s.ctrCfg i with
    | some c =>
      let on := mask.getLsbD c.out
      if !s.pairMay c.out on then s else
      (s.channel c.out on).onCtr i (fun k => { k with coil := on, t := if k.coil == on then k.t else s.now })
    | none => s) s

/-- The standby of a pair whose Causeway is lost while both modules live: every paralleled coil channel off, the LSW
latches left closed (17 R425). -/
def State.soloStandby (s : State) : State := s.coilMask 0

/-- A role is taken, with the pair event `n` that reports it. -/
def State.takeRole (s : State) (r : PairRole) (gained : Bool) (n : Nat) : State :=
  let before := s.pair.role
  ({ s with pair := { s.pair with role := r, gained := gained } } : State).pairEvent n before 0 0

/-- The commands marked P, but for ROLE_HANDOVER, which ends by its own rule (19 R470–R481). -/
def markedP (op : Nat) : Bool :=
  op ∈ [0x04, 0x11, 0x12, 0x13, 0x15, 0x16, 0x20, 0x21, 0x23, 0x30, 0x31, 0x32, 0x33, 0x41, 0x43, 0x51, 0x71]

/-- The primary role has passed to the partner (19 R488; 17 R421): its sequences, openings and decisions are the partner's
now, and the running commands marked P complete with STATE_NOT_PERMITTED. -/
def State.roleLost (s : State) : State :=
  let opens : Tab Nat StrOpen := s.opens.map (fun x => (x.1, { nextFirst := x.2.nextFirst }))
  let s := { s with seq := { s.seq with active := false, reverting := false }, discs := [], opens := opens }
  (s.host.running.filter (fun c => markedP c.ref.opcode)).foldl (fun s c => s.fail c.ref 4) s

/-- A module yields (17 R424, R425, R431): it returns to standby. -/
def State.yieldRole (s : State) : State :=
  let s := { s with pair := { s.pair with proof := false, mute := false } }
  ((s.takeRole .standby false 2).roleLost.soloStandby)

/-- The safety cores of a module whose partner was in contact have been down: the partner took over or kept its role, and
this module joins as standby at the next heartbeat (17 R427, R431). Without one it is alone when the proof window ends. -/
def State.rejoin (s : State) : State :=
  let T := match s.conf.partner with
    | some c => ms (c.timeoutMs.getD (3 * c.cycle + c.skew))
    | none => ms 50
  let s := if s.pair.role == .standby then s else s.roleLost
  ({ s with pair := { s.pair with
      role := .standby, gained := false, hbOk := false, wasPrim := false, lifeT := none, proof := true, proofEnd := s.now + T
      coilWait := [], noEcho := 0 } } : State).pairStatusRec

/-- Proof of life of the partner at partner time `t` (17 R423, R424, R431), while its heartbeats are missing: F57; the
module that held the primary role keeps it, a provisional primary returns to standby, and after the window a primary
whose role was gained by takeover yields, unless both gained theirs and it is module A. -/
def State.proofOfLife (s : State) (t : Nat) : State :=
  if !s.isPair then s
  else
    let s := { s with pair := { s.pair with lifeT := some s.now } }
    let pr := s.pair
    if pr.hbOk || t ≤ pr.hbTx then s
    else if pr.proof then
      let s := (s.pairEvent 7 pr.role 0 0).stand 57 16 {}
      if pr.wasPrim then { s with pair := { s.pair with proof := false } } else s.yieldRole
    else if pr.role == .primary && pr.gained then
      let both := pr.wasPrim || (field pr.hbRcvd 19 1) / 32 % 2 == 1
      let s := (s.pairEvent 7 pr.role 0 0).stand 57 16 {}
      if both && s.fuse.set.position == 1 then s else s.yieldRole
    else s

/-! ## Heartbeats (R413, R414) -/

/-- The heartbeat the module sends now. -/
def State.hbNow (s : State) : Heartbeat :=
  { seq := (s.pair.hbSeq + 1) % 65536, tTx := s.now, tRx := s.pair.hbRxT, echo := s.pair.hbRxSeq, role := s.pair.role.ctorIdx
    sealValid := s.cfg.valid, diverged := s.pair.diverged != 0#7, wade := s.wade.on, limp := s.drv.limp, hold := s.drv.hold
    gained := s.pair.gained, wadeLeft := s.wadeLeft
    coils := BitVec.ofNat 12 (bitsOf ((List.range 12).map (fun n => (s.outc n).cmd)))
    lsw := BitVec.ofNat 4 (bitsOf ((List.range 4).map (fun n => (s.lsw n).closed))), sealVal := s.sealInForce
    latched := BitVec.ofNat 64 s.latchedMask }

/-- One heartbeat leaves the safety cores. -/
def State.hbSend (s : State) : State :=
  let h := s.hbNow
  let s := s.emit (.heartbeat (hbFrame h))
  { s with pair := { s.pair with hbSeq := h.seq, hbSent := hbBytes h, hbT := s.now } }

end Sys2Proof.Machine
end

