-- ==== Sys2Proof/Machine/Can.lean ====
section
/-! DEFINITION. The commands of the CAN family: frames received, safe messages, transmit attempts, error states, and
network time (14 R360–R366; 16 R390–R405). -/

namespace Sys2Proof.Machine

open Sys2Proof

/-! ## Transmission (16 R390–R392, R398–R401) -/

/-- The loaded buffers of a controller, lowest first. -/
def CanCtl.loaded (k : CanCtl) : List (Nat × CanFrame) :=
  (k.tb0.toList.map (fun f => (0, f))) ++ (k.tb1.toList.map (fun b => (1, b.frame))) ++
    (k.tb2.toList.map (fun b => (2, b.frame)))

/-- The buffer that contends for the bus next (R390): in priority mode the one that would win arbitration, the lower
number between equals; in buffer mode the lowest-numbered. -/
def CanCtl.next (k : CanCtl) : Option Nat :=
  match k.loaded with
  | [] => none
  | x :: r => if k.prio then some (r.foldl (fun m y => if arbKey y.2 < arbKey m.2 then y else m) x).1 else some x.1

/-- Loads waiting submissions into the free ones of TB1 and TB2, in ring order (R390). -/
def State.loadTx (s : State) (c : Nat) : State :=
  let one (k : CanCtl) : CanCtl := match k.txq with
    | [] => k
    | b :: r =>
      if k.tb1.isNone then { k with tb1 := some b, txq := r }
      else if k.tb2.isNone then { k with tb2 := some b, txq := r } else k
  s.onCan c (fun k => one (one k))

/-- Loads TB0 from its queue. -/
def State.loadTb0 (s : State) (c : Nat) : State :=
  s.onCan c (fun k => match k.tb0, k.q with
    | none, f :: r => { k with tb0 := some f, q := r }
    | _, _ => k)

/-- A submission reaches its final result (R392): OK with the result code, and for TRANSMITTED the time of its SOF. -/
def State.txResult (s : State) (b : TxBuf) (code tSof : Nat) : State :=
  s.okay b.ref code (if code = 0 && 8 ≤ b.ref.d.resultLen then le 8 tSof else [])

/-- The frame in a buffer. -/
def CanCtl.frameOf (k : CanCtl) (b : Nat) : Option CanFrame :=
  if b = 0 then k.tb0 else if b = 1 then k.tb1.map (·.frame) else k.tb2.map (·.frame)

/-- The host submission in a buffer. -/
def CanCtl.hostOf (k : CanCtl) (b : Nat) : Option TxBuf := if b = 1 then k.tb1 else if b = 2 then k.tb2 else none

/-- Empties a buffer, its host submission completing with a result, and loads the next frame. -/
def State.dropBuf (s : State) (c b code tSof : Nat) : State :=
  let h := (s.can c).hostOf b
  let s := s.onCan c (fun k =>
    let k := { k with coll := k.coll.set b 0, started := none }
    if b = 0 then { k with tb0 := none } else if b = 1 then { k with tb1 := none } else { k with tb2 := none })
  let s := match h with | some x => s.txResult x code tSof | none => s
  (s.loadTx c).loadTb0 c

/-- Identifier of a frame as in R394. -/
def idWord (f : CanFrame) : Nat := f.id + 2 ^ 29 * f.ide.toNat

/-- Every host frame in a buffer completes with a result, and TB0 with its queue is emptied (R397, R398). -/
def State.flushCan (s : State) (c code : Nat) : State :=
  let k := s.can c
  let s := s.onCan c (fun k => { k with tb0 := none, q := [], tb1 := none, tb2 := none, started := none, coll := [] })
  let s := (k.tb1.toList ++ k.tb2.toList).foldl (fun s b => s.txResult b code 0) s
  s.loadTx c

/-- The error state follows the counters (R398; R402): error-passive above 127, bus-off above 255. -/
def State.canState (s : State) (c : Nat) : State :=
  let k := s.can c
  if k.errSt == 2 then s
  else
    let n := if 255 < k.tec then 2 else if 127 < k.tec || 127 < k.recCnt then 1 else 0
    if n = k.errSt then s
    else
      let reg : EvReg := if c = 0 then .canA else .canB
      let s := s.onCan c (fun k => { k with errSt := n })
      let s := if n = 1 then s.event reg 0 else if n = 2 then s.event reg 1 else s
      let s := s.canRec c (if n = 1 then 1 else if n = 0 then 2 else 3) 0 k.tec
      if n = 2 then s.flushCan c 3 else s

/-- Event register of a controller. -/
def canReg (c : Nat) : EvReg := if c = 0 then .canA else .canB

/-- ALONE clears (R400). -/
def State.aloneClear (s : State) (c : Nat) : State :=
  let was := (s.can c).alone
  let s := s.onCan c (fun k => { k with ackErrs := 0, alone := false })
  if was then s.canRec c 6 0 0 else s

/-- The frame is the time reference message of this master (16 R403). -/
def State.isReference (s : State) (f : CanFrame) : Bool :=
  let n := s.conf.net
  n.role == 1 && f.id == n.id && f.ide == n.ide && !f.fdf

/-- A failed attempt of a buffer ends: cancelled, given up as single-shot while ALONE, or to be retried (R391, R400). -/
def State.attemptFailed (s : State) (c b : Nat) (alone : Bool) : State :=
  let k := s.can c
  let cancel := match k.hostOf b with | some x => x.cancel | none => false
  if cancel then s.dropBuf c b 1 0
  else if k.single && alone then s.dropBuf c b 4 0
  else s.onCan c (fun k => { k with started := none })

/-- The attempt of the frame in a buffer has ended (R391, R392, R398–R401). -/
def State.attemptEnd (s : State) (c b : Nat) (f : CanFrame) (e : TxEnd) (tSof : Nat) : State :=
  let k := s.can c
  let f := if b = 0 && s.isReference f then { f with data := le 8 tSof } else f
  let s := s.emit (.can c b f)
  match e with
  | .ok =>
    let s := s.onCan c (fun k => { k with tec := k.tec - 1 })
    ((s.aloneClear c).dropBuf c b 0 tSof).canState c
  | .lostArb =>
    let s := s.onCan c (fun k => { k with coll := k.coll.set b 0, ackErrs := 0 })
    s.attemptFailed c b k.alone
  | .ackError =>
    let s := s.onCan c (fun k => { k with
      coll := k.coll.set b 0, ackErrs := min (k.ackErrs + 1) 16
      tec := if k.errSt = 1 then k.tec else k.tec + 8 })
    let s := if (s.can c).ackErrs = 16 && !k.alone then
        ((s.onCan c (fun k => { k with alone := true })).event (canReg c) 3).canRec c 5 0 0
      else s
    (s.attemptFailed c b k.alone).canState c
  | .bitErrorAfterArb =>
    let n := k.coll.getD b 0 + 1
    let s := s.onCan c (fun k => { k with
      coll := k.coll.set b n, collCnt := min (k.collCnt + 1) 255, collId := BitVec.ofNat 32 (idWord f), ackErrs := 0
      tec := k.tec + 8 })
    let s := s.event (canReg c) 4
    if n = 3 then
      let s := (s.event (canReg c) 5).canRec c 7 (idWord f) 0
      (s.dropBuf c b 2 0).canState c
    else
      let s := s.canState c
      if (s.can c).errSt == 2 then s else s.attemptFailed c b k.alone
  | .otherError =>
    let s := s.onCan c (fun k => { k with coll := k.coll.set b 0, ackErrs := 0, tec := k.tec + 8 })
    let s := s.canState c
    if (s.can c).errSt == 2 then s else s.attemptFailed c b k.alone

/-- TRANSMIT_ATTEMPT_END (R392, R398–R401): the attempt whose SOF was at `tSof` ends. -/
def execTransmitAttemptEnd (c : Nat) (e : TxEnd) (tSof : Nat) (s : State) : Out :=
  .next (
    let k := s.can c
    if k.mode ≠ 0 || k.errSt == 2 || s.pwr.st != .run then s
    else match k.started.orElse (fun _ => k.next) with
    | none => s
    | some b =>
      match k.frameOf b with
      | none => s
      | some f => (s.at tSof).attemptEnd c b f e tSof)

/-- BUS_OFF_RECOVERY (R398): both counters are reset and the controller is error-active again. -/
def execBusOffRecovery (c : Nat) (s : State) : Out :=
  .next (
    if (s.can c).errSt ≠ 2 then s
    else
      let s := s.onCan c (fun k => { k with errSt := 0, tec := 0, recCnt := 0 })
      (s.event (canReg c) 2).canRec c 4 0 0)

/-- CAN_RECEIVE_ERROR (R398): the receive error counter rises by 1, or by 8 for an error met in the error flag, as
ISO 11898-1 requires; in listen-only it does not change (R397). -/
def execCanReceiveError (c : Nat) (inFlag : Bool) (s : State) : Out :=
  .next (
    let k := s.can c
    if k.mode ≠ 0 || k.errSt == 2 || s.pwr.st != .run then s
    else (s.onCan c (fun k => { k with recCnt := min (k.recCnt + (if inFlag then 8 else 1)) 255 })).canState c)

/-! ## Safe messages (14 R360–R366) -/

/-- Configuration of received message `m`; 8 is the partner's STATUS message. -/
def State.msgCfg (s : State) (m : Nat) : Option MsgCfg := if m = 8 then s.conf.partner else s.conf.msgs[m]?

/-- Timeout of a received message, ns (R361). -/
def msgTimeout (c : MsgCfg) : Nat := ms (c.timeoutMs.getD (3 * c.cycle + c.skew))

/-- F46 stands while it stands for any configured message (R362); the partner's status message never raises it
(R364). -/
def State.f46Settle (s : State) (m : Nat) : State :=
  s.setCond 46 16 ((List.range 8).any (fun n => (s.msg n).f46)) { value := m }

/-- A message is delivered (R362, R366): the emergency-supply command, or the partner's status. -/
def State.deliver (s : State) (m : Nat) (c : MsgCfg) (q : Nat) (data : List Byte) : State :=
  let s := s.onMsg m (fun x => { x with lastSeq := some q, lastT := s.now })
  if c.typ = 0x10 then { s with pack := { s.pack with emgMsg := field data 4 1 == 0x5A } } else s

/-- Identity of a copy: identifier, data length, source byte and type match one configured message (R361). -/
def copyMatches (c : MsgCfg) (f : CanFrame) : Bool :=
  f.ide && f.fdf && f.id == c.id && f.data.length == c.len && field f.data 0 1 == c.src && field f.data 1 1 == c.typ

/-- A copy's own content is valid: CRC, and a valid command byte (R360, R361, R366). -/
def copySound (c : MsgCfg) (f : CanFrame) : Bool :=
  field f.data (c.len - 4) 4 == safeCrc c.id (f.data.take (c.len - 4)) &&
    (c.typ != 0x10 || field f.data 4 1 == 0x5A || field f.data 4 1 == 0xA5)

/-- A sequence number is 1–4 steps beyond the last accepted, or sets it afresh (R361). -/
def seqStep (last : Option Nat) (q : Nat) : Bool :=
  match last with
  | none => true
  | some l => let d := (q + 65536 - l) % 65536; decide (1 ≤ d && d ≤ 4)

/-- An invalid copy is counted against its bus. -/
def State.badCopy (s : State) (m bus : Nat) : State :=
  s.onMsg m (fun x => { x with misses := x.misses.set bus (x.misses.getD bus 0 + 1) })

/-- The second copy of a message matches the first (R362): delivered, unless a mismatch still bars it or its first copy
was; ten in a row end F46. -/
def State.matched (s : State) (m : Nat) (c : MsgCfg) (fc : SafeCopy) (q : Nat) (data : List Byte) : State :=
  if (s.msg m).mismatch ≠ 0 then s.onMsg m (fun x => { x with mismatch := x.mismatch - 1, lastSeq := some q })
  else
    let s := if fc.done then s else s.deliver m c q data
    let s := s.onMsg m (fun x => { x with okRun := min (x.okRun + 1) 10 })
    if (s.msg m).okRun = 10 && (s.msg m).f46 then
      (s.onMsg m (fun x => { x with f46 := false, single := false })).f46Settle m
    else s

/-- A copy of a configured message on a bus (R361, R362). -/
def State.copyIn (s : State) (m : Nat) (c : MsgCfg) (bus : Nat) (f : CanFrame) : State :=
  if !(copyMatches c f && copySound c f) then s.badCopy m bus
  else
    let q := field f.data 2 2
    let x := s.msg m
    match x.first.find? (fun k => k.seq == q) with
    | some k =>
      if k.bus = bus then s
      else
        let s := s.onMsg m (fun x => { x with
          first := x.first.filter (fun y => y.seq != q), busT := x.busT.set bus s.now })
        if k.data = f.data then s.matched m c k q f.data
        else
          let s := s.onMsg m (fun x => { x with f46 := true, mismatch := 3, okRun := 0, lastSeq := some q })
          (s.event .safein 7).f46Settle m
    | none =>
      if x.lastSeq = some q then s
      else if !seqStep x.lastSeq q then s.badCopy m bus
      else
        let alone := x.single && x.surv == bus && x.mismatch == 0
        let s := s.onMsg m (fun x => { x with
          first := x.first ++ [{ bus := bus, seq := q, data := f.data, t := s.now, done := alone }]
          busT := x.busT.set bus s.now })
        if alone then s.deliver m c q f.data else s

/-- The safe messages a frame is checked against (16 R393; 14 R364): the state, and whether it matched one. Safety cores that are
down take none of them. A valid copy of the partner's STATUS message is proof of life (17 R423). -/
def State.safeCheck (s : State) (bus : Nat) (f : CanFrame) : State × Bool :=
  (List.range 9).foldl (fun (s, hit) m =>
    match s.msgCfg m with
    | none => (s, hit)
    | some c =>
      if !(f.ide && f.id == c.id) then (s, hit)
      else if !s.drv.coresUp then (s, hit || copyMatches c f)
      else
        let ok := copyMatches c f && copySound c f
        let s := s.copyIn m c bus f
        let s := if m = 8 && ok then s.proofOfLife (field f.data 12 8) else s
        (s, hit || copyMatches c f)) (s, false)

/-- SKEW_WINDOW_EXPIRY (R362): the oldest first copy finds no partner; the miss is counted against the silent bus. -/
def execSkewWindowExpiry (m : Nat) (s : State) : Out :=
  .next (
    match s.msgCfg m, (s.msg m).first with
    | some c, k :: r =>
      let s := s.at (k.t + ms c.skew)
      let s := s.onMsg m (fun x => { x with
        first := r, okRun := 0, mismatch := if x.mismatch = 0 then 0 else 3
        lastSeq := if seqStep x.lastSeq k.seq then some k.seq else x.lastSeq })
      s.badCopy m (1 - k.bus)
    | _, _ => s)

/-- SAFE_MESSAGE_TIMEOUT (R362, R364, R366): no message has been delivered for one timeout, or valid copies have come on
one bus only for one timeout; F46 stands for the message, and an emergency-supply command that timed out lapses. -/
def execSafeMessageTimeout (m : Nat) (s : State) : Out :=
  .next (
    match s.msgCfg m with
    | none => s
    | some c =>
      let x := s.msg m
      let T := msgTimeout c
      let b0 := x.busT.getD 0 0
      let b1 := x.busT.getD 1 0
      let del := x.lastT + T
      let one := min b0 b1 + T
      let due := if x.f46 && x.lastSeq.isNone then one else if x.single then del else min del one
      let s := s.at due
      let late := decide (del ≤ s.now)
      let s0 := decide (b0 + T ≤ s.now)
      let s1 := decide (b1 + T ≤ s.now)
      if !late && s0 == s1 then s
      else
        let s := s.onMsg m (fun x => { x with
          f46 := true, okRun := 0, single := s0 != s1, surv := if s0 then 1 else 0
          lastSeq := if late then none else x.lastSeq })
        let s := if late && c.typ == 0x10 then { s with pack := { s.pack with emgMsg := false } } else s
        if m = 8 then s else (s.event .safein 8).f46Settle m)

/-- STATUS_MESSAGE_SEND (R363, R365): type 0x02, every 10 ms, on both controllers. -/
def execStatusMessageSend (s : State) : Out :=
  .next (
    let role := match s.pair.role with | .none => 0 | .primary => 1 | .standby => 2 | .provisional => 1
    let flags := bitsOf [s.cfg.valid, s.wade.on, s.drv.limp, s.pack.reserve, s.safe.standstill]
    if s.pwr.st != .run then s
    else
      let s := s.at (s.safe.statT + ms 10)
      let s : State := { s with safe := { s.safe with statT := s.now } }
      s.sendSafe s.gen.idStatus 2 24 (le 1 role ++ le 1 flags ++ zeros 2 ++ le 4 s.sealInForce ++ le 8 s.now))

/-! ## Network time (16 R403–R405) -/

/-- The controllers that carry the reference message. -/
def netBuses (n : NetCfg) : List Nat := (if n.onA then [0] else []) ++ (if n.onB then [1] else [])

/-- REFERENCE_MESSAGE_SEND (R403): the network time master sends it once a period; of a pair, the module that acts as primary. Its data
bytes take the SOF of each attempt (R404). -/
def execReferenceMessageSend (s : State) : Out :=
  .next (
    let n := s.conf.net
    if n.role ≠ 1 || !s.actsPrimary || s.pwr.st != .run then s
    else
      let s := s.at (s.time.netSentT + ms n.period)
      let s : State := { s with time := { s.time with netSentT := s.now } }
      (netBuses n).foldl (fun s c => s.originate c { id := n.id, ide := n.ide, dlc := 8, data := le 8 s.now }) s)

/-- A slave applies a reference message (R405): slewed, or stepped beyond the threshold; network time is valid from the
second one. -/
def State.netUpdate (s : State) (c master tSof : Nat) : State :=
  let n := s.conf.net
  let held := s.netHeld
  let raw := (master : Int) + n.busDelay - tSof
  let big := decide (n.step < (raw - held).natAbs)
  let s := { s with time := { s.time with
    netRaw := raw, netOfs := if big then raw else held, netOfsT := s.now, netTarget := raw, netLastRef := s.now
    netApplied := min (s.time.netApplied + 1) 2 } }
  let s := if big then (s.canRec c 9 n.id (raw - held)).event .time 0 else s
  if s.time.netApplied = 2 && !s.time.netValid then
    (({ s with time := { s.time with netValid := true } } : State).canRec c 0x0B n.id 0).event .time 2
  else s

/-- NETWORK_TIME_INVALID (R405): no reference message for three periods; the held offset is kept. -/
def execNetworkTimeInvalid (s : State) : Out :=
  .next (
    let n := s.conf.net
    if n.role ≠ 2 || !s.time.netValid then s
    else
      let s := s.at (s.time.netLastRef + 3 * ms n.period)
      let h := s.netHeld
      let s := { s with time := { s.time with
        netValid := false, netApplied := 0, netOfs := h, netTarget := h, netOfsT := s.now } }
      (s.canRec ((netBuses n).headD 0) 0x0A n.id 0).event .time 1)

/-! ## Reception (16 R393–R396) -/

/-- A frame passes an acceptance filter (R393). -/
def filterHit (p : CanFilter) (f : CanFrame) : Bool :=
  (p.ide == 2 || (p.ide == 1) == f.ide) && (p.fdf == 2 || (p.fdf == 1) == f.fdf) &&
    BitVec.ofNat 29 f.id &&& BitVec.ofNat 29 p.mask == BitVec.ofNat 29 p.id &&& BitVec.ofNat 29 p.mask

/-- The deciding filter of a frame and its action (R393; 19 R480): 0 REJECT, 1 RING, 2 HP, 3 RING_AND_HP; without a match
the default action, with index 0xFF. -/
def State.filterOf (s : State) (c : Nat) (f : CanFrame) : Nat × Nat :=
  let k := s.can c
  match (List.range 32).find? (fun i => match Tab.find k.filters i with | some p => filterHit p f | none => false) with
  | some i => (i, match Tab.find k.filters i with | some p => p.action | none => 0)
  | none => (0xFF, if k.defRing then 1 else 0)

/-- The 80-byte record of a received frame (R394). -/
def canRecord (h : HpFrame) : List Byte :=
  le 8 h.t ++ le 4 (idWord h.frame + 2 ^ 30 * h.frame.rtr.toNat) ++ le 1 h.frame.dlc ++ le 1 h.flags ++ le 1 h.filter ++
    le 1 h.frame.data.length ++ padTo 64 h.frame.data

/-- An overrun of the high-priority buffer (R396). -/
def State.hpOverrun (s : State) (c id : Nat) : State :=
  ((s.onCan c (fun k => { k with hpOver := min (k.hpOver + 1) 255 })).event (canReg c) 6).canRec c 8 id 0

/-- A frame moves into the high-priority buffer and raises its interrupt (R395). -/
def State.hpPut (s : State) (c : Nat) (h : HpFrame) : State :=
  (s.onCan c (fun k => { k with hp := some h, hpNew := true })).raiseIrq (if c = 0 then 7 else 9)

/-- A frame for the high-priority buffer (R395, R396): into the hold while the buffer is locked; a full hold, or a new
frame not yet read, is replaced and counted as an overrun. -/
def State.hpFrame (s : State) (c : Nat) (h : HpFrame) : State :=
  let k := s.can c
  if k.hpLock then
    let s := s.onCan c (fun k => { k with hpHold := some h })
    if k.hpHold.isSome then s.hpOverrun c (idWord h.frame) else s
  else
    let s := if k.hpNew then s.hpOverrun c (idWord h.frame) else s
    s.hpPut c h

/-- Releases the lock of the high-priority buffer (R396): the held frame moves into it. -/
def State.hpRelease (s : State) (c : Nat) : State :=
  let k := s.can c
  let s := s.onCan c (fun k => { k with hpLock := false, hpHold := none })
  match k.hpHold with
  | some h => (if k.hpNew then s.hpOverrun c (idWord h.frame) else s).hpPut c h
  | none => s

/-- A received frame is dropped (20 R502 CANx_RX_DROP, CANx_EVENT [7]). -/
def State.rxDropped (s : State) (c : Nat) : State :=
  (s.onCan c (fun k => { k with rxDrop := min (k.rxDrop + 1) 0xFFFFFFFF })).event (canReg c) 7

/-- The receive error counter after a frame received without error, as ISO 11898-1 requires (R398): one less, and from
above 127 a value from 119 to 127 that the standard leaves open. -/
def State.recGood (s : State) (c : Nat) : State :=
  let k := s.can c
  if 127 < k.recCnt then
    let (v, s) := s.draw
    s.onCan c (fun k => { k with recCnt := 119 + v % 9 })
  else s.onCan c (fun k => { k with recCnt := k.recCnt - 1 })

/-- A frame received without error: it counts for the error and ALONE states, is checked against the safe messages and
the time reference, and is filtered (R393–R396, R398, R400, R405). -/
def State.frameTake (s : State) (c : Nat) (frame : CanFrame) (tSof : Nat) : State :=
  let k := s.can c
  let s := s.at tSof
  let s := if k.mode = 0 then (s.recGood c).canState c else s
  let s := s.aloneClear c
  let (s, hit) := s.safeCheck c frame
  let n := s.conf.net
  let isRef := n.role == 2 && (netBuses n).contains c && frame.id == n.id && frame.ide == n.ide && !frame.fdf && !frame.rtr &&
    frame.data.length == 8
  let s := if isRef then s.netUpdate c (field frame.data 0 8) tSof else s
  let (fi, act) := s.filterOf c frame
  let hp := act == 2 || act == 3
  let flags := bitsOf [frame.fdf, frame.brs, frame.esi, hit, hp && act == 3, k.mode == 1]
  let h : HpFrame := { frame := frame, t := tSof, flags := flags, filter := fi }
  let s := if hp then s.hpFrame c h else s
  if act = 1 || act = 3 then
    match s.streamRing (fnCanRx c) with
    | some _ => s.record (fnCanRx c) (canRecord h)
    | none => s.rxDropped c
  else s

/-- CAN_FRAME_RECEIVED (R393–R395, R400, R405; 14 R361): a frame received without error, its SOF captured at `tSof`. -/
def execCanFrameReceived (c : Nat) (frame : CanFrame) (tSof : Nat) (s : State) : Out :=
  .next (
    let k := s.can c
    if k.mode = 2 || k.errSt == 2 || s.pwr.st != .run then s
    else s.frameTake c frame tSof)

/-- A controller leaves normal mode (16 R392, R397): loaded frames complete with ABORTED_BY_MODE, submissions still in the
ring with STATE_NOT_PERMITTED, and TB0 is emptied. -/
def State.canStop (s : State) (c : Nat) : State :=
  let l := (s.can c).txq
  let s := (s.onCan c (fun k => { k with txq := [] })).flushCan c 5
  l.foldl (fun s b => s.fail b.ref 4) s

end Sys2Proof.Machine
end

