-- ==== Sys2Proof/Machine/Sequence.lean ====
section
/-! DEFINITION. The close sequence (12 R313–R322), the checks at open (12 R324–R328), the pre-charge resistor (12 R320,
R321) and the coil supply (12 R329): what each sample and each deadline does to them. -/

namespace Sys2Proof.Machine

open Sys2Proof

/-! ## Feedback -/

/-- Terminal voltage of a string, mV. -/
def State.vStr (s : State) (p : Nat) : Int := (s.str p).vStr.getD 0

/-- V_bus = V_str − V_x of a string, mV (12). -/
def State.vBus (s : State) (p : Nat) : Int := s.vStr p - (s.str p).vx.getD 0

/-- The supply of a contactor's channel is below the pick-up voltage. -/
def State.supplyLow (s : State) (i : Nat) : Bool :=
  match s.ctrCfg i with | some c => s.supplyOf c.out < s.gen.pickup | none => false

/-- A contactor's wired auxiliary contact reads closed. -/
def State.auxClosed (s : State) (i : Nat) : Bool := (s.ctr i).aux == some true

/-- A contactor's wired auxiliary contact reads open. -/
def State.auxOpen (s : State) (i : Nat) : Bool := (s.ctr i).aux == some false

/-- Scope of a contactor's faults: its string, or 16. -/
def State.ctrScope (s : State) (i : Nat) : Nat :=
  match s.ctrCfg i with | some c => if c.role == .oth then 16 else c.port | none => 16

/-- F32 for a contactor (12 R327, R328; 11 R583): it enters WELDED, its coil off, and the finding latches. -/
def State.weld (s : State) (i : Nat) : State :=
  (s.setCtr i .welded).finding 32 (s.ctrScope i) { value := i }

/-- F33 for a contactor. -/
def State.failClose (s : State) (i : Nat) : State := s.finding 33 (s.ctrScope i) { value := i }

/-- Close time of a contactor, ns. -/
def State.closeNs (s : State) (i : Nat) : Nat := match s.ctrCfg i with | some c => ms c.closeMs | none => 0

/-- Open time of a contactor, ns. -/
def State.openNs (s : State) (i : Nat) : Nat := match s.ctrCfg i with | some c => ms c.openMs | none => 0

/-! ## The pre-charge resistor (12 R320, R321) -/

/-- E_th of a string's resistor at the present time, mJ (assumption log 13). -/
def State.ethNow (s : State) (p : Nat) : Nat :=
  match (s.portCfg p).pre with
  | some c => (s.pre p).eth * expNeg (s.now - (s.pre p).ethT) (sec c.tauRes) / 2 ^ 32
  | none => (s.pre p).eth

/-- Attempts that started within the last 10 min. -/
def State.recentAttempts (s : State) (p : Nat) : Nat := (s.pre p).attempts.countP (fun t => decide (s.now < t + mins 10))

/-- The pre-charge of a string is locked out; the cause: 1 attempts, 2 energy (12 R321; 11 R305). -/
def State.lockCause (s : State) (p : Nat) : Option Nat :=
  match (s.portCfg p).pre with
  | none => none
  | some c =>
    let v := match (s.str p).vStr with | some v => v.natAbs | none => (s.portCfg p).vMax
    if s.recentAttempts p ≥ 3 then some 1
    else if s.ethNow p + s.gen.winHi * c.c * v * v / 2 / 1000 / 1000000000 > c.rating then some 2
    else none

/-- A lockout begins or ends: its event record. -/
def State.lockCheck (s : State) (p : Nat) : State :=
  let idx := (s.ctrOf p .pre).getD 0
  match s.lockCause p with
  | some c =>
    if (s.pre p).locked then s
    else (s.onPre p (fun x => { x with locked := true })).eventRec 3 2 idx p 1 c (s.ethNow p / 1000)
  | none =>
    if (s.pre p).locked then
      (s.onPre p (fun x => { x with locked := false })).eventRec 3 2 idx p 0 0 (s.ethNow p / 1000)
    else s

/-- A sample of V_x while the PRE is on adds V_x² ÷ R_pre over the sample interval; E_th decays at all times. -/
def State.ethSample (s : State) (p : Nat) : State :=
  match (s.portCfg p).pre, s.ctrOf p .pre with
  | some c, some i =>
    if c.r = 0 then s
    else
      let vx := ((s.str p).vx.getD 0).natAbs
      let dt := s.now - (s.pre p).ethT
      let gain := if (s.ctr i).coil then vx * vx / c.r * dt / 1000000000 else 0
      let e := s.ethNow p
      (s.onPre p (fun x => { x with eth := e + gain, ethT := s.now })).lockCheck p
  | _, _ => s

/-! ## Steps of a member -/

/-- The member's step changes. -/
def State.seqPh (s : State) (ph : SeqPhase) : State := ({ s with seq := { s.seq with ph := ph, t := s.now } } : State).seqTell

/-- τ_exp of a string's pre-charge, ns (12 R308): R_pre in mΩ × C_nom in µF. -/
def tauExp (c : PreCfg) : Nat := c.r * c.c

/-- The leading port of the member in progress. -/
def State.seqLead (s : State) : Nat := match s.seqMember with | .string p => s.leadOf p | .oth _ => 16

/-- The strings of the member in progress. -/
def State.seqStrings (s : State) : List Nat :=
  match s.seqMember with | .string p => s.setOf (s.leadOf p) | .oth _ => []

/-- |V_x| ≤ ΔV for every string of the member (12 R322 step 2). -/
def State.inWindow (s : State) : Bool :=
  s.seqStrings.all (fun p => match (s.str p).vx with | some v => v.natAbs ≤ s.gen.dv | none => false)

/-- The member is done (12 R316 step 11, R322 step 5): its contactors CLOSED, its strings connected. -/
def State.memberDone (s : State) : State :=
  let l := match s.seqMember with
    | .string p => ((s.ctrOf p .kn).toList ++ (s.ctrOf p .kp).toList)
    | .oth c => [c]
  let s := l.foldl (fun s i => s.setCtr i .closed) s
  let s := s.seqStrings.foldl (fun s p => s.onStr p (fun x => { x with conn := true, connT := s.now }))
    ({ s with pack := { s.pack with energyDue := true } } : State)
  s.memberEnd 0

/-- The sequence fails with F33 on contactors: it aborts, then the findings are raised. -/
def State.seqF33 (s : State) (l : List Nat) : State := l.foldl (fun s i => s.failClose i) (s.seqAbort 8)

/-- The sequence fails with F32 on contactors. -/
def State.seqF32 (s : State) (l : List Nat) : State := l.foldl (fun s i => s.weld i) (s.seqAbort 7)

/-- A close of the member in progress is refused (11 R295), so that no further coil of it is switched on. -/
def State.seqBarred (s : State) : Bool := (s.memberScopes s.seqMember).any s.closeBarred

/-- PRE on (12 R316 step 2): an attempt starts. A supply below the pick-up voltage fails the member. -/
def State.preStart (s : State) (p : Nat) : State :=
  match s.ctrOf p .pre with
  | none => s.memberEnd 5
  | some i =>
    if s.seqBarred then s.seqStop 0x0E
    else if s.supplyLow i then s.memberEnd 5
    else
      let s := s.onPre p (fun x => { x with attempts := (s.now :: x.attempts).take 3 })
      let s := s.lockCheck p
      let s := s.ctrOn i
      ({ s with seq := { s.seq with ph := .preOn, t := s.now, vbus0 := s.vBus p, okSamples := 0, samples := [] } } : State).seqTell

/-- KN on, or already on by its shared channel (12 R322 step 3); not before an opening of it has been verified. -/
def State.knWinStart (s : State) (p : Nat) : State :=
  match s.ctrOf p .kn with
  | none => s.memberEnd 8
  | some i => if (s.ctr i).st == .opening then s
    else if s.seqBarred then s.seqStop 0x0E
    else if s.supplyLow i then s.memberEnd 5 else (s.ctrOn i).seqPh .knWin

/-- KP on (12 R316 step 8, R322 step 4), with V_x at its close. -/
def State.kpStart (s : State) (p : Nat) (ph : SeqPhase) : State :=
  match s.ctrOf p .kp with
  | none => s.seqAbort 8
  | some i =>
    if s.seqBarred then s.seqFault 2
    else if s.supplyLow i then s.seqAbort 5
    else
      let v := s.vxOf p
      ((s.onCtr i (fun c => { c with vxClose := v })).ctrOn i).seqPh ph

/-- KP verified: V_x ≤ ΔV after a pre-charge, |V_x| ≤ ΔV otherwise, and the auxiliary contacts closed where wired
(12 R316 step 9, R322 step 5). -/
def State.kpOk (s : State) (p : Nat) : Bool :=
  let win := s.seq.ph == .kpWin
  let aux := if win then [Role.kn, Role.kp] else [Role.kp]
  let low := s.seqStrings.all (fun q => match (s.str q).vx with | some v => decide (v ≤ (s.gen.dv : Int)) | none => false)
  (if win then s.inWindow else low) && aux.all (fun r => match s.ctrOf p r with | some i => !s.auxOpen i | none => true)

/-- KP is verified: with pre-charge the PRE opens, otherwise the member is done. -/
def State.kpVerified (s : State) (p : Nat) : State :=
  if s.seq.ph == .kpWin then s.memberDone
  else
    let s := (match s.ctrOf p .kp with | some i => s.setCtr i .closed | none => s)
    let s := (match s.ctrOf p .kn with | some i => s.setCtr i .closed | none => s)
    match s.ctrOf p .pre with
    | some i => (s.ctrOff i [i] false).seqPh .preOff
    | none => s.memberDone

/-- A fit of the pre-charge (12 R317): F36 on the second consecutive estimate outside the window, F35 when the bus can
never reach the completion level, otherwise accepted. -/
def State.seqFit (s : State) (p : Nat) : State :=
  match (s.portCfg p).pre with
  | none => s
  | some c =>
    let (conv, tau, a, b) := prechargeFit s.seq.samples.reverse
    if !conv then s
    else
      let v := s.vStr p
      let cest : Int := if v - b ≤ 0 || c.r = 0 then 0 else (tau : Int) * 1000 * v / (c.r * (v - b))
      let inWin := (s.gen.winLo * c.c : Int) ≤ cest * 1000 && cest * 1000 ≤ (s.gen.winHi * c.c : Int)
      let low := decide ((v - b) * 1000 < s.gen.k * v)
      let n := if inWin then 0 else s.seq.outOfWin + 1
      let s := { s with seq := { s.seq with outOfWin := n, fitRep := some (tau, cest.toNat) } }
      if n ≥ 2 then (s.seqAbort 0x0B).finding 36 p { value := cest }
      else if low then (s.seqAbort 0x0A).finding 35 p { value := v - b }
      else if !inWin then s
      else
        let s := { s with seq := { s.seq with
          tau := tau, cest := cest.toNat, fitA := a, fitB := b, tout := 3 * us tau + ms s.gen.margin } }
        s.eventRec 3 3 ((s.ctrOf p .pre).getD 0) p tau cest b

/-- The bus has risen by 2 % of V_str since the pre-close test (12 R316 step 5). -/
def State.busRose (s : State) (p : Nat) : Bool := s.vStr p ≤ 50 * (s.vBus p - s.seq.vbus0)

/-- F33 of step 5 names the PRE, the KN or both, by their auxiliary contacts. -/
def State.noRise (s : State) (p : Nat) : State :=
  let pr := (s.ctrOf p .pre).toList
  let kn := (s.ctrOf p .kn).toList
  if pr.any s.auxOpen then s.seqF33 pr else if kn.any s.auxOpen then s.seqF33 kn else s.seqF33 (pr ++ kn)

/-- Charging is complete at the present sample (12 R318): the completion level, and the slope of V_bus over the last
three samples within 1.5 × the predicted one plus 0.5 % of V_str per second. -/
def State.chargeDone (s : State) (p : Nat) : Bool :=
  match (s.portCfg p).pre with
  | none => false
  | some c =>
    let v := s.vStr p
    let level := decide (s.gen.k * v ≤ 1000 * s.vBus p)
    let tauNs := if s.seq.tau = 0 then tauExp c else us s.seq.tau
    let a := if s.seq.tau = 0 then v else s.seq.fitA
    let slopeOk := match s.seq.busH with
      | (t3, x3) :: _ :: (t1, x1) :: _ =>
        let dt : Int := (t3 : Int) - t1
        let pred : Int := if tauNs = 0 then 0
          else (a.natAbs : Int) * 1000000000 / tauNs * expNeg (us t3) tauNs / 2 ^ 32
        if dt ≤ 0 then false
        else decide (((x1 - x3).natAbs : Int) * 1000000 / dt ≤ 3 * pred / 2 + v / 200)
      | _ => false
    level && slopeOk

/-! ## The start of a member (12 R313) -/

/-- A contactor of a member is still opening, or waits to be opened (12 R330). -/
def State.memberOpening (s : State) (m : Member) : Bool :=
  (s.memberCtrs m).any (fun i => (s.ctr i).st == .opening || (s.disc (s.discOf i)).kind == .classB)

/-- The contactors, not held on by a shared channel, whose wired auxiliary contact reads closed before a close (12 R326). -/
def State.stuck (s : State) (m : Member) : List Nat :=
  (s.memberCtrs m).filter (fun i => s.auxClosed i && !s.channelShared i)

/-- The coil of an OTH contactor is on: its channel is, which a trip holds off (12 R322). -/
def State.othOn (s : State) (c : Nat) : Bool :=
  match s.ctrCfg c with | some k => (s.outc k.out).on | none => true

/-- The present member starts, is judged and fails, or waits (12 R313; 21 R524). -/
def State.memberStart (s : State) : State :=
  let m := s.seqMember
  if !s.seq.active || s.seq.reverting || s.seq.ph != .waitReady || !s.drv.coresUp then s
  else if s.seq.skip.contains s.seq.idx then s.memberEnd 1
  else if s.seq.idx = 0 && !(s.pwr.ready || s.readyNow) then s
  else if s.memberOpening m then s
  else if s.memberClosed m then s.memberEnd 0x11
  else if s.seqStrings.any (fun p => (s.port p).st != .ready) then s.memberEnd 3
  else if (s.memberCtrs m).any (fun i => (s.ctr i).st == .welded) then s.memberEnd 7
  else if (s.memberScopes m).any s.closeBarred then s.memberEnd 4
  else if (s.memberCtrs m).any s.supplyLow then s.memberEnd 5
  else if !(s.stuck m).isEmpty then s.seqF32 (s.stuck m)
  else
    match m with
    | .oth c =>
      let s := s.ctrOn c
      if s.othOn c && (match s.ctrCfg c with | some k => k.aux.isNone | none => true) then s.memberDone else s.seqPh .oth
    | .string p =>
      let s := (match s.ctrOf p .kp with | some i => s.onCtr i (fun c => { c with vxClose := -2147483648 }) | none => s)
      ({ s with seq := { s.seq with ph := .waitSamples, t := s.now, t0 := s.now, okSamples := 0, winOk := [], lastPre := none } } : State).seqTell

/-- Members start in turn until one waits or the command ends. -/
def State.seqRun : Nat → State → State
  | 0, s => s
  | n + 1, s => if s.seq.active && !s.seq.reverting && s.seq.ph == .waitReady then (s.memberStart).seqRun n else s

/-- The sequence goes on (12 R330): the next member starts at a sample or command step. -/
def State.seqKick (s : State) : State := s.seqRun 17

/-! ## What a sample does (12 R316–R322) -/

/-- The pre-close test at a sample (12 R316 step 3): the first sample of the test gives V_bus at its start. -/
def State.pretestSample (s : State) (p : Nat) : State :=
  match s.ctrOf p .pre, s.ctrOf p .kn with
  | some i, some kn =>
    if s.now < s.seq.t + s.closeNs i then s
    else if s.flows p == some true then s.seqF32 [kn]
    else if s.seq.okSamples = 0 then { s with seq := { s.seq with okSamples := 1, vbus0 := s.vBus p } }
    else if s.busRose p && 0 < s.vStr p then s.seqF32 [kn]
    else s
  | _, _ => s

/-- A charging sample: kept for the fits, refitted at every fourth, completion judged. -/
def State.chargeSample (s : State) (p : Nat) : State :=
  if s.now < s.seq.tc then s
  else
    let x := (s.str p).vx.getD 0
    let n := s.seq.okSamples + 1
    let s := { s with seq := { s.seq with
      ph := .charging, samples := ((s.now - s.seq.tc) / 1000, x) :: s.seq.samples, okSamples := n
      busH := (((s.now - s.seq.tc) / 1000, s.vBus p) :: s.seq.busH).take 3 } }
    let s := if s.seq.fitted && n % 4 = 0 then s.seqFit p else s
    if s.seq.active && s.seq.ph == .charging && s.chargeDone p then s.kpStart p .kp else s

/-- A sample of a string counts towards the window of its member (12 R322 step 2). -/
def State.winCount (s : State) (p : Nat) (valid : Bool) : State :=
  let ok := valid && (match (s.str p).vx with | some v => decide (v.natAbs ≤ s.gen.dv) | none => false)
  { s with seq := { s.seq with winOk := s.seq.winOk.set p (if ok then s.seq.winOk.getD p 0 + 1 else 0) } }

/-- Every string of the member has been within ΔV on two consecutive samples of its own (12 R322 step 2). -/
def State.winAll (s : State) : Bool := s.seqStrings.all (fun q => decide (2 ≤ s.seq.winOk.getD q 0))

/-- A sample of another string of the member's set: KN closes when the window now holds for every one. -/
def State.setSample (s : State) : State :=
  if s.seq.ph == .waitWindow && s.winAll then s.knWinStart s.seqLead else s

/-- The deciding samples of a member with a PRE, and the window of one without (12 R316, R322 step 2). -/
def State.windowSample (s : State) (p : Nat) : State :=
  let hasPre := (s.ctrOf p .pre).isSome && (s.portCfg p).pre.isSome
  let wants := hasPre && decide ((s.gen.dv : Int) < (s.str p).vx.getD 0)
  let decided := s.seq.ph == .waitWindow || s.seq.lastPre == some wants
  let s := { s with seq := { s.seq with lastPre := some wants } }
  if !decided then s
  else if s.seq.ph == .waitSamples && wants then
    (if (s.lockCause p).isSome then s.memberEnd 6 else s.preStart p)
  else
    let s := if s.seq.ph == .waitSamples then ({ s with seq := { s.seq with ph := .waitWindow } } : State).seqTell else s
    if s.winAll then s.knWinStart p else s

/-- A sample of a string meets the close sequence. `valid` tells whether V_x and V_str of the sample are valid. -/
def State.seqSample (s : State) (p : Nat) (valid : Bool) : State :=
  let s := s.seqKick
  if !s.seq.active || s.seq.reverting || !s.seqStrings.contains p || !s.drv.coresUp then s
  else
  let s := s.winCount p valid
  if p ≠ s.seqLead then s.setSample.seqKick
  else if !valid then
    match s.seq.ph with
    | .waitSamples | .waitWindow => { s with seq := { s.seq with lastPre := none } }
    | _ => s
  else
    let s := match s.seq.ph with
      | .waitSamples | .waitWindow => s.windowSample p
      | .preOn => s.pretestSample p
      | .kn | .charging => s.chargeSample p
      | .kp | .kpWin =>
        match s.ctrOf p .kp with
        | some i => if s.seq.t + s.closeNs i ≤ s.now && s.kpOk p then s.kpVerified p else s
        | none => s
      | _ => s
    s.seqKick

/-! ## The checks at open (12 R327, R328) -/

/-- A contactor of an opening is verified: OPEN, or WELDED with F32 when its wired auxiliary contact still reads closed. -/
def State.verifyOpen (s : State) (i : Nat) : State := if s.auxClosed i then s.weld i else s.setCtr i .isOpen

/-- The opening of a string is over: its PRE is verified too, and once the last connected string has opened its bus
discharge check starts (R328). -/
def State.openDone (s : State) (p : Nat) : State :=
  let s := (match s.ctrOf p .pre with
    | some i => if (s.ctr i).st == CtrState.opening then s.verifyOpen i else s
    | none => s)
  let s := (s.onOpn p (fun o => { o with ph := .idle })).settleCmds
  let over_ (q : Nat) : Bool := s.leadOf q == p || (s.opn (s.leadOf q)).ph == .idle || !(s.opn (s.leadOf q)).wasConn
  if s.gen.busDis && (s.opn p).wasConn && s.portList.all (fun q => !(s.str q).conn && over_ q) then
    s.onOpn p (fun o => { o with bus := true, busT := s.now + ms s.gen.busDisMs })
  else s

/-- The other contactor of a string's opening. -/
def State.otherOf (s : State) (p : Nat) : Option Nat := s.ctrOf p (otherRole (s.firstOf p))

/-- Instant at which a check of a string's opening falls due: the open time of a contactor + 20 ms. -/
def State.openDue (s : State) (p : Nat) (i : Option Nat) : Nat :=
  (s.opn p).t + (match i with | some i => s.openNs i | none => 0) + ms 20

/-- Instant of the check at open (R327). -/
def State.checkDue (s : State) (p : Nat) : Nat := s.openDue p (s.ctrOf p (s.firstOf p))

/-- A valid current sample, or its substitute, of the string and its set at or after the instant of the check at open. -/
def State.checkHas (s : State) (p : Nat) : Bool :=
  (s.setOf (s.leadOf p)).all (fun q => (s.str q).i.isSome && decide (s.checkDue p ≤ (s.str q).iT))

/-- The check at open at F's open time + 20 ms (R327), by the string current. -/
def State.checkOpen (s : State) (p : Nat) : State :=
  match (s.opn p).ph, s.ctrOf p (s.firstOf p), s.flows p with
  | .first, some f, some fl =>
    let s := s.onOpn p (fun o => { o with await := false, nextFirst := if o.loaded then otherRole o.first else o.nextFirst })
    let s := if fl then s else s.verifyOpen f
    let s := match s.otherOf p with | some j => s.ctrOff j (s.ctrsOf p) (s.disc p).above | none => s
    let moved : Bool := match s.otherOf p with | some j => (s.ctr j).st == CtrState.opening | none => false
    if fl then s.onOpn p (fun o => { o with ph := .suspect, t := s.now })
    else if moved then s.onOpn p (fun o => { o with ph := .second, t := s.now })
    else s.openDone p
  | _, _, _ => s

/-- A contactor is WELDED, with F32, when its wired auxiliary contact still reads closed at its open time + 20 ms (R328). -/
def State.auxCheck (s : State) (i : Nat) : State := if s.auxClosed i then s.weld i else s

/-- No current data within 100 ms of the check (R327): the other contactor opens at once, both are UNKNOWN, and the
choice of F does not advance; the auxiliary contacts are checked in their time (R328). -/
def State.checkNoData (s : State) (p : Nat) : State :=
  match (s.opn p).ph, s.ctrOf p (s.firstOf p) with
  | .first, some f =>
    let s := match s.otherOf p with | some j => s.ctrOff j (s.ctrsOf p) false | none => s
    let s := ((s.onOpn p (fun o => { o with await := false })).setCtr f .unknown).auxCheck f
    let moved : Bool := match s.otherOf p with | some j => !(s.ctr j).coil && !s.heldOn j | none => false
    let s := match s.otherOf p with | some j => if moved then s.setCtr j .unknown else s | none => s
    let s := s.eventRec 3 4 f p 0 0 0
    if moved then s.onOpn p (fun o => { o with ph := .noData, t := s.now }) else s.openDone p
  | _, _ => s

/-- The check at the other contactor's open time + 20 ms (R327). -/
def State.secondCheck (s : State) (p : Nat) : State :=
  match s.ctrOf p (s.firstOf p), s.otherOf p with
  | some f, some j =>
    if s.limpCtr j then (if (s.opn p).ph == .suspect && s.flows p == some true then s.weld f else s).openDone p
    else
    match (s.opn p).ph, s.flows p with
    | .second, _ => (if (s.ctr j).st == .opening then s.verifyOpen j else s).openDone p
    | .suspect, some false => (((if (s.ctr j).st == .opening then s.verifyOpen j else s).weld f)).openDone p
    | .suspect, some true =>
      let s := s.stand 34 16 { port := p, value := (s.strCur p).getD 0 }
      s.onOpn p (fun o => { o with ph := .released, t := s.now })
    | .released, some false => (((s.verifyOpen f).verifyOpen j).cease 34 16).openDone p
    | .noData, _ => (s.auxCheck j).openDone p
    | .released, some true => ((s.weld f).weld j).openDone p
    | _, _ => s
  | _, _ => s

/-- A sample during an opening: a check at open that awaits one is made (R327); F34 ceases when the current of its string has stopped (11 R583), and the bus discharge
check ends when |V_x| has reached 90 % of V_str (R328). -/
def State.openSample (s : State) (p : Nat) : State :=
  let s := if s.stands 34 16 && (s.why 34 16).port == p && s.flows p == some false then s.cease 34 16 else s
  let l := s.leadOf p
  let s := if (s.opn l).await && (s.opn l).ph == .first && s.drv.coresUp && s.checkHas l then (s.checkOpen l).seqKick else s
  if (s.opn p).bus && 9 * s.vStr p ≤ 10 * ((s.str p).vx.getD 0).natAbs && 0 < s.vStr p then
    s.onOpn p (fun o => { o with bus := false })
  else s

end Sys2Proof.Machine
end

