-- ==== Sys2Proof/Machine/EstBase.lean ====
section
/-! DEFINITION. The cell model (08 R213–R217, R220, R227, R237), the impedance slots and tables it rests on (07 R194,
R195, R198, R207), and the records of the estimator's events (08 R244). SoC in 0.0001 %, voltages in µV. -/

namespace Sys2Proof.Machine

open Sys2Proof

/-! ## Chemistry tables (08 R215, R216) -/

/-- Chemistry of a string. -/
def State.chem (s : State) (p : Nat) : ChemCfg := (s.conf.chems.find? (fun c => c.code == (s.portCfg p).chem)).getD {}

/-- Linear interpolation from (x0, y0) to (x1, y1), rounded down (assumption log 19). -/
def lerp (x x0 x1 y0 y1 : Int) : Int := if x1 ≤ x0 then y0 else y0 + (y1 - y0) * (x - x0) / (x1 - x0)

/-- Value of a 101-point row at a SoC, the edge values beyond. -/
def rowAt (row : List Nat) (soc : Int) : Int :=
  let x := max 0 (min 1000000 soc)
  let i := min 99 (x / 10000).toNat
  lerp x (10000 * i) (10000 * (i + 1)) (row.getD i 0) (row.getD (i + 1) 0)

/-- Interpolation between the rows of a table in temperature, the edge rows beyond. -/
def tempLerp (ts : List Int) (f : Nat → Int) (T : Int) : Int :=
  let n := ts.length
  match (List.range (n - 1)).find? (fun i => decide (T < ts.getD (i + 1) 0)) with
  | some i => if T ≤ ts.getD 0 0 then f 0 else lerp T (ts.getD i 0) (ts.getD (i + 1) 0) (f i) (f (i + 1))
  | none => f (n - 1)

/-- OCV at a SoC and temperature, µV. -/
def ocvAt (c : ChemCfg) (soc T : Int) : Int := tempLerp c.temps (fun i => 100 * rowAt (c.ocv.getD i []) soc) T

/-- Half-width H of the hysteresis at a SoC and temperature, 10 µV; 0 without a table (08 R217). -/
def hystAt (c : ChemCfg) (soc T : Int) : Int :=
  if c.hyst.isEmpty then 0 else tempLerp c.temps (fun i => rowAt (c.hyst.getD i []) soc) T

/-- OCV slope at a SoC, µV/% (08 R216). -/
def slopeAt (c : ChemCfg) (soc T : Int) : Int :=
  let x := max 10000 (min 990000 soc)
  (ocvAt c (x + 10000) T - ocvAt c (x - 10000) T) / 2

/-- The OCV table inverted at a voltage (08 R216): linear between points, the midpoint of a run of equal entries. -/
def ocvInv (c : ChemCfg) (v T : Int) : Int :=
  let f (i : Nat) : Int := ocvAt c (10000 * i) T
  let pts := List.range 101
  let eq := pts.filter (fun i => f i == v)
  match eq.head?, eq.getLast? with
  | some a, some b => 5000 * ((a : Int) + b)
  | _, _ =>
    if v < f 0 then 0
    else match pts.find? (fun i => decide (v < f i)) with
      | some (i + 1) => lerp v (f i) (f (i + 1)) (10000 * i) (10000 * (i + 1))
      | _ => 1000000

/-! ## Slots, tables and fits (07 R194, R195, R198, R207) -/

/-- Temperature band. -/
def State.tempBand (s : State) (T : Int) : Nat := if T < s.gen.tLo then 0 else if T < s.gen.tHi then 1 else 2

/-- SoC range. -/
def socRange (soc : Int) : Nat := if soc < 250000 then 0 else if soc < 500000 then 1 else if soc < 750000 then 2 else 3

/-- Slot of a SoC and a temperature. -/
def State.slotAt (s : State) (soc T : Int) : Nat := 4 * s.tempBand T + socRange soc

/-- Present slot of a cell. -/
def State.slotOf (s : State) (g : Nat) : Nat := s.slotAt (s.est g).soc (s.cellTemp g).1

/-- Circuit parameters of a slot of a cell: the fitted ones, or the chemistry's defaults. -/
def State.fitOf (s : State) (g slot : Nat) : FitPar := (s.est g).fits.getD slot ((s.chem (g / 512)).fit.getD {})

/-- Circuit parameters of a cell's present slot. -/
def State.fitNow (s : State) (g : Nat) : FitPar := s.fitOf g (s.slotOf g)

/-- Age of a slot, 0xFF while it has no result. -/
def CellEst.age (e : CellEst) (slot : Nat) : Nat := e.ages.getD slot 0xFF

/-- An impedance entry of a cell, real and imaginary, 10 µΩ. -/
def State.entryOf (s : State) (g i : Nat) : Int × Int :=
  match Tab.find (s.est g).entries i with
  | some z => z
  | none => (s.chem (g / 512)).table.getD i (0, 0)

/-- A cell's table goes to its chemistry's defaults (07 R198), which is a change to be written (R199). -/
def State.zReset (s : State) (g : Nat) : State :=
  s.onEst g (fun e => { e with
    ages := [], meas := [], entries := [], updates := 0, zreset := true, fits := [], fitDue := [], unwritten := 0
    unwrT := some (e.unwrT.getD s.now), r0Init := 0, r0Set := 0, growth := 0 })

/-- The 320-byte impedance table of a cell (07 R195). -/
def State.tableBytes (s : State) (g : Nat) : List Byte :=
  let e := s.est g
  let c := s.portCfg (g / 512)
  let occ := s.declared (g / 512) && occupied c (g % 512)
  let mask := bitsOf ((List.range 72).map (fun i => e.meas.getD i false))
  le 1 1 ++ le 1 ((decide (e.updates = 0)).toNat + 2 * e.zreset.toNat) ++ le 2 g ++
    ((List.range 12).map (fun i => le 1 (if occ then e.age i else 0xFF))).flatten ++ le 9 mask ++ zeros 1 ++ le 2 c.chem ++
    le 4 e.updates ++ ((List.range 72).map (fun i =>
      let z := if occ then s.entryOf g i else (0, 0)
      leI 2 z.1 ++ leI 2 z.2)).flatten

/-! ## Cells of a string (08 R213, R220, R227) -/

/-- Nodes of a port that hold a cell position. -/
def nodeOf (c : PortCfg) (pos : Nat) : Nat := (addrOf c (pos / 16)).getD 0

/-- True SoC as published (08 R220). -/
def CellEst.true_ (e : CellEst) : Int := max 0 (min 1000000 e.soc)

/-- Smallest of a list, 0 when empty. -/
def minOf : List Nat → Nat
  | [] => 0
  | x :: r => r.foldl min x

/-- Learned capacity of a string: the smallest of its cells (08 R227). -/
def State.strCap (s : State) (p : Nat) : Nat := minOf ((s.cellsOfStr p).map (fun g => (s.est g).cap))

/-- The weakest cell's position (08 R227). -/
def State.weakest (s : State) (p : Nat) : Nat :=
  ((s.cellsOfStr p).find? (fun g => (s.est g).cap == s.strCap p)).map (· % 512) |>.getD 0xFFFF

/-- Usable capacity of a string, 0.01 Ah. -/
def State.strUse (s : State) (p : Nat) : Nat := let (d, c) := s.useCap p; (d + c) / 1000000

/-- True SoC of a string, 0.0001 %. -/
def State.strSoc (s : State) (p : Nat) : Nat := let (d, c) := s.useCap p; if d + c = 0 then 0 else d * 1000000 / (d + c)

/-- True SoC of the pack (08 R229). -/
def State.packSoc (s : State) : Nat :=
  let u := (s.connList.map s.strUse).sum
  if u = 0 then 0 else (s.connList.map (fun p => s.strSoc p * s.strUse p)).sum / u

/-- Present terminal voltage of the model, µV (08). -/
def State.modelV (s : State) (g : Nat) (i : Int) : Int :=
  let e := s.est g
  ocvAt (s.chem (g / 512)) e.true_ (s.cellTemp g).1 + 10 * e.h + (s.fitNow g).r0 * i / 1000 + e.v1 + e.v2

/-- Resistance growth as a 16-bit field of a record, which is unsigned: a negative growth is written as 0 (DESIGN CHOICE, assumption
log 120). -/
def growthField (g : Int) : List Byte := le 2 (min g.toNat 65535)

/-- A charge of a cell as a change of SoC, 0.0001 % (µC over 0.01 Ah). -/
def dSoc (q : Int) (cap : Nat) : Int := if cap = 0 then 0 else q / (36 * cap : Int)

/-! ## Events (08 R244) -/

/-- An estimator event record. -/
def State.estEvent (s : State) (p ev st pos : Nat) (soc : Int) (sigma span qunc before meas after : Nat) (dq : Int)
    (t0 : Nat) : State :=
  s.record fnEst (le 1 3 ++ le 1 p ++ le 1 ev ++ le 1 st ++ le 2 pos ++ zeros 2 ++ le 8 s.now ++
    le 2 ((max 0 soc).toNat / 100) ++ le 2 (min (sigma / 100) 65535) ++ le 2 (min span 65535) ++ le 2 (min qunc 65535) ++
    le 4 before ++ le 4 meas ++ le 4 after ++ leI 4 dq ++ le 8 t0)

/-- A rest point, seed or F49 event of a cell: no learning figures. -/
def State.estPoint (s : State) (g ev : Nat) (soc : Int) (sigma : Nat) : State :=
  s.estEvent (g / 512) ev 0 (g % 512) soc sigma 0 0 0 0 0 0 0

/-! ## F49 (08 R238) -/

/-- F49 begins to stand for a cell. -/
def State.f49On (s : State) (g : Nat) : State :=
  if (s.est g).f49 then s
  else
    let s := s.onEst g (fun e => { e with f49 := true, f49T := none })
    (s.stand 49 (g / 512) { pos := g % 512 }).estPoint g 5 (s.est g).soc (s.est g).sigma

/-- Residual rms squared, µV², over the updates since `t`, how many updates there were, and how many carried a
measurement. -/
def CellEst.resid2 (e : CellEst) (t : Nat) : Nat × Nat × Nat :=
  let l := e.hist.filter (fun x => t < x.1)
  let m := l.filterMap (fun x => x.2.2.map (fun y => y.1.natAbs * y.1.natAbs))
  (if m.isEmpty then 0 else m.sum / m.length, l.length, m.length)

/-- The residual condition of F49 over 10 s: beyond the divergence limit, with at least 80 % of the updates measured. While fewer than 10 s
of updates are held (after a seed or a wake) it is judged on those, one sufficing: the rule does not say (DESIGN CHOICE, assumption
log 120). -/
def State.diverges (s : State) (g : Nat) : Bool :=
  let (r, n, k) := (s.est g).resid2 (s.now - sec 10)
  decide ((10 * s.gen.divLim) ^ 2 < r) && n ≠ 0 && decide (4 * n ≤ 5 * k)

end Sys2Proof.Machine
end

