-- ==== Sys2Proof/Machine/Passport.lean ====
section
/-! DEFINITION. Passports and rosters (03 R79–R82; 04 R136, R137), the classification of a port (03 R80), and the seeding
of its estimates (08 R233, R236, R237). -/

namespace Sys2Proof.Machine

open Sys2Proof

/-! ## Passports (04 R136, R137) -/

/-- A passport is valid. -/
def passValid (b : List Byte) : Bool :=
  b.length == 256 && field b 0 2 == 1 && field b 0xFC 4 == (crc32c (b.take 0xFC)).toNat

/-- The string serial a passport carries. -/
def passSerial (b : List Byte) : List Byte := (b.drop 4).take 16

/-- Valid passport of a node. -/
def State.passOf (s : State) (p a : Nat) : Option (List Byte) := (s.node (nk p a)).pass.filter passValid

/-- Growth of a string: the mean over its cells (08 R234). -/
def State.strGrowth (s : State) (p : Nat) : Int :=
  let l := s.cellsOfStr p
  if l.isEmpty then 0 else (l.map (fun g => (s.est g).growth)).sum / (l.length : Int)

/-- Per-cell capacity offset: 10,000 × (C ÷ snapshot − 1), 0.01 % (03 R82). -/
def capOffset (c snap : Nat) : Int := if snap = 0 then 0 else (10000 * (c : Int)) / snap - 10000

/-- Serial of a string and its generation: the one in force, or where this module has not classified the port, the roster's
(03 R82). -/
def State.serialOf (s : State) (p : Nat) : List Byte :=
  if (s.str p).serial.isEmpty then (s.mram.rosterSerial.getD p []).take 16 else (s.str p).serial
def State.genOf (s : State) (p : Nat) : Nat :=
  if (s.str p).serial.isEmpty then ((s.mram.rosterSerial.getD p []).getD 16 0).toNat else (s.str p).gen

/-- The passport now due for a node (03 R82; 04 R136). -/
def State.passBytes (s : State) (p a : Nat) : List Byte :=
  let c := s.portCfg p
  let x := s.str p
  let snap := s.strCap p
  let cnt := match s.passOf p a with | some b => (field b 2 2 + 1) % 65536 | none => 1
  let o := monOrder c a
  let n := match o with | some o => cellsOf c o | none => 0
  let cell (ch : Nat) : Option CellEst := match o with
    | some o => if ch < n then some (s.est (gi p (16 * o + ch))) else none
    | none => none
  let b := le 2 1 ++ le 2 cnt ++ padTo 16 (s.serialOf p) ++ le 8 s.serial ++ le 4 x.cycles ++ le 4 snap ++ le 4 c.nameplate ++
    le 2 (s.strSoc p / 100) ++ growthField (s.strGrowth p) ++ le 2 c.chem ++ le 1 (o.getD 0xFF) ++ le 1 n ++
    ((List.range 10).map (fun i => le 4 (x.dod.getD i 0))).flatten ++
    ((List.range 16).map (fun ch => leI 2 (match cell ch with | some e => capOffset e.cap snap | none => 0))).flatten ++
    ((List.range 16).map (fun ch => growthField (match cell ch with | some e => e.growth | none => 0))).flatten ++
    le 4 x.hours ++ zeros 96
  b ++ le 4 (crc32c b).toNat

/-- Sends PASS_WR to every node of a port that is reached (03 R82). -/
def State.passWrite (s : State) (p : Nat) : State :=
  ((addrs (s.portCfg p)).filter (fun a => !(s.node (nk p a)).missing)).foldl (fun s a =>
    s.sendTo p a 0x0C (s.passBytes p a) none) s

/-! ## The roster (03 R80, R82) -/

/-- Identifier of the roster at an address. -/
def State.rosterUid (s : State) (p a : Nat) : Option (BitVec 64) := (Tab.find s.mram.roster (nk p a)).filter (· != 0#64)

/-- Identifiers of a port's roster. -/
def State.rosterUids (s : State) (p : Nat) : List (BitVec 64) := (List.range 34).filterMap (s.rosterUid p)

/-- Roster address of an identifier. -/
def State.rosterAddr (s : State) (p : Nat) (u : BitVec 64) : Option Nat :=
  (List.range 34).find? (fun a => s.rosterUid p a == some u)

/-- Nodes of a port that were reached, by address. -/
def State.found (s : State) (p : Nat) : List Nat :=
  (addrs (s.portCfg p)).filter (fun a => let st := (s.node (nk p a)).st; st == .addressed || st == .ready)

/-- Body of the roster record: 33 identifiers, the serial, its generation. A node that is not reached keeps its entry. -/
def State.rosterBody (s : State) (p : Nat) : List Byte :=
  ((List.range 33).map (fun i =>
    let a := i + 1
    let u := if (s.found p).contains a then (s.node (nk p a)).uid else s.rosterUid p a
    le 8 ((u.getD 0#64).toNat))).flatten ++ padTo 16 (s.serialOf p) ++ le 1 (s.genOf p)

/-- The classification of a port (03 R80), in the order of its table, the string node's valid passport counting among those that
carry one serial; a port that meets no line counts as NEW (assumption log 20). -/
def State.classify (s : State) (p : Nat) : Classif :=
  let f := s.found p
  let mon := f.filter (fun a => (monOrder (s.portCfg p) a).isSome)
  let known (a : Nat) : Bool := match (s.node (nk p a)).uid with | some u => (s.rosterUids p).contains u | none => false
  let hit (a : Nat) : Bool := (s.node (nk p a)).uid.isSome && (s.node (nk p a)).uid == s.rosterUid p a
  let serials := (f.filterMap (s.passOf p)).map passSerial
  let one := match serials with | [] => true | x :: r => r.all (· == x)
  let rs := (s.mram.rosterSerial.getD p []).take 16
  if f.all hit then .known
  else if f.all (fun a => !hit a) && f.any (fun a => !known a) && mon.all (fun a => (s.passOf p a).isSome) && !mon.isEmpty && one then .adopted
  else if f.any (fun a => !known a) && serials.isEmpty then .new
  else if f.any hit && f.all (fun a => hit a || !known a) &&
      f.all (fun a => !hit a || (s.passOf p a).map passSerial == some rs) then .nodeReplaced
  else if f.all known then .reordered
  else if !one then .mixed
  else .new

/-- Two upper-case hexadecimal digits. -/
def hex2 (n : Nat) : List Byte :=
  let d (k : Nat) : Byte := if k < 10 then BitVec.ofNat 8 (48 + k) else BitVec.ofNat 8 (55 + k)
  [d (n / 16 % 16), d (n % 16)]

/-- The serial formed for a NEW string (03 R82). -/
def State.newSerial (s : State) (p gen : Nat) : List Byte :=
  let m := s.serial % 2 ^ 32
  le 1 83 ++ le 1 88 ++ hex2 (m / 2 ^ 24) ++ hex2 (m / 2 ^ 16) ++ hex2 (m / 2 ^ 8) ++ hex2 m ++ le 1 80 ++
    le 1 (48 + p / 10) ++ le 1 (48 + p % 10) ++ le 1 45 ++ hex2 gen

/-- Identifier of the node that holds a cell: the one its identity reply gave, else the roster's (08 R235). -/
def State.cellUid (s : State) (g : Nat) : BitVec 64 :=
  let a := nodeOf (s.portCfg (g / 512)) (g % 512)
  match (s.node (nk (g / 512) a)).uid with
  | some u => u
  | none => (s.rosterUid (g / 512) a).getD 0

/-- A cell becomes a new one (08 R236): its estimate, capacity and table start afresh. The spec gives a capacity from the nameplate or
a passport no σ: the model puts 0 (DESIGN CHOICE, assumption log 96). -/
def State.cellNew (s : State) (g : Nat) : State :=
  let c := s.portCfg (g / 512)
  let s := s.onEst g (fun _ => {
    cap := c.nameplate, fromName := true, inserted := s.now, repl := true, uid := s.cellUid g })
  s.zReset g

/-- The effect of a classification on histories (03 R80; 08 R233, R236; 07 R198). F28 stands for every outcome but
KNOWN; REORDERED and MIXED leave the port HELD. -/
def State.classified (s : State) (p : Nat) (c : Classif) : State :=
  let s := s.onPort p (fun q => { q with cls := some c, rosterDue := c != .known })
  let rs := (s.mram.rosterSerial.getD p []).take 16
  let gen := ((s.mram.rosterSerial.getD p []).getD 16 0).toNat
  let cells := s.cellsOfStr p
  let adoptEvent (s : State) : State := s.estEvent p 7 0 0xFFFF (s.strSoc p) 0 0 0 0 0 (s.strCap p) 0 0
  match c with
  | .known => s.onStr p (fun x => { x with serial := rs, gen := gen })
  | .adopted =>
    let s := cells.foldl (fun s g => s.cellNew g) s
    let mon := (s.found p).filterMap (fun a => (s.passOf p a).map (fun b => (a, b)))
    let b0 := match mon.find? (fun x => (monOrder (s.portCfg p) x.1).isSome) with | some x => x.2 | none => []
    let s := s.onStr p (fun x => { x with
      serial := passSerial b0, gen := gen, cycles := field b0 0x1C 4, hours := field b0 0x98 4, hoursRem := 0
      dod := (List.range 10).map (fun i => (i, field b0 (0x30 + 4 * i) 4)) })
    let s := cells.foldl (fun s g =>
      match s.passOf p (nodeOf (s.portCfg p) (g % 512)) with
      | some b =>
        let ch := g % 16
        let ofs : Int := (BitVec.ofNat 16 (field b (0x58 + 2 * ch) 2)).toInt
        s.onEst g (fun e => { e with
          cap := ((field b 0x20 4 : Int) * (10000 + ofs) / 10000).toNat, fromName := false, repl := false
          growth := (field b (0x78 + 2 * ch) 2 : Nat), cycles := field b 0x1C 4 })
      | none => s) s
    adoptEvent (s.stand 28 p {})
  | .new =>
    let g1 := if gen = 255 || gen = 0 then 1 else gen + 1
    let s := cells.foldl (fun s g => s.cellNew g) s
    let s := s.onStr p (fun x => { x with
      serial := s.newSerial p g1, gen := g1, cycles := 0, dod := [], hours := 0, hoursRem := 0 })
    s.stand 28 p {}
  | .nodeReplaced =>
    let s := s.onStr p (fun x => { x with serial := rs, gen := gen })
    let fresh (g : Nat) : Bool :=
      let a := nodeOf (s.portCfg p) (g % 512)
      (s.found p).contains a && (s.node (nk p a)).uid != s.rosterUid p a
    let s := (cells.filter fresh).foldl (fun s g => s.cellNew g) s
    s.stand 28 p {}
  | .reordered | .mixed => (s.onPort p (fun q => { q with st := .held, rosterDue := false })).stand 28 p {}

/-- The roster record has been written: the condition of F28 for the port is over (03 R82; 11 R583). -/
def State.rosterSettle (s : State) (p : Nat) : State :=
  if (s.port p).rosterDue && (s.found p).all (fun a => (s.node (nk p a)).uid == s.rosterUid p a) &&
      s.mram.rosterSerial.getD p [] == padTo 16 (s.serialOf p) ++ le 1 (s.genOf p) then
    (s.onPort p (fun q => { q with rosterDue := false })).cease 28 p
  else s

/-! ## Rest points' uncertainty (08 R223) -/

/-- Accuracy bound of a cell's node, µV. -/
def State.accBound (s : State) (g : Nat) : Nat :=
  if (s.node (nk (g / 512) (nodeOf (s.portCfg (g / 512)) (g % 512)))).caps.getLsbD 4 then 2500 else 1000

/-- σ_v² without the residual and impedance terms, µV². -/
def State.sigmaBase (s : State) (g : Nat) (soc T : Int) : Nat :=
  let a := s.accBound g
  let o := 10 * s.gen.sigOcv
  let H := hystAt (s.chem (g / 512)) soc T
  let hy := if H ≠ 0 && 10 * ((s.est g).h.natAbs : Int) < 9 * H then (5 * H).natAbs else 0
  a * a / 4 + o * o + hy * hy

/-- σ_SoC from σ_v², 0.0001 %; 100 % where the slope is zero (assumption log 19). -/
def State.sigmaSoc (s : State) (g : Nat) (v2 : Nat) (soc T : Int) : Nat :=
  let sl := slopeAt (s.chem (g / 512)) soc T
  if sl ≤ 0 then 1000000 else min 1000000 (Nat.sqrt (v2 * 100000000) / sl.toNat)

/-! ## Seeding (08 R236, R237) -/

/-- Saved estimate of a cell: SoC, σ and reported SoC in 0.0001 %, h in 10 µV (22 R533). -/
def State.saved (s : State) (g : Nat) : Option (Int × Nat × Nat × Int) :=
  (newest s.mram.estA s.mram.estB).map (fun r =>
    let f (o : Nat) : Nat := field r.body (8 * g + o) 2
    ((100 * f 0 : Int), 100 * f 2, 100 * f 4, (BitVec.ofNat 16 (f 6)).toInt))

/-- Mean of a cell's newest four valid samples, µV: the first four M0 sweeps. -/
def State.mean4 (s : State) (g : Nat) : Int := 10 * mean (((s.est g).vHist.take 4).map (fun x => (x.2 : Int)))

/-- A cell seeded from OCV (R237): the means of the four sweeps, with R0 from the chemistry's default fit. 07 R208 gives the
chemistry no default for h: the model takes 0 (DESIGN CHOICE, assumption log 20). -/
def State.seedOcv (s : State) (g : Nat) : State :=
  let p := g / 512
  let f := (s.chem p).fit.getD {}
  let T := (s.cellTemp g).1
  let i := mean (((s.str p).iRec.take 4).map (·.2))
  let soc := ocvInv (s.chem p) (s.mean4 g - f.r0 * i / 1000) T
  let rd := ((f.r0 + f.r1 + f.r2) * i.natAbs / 1000) / 20
  let sig := max 2000 (s.sigmaSoc g (s.sigmaBase g soc T + 10000 * 10000 + rd * rd) soc T)
  let s := s.onEst g (fun e => { e with soc := soc, sigma := sig, h := 0, v1 := 0, v2 := 0, seeded := true, anchor := 4 })
  s.estPoint g 4 soc sig

/-- A cell restored from the saved state and the charge counted since, whose uncertainty over the elapsed time widens σ (R219, R224,
R236), a seed of which the event record tells (R241); its reported SoC is the saved one, which `seedRep` moves on. One without a saved
state is seeded from OCV (assumption log 20). -/
def State.seedSaved (s : State) (g : Nat) : State :=
  match s.saved g with
  | none => s.seedOcv g
  | some (soc, sig, rep, h) =>
    let p := g / 512
    let cap := (s.est g).cap
    let dq := (s.str p).qNet - (s.str p).savQ
    let q := dSoc dq cap
    let u := offB (s.portCfg p) * (s.now - (s.str p).savT) / 1000000 + 3 * dq.natAbs / 1000
    let wide := if cap = 0 then 0 else u / (36 * cap)
    let sig := max 2000 (min 1000000 (sig + wide))
    let s := s.onEst g (fun e => { e with
      soc := soc + q, sigma := sig, rep := rep, h := h, v1 := 0, v2 := 0, seeded := true, anchor := 5 })
    s.estPoint g 4 (soc + q) sig

/-- A cell takes the values of an ageing record's body (08 R235). -/
def State.ageFrom (s : State) (g : Nat) (b : List Byte) : State :=
  let f (o n : Nat) : Nat := field b o n
  s.onEst g (fun e => { e with
    cap := f 0x0C 4, capSigma := f 0x10 2, growth := (f 0x12 2 : Nat), r0Init := f 0x14 4, cycles := f 0x18 4, restSoc := f 0x1C 2
    restSig := f 0x1E 2, restT := f 0x20 8, acc := f 0x28 4, rej := f 0x2C 4, inserted := f 0x30 8
    uid := BitVec.ofNat 64 (f 4 8), learned := f 3 1 % 2 == 1, r0Set := if f 3 1 / 2 % 2 == 1 then max e.r0Set 1 else 0, fromName := f 3 1 / 4 % 2 == 1 })

/-- The ageing record of a cell comes into force (08 R235): KNOWN, and the kept cells of NODE_REPLACED. -/
def State.ageLoad (s : State) (g : Nat) : State :=
  match s.ageing g with
  | none => s.onEst g (fun e => if e.cap = 0 then
      { e with cap := (s.portCfg (g / 512)).nameplate, fromName := true, uid := s.cellUid g } else e)
  | some r => s.ageFrom g r.body

/-- Target of reported SoC, 0.0001 % (08 R231), from a SoC in 0.0001 % and a reserve boundary in 0.01 %. Where the boundary is at SoC_top
the rule's quotient does not exist: the model takes 100 % at or above the boundary and 0 below it, and no coulomb term (`repStep`)
(DESIGN CHOICE, assumption log 120). -/
def State.target (s : State) (soc : Int) (res : Nat) : Int :=
  let top : Int := 100 * (s.gen.socTop : Int)
  let r : Int := 100 * (res : Int)
  if top ≤ r then (if r ≤ soc then 1000000 else 0) else max 0 (min 1000000 (1000000 * (soc - r) / (top - r)))

end Sys2Proof.Machine
end

