-- ==== Sys2Proof/Machine/EstCore.lean ====
section
/-! DEFINITION. The estimator's arithmetic (chapter 08): filter updates, rest points, capacity learning, energies,
reported SoC and ageing. SoC in 0.0001 %, charges in µC, voltages in µV; division rounds down (assumption log 19). -/

namespace Sys2Proof.Machine

open Sys2Proof

/-! ## Ageing records and their faults (R234, R235; 22 R538) -/

/-- Body of a cell's ageing record, up to its CRC. -/
def State.ageBody (s : State) (g : Nat) : List Byte :=
  let e := s.est g
  let b := le 2 g ++ le 1 1 ++ le 1 (bitsOf [e.learned, decide (0 < e.r0Set), e.fromName]) ++ le 8 e.uid.toNat ++ le 4 e.cap ++
    le 2 (min e.capSigma 65535) ++ growthField e.growth ++ le 4 e.r0Init ++ le 4 e.cycles ++ le 2 e.restSoc ++
    le 2 e.restSig ++ le 8 e.restT ++ le 4 e.acc ++ le 4 e.rej ++ le 8 e.inserted
  b ++ le 4 (crc32c b).toNat

/-- F50 and F51 of a string (R234). -/
def State.ageFaults (s : State) (p : Nat) : State :=
  let c := s.portCfg p
  let s := s.setCond 50 p (decide (s.strCap p * 10000 < c.nameplate * s.gen.fade)) { value := s.strCap p }
  s.setCond 51 p (decide ((s.gen.growStr : Int) < s.strGrowth p) ||
    (s.cellsOfStr p).any (fun g => decide ((s.gen.growCell : Int) < (s.est g).growth))) { value := s.strGrowth p }

/-- Body of a kind 0x02 journal entry: the cell's new ageing record, the capacity before and the learning status
(22 R534, R538). -/
def State.learnBody (s : State) (g before st : Nat) : List Byte := s.ageBody g ++ le 4 before ++ le 1 st

/-- An accepted learning is written: its journal entry, the ageing record, the applied entry (22 R538). -/
def State.learnWrite (s : State) (g before st : Nat) : State :=
  (s.nvDue { kind := 7, key := 2, body := s.learnBody g before st }).mirrorDue { kind := 2, key := g, body := s.ageBody g } none

/-! ## Throughput uncertainty and learning (R224–R226) -/

/-- Offset term of σ_Q over `dt` ns, µC. -/
def State.offsetU (s : State) (p dt : Nat) : Nat :=
  let o := offB (s.portCfg p) * dt / 1000000
  match (s.str p).offT with
  | some t => if s.now ≤ t + sec 604800 then o / 5 else o
  | none => o

/-- σ_Q between an earlier rest point and now. -/
def State.sigmaQ (s : State) (g : Nat) (r : RestPoint) : Nat :=
  let p := g / 512
  let x := s.str p
  s.offsetU p (s.now - r.t) + 3 * ((x.qIn - r.qIn) + (x.qOut - r.qOut)) / 1000 + ((s.est g).qBal - r.qBal) / 50 +
    (x.gapU - r.gapU) + (x.subU - r.subU)

/-- The rest point a cell would keep now. -/
def State.restNow (s : State) (g : Nat) (soc : Int) (sigma : Nat) : RestPoint :=
  let x := s.str (g / 512)
  let e := s.est g
  { t := s.now, soc := soc, sigma := sigma, qNet := e.qNet, qIn := x.qIn, qOut := x.qOut, qBal := e.qBal, gapU := x.gapU
    subU := x.subU, tband := e.tband }

/-- Status of learning against an earlier rest point: the first condition of R225 that fails, 0 when every one holds. -/
def State.learnCode (s : State) (g : Nat) (soc : Int) (r : RestPoint) : Nat :=
  let dq := ((s.est g).qNet - r.qNet).natAbs
  if (soc - r.soc).natAbs < 350000 then 1
  else if r.t + sec 172800 < s.now then 2
  else if dq < 100 * s.sigmaQ g r then 3
  else if r.t < (s.est g).tbandT then 4
  else 0

/-- The partner of a learning attempt: among the rest points that meet every condition, or else among all, the one with
the largest SoC span. -/
def State.partner (s : State) (g : Nat) (soc : Int) : Option RestPoint :=
  let l := (s.est g).rests
  let good := l.filter (fun r => s.learnCode g soc r == 0)
  let l := if good.isEmpty then l else good
  match l with
  | [] => none
  | x :: r => some (r.foldl (fun m y => if (soc - m.soc).natAbs < (soc - y.soc).natAbs then y else m) x)

/-- C after a learning (R226), and whether the step was bounded. -/
def learnStep (c m : Nat) : Nat × Bool :=
  let d : Int := 2 * ((m : Int) - c)
  let b : Int := 3 * (c : Int) / 10
  (((10 * (c : Int) + max (-b) (min b d) + 5) / 10).toNat, decide (b < d.natAbs))

/-- σ_C after a learning (R226), 0.01 %. -/
def learnSigma (sc c m : Nat) (sq dq s1 s2 span : Nat) : Nat :=
  let a := if dq = 0 then 0 else sq * 10000 / dq
  let b2 := if span = 0 then 0 else (s1 * s1 + s2 * s2) * 100000000 / (span * span)
  let rel := Nat.sqrt (a * a + b2)
  let meas := if c = 0 then rel else rel * m / c
  Nat.sqrt ((8 * sc) ^ 2 + (2 * meas) ^ 2) / 10

/-- A learning attempt at a new rest point of a cell (R225, R226). -/
def State.learn (s : State) (g : Nat) (soc : Int) (sigma : Nat) (blocked : Bool) : State :=
  match (if s.drv.svcUp then s.partner g soc else none) with
  | none => s
  | some r =>
    let p := g / 512
    let e := s.est g
    let dq := e.qNet - r.qNet
    let span := (soc - r.soc).natAbs
    let sq := s.sigmaQ g r
    let code := if blocked then 5 else s.learnCode g soc r
    let m := if span = 0 then 0 else dq.natAbs / (36 * span)
    let qunc := if dq = 0 then 65535 else sq * 10000 / dq.natAbs
    let ev (s : State) (code after : Nat) : State :=
      s.estEvent p 3 code (g % 512) soc sigma (span / 100) qunc e.cap m after (dq / 3600000) r.t
    if code ≠ 0 then
      ev (s.onEst g (fun e => { e with rej := min (e.rej + 1) 0xFFFFFFFF, learnSt := code })) code e.cap
    else
      let (c, bound) := learnStep e.cap m
      let st := if bound then 6 else 0
      let s := s.onEst g (fun e => { e with
        cap := c, capSigma := learnSigma e.capSigma e.cap m sq dq.natAbs r.sigma sigma span, learned := true, fromName := false
        acc := min (e.acc + 1) 0xFFFFFFFF, learnSt := st })
      let s := s.onStr p (fun x => { x with learnNew := true })
      ((ev s st c).learnWrite g e.cap st).ageFaults p

/-! ## Rest points (R221–R225, R238) -/

/-- The cell's input is stale, suspect or out of range (R223). -/
def State.badInput (s : State) (g : Nat) : Bool :=
  let c := s.cell g
  c.stale || c.suspect || c.word.getLsbD 20 || c.v = 0 || 550000 ≤ c.v

/-- A rest point is a cell's last one (R235, R242). -/
def State.restStamp (s : State) (g : Nat) (soc : Int) (sigma : Nat) : State :=
  s.onEst g (fun e => { e with
    restT := s.now, restSoc := (max 0 soc).toNat / 100, restSig := sigma / 100, restNew := true, restQ := e.qNet })

/-- A rest point takes the place of the filter's state outright: SoC, σ, and no branch voltages (R237, R238); from it the 60 s of F49's end
run where F49 stands. -/
def State.restReplace (s : State) (g anc : Nat) (soc : Int) (sigma : Nat) : State :=
  s.onEst g (fun e => { e with
    soc := soc, socRem := 0, sigma := max 2000 sigma, sigRem := 0, v1 := 0, v2 := 0, anchor := anc
    f49T := if e.f49 then some s.now else none })

/-- A rest point joins those of the last 48 h, up to 8, that anchor learning (R225). -/
def State.restKeep (s : State) (g : Nat) (soc : Int) (sigma : Nat) : State :=
  let keep := s.restNow g soc sigma
  s.onEst g (fun e => { e with rests := ((keep :: e.rests).filter (fun r => s.now ≤ r.t + sec 172800)).take 8 })

/-- A rest point of a cell: event code `ev`, anchor `anc`. It is discarded above 3 %; with F49 standing it replaces the
filter's SoC and σ and zeroes v1 and v2; otherwise it enters the filter as a measurement, whose result the spec does not
publish, and anchors learning. A point of a cell with a stale, suspect or out-of-range input is no anchor: it is recorded and compared
with the filter (R238), and its learning attempt fails with status 0x05 (DEDUCED, assumption log 74). -/
def State.takeRest (s : State) (g ev anc : Nat) (soc : Int) (sigma : Nat) : State :=
  if 30000 < sigma then s
  else
    let e := s.est g
    let d := (soc - e.soc).natAbs
    let far := decide (50000 < d) && decide (9 * (sigma * sigma + e.sigma * e.sigma) < d * d)
    if e.f49 then
      ((s.learn g soc sigma true).restStamp g soc sigma).restReplace g anc soc sigma |>.estPoint g ev soc sigma
    else if s.badInput g then
      let s := (s.restStamp g soc sigma).estPoint g ev soc sigma
      (if far then s.f49On g else s).learn g soc sigma true
    else
      let s := (s.restStamp g soc sigma).estPoint g ev soc sigma
      let s := if far then s.f49On g
        else
          let (n, s) := (s.free, { s with free := s.free + 1 })
          let (a, b, _, _, _) := Config.kalman n g
          s.onEst g (fun e => { e with soc := a, sigma := max 2000 b, anchor := anc })
      (s.learn g soc sigma (far || s.paired g)).restKeep g soc sigma

/-- Mean voltage of a cell over its valid samples since `t`, µV. -/
def State.meanSince (s : State) (g t : Nat) : Int :=
  10 * mean (((s.est g).vHist.filter (fun x => t < x.1)).map (fun x => (x.2 : Int)))

/-- Mean and mean square of a string's current since `t`. -/
def State.iMean (s : State) (p t : Nat) : Int := mean (((s.str p).iRec.filter (fun x => t < x.1)).map (·.2))
def State.iMean2 (s : State) (p t : Nat) : Int := mean (((s.str p).iRec.filter (fun x => t < x.1)).map (fun x => x.2 * x.2))

/-- SoC and uncertainty of a true rest point of a cell now (R221, R223). -/
def State.restSocOf (s : State) (g : Nat) : Int × Nat :=
  let T := (s.cellTemp g).1
  let t := s.now - sec 10
  let f := s.fitNow g
  let ocv := s.meanSince g t - f.r0 * s.iMean (g / 512) t / 1000 - 10 * (s.est g).h
  let soc := ocvInv (s.chem (g / 512)) ocv T
  (soc, s.sigmaSoc g (s.sigmaBase g soc T + 1000000) soc T)

/-- A true rest point of a cell is taken (R221). -/
def State.trueRest (s : State) (g : Nat) : State :=
  let (soc, sigma) := s.restSocOf g
  s.takeRest g 1 1 soc sigma

/-- A cell has valid samples in the last 10 s. -/
def State.hasV (s : State) (g : Nat) : Bool := (s.est g).vHist.any (fun x => s.now < x.1 + sec 10)

/-- A Wisp point of a cell, when every condition of R222 holds. -/
def State.wisp (s : State) (g : Nat) : State :=
  let p := g / 512
  let e := s.est g
  let T := (s.cellTemp g).1
  let t := s.now - sec 60
  let (r2, n, k) := e.resid2 t
  let f := s.fitNow g
  let ok := e.seeded && r2 < 4000000 && e.age (s.slotOf g) < 168 && 1500 ≤ slopeAt (s.chem p) e.true_ T && n ≠ 0 &&
    9 * n ≤ 10 * k && !s.paired g
  if !ok then s
  else
    let l := (e.hist.filter (fun x => t < x.1)).filterMap (fun x => x.2.2.map (fun y => (x.2.1, y.2)))
    let soc := ocvInv (s.chem p) (mean (l.map (·.2))) T + dSoc (e.qNet - mean (l.map (·.1))) e.cap
    let i2 := (s.iMean2 p t).natAbs
    let rd := f.r0 + f.r1 + f.r2
    let z2 := rd * rd * i2 / 400 / 1000000
    s.takeRest g 2 2 soc (s.sigmaSoc g (s.sigmaBase g soc T + r2 + z2) soc T)

/-! ## The filter update (R213, R217–R220) -/

/-- How much of the times from `a` to `b` lies between `c` and `d`. -/
def overlap (a b c d : Nat) : Nat := min b d - max a c

/-- Pauses of a node's balancing between `a` and `b`, ns (04 R132): from the REED frame of each sweep of a mode to the end of its
conversion. -/
def State.pauses (s : State) (p mode a b : Nat) : Nat :=
  let lead := s.balLead p mode
  let n := period mode
  ((List.range ((b - a) / n + 3)).map (fun k =>
    let g := (a / n + k) * n
    overlap a b (g - lead) (g + tConv mode))).sum

/-- How long between `a` and `b` a cell's switch is on under BALANCE, ns (R213): while a command holds it, outside the M2 and M3 runs of
04 R132 (from an M2 or M3 REED frame to the next of M0 or M1) and its pauses. -/
def State.balTime (s : State) (g a b : Nat) : Nat :=
  let p := g / 512
  let q := s.port p
  let c := s.cell g
  let part (lo hi mode : Nat) : Nat :=
    let lo := max lo (max a c.heldT)
    let hi := min hi (min b c.heldEnd)
    (hi - lo) - s.pauses p mode lo hi
  part 0 q.balOff (s.modeOn p a) + if q.balOn < q.balOff then 0 else part q.balOn b (s.modeOn p b)

/-- Charge a cell loses to its balancing switch between `a` and `b`, µC (R213): cell voltage ÷ R_bal while the switch is on, under BALANCE
or, in a Sedge session, during the on-chips of its sequence. -/
def State.balQ (s : State) (g a b : Nat) : Nat :=
  let p := g / 512
  let q := s.port p
  let r := (s.portCfg p).rBal.getD (g % 512 / 16) 0
  let i := if r = 0 then 0 else 10 * (s.cell g).v / r
  let excited := q.sedge && q.sedgeSel.contains (nodeOf (s.portCfg p) (g % 512), g % 16)
  let on := match excited, q.sedgeS with
    | true, some t =>
      ((List.range ((b - a) / us 250 + 1)).map (fun k =>
        let j := (a - t) / us 250 + k
        if b ≤ t || s.gen.sedgeP * 511 ≤ j || !mls.getD (j % 511) false then 0
        else overlap a b (t + j * us 250) (t + (j + 1) * us 250))).sum
    | true, none => 0
    | false, _ => s.balTime g a b
  i * on / 1000000

/-- The sample of a cell at grid instant `S` may enter the filter (R219): neither stale, settling, of an open-wire group, nor at 0 V or
at or above 5.5 V. -/
def State.sampleOk (s : State) (g S : Nat) : Bool :=
  let c := s.cell g
  let q := s.port (g / 512)
  c.validT == some S && !c.stale && q.settleT ≤ S && !(q.swOw && q.sweepS == S) && 0 < c.v && c.v < 550000

/-- A measurement update of a cell at `S` (R219): its sample is in order and its string's current of the same instant is at hand; a
suspect one only under a pair-sum, with the other cell's sample in order too. -/
def State.usable (s : State) (g S : Nat) : Bool :=
  s.sampleOk g S && (if s.paired g then s.sampleOk (s.mate g) S else !(s.cell g).word.getLsbD 20) && (s.str (g / 512)).iT == S

/-- A branch voltage relaxed towards R × I over `dt` ns. -/
def relax (v : Int) (r tau : Nat) (i : Int) (dt : Nat) : Int :=
  let e : Int := (r : Int) * i / 1000
  e + (v - e) * expNeg dt (us tau) / 2 ^ 32

/-- The prediction of a cell across the interval from `t` to `S` (R218 step 1), with the string's charge of the interval and its
uncertainty. -/
def State.predict (s : State) (g t S : Nat) (dq : Int) (u : Nat) : State :=
  let e := s.est g
  let b := s.balQ g t S
  let q := dq - b
  let f := s.fitNow g
  let T := (s.cellTemp g).1
  let i := q * 1000000 / (S - t : Nat)
  let den : Int := 36 * (max e.cap 1 : Nat)
  let x := e.socRem + q
  let sg := e.sigRem + u + b / 50
  let H := hystAt (s.chem (g / 512)) e.true_ T
  let hq := den * 1000 * s.gen.hystThr
  let hn := 2 * H * q + e.hRem
  let h := max (-H) (min H (e.h + hn / hq))
  let nm := (max (s.portCfg (g / 512)).nameplate 1) * 360000
  let out := e.qOut + (if q < 0 then q.natAbs else 0)
  let cyc := out / nm - e.qOut / nm
  let tb := s.tempBand T
  s.onEst g (fun e => { e with
    soc := e.soc + x / den, socRem := x % den, sigma := min 1000000 (e.sigma + sg / den.toNat), sigRem := sg % den.toNat
    v1 := relax e.v1 f.r1 f.tau1 i (S - t), v2 := relax e.v2 f.r2 f.tau2 i (S - t)
    h := h, hRem := if h = e.h + hn / hq then hn % hq else 0, qNet := e.qNet + q
    qOut := if s.actsPrimary then out else e.qOut, cycles := if s.actsPrimary then e.cycles + cyc else e.cycles
    qBal := e.qBal + b, tband := tb, tbandT := if tb = e.tband then e.tbandT else s.now })

/-- The measurement of a cell at `S` (R218 step 2, R219): the residual, and an updated state whose values the spec does
not publish; σ at least 0.2 %, h within ±H. -/
def State.measure (s : State) (g S : Nat) : State :=
  let e := s.est g
  let i := (s.str (g / 512)).i.getD 0
  let pair := s.paired g
  let m := s.mate g
  let r : Int := 10 * (s.cell g).v - s.modelV g i + (if pair then 10 * (s.cell m).v - s.modelV m i else 0)
  let ocv := 10 * (s.cell g).v - (s.fitNow g).r0 * i / 1000 - e.v1 - e.v2 - 10 * e.h
  let (n, s) := (s.free, { s with free := s.free + 1 })
  let (a, b, c, d, h) := Config.kalman n g
  let H := hystAt (s.chem (g / 512)) e.true_ (s.cellTemp g).1
  s.onEst g (fun e => { e with
    soc := a, sigma := max 2000 b, v1 := c, v2 := d, h := max (-H) (min H h), resid := r / 10, measT := S
    hist := (S, e.qNet, some (r, ocv)) :: e.hist.filter (fun x => S < x.1 + sec 60) })

/-- One filter update of a cell. -/
def State.kalmanCell (s : State) (g t S : Nat) (dq : Int) (u : Nat) : State :=
  if !(s.est g).seeded then s
  else
    let s := s.predict g t S dq u
    let s := if s.usable g S then s.measure g S
      else s.onEst g (fun e => { e with
        sigma := max 2000 e.sigma, hist := (S, e.qNet, none) :: e.hist.filter (fun x => S < x.1 + sec 60) })
    let s := s.onEst g (fun e => { e with outRange := decide (e.soc < 0 ∨ 1000000 < e.soc) })
    if s.diverges g || 100000 < (s.est g).sigma then s.f49On g else s

/-! ## Reported SoC (R230–R233) -/

/-- One step of a reported SoC (R231): the coulomb term, and the correction within the rate and the direction rules. -/
def repStep (rep : Nat) (rem dq qrep tgt rate : Int) (dis chg : Bool) : Nat × Int :=
  let x := rem + dq * 1000000
  let c := if qrep ≤ 0 then 0 else x / qrep
  let r := if qrep ≤ 0 then 0 else x % qrep
  let after := (rep : Int) + c
  let corr := max (-rate) (min rate (tgt - after))
  let corr := if dis then min corr (-c) else corr
  let corr := if chg then max corr (-c) else corr
  ((max 0 (min 1000000 (after + corr))).toNat, r)

/-- The convergence rate over the 10 ms that end at `S`, 0.0001 %; the rounding of successive updates adds up exactly. -/
def State.convRate (s : State) (S : Nat) : Int :=
  let n := S / ms 10
  (((n + 1) * s.gen.conv / 60 : Nat) : Int) - ((n * s.gen.conv / 60 : Nat) : Int)

/-- The reported range of a capacity, µC: (SoC_top − SoC_res) × capacity. -/
def State.qRep (s : State) (cap res : Nat) : Int := ((s.gen.socTop : Int) - res) * cap * 3600

/-- Reported SoC of a string and its cells advances by an update from `t` to `S` (R231). -/
def State.repStr (s : State) (p t S : Nat) (dq : Int) : State :=
  let x := s.str p
  let c := s.portCfg p
  let i := s.iMean p (s.now - sec 1)
  let dis := decide (20 * i < -(c.nameplate : Int))
  let chg := decide ((c.nameplate : Int) < 20 * i)
  let rate := s.convRate S
  let s := (s.cellsOfStr p).foldl (fun s g =>
    let e := s.est g
    let (r, m) := repStep e.rep e.repRem (dq - s.balQ g t S) (s.qRep e.cap x.socRes) (s.target e.true_ x.socRes) rate dis chg
    s.onEst g (fun e => { e with rep := r, repRem := m })) s
  let (r, m) := repStep x.rep x.repRem dq (s.qRep (s.strUse p) x.socRes) (s.target (s.strSoc p) x.socRes) rate dis chg
  s.onStr p (fun x => { x with rep := r, repRem := m })

/-- Reported SoC of the pack advances (R231). -/
def State.repPack (s : State) (S : Nat) (dq : Int) : State :=
  let l := s.connList
  let q (p : Nat) : Int := s.qRep (s.strUse p) (s.str p).socRes
  let tot := (l.map q).sum
  let tgt := if tot ≤ 0 then (s.pack.rep : Int) else (l.map (fun p => s.target (s.strSoc p) (s.str p).socRes * q p)).sum / tot
  let c : Int := (l.map (fun p => (s.portCfg p).nameplate)).sum
  let h := (s.pack.iHist.filter (fun x => s.now - sec 1 < x.1)).map (·.2)
  let i := if h.isEmpty then (l.map (fun p => s.iMean p (s.now - sec 1))).sum else mean h
  let (r, m) := repStep s.pack.rep s.pack.repRem dq tot tgt (s.convRate S) (decide (20 * i < -c)) (decide (c < 20 * i))
  { s with pack := { s.pack with rep := r, repRem := m } }

/-! ## Cycles, histogram, imbalance (R234; 11 R287 F04) -/

/-- The depth-of-discharge histogram of a string at its present true SoC (R234). After a seed no half-cycle is complete: the first fall
of more than 2 % that no rise of more than 2 % went before ends none. -/
def State.dodStep (s : State) (p : Nat) : State :=
  let x := s.str p
  let soc : Int := s.strSoc p
  let up := decide (x.turn ≤ x.extreme)
  let ext := if up then max x.extreme soc else min x.extreme soc
  let rev := if up then decide (soc + 20000 < ext) else decide (ext + 20000 < soc)
  if rev && (ext - x.turn).natAbs ≤ 20000 then s.onStr p (fun x => { x with turn := ext, extreme := soc })
  else if rev then
    let bin := min 9 ((ext - x.turn).natAbs / 100000)
    s.onStr p (fun x => { x with dod := x.dod.set bin (x.dod.getD bin 0 + 50), turn := ext, extreme := soc })
  else s.onStr p (fun x => { x with extreme := ext })

/-- Counters of a string that its primary advances over `dt` ns: equivalent full cycles and hours in service (R234, R243). -/
def State.strCounters (s : State) (p dOut dt : Nat) : State :=
  let nm := (max (s.portCfg p).nameplate 1) * 360000
  s.onStr p (fun x =>
    let h := x.hoursRem + dt
    { x with
      cycles := x.cycles + (x.qOut / nm - (x.qOut - dOut) / nm)
      hours := x.hours + h / sec 3600, hoursRem := h % sec 3600 })

/-- F04: highest less lowest true SoC of a string, without the cells of open taps (05 R163). -/
def State.imbalance (s : State) (p : Nat) : State :=
  let l := ((s.cellsOfStr p).filter (fun g => !s.paired g)).map (fun g => (s.est g).true_)
  match l with
  | [] => s
  | x :: r =>
    let d := r.foldl max x - r.foldl min x
    s.setCond 4 p (decide (100 * (s.gen.imbal : Int) < d)) { value := d / 100 }

/-! ## Available energy and the reserve (R228, R230) -/

/-- Energy of a cell between two of its SoC values, mWh: OCV less R_dc × I_ref, exact over each percent. -/
def State.cellEnergy (s : State) (g : Nat) (lo hi T : Int) : Int :=
  let c := s.chem (g / 512)
  let iref : Int := ((s.portCfg (g / 512)).nameplate * s.gen.iRef / 100 : Nat)
  let e := s.est g
  let parts := (List.range 100).map (fun k =>
    let a := max lo (10000 * k)
    let b := min hi (10000 * (k + 1))
    if b ≤ a then 0
    else
      let f := s.fitOf g (s.slotAt ((a + b) / 2) T)
      let r : Int := f.r0 + f.r1 + f.r2
      (b - a) * ((ocvAt c a T + ocvAt c b T) / 2 - r * iref / 1000))
  parts.sum * e.cap / 1000000 / 100000

/-- Energy of a string above empty when a charge `y`, 0.0001 % × 0.01 Ah, can still be drawn, Wh; at the cells' own
temperatures, or at one. -/
def State.strEnergy (s : State) (p y : Nat) (T : Option Int) : Nat :=
  let d := (s.useCap p).1
  let l := (s.cellsOfStr p).map (fun g =>
    let e := s.est g
    let cap : Int := (max e.cap 1 : Nat)
    let lo := e.true_ - d / cap
    s.cellEnergy g lo (lo + y / cap) (T.getD (s.cellTemp g).1))
  ((max 0 l.sum) / 1000).toNat

/-- Binary search for the least charge in [lo, hi] whose energy at T_res reaches a share. -/
def State.resSearch (s : State) (p share : Nat) : Nat → Nat → Nat → Nat
  | 0, _, hi => hi
  | n + 1, lo, hi =>
    let m := (lo + hi) / 2
    if share ≤ s.strEnergy p m (some s.gen.tRes) then s.resSearch p share n lo m else s.resSearch p share n m hi

/-- The energies of a string, and on the module that acts as primary its reserve boundary (R228, R230, R239). A string that carries no
share has the boundary 0 (DESIGN CHOICE, assumption log 95). -/
def State.energyOf (s : State) (p : Nat) : State :=
  let (d, c) := s.useCap p
  let caps := (s.connList.map s.strCap).sum
  let share := if (s.str p).conn && caps ≠ 0 then s.gen.eRes * s.strCap p / caps else 0
  let tot := d + c
  let res := if share = 0 then 0
    else if s.strEnergy p tot (some s.gen.tRes) < share then s.gen.socTop
    else if tot = 0 then s.gen.socTop else s.resSearch p share 48 0 tot * 10000 / tot
  let e1 := s.strEnergy p d none
  let e2 := s.strEnergy p d (some s.gen.tRes)
  s.onStr p (fun x => { x with energy := e1, energyRes := e2, socRes := if s.actsPrimary then res else x.socRes })

/-- Energies of every string and what is left of the reserve (R228, R232): 100 % where E_res is 0, for which the spec gives no
quotient (DESIGN CHOICE, assumption log 95). -/
def State.energies (s : State) : State :=
  let s := s.portList.foldl (fun s p => s.energyOf p) s
  let e := (s.connList.map (fun p => (s.str p).energyRes)).sum
  { s with pack := { s.pack with energyDue := false, resLeft := if s.gen.eRes = 0 then 10000 else min 10000 (10000 * e / s.gen.eRes) } }

/-! ## Rest-qualified seeds (R237) -/

/-- Every cell of a string has drifted by less than 0.2 mV/min over the last 2 min. -/
def State.still2 (s : State) (p : Nat) : Bool :=
  (s.cellsOfStr p).all (fun g => match (s.est g).vHist, (s.est g).vHist.getLast? with
    | (t, v) :: _, some (t0, v0) => t0 + sec 119 ≤ t && decide (((v : Int) - v0).natAbs < 40)
    | _, _ => false)

/-- A model-corrected seed becomes rest-qualified (R237): it is recomputed as a true rest point with the uncertainty of R223, and anchors
capacity learning; above 3 % it is discarded, as any rest point. -/
def State.seedRest (s : State) (g : Nat) : State :=
  let (soc, sigma) := s.restSocOf g
  if 30000 < sigma then s
  else (((s.restStamp g soc sigma).restReplace g 3 soc sigma).restKeep g soc sigma).estPoint g 4 soc sigma

/-- Model-corrected seeds of a string become rest-qualified within 10 min of insertion. The current counts as low since insertion when
it has been from the first sample within 1 s of it on (DESIGN CHOICE, assumption log 97). -/
def State.qualify (s : State) (p : Nat) : State :=
  let l := (s.cellsOfStr p).filter (fun g => (s.est g).anchor == 4 && s.now ≤ (s.est g).inserted + mins 10 &&
    (match (s.str p).lowT with | some t => decide (t ≤ (s.est g).inserted + sec 1) | none => false))
  if l.isEmpty || !s.still2 p then s else l.foldl (fun s g => s.seedRest g) s

/-! ## The seeding of a port (R236) -/

/-- One cell's estimate at the seeding of a port of class `cls` (R236): from its voltage where the chain is new to the pack or
the cell was replaced, else from the saved estimate aged by the time off. -/
def State.seedCell (s : State) (cls : Classif) (g : Nat) : State :=
  match cls with
  | .adopted | .new => s.seedOcv g
  | _ => if (s.est g).repl then s.seedOcv g else if (s.est g).seeded then s else (s.ageLoad g).seedSaved g

/-- The reported SoC of one cell after its seeding (R233, R236): its target where the estimate was made new, else what was saved, moved by
the charge counted since over the reported range where the cell was restored just now (`old` was not seeded). -/
def State.seedRep (s : State) (p : Nat) (all : Bool) (old : List Nat) (g : Nat) : State :=
  let x := s.str p
  let e := s.est g
  if all || e.repl || (old.contains g && e.anchor ≠ 5) then
    s.onEst g (fun e => { e with rep := (s.target e.true_ x.socRes).toNat, repl := false })
  else if old.contains g then
    let q := s.qRep e.cap x.socRes
    s.onEst g (fun e => { e with
      rep := if q ≤ 0 then e.rep else (max 0 (min 1000000 ((e.rep : Int) + (x.qNet - x.savQ) * 1000000 / q))).toNat })
  else s

/-- The string's own reported SoC and the sums its filter counts from at the seeding (R233, R236): the target for a string made new; for
the others what SRAM holds, where any cell was seeded before. At a start-up the saved state of 22 R533 holds no figure of the string's
own: the model takes the mean over its restored cells, or over all where none was (DESIGN CHOICE, assumption log 120). -/
def State.seedStr (s : State) (p : Nat) (all : Bool) (old : List Nat) : State :=
  let cells := s.cellsOfStr p
  let kept := cells.filter (fun g => (s.est g).anchor == 5)
  let l := (if kept.isEmpty then cells else kept).map (fun g => (s.est g).rep)
  s.onStr p (fun x => { x with
    rep := if all then (s.target (s.strSoc p) x.socRes).toNat
      else if cells.any (fun g => !old.contains g) then x.rep
      else l.sum / max l.length 1
    kfT := 0, kfNet := x.qNet, kfIn := x.qIn, kfOut := x.qOut, turn := s.strSoc p, extreme := s.strSoc p })

/-- A roster entry that waited for the seeding is written and mirrored. -/
def State.seedRoster (s : State) (p : Nat) : State :=
  if (s.port p).rosterDue then
    ((s.mirrorDue { kind := 0x08, key := p, body := s.rosterBody p } none).rosterSettle p).passWrite p
  else s

/-- The pack's reported value is made when the last chain that is not held has its seeds, and the estimate counts as seeded
from then on. -/
def State.seedPack (s : State) : State :=
  let done := s.portList.all (fun q => (s.port q).st == .held || (s.cellsOfStr q).all (fun g => (s.est g).seeded))
  let l := s.portList.filter (fun q => (s.port q).st != .held)
  let u := (l.map s.strUse).sum
  { s with
    pack := { s.pack with
      rep := if done && !s.pwr.estSeeded && u ≠ 0 then (l.map (fun q => (s.str q).rep * s.strUse q)).sum / u
        else s.pack.rep }
    pwr := { s.pwr with estSeeded := done } }

/-- Seeds a port's estimates (R236), from which the reserve boundaries follow before reported SoC (R230, R231), writes a new roster and its passports (03 R82), and marks the estimates seeded once
every READY port's are (21 R524); the pack's reported SoC then starts as the strings' mean by usable capacity (assumption
log 20). -/
def State.seedPort (s : State) (p : Nat) : State :=
  let cls := (s.port p).cls.getD .known
  let all := cls == .adopted || cls == .new
  let old := (s.cellsOfStr p).filter (fun g => !(s.est g).seeded)
  let s := ((s.cellsOfStr p).foldl (fun s g => s.seedCell cls g) s).energies
  let s := (s.cellsOfStr p).foldl (fun s g => s.seedRep p all old g) s
  (((s.seedStr p all old).ageFaults p).seedRoster p).seedPack

end Sys2Proof.Machine
end

