-- ==== Sys2Proof/Machine/Limits.lean ====
section
/-! DEFINITION. Power limits (chapter 09): the voltage projection and the steps of a string limit (R248–R251), the pack
limit and its sharing (R252–R255), the emergency profile (R246, R253; 01 R26), and the violations (R259, R260). Limits are
indexed 0–3 charge and 4–7 discharge, each 2 s, 10 s, 30 s and continuous; currents in mA. -/

namespace Sys2Proof.Machine

open Sys2Proof

/-- A value and its binding cause. -/
abbrev Lim := Nat × Nat

/-- The minimum with a step's value; between equal values the lower code (R255). -/
def cut (l : Lim) (v code : Nat) : Lim := if v < l.1 then (v, code) else if v = l.1 then (v, min l.2 code) else l

/-! ## The voltage projection (R249–R251) -/

/-- SoC′ of R249: the true SoC moved by its uncertainty, three times it under R250. -/
def State.projSoc (s : State) (g : Nat) (chg : Bool) : Int :=
  let e := s.est g
  let d : Int := (if s.widened g then 3 else 1) * e.sigma
  max 0 (min 1000000 (e.true_ + (if chg then d else -d)))

/-- A resistance as it enters the projection (R250). -/
def State.projR (s : State) (g x : Nat) : Int := if s.widened g then 3 * x / 2 else x

/-- The branches of R249 at a current: R × I, v − R × I, and τ, µs. -/
def State.projRC (s : State) (g : Nat) (i : Int) : List (Int × Int × Nat) :=
  let e := s.est g
  let f := s.fitNow g
  [(f.r1, f.tau1, e.v1), (f.r2, f.tau2, e.v2)].map (fun x =>
    let y := s.projR g x.1 * i / 1000
    (y, x.2.2 - y, x.2.1))

/-- The OCV term of R249 at a current `i` after `t` ms, µV. -/
def State.projOcv (s : State) (g : Nat) (i : Int) (t : Nat) : Int :=
  ocvAt (s.chem (g / 512)) (s.projSoc g (decide (0 ≤ i)) + dSoc (i * t) (s.est g).cap) (s.cellTemp g).1

/-- v_c(t) of R249 at a current `i` after `t` ms, µV. -/
def State.projV (s : State) (g : Nat) (i : Int) (t : Nat) : Int :=
  let chg := decide (0 ≤ i)
  let H := hystAt (s.chem (g / 512)) (s.projSoc g chg) (s.cellTemp g).1
  s.projOcv g i t + (if chg then 10 * H else -10 * H) + s.projR g (s.fitNow g).r0 * i / 1000 +
    ((s.projRC g i).map (fun x => (x.1 + x.2.1 * (expNeg (ms t) (us x.2.2) : Int) / 2 ^ 32 : Int))).sum

/-- Σ B·e^(−t ÷ τ) of terms (B, τ in µs) after `t` ms. -/
def expSum (l : List (Int × Nat)) (t : Nat) : Int := (l.map (fun x => (x.1 * (expNeg (ms t) (us x.2) : Int) / 2 ^ 32 : Int))).sum

/-- Bisection for a change of sign of `f` between `lo` and `hi`. -/
def bisect (f : Nat → Int) : Nat → Nat → Nat → Nat
  | 0, lo, _ => lo
  | n + 1, lo, hi =>
    let m := (lo + hi) / 2
    if hi ≤ lo + 1 then lo
    else if decide (0 ≤ f lo) == decide (0 ≤ f m) then bisect f n m hi else bisect f n lo m

/-- Where `f` changes sign between neighbours of ascending instants. -/
def signChanges (f : Nat → Int) (cuts : List Nat) : List Nat :=
  (cuts.zip (cuts.drop 1)).filterMap (fun x =>
    if decide (0 ≤ f x.1) == decide (0 ≤ f x.2) then none else some (bisect f 24 x.1 x.2))

/-- The zeros of a sum of exponentials over 0 ≤ t ≤ h, by the longest τ first: between two of them its quotient by the first term has
a stationary point, and those are the zeros of a sum with one term fewer. -/
def expZeros (h : Nat) : Nat → List (Int × Nat) → List Nat
  | 0, _ => []
  | _ + 1, [] => []
  | n + 1, x :: l =>
    let inner := expZeros h n (l.map (fun y => ((y.1 * ((x.2 : Int) - y.2) / ((max y.2 1 : Nat) : Int) : Int), y.2)))
    signChanges (expSum (x :: l)) (0 :: inner ++ [h])

/-- The instants, ms, at which Σ v_c(t) of some cells can reach an extreme over a horizon of `h` ms: the ends, the table points their SoC
passes, the zeros of the second derivative, and between neighbours of these the zero of the first. -/
def State.projTimes (s : State) (cells : List Nat) (i : Int) (h : Nat) : List Nat :=
  let rc := (cells.flatMap (fun g => (s.projRC g i).map (fun x => (x.2.1, max x.2.2 1)))).insertionSort (fun x y => y.2 ≤ x.2)
  let knots := cells.flatMap (fun g => (List.range 101).filterMap (fun j =>
    let t := (10000 * j - s.projSoc g (decide (0 ≤ i))) * (36 * (s.est g).cap) / i
    if 0 < t && t < h then some t.toNat else none))
  let cuts := (0 :: h :: knots ++ expZeros h 4 (rc.map (fun x => ((x.1 * 2 ^ 80 / ((x.2 * x.2 : Nat) : Int) : Int), x.2)))).insertionSort (· ≤ ·)
  let d1 := rc.map (fun x => ((-(x.1 * 1000 * 2 ^ 32) / (x.2 : Int) : Int), x.2))
  cuts ++ (cuts.zip (cuts.drop 1)).flatMap (fun x =>
    let slope := (cells.map (fun g => s.projOcv g i x.2 - s.projOcv g i x.1)).sum * 2 ^ 32 / ((x.2 : Int) - x.1)
    if x.2 ≤ x.1 + 1 then [] else signChanges (fun t => slope + expSum d1 t) [x.1, x.2])

/-- A cell keeps its voltage limit over 0 ≤ t ≤ t_h; a cell under a pair-sum as its pair, against twice the limit. The extremes are found
to 1 ms (assumption log 21). -/
def State.holdsV (s : State) (g : Nat) (chg : Bool) (i h : Nat) : Bool :=
  let c := s.chem (g / 512)
  let cells := if s.paired g then [g, s.mate g] else [g]
  let n : Int := cells.length
  let cur : Int := if chg then i else -(i : Int)
  let ok (t : Nat) : Bool :=
    let v := (cells.map (fun k => s.projV k cur t)).sum
    if chg then decide (v ≤ n * 10 * c.vChg) else decide (n * 10 * c.vDis ≤ v)
  (s.projTimes cells cur h).all (fun t => ok t && ok (min h (t + 1)))

/-- The largest current in [lo, hi) for which every cell keeps its limit, by bisection. -/
def State.projSearch (s : State) (cells : List Nat) (chg : Bool) (h : Nat) : Nat → Nat → Nat → Nat
  | 0, lo, _ => lo
  | n + 1, lo, hi =>
    let m := (lo + hi) / 2
    if cells.all (fun g => s.holdsV g chg m h) then s.projSearch cells chg h n m hi else s.projSearch cells chg h n lo m

/-- I_v of a string: none where step 1 has no effect; otherwise the exact solution, less a free value of at most 3 % of
it (R249). Discharge currents enter with their sign. -/
def State.projection (s : State) (p idx : Nat) : Option Nat × State :=
  let cells := s.cellsOfStr p
  let chg := decide (idx < 4)
  let bound := (s.portCfg p).bounds.getD idx 0
  let h := horizon idx
  if cells.any s.lost then (some 0, s)
  else if cells.all (fun g => s.holdsV g chg bound h) then (none, s)
  else
    let x := s.projSearch cells chg h 32 0 bound
    let (d, s) := s.draw
    (some (x - d % (3 * x / 100 + 1)), s)

/-! ## String limits (R248) -/

/-- Step 2: the temperature table at the cells' temperatures, mA. -/
def State.limTemp (s : State) (p idx : Nat) : Nat :=
  let c := s.portCfg p
  minOf ((s.cellsOfStr p).map (fun g =>
    (tempLerp (c.tempTab.map (·.1)) (fun i => ((c.tempTab.getD i (0, [])).2.getD idx 0 : Nat)) (s.cellTemp g).1).toNat *
      c.nameplate / 100))

/-- Step 3: the SoC taper, as a fraction: numerator and denominator. -/
def State.taper (s : State) (p idx : Nat) : Nat × Nat :=
  let c := s.portCfg p
  let l := (s.cellsOfStr p).map (fun g => (s.est g).true_.toNat)
  if idx < 4 then (1000000 - l.foldl max 0, 1000000 - 100 * c.taperHi) else (minOf l, 100 * c.taperLo)

/-- A taper applied. -/
def taperCut (l : Lim) (nd : Nat × Nat) : Lim := if nd.2 ≤ nd.1 then l else cut l (l.1 * nd.1 / nd.2) 3

/-- Steps 1 to 4 of a limit of a string. -/
def State.limRaw (s : State) (p idx : Nat) : Lim × State :=
  let (v, s) := s.projection p idx
  let l : Lim := (0xFFFFFFFF, 0xFF)
  let l := match v with | some v => cut l v 1 | none => l
  let l := cut l (s.limTemp p idx) 2
  let l := taperCut l (s.taper p idx)
  (cut l ((s.portCfg p).bounds.getD idx 0) 4, s)

/-- Step 5: each horizon's limit is at most that of the next shorter one, whose cause it then takes. -/
def ordered (l : List Lim) : List Lim :=
  (List.range 8).map (fun i =>
    (List.range (i % 4)).foldl (fun m k => let x := l.getD (i / 4 * 4 + k) (0, 0); cut m x.1 x.2)
      (l.getD i (0, 0)))

/-- Step 6: zero or the smallest factor. -/
def faultCut (zero : Bool) (f : Nat) (l : Lim) : Lim :=
  if zero then cut l 0 5 else if f < 1000 then cut l (l.1 * f / 1000) 6 else l

/-- Step 7: a limit rises by at most 0.025 C above its previous published value; without one it is not bounded. -/
def riseCut (prev : Tab Nat Nat) (cap idx : Nat) (l : Lim) : Lim :=
  match Tab.find prev idx with
  | some v => if v + cap / 4 < l.1 then (v + cap / 4, 7) else l
  | none => l

/-- The limits of a string at a publication. -/
def State.limString (s : State) (p : Nat) : State :=
  let (raw, s) := (List.range 8).foldl (fun (l, s) i => let (x, s) := State.limRaw s p i; (l ++ [x], s)) (([] : List Lim), s)
  let zero := s.zeroBy p
  let f := s.factorOf p
  let x := s.str p
  let out := (List.range 8).map (fun i =>
    let l := faultCut (zero || (decide (i < 4) && s.stands 10 p)) f ((ordered raw).getD i (0, 0))
    riseCut x.lim (s.portCfg p).nameplate i l)
  s.onStr p (fun x => { x with
    lim := (List.range 8).map (fun i => (i, (out.getD i (0, 0)).1)), bind := (List.range 8).map (fun i => (i, (out.getD i (0, 0)).2)) })

/-! ## The pack (R252–R254) -/

/-- Conductance of a string at a horizon, 10⁹ ÷ mΩ-scaled resistance (R252). -/
def State.conductance (s : State) (p idx : Nat) : Nat :=
  let t := ms (horizon idx)
  let part (r tau : Nat) : Nat := r - r * expNeg t (us tau) / 2 ^ 32
  let r := ((s.cellsOfStr p).map (fun g => let f := s.fitNow g; f.r0 + part f.r1 f.tau1 + part f.r2 f.tau2)).sum
  10 ^ 15 / max r 1

/-- Conductance of all connected strings. -/
def State.condSum (s : State) (idx : Nat) : Nat := (s.connList.map (fun p => s.conductance p idx)).sum

/-- w × a pack current for a string. -/
def State.shareOf (s : State) (p idx v : Nat) : Nat :=
  let t := s.condSum idx
  if t = 0 then 0 else v * s.conductance p idx / t

/-- Configured pack bound of a limit: by default the sum of the string bounds. -/
def State.packBound (s : State) (idx : Nat) : Nat :=
  match s.gen.packBounds with
  | some l => l.getD idx 0
  | none => (s.portList.map (fun p => (s.portCfg p).bounds.getD idx 0)).sum

/-- I_em, mA (R253). -/
def State.iEm (s : State) : Nat := if s.vPack ≤ 0 then 0 else 1100000 * s.gen.pEm / s.vPack.toNat

/-- Pack capacity: the nameplate of the connected strings. -/
def State.packCap (s : State) : Nat := (s.connList.map (fun p => (s.portCfg p).nameplate)).sum

/-- Every string's share of a pack limit that a pack-level cause has lowered (R254). -/
def State.shareDown (s : State) (idx code : Nat) : State :=
  let v := s.pack.lim.getD idx 0
  s.connList.foldl (fun s p =>
    let l := cut ((s.str p).lim.getD idx 0, (s.str p).bind.getD idx 0) (s.shareOf p idx v) code
    s.onStr p (fun x => { x with lim := x.lim.set idx l.1, bind := x.bind.set idx l.2 })) s

/-- A pack-level cause lowers a pack limit, and with it the strings' (R253 steps 1 and 2, R254). -/
def State.packCut (s : State) (idx v code : Nat) : State :=
  let old := (s.pack.lim.getD idx 0, s.pack.bind.getD idx 0)
  let l := cut old v code
  let s := { s with pack := { s.pack with lim := s.pack.lim.set idx l.1, bind := s.pack.bind.set idx l.2 } }
  if l.1 < old.1 then s.shareDown idx code else s

/-- The reserve profile (R253): discharge limits at most I_em while reserve is in use without an emergency-supply
command. -/
def State.reserveCut (s : State) : State :=
  if !s.pack.reserve || s.emergency then s
  else [4, 5, 6, 7].foldl (fun s i => s.packCut i s.iEm 8) s

/-- The clamp of 01 R26: the emergency profile in both directions. It acts on the pack limits alone (R254); a limit already below
the profile stays (assumption log 102). -/
def State.r26Cut (s : State) : State :=
  if !s.pack.r26 then s
  else
    let one (s : State) (i v : Nat) : State :=
      let l := cut (s.pack.lim.getD i 0, s.pack.bind.getD i 0) v 9
      { s with pack := { s.pack with lim := s.pack.lim.set i l.1, bind := s.pack.bind.set i l.2 } }
    let s := [4, 5, 6, 7].foldl (fun s i => one s i s.iEm) s
    [0, 1, 2, 3].foldl (fun s i => one s i (s.gen.iEm * s.packCap / 100)) s

/-- The pack limits (R252, R253). -/
def State.limPack (s : State) : State :=
  let conn := s.connList
  let raw : List Lim := (List.range 8).map (fun i =>
    if conn.isEmpty then (0, 0x0B)
    else
      let q := minOf (conn.map (fun p => (s.str p).lim.getD i 0 * s.condSum i / max (s.conductance p i) 1))
      cut (q, 0x0A) (s.packBound i) 4)
  let out := (List.range 8).map (fun i => riseCut s.pack.lim s.packCap i ((ordered raw).getD i (0, 0)))
  let s := { s with pack := { s.pack with
    lim := (List.range 8).map (fun i => (i, (out.getD i (0, 0)).1)), bind := (List.range 8).map (fun i => (i, (out.getD i (0, 0)).2)) } }
  let s := conn.foldl (fun s p => s.onStr p (fun x => { x with share := s.shareOf p 1 10000 })) s
  let s := s.reserveCut
  let f := s.factorOf 16
  let zero := s.zeroBy 16
  let s := if zero then (List.range 8).foldl (fun s i => s.packCut i 0 5) s
    else if f < 1000 then (List.range 8).foldl (fun s i => s.packCut i (s.pack.lim.getD i 0 * f / 1000) 6) s else s
  s.r26Cut

/-! ## Violations (R259, R260) -/

/-- F52 of one scope: since when it was exceeded, when it last was not, and its current. -/
def State.f52One (s : State) (sc : Nat) (t : Option Nat) (ok : Nat) (i : Int) : State :=
  match t with
  | some t => if t + ms 450 ≤ s.now then s.stand 52 sc { value := i } else s
  | none => if ok + sec 10 ≤ s.now then s.cease 52 sc else s

/-- F52 after the evaluations of a publication (R260): it is raised when every evaluation over 500 ms was a violation, ten in a row of
the 50 ms instants (DESIGN CHOICE, assumption log 121), and ceases after 10 s without one. -/
def State.f52Settle (s : State) : State :=
  let s := s.portList.foldl (fun s p => s.f52One p (s.str p).f52T (s.str p).f52OkT ((s.str p).i.getD 0)) s
  s.f52One 16 s.pack.f52T s.pack.f52OkT (s.pack.i.getD 0)

/-- F54 at a publication (R259): "for 500 ms" is eleven evaluations of the 50 ms instants in a row (DESIGN CHOICE, assumption log 121). -/
def State.f54Check (s : State) : State :=
  let x := s.pack
  let v := s.safeSpeed
  let old := (x.speeds.find? (fun y => y.1 + sec 1 ≤ s.now)).map (·.2)
  let slow := match v, old with | some v, some w => decide (v + 100 ≤ w) | _, _ => false
  let lim := x.lim.getD 1 0
  let bad := slow && decide ((105 * lim + 100 * s.gen.oP : Int) < 100 * x.i.getD 0)
  let n := if bad then min (x.f54N + 1) 255 else 0
  let sp := (match v with | some v => (s.now, v) :: x.speeds | none => x.speeds).filter (fun y => s.now ≤ y.1 + ms 1050)
  let s := { s with pack := { s.pack with speeds := sp, f54N := n, f54OkT := if bad then s.now else x.f54OkT } }
  if 11 ≤ n then s.stand 54 16 { value := x.i.getD 0 }
  else if x.f54OkT + sec 10 ≤ s.now && !bad then s.cease 54 16 else s

end Sys2Proof.Machine
end

