-- ==== Sys2Proof/Machine/Est.lean ====
section
/-! DEFINITION. The commands of the estimator family: filter updates, publications, records, rest points (chapters 08
and 09). -/

namespace Sys2Proof.Machine

open Sys2Proof

/-- The reserve-in-use flag (08 R232): set, with F48, when the pack's reported SoC reaches 0 %, and cleared above 1 %;
its setting is published at once (09 R246). -/
def State.reserveStep (s : State) : State :=
  if !s.pwr.estSeeded || !s.actsPrimary then s
  else if s.pack.rep = 0 && !s.pack.reserve then
    let s := ({ s with pack := { s.pack with reserve := true } } : State).stand 48 16 { value := 0 }
    if s.emergency then s else s.f52Eval.reserveCut.publishExtra
  else if 10000 < s.pack.rep && s.pack.reserve then
    ({ s with pack := { s.pack with reserve := false } } : State).cease 48 16
  else s

/-- One filter update of a string over the time from its last one, 10 ms in Run, to `S` (08 R218, R231, R234, R237, R239): every cell's filter;
reported SoC, ageing counters and rest points on the module that acts as primary. -/
def State.updateStr (s : State) (p S : Nat) : State :=
  let x := s.str p
  let t := if x.kfT = 0 then S - ms 10 else x.kfT
  let dq := x.qNet - x.kfNet
  let dIn := x.qIn - x.kfIn
  let dOut := x.qOut - x.kfOut
  let u := s.offsetU p (S - t) + 3 * (dIn + dOut) / 1000 + (x.gapU + x.subU - x.kfU)
  let s := (s.cellsOfStr p).foldl (fun s g => s.kalmanCell g t S dq u) s
  let s := if s.actsPrimary then ((((s.repStr p t S dq).dodStep p).strCounters p dOut (S - t)).imbalance p).qualify p else s
  s.onStr p (fun x => { x with kfNet := x.qNet, kfIn := x.qIn, kfOut := x.qOut, kfU := x.gapU + x.subU, kfT := S })

/-- What a module of a pair mirrors every 10 ms (17 R417): coil supplies; the primary also counters, offsets and
pre-charge resistors. -/
def State.mirror10 (s : State) : State :=
  if !s.partnerUp then s
  else
    let s := s.sendMirror (.coilSupply s.pwr.vcoilA s.pwr.vcoilB)
    let s := s.sendMirror (.coilCurrent ((List.range 12).map (fun ch => if (s.outc ch).on then (s.outc ch).cur else 0)))
    if s.pair.role != .primary then s
    else
      let s := s.sendMirror (.offset 16 s.pack.off)
      s.portList.foldl (fun s p =>
        let x := s.str p
        let s := s.sendMirror (.counters p x.qNet x.qIn x.qOut)
        let s := s.sendMirror (.offset p x.off)
        if (s.portCfg p).pre.isSome then s.sendMirror (.resistor p (s.ethNow p) (s.pre p).attempts) else s) s

/-- A filter update of every seeded cell, with reported SoC, the reserve and the mirror (08 R218, R231–R233); the energies follow a
connection or disconnection of a string (R228). -/
def State.kalmanStep (s : State) (S : Nat) : State :=
  let s := s.at S
  let l := s.portList.filter (fun p => (s.str p).kfT < S && (s.cellsOfStr p).any (fun g => (s.est g).seeded))
  let q := ((s.connList.filter l.contains).map (fun p => (s.str p).qNet - (s.str p).kfNet)).sum
  let s := l.foldl (fun s p => s.updateStr p S) s
  let s := { s with pack := { s.pack with lastEstT := s.now, r26 := false } }
  let s := if s.actsPrimary then s.repPack S q else s
  let s := if s.pack.energyDue then s.energies else s
  s.reserveStep.mirror10.seqKick

/-- KALMAN_UPDATE (08 R218): the 100 Hz update at grid instant `S`, a multiple of 10 ms. A new result ends the clamp of 01 R26. -/
def execKalmanUpdate (S : Nat) (s : State) : Out :=
  .next (
    if s.pwr.st != .run || S % ms 10 ≠ 0 then s
    else s.kalmanStep S)

/-- ESTIMATOR_RESULT_TIMEOUT (01 R26): no new estimator result for 500 ms; limits are reduced to the emergency profile
and published at once. -/
def execEstimatorResultTimeout (s : State) : Out :=
  .next (
    if s.pack.r26 || s.pwr.st != .run || !s.pwr.firstLimits || !s.actsPrimary then s
    else
      let s := s.at (s.pack.lastEstT + ms 500)
      (({ s.f52Eval with pack := { s.f52Eval.pack with r26 := true } } : State).r26Cut).publishExtra)

/-- The limits of instant `S`: the passive supervision of resistances, every string's limits, the pack's, and their
publication (09 R245–R264; 09 R260). -/
def State.limitsNow (s : State) (S : Nat) : State :=
  let s := if s.pwr.firstLimits then s.f52Eval.f52Settle.f54Check else s
  let s := { s with pwr := { s.pwr with firstLimits := true }, pack := { s.pack with limT := S } }
  let s := s.portList.foldl (fun s p => s.limString p) s
  (s.limPack.publish S false).seqKick

/-- Limits may be published: after the first filter update of every READY port since the start or wake (09 R247). While no port is READY
the model waits for the first one (DEDUCED, assumption log 121). -/
def State.limitsMay (s : State) : Bool :=
  let l := s.portList.filter (fun p => (s.port p).st == .ready)
  s.pwr.firstLimits || (!l.isEmpty && l.all (fun p => decide (s.pwr.startT < (s.str p).kfT)))

/-- LIMITS_PUBLICATION (09 R245, R247, R263): at a multiple of 50 ms after the last one, in Run, on the module that acts as primary,
from the first instant after a filter update of the ports that are READY. -/
def execLimitsPublication (S : Nat) (s : State) : Out :=
  .next (
    if S % ms 50 ≠ 0 || S ≤ s.pack.limT || s.pwr.st != .run || !s.actsPrimary || !s.limitsMay then s
    else (s.at S).limitsNow S)

/-! ## The 100 ms records (08 R241–R243) -/

/-- One 64-byte cell entry of the cell record (08 R242). -/
def State.cellEntry (s : State) (p pos S : Nat) : List Byte :=
  let g := gi p pos
  if !occupied (s.portCfg p) pos then padTo 64 (le 2 pos)
  else
    let e := s.est g
    let c := s.cell g
    let (T, sub) := s.cellTemp g
    let d := (s.useCap p).1
    let en := s.cellEnergy g (e.true_ - d / (max e.cap 1 : Nat)) e.true_ T
    let flags := bitsOf [true, c.suspect || c.word.getLsbD 20 || s.paired g, e.measT + ms 100 ≤ S, e.outRange, sub, e.f49, e.restNew,
      e.seeded && !e.learned]
    let rms := Nat.sqrt (e.resid2 (S - sec 1)).1 / 10
    let slot := s.slotOf g
    le 2 pos ++ le 1 flags ++ le 1 e.anchor ++ le 2 (e.true_.toNat / 100) ++ le 2 (min (e.sigma / 100) 65535) ++
      le 2 (e.rep / 100) ++ leI 2 T ++ le 4 c.v ++ leI 4 (ocvAt (s.chem p) e.true_ T / 10) ++ le 2 (min rms 65535) ++
      leI 2 e.h ++ le 4 e.cap ++ le 2 (min e.capSigma 65535) ++ growthField e.growth ++ le 4 (s.fitOf g slot).r0 ++
      leI 4 en ++ le 4 e.cycles ++ le 8 e.restT ++ le 2 e.restSoc ++ le 1 slot ++ le 1 e.learnSt ++
      leI 4 ((e.qNet - e.restQ) / 3600000) ++ zeros 4

/-- Count of 100 ms intervals of the grid since the power-on reset, at `S` (08 R242). -/
def State.interval (s : State) (S : Nat) : Nat := S / ms 100 - s.time.bootT / ms 100

/-- The cell record of a port (08 R242); flag [0] on the module that holds mirrored state. -/
def State.cellRecord (s : State) (p S : Nat) : List Byte :=
  let n := 16 * (s.portCfg p).m
  le 1 1 ++ le 1 p ++ le 2 n ++ le 4 (s.interval S) ++ le 8 S ++ le 1 (!s.actsPrimary).toNat ++ zeros 15 ++
    ((List.range n).map (fun pos => s.cellEntry p pos S)).flatten

/-- Energy share of the reserve of a string, Wh (08 R230). -/
def State.resShare (s : State) (p : Nat) : Nat :=
  let caps := (s.connList.map s.strCap).sum
  if (s.str p).conn && caps ≠ 0 then s.gen.eRes * s.strCap p / caps else 0

/-- Cell of a string with the least, or the greatest, of a measure. -/
def State.cellBy (s : State) (p : Nat) (f : Nat → Int) : Option Nat :=
  match s.cellsOfStr p with
  | [] => none
  | x :: r => some (r.foldl (fun m g => if f g < f m then g else m) x)

/-- One 96-byte string entry (08 R243). -/
def State.strEntry (s : State) (p : Nat) : List Byte :=
  let x := s.str p
  let cells := s.cellsOfStr p
  let flags := bitsOf [x.conn, s.pack.reserve, s.emergency, x.subst, x.gapFlag, cells.any (fun g => (s.est g).f49), x.learnNew]
  let weak := s.cellBy p (fun g => (s.est g).true_ * (s.est g).cap)
  let lo := s.cellBy p (fun g => (s.est g).true_)
  let hi := s.cellBy p (fun g => -(s.est g).true_)
  let pos (o : Option Nat) : Nat := match o with | some g => g % 512 | none => 0xFFFF
  let sg := match weak with | some g => (s.est g).sigma | none => 0
  let share := s.resShare p
  let left := if share = 0 then 10000 else min 10000 (10000 * x.energyRes / share)
  le 1 p ++ le 1 flags ++ le 2 (s.strSoc p / 100) ++ le 2 (min (sg / 100) 65535) ++ le 2 (x.rep / 100) ++ le 2 x.socRes ++
    le 2 left ++ le 4 (s.strCap p) ++ le 4 (s.strUse p) ++ le 4 x.energy ++ le 4 (x.energyRes - share) ++
    growthField (s.strGrowth p) ++ le 2 (s.weakest p) ++ le 4 x.cycles ++ le 4 x.hours ++ leI 8 x.qNet ++
    ((List.range 10).map (fun i => le 4 (x.dod.getD i 0))).flatten ++ le 2 (pos lo) ++ le 2 (pos hi) ++ zeros 4

/-- The pack's entry (08 R229, R243): sums over the connected strings, the greatest σ, and means over the strings. -/
def State.packEntry (s : State) : List Byte :=
  let l := s.connList
  let sum (f : Nat → Nat) : Nat := (l.map f).sum
  let flags := bitsOf [!l.isEmpty, s.pack.reserve, s.emergency, s.pack.subst, l.any (fun p => (s.str p).gapFlag),
    l.any (fun p => s.stands 49 p), l.any (fun p => (s.str p).learnNew)]
  let sg := (l.map (fun p => match s.cellBy p (fun g => (s.est g).true_ * (s.est g).cap) with
    | some g => (s.est g).sigma | none => 0)).foldl max 0
  let n := max l.length 1
  le 1 255 ++ le 1 flags ++ le 2 (s.packSoc / 100) ++ le 2 (min (sg / 100) 65535) ++ le 2 (s.pack.rep / 100) ++ le 2 0xFFFF ++
    le 2 s.pack.resLeft ++ le 4 (sum s.strCap) ++ le 4 (sum s.strUse) ++ le 4 (sum (fun p => (s.str p).energy)) ++
    le 4 (sum (fun p => (s.str p).energyRes) - s.gen.eRes) ++ growthField ((l.map s.strGrowth).sum / (n : Int)) ++ le 2 0xFFFF ++
    le 4 (sum (fun p => (s.str p).cycles) / n) ++ le 4 (sum (fun p => (s.str p).hours) / n) ++
    leI 8 (l.map (fun p => (s.str p).qNet)).sum ++
    ((List.range 10).map (fun i => le 4 (sum (fun p => (s.str p).dod.getD i 0)))).flatten ++ le 2 0xFFFF ++ le 2 0xFFFF ++
    zeros 4

/-- The string and pack record (08 R243). -/
def State.packRecord (s : State) (S : Nat) : List Byte :=
  le 1 2 ++ le 1 (s.portList.length + 1) ++ zeros 6 ++ le 8 S ++ (s.portList.map s.strEntry).flatten ++ s.packEntry

/-- The cell records and the string and pack records of instant `S` (08 R241–R243). -/
def State.estRecords (s : State) (S : Nat) : State :=
  let s := s.at S
  let s := { s with pack := { s.pack with tick100 := s.interval S } }
  let s := s.portList.foldl (fun s p => s.record fnEst (s.cellRecord p S)) s
  let s := s.record fnEst (s.packRecord S)
  let s := s.portList.foldl (fun s p => (s.cellsOfStr p).foldl (fun s g =>
    let e := s.est g
    let s := if s.partnerUp && s.pair.role == .primary then
        s.sendMirror (.cell g e.soc e.sigma e.rep e.h e.v1 e.v2 (s.cellEntry p (g % 512) S)) else s
    s.onEst g (fun e => { e with restNew := false })) s) s
  let s := if s.partnerUp && s.pair.role == .primary then
      (s.portList.foldl (fun s p =>
        s.sendMirror (.strEst p (s.str p).rep (s.str p).turn (s.str p).extreme (s.strEntry p))) s).sendMirror
        (.strEst 255 s.pack.rep 0 0 s.packEntry) else s
  s.portList.foldl (fun s p => s.onStr p (fun x => { x with learnNew := false, gapFlag := false })) s

/-- ESTIMATOR_RECORD (08 R239, R241): at a grid instant that is a multiple of 100 ms, once, the cell records, then the string and pack
record; the primary mirrors every cell's state. -/
def execEstimatorRecord (S : Nat) (s : State) : Out :=
  .next (
    if s.pwr.st != .run || S % ms 100 ≠ 0 || s.interval S ≤ s.pack.tick100 then s
    else s.estRecords S)

/-! ## Rest points and F49 (08 R221, R222, R238) -/

/-- TRUE_REST_POINT (08 R221): the string current has stayed below 0.02 C for the relaxation time; a further point falls
due every 4 h while that lasts. -/
def execTrueRestPoint (p : Nat) (s : State) : Out :=
  .next (
    match (s.str p).lowT with
    | none => s
    | some t =>
      let first := t + mins s.gen.relax
      let due := if t ≤ (s.str p).restNextT then max first ((s.str p).restNextT + sec 14400) else first
      if s.pwr.st != .run || !s.actsPrimary then s
      else
        let s := s.at due
        let s := s.onStr p (fun x => { x with trueRest := true, restNextT := s.now })
        ((s.cellsOfStr p).filter (fun g => (s.est g).seeded && s.hasV g)).foldl (fun s g => s.trueRest g) s)

/-- WISP_POINT_EVALUATION (08 R222): at the end of each 60 s interval of the module time base, for a string that is not at
true rest. -/
def execWispPointEvaluation (p : Nat) (s : State) : Out :=
  .next (
    if s.pwr.st != .run || !s.actsPrimary then s
    else
      let s := s.at ((s.now + sec 60 - 1) / sec 60 * sec 60)
      if (s.str p).trueRest then s
      else (s.cellsOfStr p).foldl (fun s g => s.wisp g) s)

/-- DIVERGENCE_CEASE (08 R238): 60 s after the rest point that replaced the filter's state, provided the residual
condition no longer holds; F49 ceases for the string with its last cell. -/
def execDivergenceCease (g : Nat) (s : State) : Out :=
  .next (
    match (s.est g).f49, (s.est g).f49T with
    | true, some t =>
      let s := s.at (t + sec 60)
      if s.diverges g || 100000 < (s.est g).sigma then s
      else
        let s := s.onEst g (fun e => { e with f49 := false, f49T := none })
        let s := s.estPoint g 6 (s.est g).soc (s.est g).sigma
        if (s.cellsOfStr (g / 512)).any (fun k => (s.est k).f49) then s else s.cease 49 (g / 512)
    | _, _ => s)

/-- ENERGY_RECOMPUTE (08 R228, R230): every 10 s the energies, on either module of a pair. -/
def execEnergyRecompute (s : State) : Out :=
  .next (if s.pwr.st == .run then s.energies else s)

end Sys2Proof.Machine
end

