-- ==== Sys2Proof/Machine/SweepBase.lean ====
section
/-! DEFINITION. What a port's sweep plan runs (05 R143, R152–R154), the impedance windows (07 R185–R200) and the end of a
Sedge session (07 R203, R204). -/

namespace Sys2Proof.Machine

open Sys2Proof

/-! ## The plan (05 R143, R146, R150, R154) -/

/-- Corner of a mode on a port. -/
def State.cornerOf (s : State) (p mode : Nat) : Nat := (s.portCfg p).plan.corners.getD mode 0

/-- M1 replaces M0 while temperature supervision demands 50 Hz (05 R146). -/
def State.hotMode (s : State) (p mode : Nat) : Nat := if mode = 0 && 50 ≤ (s.port p).rateHi then 1 else mode

/-- The mode the plan calls for (05 R154; 21 R522): M0 for the first four sweeps after READY, M3 in a Sedge session or a burst, M0 in quiet mode, otherwise the base mode. -/
def State.planMode (s : State) (p : Nat) : Nat :=
  let q := s.port p
  if 0 < q.firstM0 then 0 else if q.sedge || q.burst then 3 else s.hotMode p (if q.quiet then 0 else (s.portCfg p).plan.base)

/-- How long before T the EOF of a REED frame leaves at the latest (R148): t_settle and 10 µs in M0 and M1, 10 µs in M2 and M3,
200 µs in an open-wire group. The model sends it then (assumption log 88). -/
def State.reedLead (s : State) (p mode : Nat) (ow : Bool) : Nat :=
  if ow then us 200 else if mode ≤ 1 then us (10 * (s.portCfg p).plan.settle + 10) else us 10

/-- The next multiple of a period. -/
def ceilTo (period t : Nat) : Nat := (t + period - 1) / period * period

/-- The first grid instant of a mode whose REED window has not passed (R153). -/
def State.firstS (s : State) (p mode : Nat) : Nat := ceilTo (period mode) (s.now + (s.port p).dW + s.reedLead p mode false)

/-- The plan's mode is requested; it takes effect at the row MODE_CHANGE (05 R153). -/
def State.planKick (s : State) (p : Nat) : State :=
  let m := s.planMode p
  s.onPort p (fun q => { q with modeReq := m })

/-- A plan event that falls due while the service cores are in reset waits for them (21 R520). -/
def State.deferPlan (s : State) (p k : Nat) : State :=
  s.onPort p (fun q => if q.defer.contains k then q else { q with defer := q.defer ++ [k] })

/-- A plan event of the primary is told to the standby (17 R417). -/
def State.planTell (s : State) (e : PairEvt) : State :=
  if s.partnerUp && s.pair.role == .primary then s.sendEvt e else s

/-! ## The estimator array (01 R19, R40) -/

/-- Demand of the sliding DFTs, thousand MAC per second: 6 bins of 2 MAC per cell, and per string current, and sweep. -/
def State.dftDemand (s : State) : Nat :=
  ((s.portList.filter (fun p => (s.port p).st == .ready)).map (fun p =>
    ((s.cellsOfStr p).length + 1) * sweepRate (s.port p).mode * 12 / 1000)).sum

/-- Demand of the filters of every cell and of the limits. The spec gives the limit projection less than 0.01 GMAC/s; the model
counts 10,000 thousand MAC per second whatever ports are in service (DESIGN CHOICE, assumption log 91). -/
def State.filtDemand (s : State) : Nat :=
  ((s.portList.filter (fun p => (s.port p).st == .ready)).map (fun p => (s.cellsOfStr p).length * 100 * 305 / 1000)).sum + 10000

/-- Demand of the estimator array of the sweep modes in force (01 R40 and its example). -/
def State.estDemand (s : State) : Nat := s.dftDemand + s.filtDemand

/-- How many of `n` cells of a sweep the array can update before the next sweep's samples arrive (01 R19): filters and limits are
never skipped, and what is left of its rate serves every port's cells in the same proportion (assumption log 91). -/
def State.dftServed (s : State) (n : Nat) : Nat :=
  let c := 2000 * s.therm.estClk * s.repair.lanes - s.filtDemand
  if s.dftDemand ≤ c then n else n * c / s.dftDemand

/-! ## Bands and windows (07 R185–R190) -/

/-- Edges of a band, mHz. -/
def bandLo (b : Nat) : Nat := [500, 2000, 8000, 32000, 128000, 512000].getD b 512000
def bandHi (b : Nat) : Nat := [2000, 8000, 32000, 128000, 512000, 1000000].getD b 1000000

/-- P_b. -/
def bandP (b : Nat) : Nat := if b < 3 then 4 else 16

/-- f_max of a mode at a corner, mHz. -/
def fMax (mode corner : Nat) : Nat := min (400 * sweepRate mode) (4000 * cornerHz corner)

/-- Span of a segment on a line, ns. -/
def segSpan (b f : Nat) : Nat := if f = 0 then 0 else bandP b * 1000000000000 / f

/-- The record a search covers: 8 × P_b periods of the band's lower edge. -/
def searchSpan (b : Nat) : Nat := 8 * segSpan b (bandLo b)

/-- Samples of a string's current within a search's record. -/
def State.searchRec (s : State) (p b : Nat) : List (Nat × Int) :=
  match (s.str p).iRec.head? with
  | some y => (s.str p).iRec.filter (fun x => decide (y.1 ≤ x.1 + searchSpan b))
  | none => []

/-- The strongest line a search finds (R187). -/
def State.search (s : State) (p b : Nat) : Nat :=
  let q := s.port p
  lineSearch (bandLo b) (min (bandHi b) (fMax q.mode q.corner)) (s.searchRec p b)

/-- A window of a band opens at `t` (R185, R193): its sums start afresh. -/
def State.openWindow (s : State) (p b t : Nat) : State :=
  let s := s.onStr p (fun x => { x with
    segOpen := x.segOpen.set b t, segs := x.segs.set b 0, segOk := x.segOk.set b 0, iSq := x.iSq.set b 0
    segI := x.segI.set b (0, 0), segBad := x.segBad.set b false
    winT := x.winT.filter (fun y => y.1 ≠ b), modeSpan := x.modeSpan.set b false, splitSpan := x.splitSpan.set b false })
  (s.cellsOfStr p).foldl (fun s g =>
    let T := (s.cellTemp g).1
    s.onEst g (fun e => { e with acc6 := e.acc6.set b { soc0 := e.true_, temp0 := T } })) s

/-- The search at start-up opens a band's first window, with the next sample, once the record is long enough and a mode is in force
that serves the band (R186, R187). -/
def State.firstWindow (s : State) (p b : Nat) : State :=
  let x := s.str p
  if (Tab.find x.segOpen b).isSome then s
  else match x.iRec.head?, x.iRec.getLast?, x.nextS with
  | some y, some z, some n =>
    if y.1 < z.1 + searchSpan b then s
    else
      let f := s.search p b
      if f = 0 then s else (s.onStr p (fun x => { x with line := x.line.set b f })).openWindow p b n
  | _, _, _ => s

/-- A cell's sample is excluded from its segments (R190). `sedge` disregards the balancing-active flag (R206). -/
def State.impExcluded (s : State) (g : Nat) (settling ow sedge : Bool) : Bool :=
  let c := s.cell g
  c.stale || settling || ow || c.v = 0 || 550000 ≤ c.v || (!sedge && c.word.getLsbD 23)

/-- The open segment of a band closes (R189, R190): it enters the sums of each cell for which it is valid, and the next one opens
where it closed. A sample that was due within it and did not come makes it invalid for all, and so does a saturated pack sample where
the string's current is derived from it (R209). The slot of the window is taken at its
fourth close (R194). -/
def State.segClose (s : State) (p b : Nat) : State :=
  let x := s.str p
  match Tab.find x.segOpen b with
  | none => s
  | some t =>
    let n := segSpan b (x.line.getD b 0)
    let gap := match x.nextS with | some d => decide (d < t + n) | none => true
    let sat := ((s.portCfg p).strNode.isNone || x.subst) && decide (t ≤ s.pack.satLastT) && decide (s.pack.satLastT < t + n)
    let bad := x.segBad.getD b false || gap || sat
    let i := cDiv (x.segI.getD b (0, 0)) n
    let k := x.segs.getD b 0 + 1
    let s := (s.cellsOfStr p).foldl (fun s g =>
      let a := (s.est g).acc6.getD b {}
      let v := cDiv a.v n
      let ok := !bad && !a.bad
      let a := if ok then { a with vi := cAdd a.vi (cMulConj v i), vv := a.vv + cAbs2 v, iSq := a.iSq + cAbs2 i, n := a.n + 1 }
        else a
      let a := { a with v := (0, 0), bad := false, slot := if k = 4 then s.slotOf g else a.slot }
      s.onEst g (fun e => { e with acc6 := e.acc6.set b a })) s
    s.onStr p (fun x => { x with
      segOpen := x.segOpen.set b (t + n), segs := x.segs.set b k, segOk := x.segOk.set b (x.segOk.getD b 0 + (!bad).toNat)
      iSq := x.iSq.set b (x.iSq.getD b 0 + (if bad then 0 else cAbs2 i)), segI := x.segI.set b (0, 0)
      segBad := x.segBad.set b false })

/-- A sample at `S` enters the open segment of a band, when its instant lies in it (R185, R186, R189, R190). A sweep that is flagged
settling, or is part of an open-wire group, discards the segment for every cell; the first sample of another mode marks the window
as spanning the change (R211). -/
def State.segSample (s : State) (p S b : Nat) (i : Option Int) (settling ow : Bool) : State :=
  let x := s.str p
  let q := s.port p
  let f := x.line.getD b 0
  match Tab.find x.segOpen b with
  | none => s
  | some t =>
    if f = 0 || S < t || t + segSpan b f ≤ S || 8 ≤ x.segs.getD b 0 then s
    else
      let dt := period q.swMode
      let gap := match x.nextS with | some d => decide (max d t < S) && decide (t ≤ S) | none => false
      let bad := i.isNone || gap || settling || ow || fMax q.swMode q.corner < f
      let z := dftTerm f S dt (i.getD 0)
      let s := s.onStr p (fun x => { x with
        segI := if bad then x.segI else x.segI.set b (cAdd (x.segI.getD b (0, 0)) z)
        segBad := if bad then x.segBad.set b true else x.segBad
        winT := if (Tab.find x.winT b).isSome then x.winT else x.winT.set b S
        modeSpan := match Tab.find x.winT b with
          | some w => if w < q.modeS && q.modeS ≤ S then x.modeSpan.set b true else x.modeSpan
          | none => x.modeSpan
        lastS := x.lastS.set b S, splitSpan := if q.split then x.splitSpan.set b true else x.splitSpan })
      let l := s.cellsOfStr p
      (l.zip (List.range l.length)).foldl (fun s g =>
        let a := (s.est g.1).acc6.getD b {}
        let a := if s.impExcluded g.1 settling ow false || s.dftServed l.length ≤ g.2 then { a with bad := true }
          else { a with v := cAdd a.v (dftTerm f S dt (s.cell g.1).v) }
        s.onEst g.1 (fun e => { e with acc6 := e.acc6.set b a })) s

/-! ## Results (07 R196, R200, R210) -/

/-- An impedance result record: written by the module that applies results, and sent to a standby, which writes it
unchanged (R200). -/
def State.impRecord (s : State) (p : Nat) (body : List Byte) : State :=
  if !s.actsPrimary then s
  else
    let s := s.record (fnImp p) body
    if s.partnerUp then s.sendMirror (.result (fnImp p) body) else s

/-- A new table value is stored (R196): entry, measured bit, age, counts; the module that acts as primary mirrors it. -/
def State.tableSet (s : State) (g slot b : Nat) (z : Int × Int) : State :=
  let i := 6 * slot + b
  let s := s.onEst g (fun e => { e with
    entries := e.entries.set i z, meas := e.meas.set i true, ages := e.ages.set slot 0
    updates := min (e.updates + 1) 0xFFFFFFFF, unwrT := some (e.unwrT.getD s.now)
    unwritten := min (e.unwritten + 1) 255, fitDue := if e.fitDue.contains slot then e.fitDue else e.fitDue ++ [slot] })
  if s.partnerUp && s.actsPrimary then s.sendMirror (.impedance g slot b z) else s

/-- An exact value `n ÷ d` rounded to a unit by probability (R196): up with the discarded fraction's probability, when the draw `u` of a
number below `d` falls below the remainder. Which number is drawn is left open. -/
def roundDraw (n d : Int) (u : Nat) : Int :=
  if d ≤ 0 then n else if (u % d.toNat : Nat) < n % d then n / d + 1 else n / d

/-- A part of an impedance in the entry format, saturated. -/
def satZ (v : Int) : Int := max (-32767) (min 32767 v)

/-- E ← E + (Z − E) × 1/w, Z being `z ÷ d` (R196, R206). -/
def State.tableUpdate (s : State) (g slot b w : Nat) (z : Int × Int) (d : Int) : State :=
  let e := s.entryOf g (6 * slot + b)
  let (a, s) := s.draw
  let (c, s) := s.draw
  let f (e z : Int) (u : Nat) : Int := satZ (roundDraw ((w - 1 : Nat) * e * d + z) (w * d) u)
  s.tableSet g slot b (f e.1 z.1 a, f e.2 z.2 c)

/-- Status of a cell's window (07 R191–R193, R210), in the order of R193. -/
def State.winStatus (s : State) (p b pos : Nat) : Nat :=
  let g := gi p pos
  let a := (s.est g).acc6.getD b {}
  let c := s.portCfg p
  let z1 : Int := 1000 * a.vi.1
  let z2 : Int := 1000 * a.vi.2
  let big (z : Int) : Bool := decide (32767 * (a.iSq : Int) < z.natAbs)
  if !occupied c pos then 6
  else if a.n < 6 || a.lost then 3
  else if a.iSq * 10000 < (s.gen.exMin * c.nameplate) ^ 2 * a.n then 1
  else if cAbs2 a.vi * 10000 < s.gen.cohMin * (a.vv * a.iSq) then 2
  else if big z1 || big z2 then 5
  else if 50000 < ((s.est g).true_ - a.soc0).natAbs || 300 < ((s.cellTemp g).1 - a.temp0).natAbs then 4
  else 0

/-- One entry of the window record (07 R211). Of a cell with too few valid segments or an unoccupied position the spec states no Z and no
γ², nor the slot of the latter: the model writes 0 (DESIGN CHOICE, assumption log 119). -/
def State.winEntry (s : State) (p b pos : Nat) : List Byte :=
  let a := (s.est (gi p pos)).acc6.getD b {}
  let st := s.winStatus p b pos
  let none_ := st = 6 || st = 3
  let d : Int := (max a.iSq 1 : Nat)
  let coh := if a.vv * a.iSq = 0 then 0 else cAbs2 a.vi * 10000 / (a.vv * a.iSq)
  (if none_ then zeros 4 else leI 2 (satZ (1000 * a.vi.1 / d)) ++ leI 2 (satZ (1000 * a.vi.2 / d))) ++
    le 2 (if none_ then 0 else min coh 10000) ++ le 1 st ++ le 1 (if st = 6 then 0 else a.slot)

/-- The window record of a band (07 R211). The line current of a window without a valid segment is stated nowhere: the model writes 0
(DESIGN CHOICE, assumption log 119). -/
def State.winRecord (s : State) (p b : Nat) : List Byte :=
  let x := s.str p
  let c := s.portCfg p
  let k := x.segOk.getD b 0
  let iLine := if k = 0 then 0 else Nat.sqrt (x.iSq.getD b 0 / k)
  let flags := bitsOf [c.strNode.isNone || x.subst, x.splitSpan.getD b false, x.modeSpan.getD b false]
  le 1 1 ++ le 1 p ++ le 1 b ++ le 1 flags ++ le 4 (x.line.getD b 0) ++ le 8 (x.winT.getD b 0) ++ le 8 (x.lastS.getD b 0) ++
    le 1 k ++ zeros 1 ++ le 2 (16 * c.m) ++ le 4 iLine ++ ((List.range (16 * c.m)).map (fun pos => s.winEntry p b pos)).flatten

/-- The search at a window's end and the move of the line (07 R187, R188): two searches in a row find the same line when their
frequencies, each within 0.1 %, differ by at most 0.2 %. Where the mode in force serves no frequency of the band nothing is found,
and the line stays. -/
def State.lineStep (s : State) (p b : Nat) : State :=
  let x := s.str p
  let old := x.line.getD b 0
  let new := s.search p b
  let r := s.searchRec p b
  let pn := lineRms new r
  let po := lineRms old r
  let louder := decide (199526 * po ^ 2 ≤ 100000 * pn ^ 2) && new != old
  let weak := decide (po * 100 < s.gen.exMin * (s.portCfg p).nameplate)
  let cand := x.lineCand.getD b 0
  let same := decide (500 * ((new : Int) - cand).natAbs ≤ cand)
  let move := weak || (louder && cand ≠ 0 && same)
  if new = 0 then s.onStr p (fun x => { x with lineCand := x.lineCand.set b 0 })
  else s.onStr p (fun x => { x with
    line := if move then x.line.set b new else x.line, lineCand := x.lineCand.set b (if louder && !move then new else 0) })

/-- A band window of eight segments is evaluated, its accepted results applied, its record written, and the next window
opened (07 R193–R198). -/
def State.winClose (s : State) (p band t : Nat) : State :=
  let s := s.at t
  let rec_ := s.winRecord p band
  let s := if !s.actsPrimary then s
    else (occPos (s.portCfg p)).foldl (fun s pos =>
      let g := gi p pos
      let a := (s.est g).acc6.getD band {}
      if s.winStatus p band pos = 0 then
        s.tableUpdate g a.slot band 16 (1000 * a.vi.1, 1000 * a.vi.2) a.iSq
      else s) s
  ((s.impRecord p rec_).lineStep p band).openWindow p band t

/-- Segments of a band that ended at or before `S` close before its sample is taken, and a window of eight is evaluated, so that the
sample enters the next one (R185). -/
def State.segCatch (s : State) (p S b : Nat) : Nat → State
  | 0 => s
  | n + 1 =>
    let x := s.str p
    match Tab.find x.segOpen b with
    | some t =>
      if 8 ≤ x.segs.getD b 0 then (s.winClose p b t).segCatch p S b n
      else if t + segSpan b (x.line.getD b 0) ≤ S then (s.segClose p b).segCatch p S b n
      else s
    | none => s

/-- One sample of a string at `S` reaches the impedance engine (R185–R190): `i` the current it analyses, none when missing or
saturated. What the estimator array cannot update is skipped and counted (01 R19). -/
def State.impSample (s : State) (p S : Nat) (i : Option Int) (settling ow : Bool) : State :=
  let n := (s.cellsOfStr p).length
  let s := s.gen.bands.foldl (fun s b => (s.segCatch p S b 17).segSample p S b i settling ow) s
  let s := if s.dftServed n < n then { s with therm := { s.therm with dftSkips := s.therm.dftSkips + 1 } } else s
  let s := s.onStr p (fun x => { x with nextS := some ((S / period (s.modeOn p S) + 1) * period (s.modeOn p S)) })
  s.gen.bands.foldl (fun s b => s.firstWindow p b) s

/-! ## Sedge (07 R203, R204, R212) -/

/-- The Sedge record of a session (R212). One that ends before its start sweep has no instants, and gives 0 (DESIGN CHOICE, assumption
log 119). -/
def State.sedgeRecord (s : State) (p : Nat) (es : List (List Byte)) : List Byte :=
  let q := s.port p
  le 1 2 ++ le 1 p ++ le 2 s.gen.sedgeP ++ le 1 es.length ++ zeros 3 ++ le 8 (q.sedgeS.getD 0) ++ le 8 q.sedgeLast ++ es.flatten

/-- One entry of the Sedge record. -/
def sedgeEntry (pos status slot valid mask : Nat) (zs : List (Int × Int)) : List Byte :=
  le 2 pos ++ le 1 status ++ le 1 slot ++ le 2 valid ++ le 1 mask ++ zeros 1 ++
    ((List.range 5).map (fun b => let z := zs.getD b (0, 0); leI 2 (satZ z.1) ++ leI 2 (satZ z.2))).flatten

/-- Position of an excited channel. -/
def State.sedgePos (s : State) (p : Nat) (x : Nat × Nat) : Nat :=
  match monOrder (s.portCfg p) x.1 with | some o => 16 * o + x.2 | none => x.2

/-- A session is over: the port returns to its plan (R203 step 7). -/
def State.sedgeOver (s : State) (p : Nat) : State :=
  let s := s.onPort p (fun q => { q with
    sedge := false, sedgeSel := [], sedgeS := none, sedgeLen := s.now - q.sedgeT, sedgeEndT := s.now })
  (s.planKick p).planTell (.planSedge p false 0 [])

/-- At a sweep boundary the nodes of an ended session are sent SEDGE stop (R204). -/
def State.sedgeStops (s : State) (p : Nat) : State :=
  let l := (s.port p).sedgeStop
  l.foldl (fun s a => s.sendTo p a 0x0A (le 1 0xFF ++ zeros 7) none) (s.onPort p (fun q => { q with sedgeStop := [] }))

/-- A session ends early (R204): its results are discarded with status 0x0C, their Z and valid periods, which the spec does not state,
given as 0 (DESIGN CHOICE, assumption log 119), and every selected node is sent SEDGE stop at the next
sweep boundary: when the sweep in progress has ended, or at once between sweeps. -/
def State.sedgeAbort (s : State) (p : Nat) : State :=
  let q := s.port p
  if !q.sedge then s
  else
    let s := s.impRecord p (s.sedgeRecord p (q.sedgeSel.map (fun x =>
      let pos := s.sedgePos p x
      sedgeEntry pos 0x0C (s.slotOf (gi p pos)) 0 0 [])))
    let s := s.onPort p (fun q => { q with sedgeStop := q.sedgeStop ++ q.sedgeSel.map (·.1) })
    (if q.sweepOpen then s else s.sedgeStops p).sedgeOver p

/-- Line of the excitation that serves a band 1–5, and its frequency in mHz: k ÷ 127.75 ms (R205). -/
def sedgeLine (b : Nat) : Nat := [1, 2, 8, 33, 91].getD (b - 1) 1
def sedgeFreq (b : Nat) : Nat := sedgeLine b * 100000000 / 12775

/-- The period in progress is over (R206): valid with all its 511 samples, it enters its group, and a group of 10 is full. -/
def SedgeAcc.close (a : SedgeAcc) : SedgeAcc :=
  let b := { a with v := [], n := 0, bad := false }
  if a.bad || a.n ≠ 511 then b
  else
    let g := (List.range 5).map (fun k => cAdd (a.grp.getD k (0, 0)) (a.v.getD k (0, 0)))
    if a.gN = 9 then { b with valid := a.valid + 1, grp := [], gN := 0, gs := g :: a.gs }
    else { b with valid := a.valid + 1, grp := g, gN := a.gN + 1 }

/-- Sample `j` of the session, 10 µV; an excluded one makes its period invalid (R205, R206). -/
def SedgeAcc.take (a : SedgeAcc) (j v : Nat) (bad : Bool) : SedgeAcc :=
  let a := if j / 511 = a.k then a else { a.close with k := j / 511 }
  if bad then { a with n := a.n + 1, bad := true }
  else { a with
    n := a.n + 1, vSum := a.vSum + v, vN := a.vN + 1
    v := (List.range 5).map (fun k => cAdd (a.v.getD k (0, 0)) (chipTerm (sedgeLine (k + 1)) (j % 511) v)) }

/-- A sample of a port that runs a session enters what it has gathered, from the start sweep on (R203, R205). -/
def State.sedgeSample (s : State) (p : Nat) (settling ow : Bool) : State :=
  let q := s.port p
  match q.sedgeS with
  | none => s
  | some t =>
    let j := (q.sweepS - t) / us 250
    let l := s.cellsOfStr p
    if !q.sedge || q.sweepS < t || s.gen.sedgeP * 511 ≤ j then s
    else q.sedgeSel.foldl (fun s x =>
      let g := gi p (s.sedgePos p x)
      let bad := q.swMode ≠ 3 || s.impExcluded g settling ow true || decide (s.dftServed l.length ≤ l.idxOf g)
      s.onEst g (fun e => { e with sed := e.sed.take j (s.cell g).v bad })) (s.onPort p (fun q => { q with sedgeLast := q.sweepS }))

/-- An M3 burst ends before its length (05 R154 line 2, line 3). -/
def State.burstOff (s : State) (p : Nat) : State :=
  if !(s.port p).burst then s
  else ((s.onPort p (fun q => { q with burst := false })).planKick p).planTell (.planBurst p false)

end Sys2Proof.Machine
end

