-- ==== Sys2Proof/Machine/CurBase.lean ====
section
/-! DEFINITION. Currents (chapter 06): filters, coulomb counting, substitution, what a string current sample does, and the
insulation injection (06 R169). -/

namespace Sys2Proof.Machine

open Sys2Proof

/-! ## Filters (R177) -/

/-- One step of a second-order low-pass at a corner: state (two inputs, two outputs in 2⁻³²) and output; an empty state
initialises. -/
def filtStep (corner rate : Nat) (l : List Int) (x : Int) : List Int × Int :=
  match l with
  | [x1, x2, y1, y2] =>
    let y := filterStep (cornerHz corner) rate x x1 x2 y1 y2
    ([x, x1, y, y1], y / 2 ^ 32)
  | _ => ([x, x, x * 2 ^ 32, x * 2 ^ 32], x)

/-- The ports that contribute a string current. -/
def State.contrib (s : State) : List Nat := s.portList.filter (fun p => (s.portCfg p).strNode.isSome)

/-- The filters re-initialise and no evaluation is made for 1 s; the count of violations stays as it is (R179). -/
def State.filtReset (s : State) : State :=
  let s := s.portList.foldl (fun s p => s.onStr p (fun x => { x with filt := [], filtY := [] })) s
  { s with pack := { s.pack with filt := [], filtY := [], kT := s.now :: s.pack.kT.filter (fun t => decide (s.now < t + sec 1)) } }

/-- A contributing port samples at another rate from grid instant `S` on: no evaluation for 1 s from it. Its filter starts afresh
with the first sample from then on (`strFilt`). -/
def State.filtRestart (s : State) (p S : Nat) : State :=
  if (s.portCfg p).strNode.isSome then
    { s with pack := { s.pack with kT := S :: s.pack.kT.filter (fun t => decide (s.now < t + sec 1)) } } else s

/-- f_min follows the corners in force. -/
def State.fMinStep (s : State) : State :=
  let l := (s.contrib.map (fun p => (s.port p).corner)).filter (fun c => decide (c < 6))
  match l with
  | [] => s
  | x :: r =>
    let m := r.foldl min x
    if m = s.pack.fMin then s else ({ s with pack := { s.pack with fMin := m } } : State).filtReset

/-! ## Causes of F20 and F21 -/

/-- A cause of F20 stands or ceases: 0 saturation, 1 partner, 2 offset, 3 attribution. Offset and attribution attribute the
fault to the sensor, and the pack current is substituted until the fault is cleared (R182, R183). -/
def State.f20 (s : State) (k : Nat) (on : Bool) (v : Int) : State :=
  let m := 1#4 <<< k
  let c := if on then s.pack.f20 ||| m else s.pack.f20 &&& ~~~m
  let s := { s with pack := { s.pack with f20 := c, subst := s.pack.subst || (on && 2 ≤ k) } }
  s.setCond 20 16 (c != 0#4) { value := v }

/-- A cause of F21 stands or ceases for a string: 0 offset, 1 attribution; it is substituted until the fault is cleared. -/
def State.f21 (s : State) (p k : Nat) (on : Bool) (v : Int) : State :=
  let m := 1#2 <<< k
  let x := s.str p
  let c := if on then x.f21 ||| m else x.f21 &&& ~~~m
  let s := s.onStr p (fun x => { x with f21 := c, subst := x.subst || on })
  s.setCond 21 p (c != 0#2) { value := v }

/-! ## String currents -/

/-- A current at grid instant `S`: the sample taken then, or the latest where it is not at hand (assumption log 89). -/
def currentAt (S : Nat) (h : List (Nat × Int)) (i : Option Int) : Option Int :=
  match h.find? (fun x => x.1 == S) with
  | some x => some x.2
  | none => i

/-- The current of a string derived from the others at `S`: I_p − Σ of the other strings (R180, R183). -/
def State.derived (s : State) (p S : Nat) : Option Int :=
  (currentAt S s.pack.iHist s.pack.i).map (fun i =>
    i - ((s.portList.filter (· != p)).map (fun q => (currentAt S (s.str q).iHist (s.str q).i).getD 0)).sum)

/-- A string current in mA as a threshold of its nameplate capacity in 0.001 C. -/
def State.cRate (s : State) (p n : Nat) : Nat := n * (s.portCfg p).nameplate / 100

/-- What flows in over `dt` ns by the trapezoid between two currents, in ½ mA·ns: all of it where neither is negative, the part
above the crossing where they differ in sign (R184). -/
def chargeIn (i0 i : Int) (dt : Nat) : Nat :=
  let a := max 0 i0
  let b := max 0 i
  if 0 ≤ i0 * i then ((a + b) * dt).toNat else ((a + b) * (a + b)).toNat * dt / (i - i0).natAbs

/-- Coulomb counting of one sample of a string (R184): trapezoidal from the previous valid sample, what flows in and what flows
out each counted with its own remainder; gaps above 1 s and substitution widen the throughput uncertainty (08 R224). -/
def State.countStr (s : State) (p S : Nat) (i : Int) : State :=
  let x := s.str p
  match x.i with
  | none => s.onStr p (fun x => { x with i := some i, iT := S })
  | some i0 =>
    if S ≤ x.iT then s
    else
      let dt := S - x.iT
      let a := (i0 + i) * dt
      let q := (a + x.qRem) / 2000000
      let up := chargeIn i0 i dt
      let down := (up - a).toNat
      let gap := decide (sec 1 < dt)
      s.onStr p (fun x => { x with
        i := some i, iT := S, qRem := (a + x.qRem) % 2000000, qNet := x.qNet + q
        qIn := x.qIn + (x.inRem + up) / 2000000, inRem := (x.inRem + up) % 2000000
        qOut := x.qOut + (x.outRem + down) / 2000000, outRem := (x.outRem + down) % 2000000
        gaps := if gap then x.gaps + 1 else x.gaps, gapFlag := x.gapFlag || gap
        gapU := if gap then x.gapU + (i - i0).natAbs * dt / 2000000 else x.gapU
        subU := if x.subst then x.subU + s.gen.oP * dt / 1000000 + (up + down) / 400000000 else x.subU })

/-- What a port's quiet mode is judged on (05 R152): the magnitude of its string current `i` and the threshold; without a
string node the pack current, against the threshold over the connected strings. -/
def State.quietLevel (s : State) (p : Nat) (i : Int) : Nat × Nat :=
  let n := (s.portCfg p).plan.quietC
  if (s.portCfg p).strNode.isSome then (i.natAbs, s.cRate p n)
  else ((s.pack.i.getD i).natAbs, ((s.connList.map (fun q => s.cRate q n)).sum))

/-- What a string's current has lasted for (05 R152; 08 R221; 11 R291): below 0.02 C, below the quiet and low-current
thresholds; `clean` samples, neither settling nor of an open-wire group, alone serve the rest of a cell and enter the record of the
impedance engine, of 64 s (05 R145, R161; 07 R187). -/
def State.currentTimes (s : State) (p S : Nat) (i : Int) (clean : Bool) : State :=
  let a := i.natAbs
  let since (b : Bool) (o : Option Nat) : Option Nat := if b then some (o.getD S) else none
  let low := decide (5 * a < (s.portCfg p).nameplate)
  let lv := s.quietLevel p i
  let quiet := decide (lv.1 < lv.2)
  s.onStr p (fun x => { x with
    lowT := if clean then since low x.lowT else x.lowT, trueRest := x.trueRest && (low || !clean), quietT := since quiet x.quietT
    quietExT := since (!quiet) x.quietExT, lowWin := since (decide (a < s.cRate p s.gen.lowC)) x.lowWin
    iHist := (S, i) :: x.iHist.filter (fun y => S < y.1 + sec 1)
    iRec := if clean then (S, i) :: x.iRec.filter (fun y => S ≤ y.1 + sec 64) else x.iRec })

/-- F18 and F23 of a string (10 R273; 11 R287). -/
def State.currentFaults (s : State) (p S : Nat) (i : Int) : State :=
  let s := s.setCond 18 p (decide ((s.portCfg p).strOc < i.natAbs)) { value := i }
  let chg := s.stands 10 p && decide (s.zeroLevel p < i)
  let t := if chg then some ((s.str p).f23T.getD S) else none
  let s := s.onStr p (fun x => { x with f23T := t })
  match t with
  | some t => if t + sec 1 ≤ S then s.stand 23 p { value := i } else s
  | none => s.cease 23 p

/-- F17 on a current over `dt` ns (11 R287): the exponentially weighted mean of its square above I_cont². -/
def State.f17Step (s : State) (i : Int) (dt : Nat) : State :=
  let k : Int := expNeg dt (sec s.gen.tau17)
  let x : Int := i.natAbs * i.natAbs
  let m := x + ((s.pack.msq : Int) - x) * k / 2 ^ 32
  let s := { s with pack := { s.pack with msq := m.toNat } }
  s.setCond 17 16 (match s.gen.iCont with | some c => decide (c * c < m.toNat) | none => false) { value := i }

/-- Without a pack current input, F16 and F17 and the openings of OTH contactors are judged on a sweep's string current (R175). -/
def State.noPackFaults (s : State) (p S : Nat) (i : Int) : State :=
  if s.gen.packUsed then s
  else
    let dt := S - (s.str p).iT
    let s := s.setCond 16 16 (decide (1000 * s.fuse.set.packOc < i.natAbs)) { value := i, port := p }
    (s.othList.map othKey).foldl (fun s k => s.discSample k i) (s.f17Step i dt)

/-- A string's current passes its filter (R177): a derived current one that matches the port's corner, a measured one that of f_min
where the port's corner exceeds it; designed afresh for the rate of a new mode with its first sample. -/
def State.strFilt (s : State) (p S : Nat) (i : Int) : List Int × Int :=
  let q := s.port p
  let x := s.str p
  let l := if x.iT < q.modeS && q.modeS ≤ S then [] else x.filt
  let rate := sweepRate (s.modeOn p S)
  if (s.portCfg p).strNode.isNone || x.subst then filtStep q.corner rate l i
  else if s.pack.fMin < q.corner then filtStep s.pack.fMin rate l i
  else (l, i)

/-- A string current sample at grid instant `S` (R168, R177, R184): `raw` from the string node's block. A string without a
string node, or substituted, takes its derived current. Answers the current that the impedance engine analyses. -/
def State.strSample (s : State) (p S : Nat) (raw : Option Int) (settling ow : Bool) : State × Option Int :=
  let x := s.str p
  let der := (s.portCfg p).strNode.isNone || x.subst
  let s := match raw with
    | some r => s.onStr p (fun x => { x with iRaw := r, rawHist := (S, r) :: x.rawHist.filter (fun y => S < y.1 + sec 1) })
    | none => s
  let i := if der then s.derived p S else raw.map (fun r => r - x.off)
  match i with
  | none => (s, none)
  | some i =>
    let (fl, y) := s.strFilt p S i
    let s := s.noPackFaults p S i
    let s := ((s.countStr p S i).currentTimes p S i (!settling && !ow)).currentFaults p S i
    let s := s.onStr p (fun x => { x with
      filt := fl, filtY := if settling || ow then x.filtY else (S, y) :: x.filtY.filter (fun z => S < z.1 + ms 50) })
    let sat := decide (98 * (s.portCfg p).iRange ≤ 100 * i.natAbs) || (der && decide (x.iT < s.pack.satLastT))
    (s, if sat then none else some (if der then y else i))

/-! ## Insulation injection (R169) -/

/-- The string node of a port that can inject. -/
def State.isoNode (s : State) (p : Nat) : Option Nat :=
  match (s.portCfg p).strNode with
  | some a => if (s.node (nk p a)).caps.getLsbD 3 then some a else none
  | none => none

/-- The node that should inject: the designated one while its port is READY, the backup once it has not been for 10 s. -/
def State.isoTarget (s : State) : Option Nat :=
  let rdy (p : Nat) : Bool := (s.port p).st == .ready && (s.isoNode p).isSome
  match s.gen.isoPort with
  | none => none
  | some d =>
    if rdy d then some d
    else match s.gen.isoBackup, s.pack.isoOutT with
      | some b, some t => if t + sec 10 ≤ s.now && rdy b then some b else none
      | _, _ => none

/-- Sends ISO_CTRL to the string node of a port. -/
def State.isoSend (s : State) (p : Nat) (on : Bool) : State :=
  match s.isoNode p with
  | some a => (s.sendTo p a 0x11 (le 1 on.toNat ++ zeros 3) none).onNode (nk p a) (fun n => { n with iso := on })
  | none => s

/-- The injection-capable node of a port can be reached. -/
def State.isoReach (s : State) (p : Nat) : Bool :=
  match s.isoNode p with
  | some a => (s.node (nk p a)).st == .ready && (s.port p).phy
  | none => false

/-- Stop goes to the node of port `q`. -/
def State.isoStop (s : State) (q : Nat) : State :=
  ({ s with pack := { s.pack with isoStopped := false, isoBackStopped := false } } : State).isoSend q false

/-- Inject goes to the node of port `t`. -/
def State.isoStart (s : State) (t : Nat) : State :=
  ({ s with pack := { s.pack with injPort := some t, isoStopped := false, isoBackStopped := false } } : State).isoSend t true

/-- Moves the injection to where it belongs. The node that injects elsewhere is stopped first, and before the backup injects the
designated node is; where the module does not know who injects, the backup is, before the designated node injects. Inject follows the
echo of that stop, or goes out at once where that node is out of reach. Only the module that holds the primary role sends ISO_CTRL. -/
def State.isoNext (s : State) : State :=
  if !s.fullPrimary then s
  else match s.isoTarget, s.gen.isoPort with
  | some t, some d =>
    match s.pack.injPort with
    | some q => if q = t then s else if s.isoReach q then s.isoStop q else s.isoStart t
    | none =>
      let b := s.gen.isoBackup.getD d
      if t ≠ d && s.isoReach d && !s.pack.isoStopped then s.isoStop d
      else if t = d && b ≠ d && s.isoReach b && !s.pack.isoBackStopped then s.isoStop b
      else s.isoStart t
  | _, _ => s

/-- A port reaches READY: every node on it that can inject, except the designated one, is sent stop. What injected on the port before
does so no more. -/
def State.isoReady (s : State) (p : Nat) : State :=
  if !s.fullPrimary then s
  else
    let s := ({ s with pack := { s.pack with injPort := if s.pack.injPort == some p then none else s.pack.injPort } } : State)
    if s.gen.isoPort == some p then s else s.isoSend p false

end Sys2Proof.Machine
end

