-- ==== Sys2Proof/Machine/Imp.lean ====
section
/-! DEFINITION. The commands of the impedance family (chapter 07): segments, windows, Sedge results, circuit fits, table
write-back and ages. -/

namespace Sys2Proof.Machine

open Sys2Proof

/-! ## Segments and windows -/

/-- SEGMENT_CLOSE (07 R185, R189, R190). While a sample of its span is still being collected it waits for it: the segment then closes with
the next sample (`State.segCatch`). -/
def execSegmentClose (p : Nat) (band : Nat) (s : State) : Out :=
  .next (
    let x := s.str p
    match Tab.find x.segOpen band with
    | none => s
    | some t =>
      let e := t + segSpan band (x.line.getD band 0)
      if 8 ≤ x.segs.getD band 0 then s
      else if (s.port p).sweepOpen && decide ((s.port p).sweepS < e) then s.at e
      else (s.at e).segClose p band)

/-- WINDOW_END (07 R191–R196, R200): the window of a band is evaluated, accepted results are applied by the module that
acts as primary, the record is written, and the next window opens on the line in use. -/
def execWindowEnd (p : Nat) (band : Nat) (s : State) : Out :=
  .next (
    match Tab.find (s.str p).segOpen band with
    | none => s
    | some t => if (s.str p).segs.getD band 0 < 8 then s else s.winClose p band t)

/-! ## Sedge sessions -/

/-- Candidate channels of a node, best first (07 R202): occupied, old enough, not suspect; the oldest, ties to the lowest
channel. -/
def State.sedgeCands (s : State) (p a : Nat) : List Nat :=
  match monOrder (s.portCfg p) a with
  | none => []
  | some o =>
    let age (ch : Nat) : Nat := let g := gi p (16 * o + ch); (s.est g).age (s.slotOf g)
    let l := (List.range (cellsOf (s.portCfg p) o)).filter (fun ch =>
      decide (s.gen.sedgeAge ≤ age ch) && !(let g := gi p (16 * o + ch)
          (s.cell g).suspect || s.paired g || (s.cell g).word.getLsbD 20))
    let keyed := l.map (fun ch => (ch, age ch))
    (keyed.mergeSort (fun x y => decide (y.2 < x.2) || (x.2 == y.2 && decide (x.1 ≤ y.1)))).map (·.1)

/-- The channels a session excites: node by node in monitor order, each the first candidate not adjacent to the node
before. -/
def State.sedgePick (s : State) (p : Nat) : List (Nat × Nat) :=
  let c := s.portCfg p
  (List.range c.m).foldl (fun l o =>
    match addrOf c o with
    | none => l
    | some a =>
      let n := s.node (nk p a)
      if !n.caps.getLsbD 0 || n.missing then l
      else match (s.sedgeCands p a).find? (fun ch => !l.any (fun x => s.sedgePos p x + 1 == 16 * o + ch)) with
        | some ch => l ++ [(a, ch)]
        | none => l) []

/-- The conditions of R201, and R204 for a port with balancing. -/
def State.sedgeMay (s : State) (p : Nat) : Bool :=
  let q := s.port p
  let bal := (s.cellsOfStr p).any (fun g => decide (s.now < (s.cell g).bal))
  s.gen.sedge && q.st == .ready && q.quiet && decide (q.quietT + sec 60 ≤ s.now) && q.rateHi ≤ 1 && !q.sedge &&
    !(addrs (s.portCfg p)).any (fun a => (s.node (nk p a)).tone) &&
    (!bal || decide (q.sedgeEndT + 3 * q.sedgeLen ≤ s.now)) && !(s.sedgePick p).isEmpty

/-- A Sedge session starts (07 R203, R204): the nodes of the chosen cells take their start sweep. -/
def State.sedgeStart (s : State) (p : Nat) : State :=
  if !s.actsPrimary || s.pwr.st != .run || !s.sedgeMay p then s
  else
    let sel := s.sedgePick p
    let q0 := ((s.port p).seq + 400) % 65536
    let s := sel.foldl (fun s x =>
      s.sendTo p x.1 0x0A (le 1 x.2 ++ zeros 1 ++ le 2 q0 ++ le 2 s.gen.sedgeP ++ zeros 2) none) s
    let s := sel.foldl (fun s x => s.onEst (gi p (s.sedgePos p x)) (fun e => { e with sed := {} })) s
    let s := s.onPort p (fun q => { q with sedge := true, sedgeSel := sel, sedgeSeq := q0, sedgeS := none, sedgeLast := 0, sedgeT := s.now })
    (s.planKick p).planTell (.planSedge p true q0 sel)

/-- SEDGE_SESSION_START (07 R201–R203): SEDGE goes to each selected node with one start sweep_seq, and the port goes to M3.
The start sweep lies 400 M3 sweeps, 100 ms, ahead (assumption log 22). -/
def execSedgeSessionStart (p : Nat) (s : State) : Out :=
  .next (if s.drv.svcUp then s.sedgeStart p else s.deferPlan p 6)

/-- Sum over the groups of a session of a band's line, and the sum of its squared magnitudes. -/
def SedgeAcc.lineSum (a : SedgeAcc) (b : Nat) : (Int × Int) × Nat :=
  let l := a.gs.map (fun g => g.getD (b - 1) (0, 0))
  (l.foldl cAdd (0, 0), (l.map cAbs2).sum)

/-- A band result of a session is accepted (R206): |Z|² at least 19 times the variance of the group means divided by the number of
groups. Every group mean is the same multiple of its sum, which leaves the comparison as it is; the variance is that of a sample. -/
def SedgeAcc.ok (a : SedgeAcc) (b : Nat) : Bool :=
  let n := a.gs.length
  let (z, q) := a.lineSum b
  decide (2 ≤ n) && decide (cAbs2 z ≠ 0) && decide (19 * ((n * q : Nat) - (cAbs2 z : Int)) ≤ ((n - 1) * cAbs2 z : Nat))

/-- A band's impedance in a session as numerator and denominator, 10 µΩ (R205): the mean line of the voltage, divided by the same line
of the current −v̄ ÷ R_bal of the on-chips and by the response of the node filter at the corner of M3. -/
def State.sedgeZ (s : State) (p g b : Nat) : (Int × Int) × Int :=
  let a := (s.est g).sed
  let i := mlsLine (sedgeLine b)
  let z := cMulConj (cMul (a.lineSum b).1 (butterDen (sedgeFreq b) (cornerHz (s.cornerOf p 3)))) i
  let r : Int := 100 * ((s.portCfg p).rBal.getD (g % 512 / 16) 0 : Nat)
  ((-(r * z.1), -(r * z.2)), (cAbs2 i * (a.vSum / max a.vN 1) * (10 * a.gs.length) * 2 ^ 20 : Nat))

/-- The result of one excited cell is applied with weight 1/4, and its entry (07 R206, R212); the Z of a void one, which the spec does not
state, is given as 0 (DESIGN CHOICE, assumption log 119). -/
def State.sedgeCell (s : State) (p pos : Nat) : State × List Byte :=
  let g := gi p pos
  let slot := s.slotOf g
  let s := s.onEst g (fun e => { e with sed := e.sed.close })
  let a := (s.est g).sed
  if 4 * a.valid < 3 * s.gen.sedgeP then (s, sedgeEntry pos 0x0B slot a.valid 0 [])
  else
    let zs := (List.range 5).map (fun k => s.sedgeZ p g (k + 1))
    let good := (List.range 5).filter (fun k => s.gen.bands.contains (k + 1) && a.ok (k + 1))
    let s := good.foldl (fun s k => let z := s.sedgeZ p g (k + 1); s.tableUpdate g slot (k + 1) 4 z.1 z.2) s
    let mask := (good.map (fun k => 2 ^ k)).sum
    (s, sedgeEntry pos (if good.isEmpty then 0x0A else 0) slot a.valid mask (zs.map (fun z => cDiv z.1 z.2)))

/-- The results of a Sedge sequence are applied cell by cell, their record is written, and the session is over
(07 R203–R206). -/
def State.sedgeTake (s : State) (p : Nat) : State :=
  let (s, es) := (s.port p).sedgeSel.foldl (fun (s, es) x =>
    let (s, e) := State.sedgeCell s p (s.sedgePos p x)
    (s, es ++ [e])) (s, ([] : List (List Byte)))
  (s.impRecord p (s.sedgeRecord p es)).sedgeOver p

/-- SEDGE_SEQUENCE_END (07 R203, R205, R206): P periods after the instant of the start sweep; the results are applied and the Sedge
record written. Before the start sweep no sequence runs, and the session is the one that starts with `seq`. -/
def execSedgeSequenceEnd (p : Nat) (seq : Nat) (s : State) : Out :=
  .next (
    match (s.port p).sedge, (s.port p).sedgeS with
    | true, some t =>
      if (s.port p).sedgeSeq ≠ seq then s
      else
        let s := s.at (t + s.gen.sedgeP * us 127750)
        if s.actsPrimary then s.sedgeTake p else s.sedgeOver p
    | _, _ => s)

/-! ## Fits (07 R207; 08 R234) -/

/-- Frequency at which an entry of a band enters a fit, mHz: the band's geometric centre (assumption log 92). -/
def bandMid (b : Nat) : Nat := Nat.sqrt (bandLo b * bandHi b)

/-- Entries of a slot that a fit uses: those that are not inductive. -/
def State.fitBands (s : State) (g slot : Nat) : List Nat :=
  (List.range 6).filter (fun b => decide ((s.entryOf g (6 * slot + b)).2 ≤ 0))

/-- Of these, how many are measured. -/
def State.fitEntries (s : State) (g slot : Nat) : Nat :=
  ((s.fitBands g slot).filter (fun b => (s.est g).meas.getD (6 * slot + b) false)).length

/-- The entries with their weights: 1 ÷ |E|², a tenth of it for one that is not measured. -/
def State.fitPoints (s : State) (g slot : Nat) : List FitPoint :=
  (s.fitBands g slot).map (fun b =>
    let z := s.entryOf g (6 * slot + b)
    let e := (10 * z.1, 10 * z.2)
    { f := bandMid b, e := e, w := (if (s.est g).meas.getD (6 * slot + b) false then 10 else 1) * 2 ^ 60 / max 1 (cAbs2 e) })

/-- A fit that is accepted replaces the slot's parameters, and in the reference slot moves the cell's resistance growth (08 R234). -/
def State.fitTake (s : State) (g slot : Nat) (par : FitPar) : State :=
  let s := s.onEst g (fun e => { e with fits := e.fits.set slot par })
  if slot ≠ s.gen.refSlot || !s.actsPrimary then s
  else
    let s := s.onEst g (fun e =>
      if e.r0Set = 0 then { e with r0Init := par.r0, r0Set := 1, growth := 0 }
      else { e with r0Set := 2, growth := if e.r0Init = 0 then 0 else (par.r0 : Int) * 10000 / e.r0Init - 10000 })
    s.ageFaults (g / 512)

/-- A slot is fitted (07 R207): the least-squares circuit of its entries is accepted when its relative residual is within the limit;
rejected, the parameters stay in force. -/
def State.fitSlot (s : State) (g slot : Nat) : State :=
  let l := s.fitPoints g slot
  let (ok, q, s) := match circuitFit l with
    | some f =>
      let r := fitResidual l f
      if r ≤ s.gen.fitLim then (true, min r 254, s.fitTake g slot f) else (false, 0xFF, s)
    | none => (false, 0xFF, s)
  let f := s.fitOf g slot
  s.onStr (g / 512) (fun x => { x with fitsDone := x.fitsDone ++ [(g % 512, slot, if ok then q else 0xFF, f)] })

/-- CIRCUIT_FIT (07 R207): the refit of a slot of which an entry has changed completes, when at least 4 of its entries are measured
and not excluded. It completes at `t`. -/
def execCircuitFit (g : Nat) (slot : Nat) (t : Nat) (s : State) : Out :=
  .next (
    let s := s.at t
    if !(s.est g).fitDue.contains slot then s
    else
      let s := s.onEst g (fun e => { e with fitDue := e.fitDue.filter (· ≠ slot) })
      if s.fitEntries g slot < 4 then s else s.fitSlot g slot)

/-- FIT_RECORD (07 R210, R212): every fit since the previous record with the parameters then in force, when there is one. -/
def execFitRecord (p : Nat) (s : State) : Out :=
  .next (
    let l := (s.str p).fitsDone
    if l.isEmpty then s
    else
      let es := l.map (fun (pos, slot, q, f) =>
        le 2 pos ++ le 1 slot ++ le 1 q ++ le 4 f.r0 ++ le 4 f.r1 ++ le 4 f.tau1 ++ le 4 f.r2 ++ le 4 f.tau2)
      let s := s.impRecord p (le 1 3 ++ le 1 p ++ le 2 l.length ++ zeros 4 ++ le 8 s.now ++ es.flatten)
      s.onStr p (fun x => { x with fitsDone := [] }))

/-! ## Tables (07 R197, R199) -/

/-- A cell's table is written to MRAM, by the module that writes. -/
def State.tableSave (s : State) (g : Nat) : State :=
  if !s.fullPrimary then s
  else (s.mirrorDue { kind := 1, key := g, body := s.tableBytes g } none).onEst g (fun e => { e with unwritten := 0, unwrT := none })

/-- TABLE_WRITEBACK (07 R199): 16 accepted results since the last write, or 1 h after the first unwritten change. -/
def execTableWriteback (g : Nat) (s : State) : Out :=
  .next (
    match (s.est g).unwrT with
    | none => s
    | some t => (if (s.est g).unwritten < 16 then s.at (t + sec 3600) else s).tableSave g)

/-- Ages move on by hours (07 R197), saturating at 254. -/
def CellEst.older (e : CellEst) (h : Nat) : CellEst :=
  let ages : Tab Nat Nat := e.ages.map (fun x => (x.1, if x.2 = 0xFF then 0xFF else min 254 (x.2 + h)))
  { e with ages := ages }

/-- TABLE_AGE_ADVANCE (07 R197): the next full hour of the module time base, at which every slot of every table ages; such an advance is
no unwritten change of the table (R199; DESIGN CHOICE, assumption log 98). -/
def execTableAgeAdvance (s : State) : Out :=
  .next (
    let s := s.at ((s.now / sec 3600 + 1) * sec 3600)
    let ests : Tab Nat CellEst := s.ests.map (fun x => (x.1, x.2.older 1))
    { s with ests := ests })

end Sys2Proof.Machine
end

