-- ==== Sys2Proof/Machine/ThermBase.lean ====
section
/-! DEFINITION. Temperature supervision (chapter 10): readings and validity, zones and levels, rates of rise, demand, and
the thermal outputs. Temperatures in 0.01 °C, rates in 0.001 °C/s. -/

namespace Sys2Proof.Machine

open Sys2Proof

/-! ## Readings (R266–R268) -/

/-- The code of an open and of a shorted sensor (R266). -/
def rawOpen : Int := 32767
def rawShort : Int := -32768

/-- A reading of a sensor arrives: `rawOpen`, `rawShort`, or a temperature. -/
def State.tempIn (s : State) (k : Nat) (v : Int) : State :=
  let bad := if v = rawOpen then 1 else if v = rawShort then 2 else 0
  s.onSensor k (fun x =>
    if bad ≠ 0 then { x with t := s.now, openShort := bad, badRun := min (x.badRun + 1) 3, okT := none }
    else
      let jump := match x.last with | some a => decide (s.gen.jump < ((v - a).natAbs : Int)) | none => false
      let y := { x with
        last := some v, r2 := x.last, r3 := x.r2, t := s.now, openShort := 0, badRun := 0
        implT := if jump then (s.now :: x.implT).take 3 else x.implT
        okT := if jump then none else some (x.okT.getD s.now) }
      { y with hist := (s.now, y.median.getD v) :: x.hist.filter (fun h => decide (s.now < h.1 + sec 11)) })

/-- F12 of a sensor stands or ceases at an evaluation (R268). -/
def State.sensorEval (s : State) (k : Nat) : State :=
  let x := s.sensor k
  let imp := 3 ≤ x.implT.length && decide (s.now < x.implT.getD 2 0 + sec 10)
  let over_ := match x.okT with | some t => decide (t + sec 10 ≤ s.now) | none => false
  if x.f12 then (if over_ then s.onSensor k (fun x => { x with f12 := false, implT := [] }) else s)
  else if x.badRun = 3 || imp then s.onSensor k (fun x => { x with f12 := true })
  else s

/-- The value of a valid sensor for levels and rates (R267). -/
def State.sensVal (s : State) (k : Nat) : Option Int := if s.sensorOk k then (s.sensor k).median else none

/-! ## Zones (R269–R272) -/

/-- Configured zones. -/
def State.zoneList (s : State) : List Nat := (List.range 32).filter (fun z => s.conf.zones.any (fun x => x.1 == z))

/-- Configuration of a zone. -/
def State.zoneCfg (s : State) (z : Nat) : ZoneCfg := s.conf.zones.getD z {}

/-- Valid readings of a zone, with their sensors. -/
def State.zoneVals (s : State) (z : Nat) : List (Int × Nat) :=
  (s.zoneCfg z).sensors.filterMap (fun k => (s.sensVal k).map (fun v => (v, k)))

/-- Highest valid reading of a zone and its sensor. -/
def State.zoneHigh (s : State) (z : Nat) : Option (Int × Nat) :=
  match s.zoneVals z with
  | [] => none
  | x :: r => some (r.foldl (fun m y => if m.1 < y.1 then y else m) x)

/-- Lowest valid reading of a zone. -/
def State.zoneLow (s : State) (z : Nat) : Option Int :=
  match s.zoneVals z with
  | [] => none
  | x :: r => some (r.foldl (fun m y => min m y.1) x.1)

/-- The strings of a zone: those with a sensor of their own in it, or a cell to which one of its NTC inputs belongs. -/
def State.zoneStrings (s : State) (z : Nat) : List Nat :=
  let l := (s.zoneCfg z).sensors
  s.portList.filter (fun p => l.any (fun k =>
    if k < 4096 then k / 256 == p else (s.cellsOfStr p).any (fun g => (s.conf.cellSens.getD g []).contains k)))

/-- The cell zones of a string. -/
def State.zonesOf (s : State) (p : Nat) : List Nat :=
  s.zoneList.filter (fun z => !(s.zoneCfg z).coolant && (s.zoneStrings z).contains p)

/-- A zone holds fewer valid sensors than its minimum (R271). -/
def State.zoneFew (s : State) (z : Nat) : Bool := decide ((s.zoneVals z).length < (s.zoneCfg z).minValid)

/-- The reading a zone's levels are judged by: its highest valid one; in a cell zone with too few valid sensors at least the derate level
(R271). -/
def State.zoneTop (s : State) (z : Nat) : Option Int :=
  let c := s.zoneCfg z
  let h := (s.zoneHigh z).map (·.1)
  if !c.coolant && s.zoneFew z then some (max (h.getD c.derate) c.derate) else h

/-- A level is crossed when the reading reaches it, and released when it falls to the level less its hysteresis. -/
def crossed (was : Bool) (hi : Option Int) (level hyst : Int) : Bool :=
  match hi with
  | none => was
  | some h => if was then decide (level - hyst < h) else decide (level ≤ h)

/-- The event record of a level that changed (11 R305). -/
def State.levelRec (s : State) (z level : Nat) (before after : Bool) : State :=
  if before == after then s
  else
    let (h, k) := (s.zoneHigh z).getD (0, 0)
    s.eventRec 4 (if after then 1 else 2) z 255 level h k

/-- Fused and configured hard limit of a zone. -/
def State.zoneHard (s : State) (z : Nat) : Int := min s.fuse.set.hardOt ((s.zoneCfg z).hard.getD s.fuse.set.hardOt)

/-- F09 of a string (R269, R271; 01 R23). -/
def State.f09Settle (s : State) (p : Nat) : State :=
  let z := s.zonesOf p
  let hit := z.find? (fun z => (s.zone z).derate || s.zoneFew z)
  let (v, k) := match hit with | some z => (s.zoneHigh z).getD (0, 0xFFFF) | none => (0, 0xFFFF)
  s.setCond 9 p hit.isSome { value := v, pos := if k < 4096 then k % 256 else k }

/-- The derate level of a zone, compared by the port engine at every reading and by the safety cores at every
evaluation. -/
def State.zoneDerate (s : State) (z : Nat) : State :=
  let c := s.zoneCfg z
  if c.coolant then s
  else
    let x := s.zone z
    let d := crossed x.derate (s.zoneTop z) c.derate c.hystD
    (s.onZone z (fun x => { x with derate := d })).levelRec z 2 x.derate d

/-- A zone's other levels at an evaluation. -/
def State.zoneLevels (s : State) (z : Nat) : State :=
  let c := s.zoneCfg z
  let x := s.zone z
  let h := s.zoneTop z
  let w := crossed x.warn h c.warn c.hystW
  let s := (s.onZone z (fun x => { x with warn := w })).levelRec z 1 x.warn w
  if c.coolant then
    let l := crossed x.limit h c.limit c.hystD
    (s.onZone z (fun x => { x with limit := l })).levelRec z 4 x.limit l
  else
    let d := crossed x.hard h (s.zoneHard z) 500
    ((s.onZone z (fun x => { x with hard := d })).levelRec z 3 x.hard d).zoneDerate z

/-- NTC inputs of a string's cells. -/
def State.cellNtcs (s : State) (p : Nat) : List Nat :=
  (((s.cellsOfStr p).flatMap (fun g => s.conf.cellSens.getD g [])).filter (fun k => decide (4096 ≤ k))).dedup

/-- Cell sensors of a string: those of its nodes, and the NTC inputs of its cells. -/
def State.ownSensors (s : State) (p : Nat) : List Nat := (declSensors (s.portCfg p)).map (si p) ++ s.cellNtcs p

/-- A sensor is beyond the hard limit of its string; an invalid one is left out (R268–R270). -/
def State.hotEval (s : State) (p k : Nat) : State :=
  let h := match s.sensVal k with | some v => crossed (s.sensor k).hot (some v) (s.hardOt p) 500 | none => false
  s.onSensor k (fun x => { x with hot := h })

/-- F08 of a string (R270): a valid reading of a cell sensor of its own at the hard limit, or a zone beyond its hard level. -/
def State.f08Settle (s : State) (p : Nat) : State :=
  let s := (s.ownSensors p).foldl (fun s k => s.hotEval p k) s
  let own := (s.ownSensors p).find? (fun k => (s.sensor k).hot)
  let zone := (s.zonesOf p).find? (fun z => (s.zone z).hard)
  let k := match own, zone with
    | some k, _ => k
    | none, some z => ((s.zoneHigh z).getD (0, 0)).2
    | none, none => 0
  s.setCond 8 p (own.isSome || zone.isSome) { value := (s.sensVal k).getD 0, pos := if k < 4096 then k % 256 else k }

/-- Temperature of a cell for its charge minimum: the mean of its valid sensors (08 R214); none without one. -/
def State.cellLow (s : State) (g : Nat) : Option Int :=
  match (s.conf.cellSens.getD g []).filterMap s.sensVal with | [] => none | l => some (mean l)

/-- F10 of a string (R273). -/
def State.f10Settle (s : State) (p : Nat) : State :=
  match (s.cellsOfStr p).filterMap s.cellLow with
  | [] => s
  | x :: r =>
    let lo := r.foldl min x
    let m := (s.portCfg p).chgMin
    let on := if s.stands 10 p then decide (lo < m + 200) else decide (lo < m)
    s.setCond 10 p on { value := lo }

/-- Sensors of a string for which F12 can stand: its own, and the NTC inputs of its zones and cells. -/
def State.sensorsOfStr (s : State) (p : Nat) : List Nat :=
  (declSensors (s.portCfg p)).map (si p) ++
    ((List.range 8).map (4096 + ·)).filter (fun k => s.zoneList.any (fun z =>
      (s.zoneCfg z).sensors.contains k && (s.zoneStrings z).contains p))

/-- F12 of a string. -/
def State.f12Settle (s : State) (p : Nat) : State :=
  let k := (s.sensorsOfStr p).find? (fun k => (s.sensor k).f12)
  s.setCond 12 p k.isSome { value := (k.getD 0 : Nat), pos := match k with | some k => if k < 4096 then k % 256 else k | none => 0xFFFF }

/-! ## Rate of rise (R277, R278) -/

/-- A sensor counts for the window of a rise: valid, and not found implausible in it (R278). -/
def State.counts (s : State) (k : Nat) : Bool :=
  s.sensorOk k && !(s.sensor k).implT.any (fun t => decide (s.now < t + sec 11))

/-- Rate of rise of a valid sensor that was not implausible in the window. -/
def State.rate (s : State) (k : Nat) : Option Int :=
  let x := s.sensor k
  if !s.counts k then none
  else
    let a := x.hist.filter (fun h => decide (s.now < h.1 + sec 1))
    let b := x.hist.filter (fun h => decide (h.1 + sec 10 ≤ s.now) && decide (s.now < h.1 + sec 11))
    if a.isEmpty || b.isEmpty then none else some (mean (a.map (·.2)) - mean (b.map (·.2)))

/-- A rate is at least `n` tenths of a half threshold: 10 the half, 20 the whole threshold. -/
def State.rises (s : State) (k n : Nat) : Bool :=
  match s.rate k with | some r => decide (s.gen.riseThr * n ≤ 2 * r) | none => false

/-- Neighbours of a sensor: configured, or by default the adjacent sensor channels of its node (R277). -/
def State.nbrsOf (s : State) (k : Nat) : List Nat :=
  match Tab.find s.conf.nbrs k with
  | some l => l
  | none =>
    if 4096 ≤ k then []
    else
      let l := (if k % 8 = 0 then [] else [k - 1]) ++ (if k % 8 = 7 then [] else [k + 1])
      l.filter (fun j => (declSensors (s.portCfg (k / 256))).contains (j % 256))

/-- The zone of a sensor. -/
def State.zoneOf (s : State) (k : Nat) : Option Nat := s.zoneList.find? (fun z => (s.zoneCfg z).sensors.contains k)

/-- F11 is raised for a zone's strings. -/
def State.f11Raise (s : State) (z k : Nat) (unconf : Bool) : State :=
  let s := s.onZone z (fun x => { x with f11 := true })
  (s.zoneStrings z).foldl (fun s p =>
    s.stand 11 p { unconf := unconf, value := (s.rate k).getD 0, pos := if k < 4096 then k % 256 else k }) s

/-- The rise-unconfirmed flag of a sensor is set or cleared, with its record. -/
def State.riseFlag (s : State) (k : Nat) (b : Bool) : State :=
  if (s.sensor k).riseUnc == b then s
  else
    (s.onSensor k (fun x => { x with riseUnc := b })).eventRec 4 3 ((s.zoneOf k).getD 0) 255 b.toNat ((s.rate k).getD 0) k

/-- A sensor of a cell zone at an evaluation (R278). A rise begins when the rate reaches the threshold. It awaits a neighbour for 10 s; it
is confirmed by one at half the threshold, and without a valid neighbour raises F11 at once. The flag is cleared when the rate is below
the threshold again. -/
def State.riseEval (s : State) (z k : Nat) : State :=
  let half := s.rises k 10
  let full := s.rises k 20
  let s := s.onSensor k (fun x => { x with
    halfT := if half then s.now else x.halfT, aboveT := if full then some (x.aboveT.getD s.now) else none
    riseT := if full && x.aboveT.isNone then some s.now else x.riseT })
  let x := s.sensor k
  let nb := (s.nbrsOf k).filter s.counts
  match x.riseT with
  | none => s
  | some t =>
    if full && nb.isEmpty then (s.onSensor k (fun x => { x with riseT := none })).f11Raise z k true
    else if nb.any (fun j => s.rises j 10) && decide (s.now ≤ t + sec 10) then
      (s.onSensor k (fun x => { x with riseT := none })).f11Raise z k false
    else if !full && x.riseUnc then (s.onSensor k (fun x => { x with riseT := none })).riseFlag k false
    else s

/-- A zone rises (R274). -/
def State.zoneRising (s : State) (z : Nat) : Bool := (s.zoneCfg z).sensors.any (fun k => s.rises k 10)

/-- F11 of a zone ceases when no sensor of it has held half the threshold for 60 s. -/
def State.f11End (s : State) (z : Nat) : State :=
  if (s.zone z).f11 && (s.zoneCfg z).sensors.all (fun k => decide ((s.sensor k).halfT + sec 60 ≤ s.now)) then
    let s := s.onZone z (fun x => { x with f11 := false })
    (s.zoneStrings z).foldl (fun s p => if (s.zonesOf p).any (fun z => (s.zone z).f11) then s else s.cease 11 p) s
  else s

/-! ## Demand (R274–R276) -/

/-- Evaluation rate a zone demands, Hz; one with too few valid sensors counts as at its derate level (R271). -/
def State.zoneDemand (s : State) (z : Nat) : Nat :=
  let c := s.zoneCfg z
  if c.coolant then 1
  else if (s.zone z).warn || s.zoneRising z || s.zoneFew z then 50
  else match s.zoneHigh z with
    | some (h, _) => if c.warn - 500 ≤ h then 10 else 1
    | none => 1

/-- Demand of a port: the highest of its own sensors' zones. -/
def State.portDemand (s : State) (p : Nat) : Nat :=
  ((s.zoneList.filter (fun z => (s.zoneCfg z).sensors.any (fun k => k / 256 == p && decide (k < 4096)))).map s.zoneDemand).foldl max 1

/-- A port takes its demand (R275): a rise at once, with what 05 R154 ends; a fall waits for TEMPERATURE_DEMAND_FALL. -/
def State.demandStep (s : State) (p : Nat) : State :=
  let d := s.portDemand p
  let q := s.port p
  let s := if 10 ≤ d then s.onPort p (fun q => { q with rate10T := s.now }) else s
  if d < q.rateHi then s
  else
    let s := s.onPort p (fun q => { q with rateHi := d, rateFallT := s.now })
    if d ≤ q.rateHi then s
    else ((s.burstOff p).sedgeAbort p).planKick p

/-- A finding of a heartbeat sweep that wakes the module (R276). -/
def State.mossFinding (s : State) : Bool :=
  s.zoneList.any (fun z =>
    let c := s.zoneCfg z
    match s.zoneTop z with
    | some h => decide (c.warn - 500 ≤ h) || decide (c.coolOn ≤ h) || (!c.coolant && s.zoneRising z)
    | none => false)

/-! ## Cooling and heating (R279, R280) -/

/-- The heat-enable condition of a zone. -/
def State.heatEnable (s : State) (z : Nat) : Bool :=
  let c := s.zoneCfg z
  (c.heatChg && s.pwr.chgPres) || (c.heatClosed && s.portList.any (fun p => (s.str p).conn))

/-- What a zone's table demands of its outputs. -/
def State.zoneOuts (s : State) (z : Nat) : State :=
  let c := s.zoneCfg z
  let x := s.zone z
  let strs := s.zoneStrings z
  let fault := (!c.coolant && (x.derate || s.zoneFew z)) || x.f11 || x.limit
  let hi := s.zoneTop z
  let cool := fault || (match hi with
    | some h => if x.cool then decide (c.coolOn - c.coolHyst < h) else decide (c.coolOn ≤ h)
    | none => x.cool)
  let lo := s.zoneLow z
  let heat := s.heatEnable z && (match lo with
    | some t => if x.heat then decide (t < c.heatOff) else decide (t < c.heatOn)
    | none => false)
  let f12 := c.sensors.any (fun k => (s.sensor k).f12)
  let off := (match hi with | some h => decide (c.heatCut ≤ h) | none => false) || x.f11 || f12 ||
    strs.any (fun p => s.stands 8 p || s.isLatched 8 p)
  s.onZone z (fun x => { x with cool := cool, heat := heat, heatOff := off })

/-- A channel is a heating output that is forced off. -/
def State.forcedOff (s : State) (ch : Nat) : Bool :=
  match (s.conf.outs.getD ch {}).zone with | some (z, false) => (s.zone z).heatOff | _ => false

/-- What a thermal channel should be: the table's demand or the host's request, unless forced off. -/
def State.thermWant (s : State) (ch : Nat) : Bool :=
  let o := s.conf.outs.getD ch {}
  let t := match o.zone with | some (z, true) => (s.zone z).cool | some (z, false) => (s.zone z).heat | none => false
  ((s.outc ch).reqDue.getD (t || (s.outc ch).hostReq)) && !s.forcedOff ch

/-- The minimum on or off time of a thermal channel has passed since its last change (R279). -/
def State.minHeld (s : State) (ch : Nat) : Bool :=
  (s.outc ch).changeT = 0 || decide ((s.outc ch).changeT + sec s.gen.minHold ≤ s.now)

/-- A thermal channel follows its table (R279): a change waits for the minimum on or off time, a forced off does not. In
the hold window and outside Run the outputs hold their state (R280). -/
def State.thermSwitch (s : State) (ch : Nat) : State :=
  let o := s.outc ch
  let w := s.thermWant ch
  if (s.conf.outs.getD ch {}).use != .thermal || !s.drv.coresUp || s.pwr.st != .run || w == o.cmd then s
  else if s.forcedOff ch || s.minHeld ch then (s.channel ch w).onOutc ch (fun o => { o with reqDue := none })
  else s

/-- Every zone's outputs. -/
def State.thermOuts (s : State) : State :=
  let s := s.zoneList.foldl (fun s z => s.zoneOuts z) s
  (List.range 12).foldl (fun s ch => s.thermSwitch ch) s

/-! ## The estimator array's clock (01 R40, R41) -/

/-- The array's clock (R40, R41, R282): the lowest of 100, 200 and 400 MHz that gives twice the demand on the working
lanes; halved at the throttle level, not below 100 MHz. -/
def State.estClock (s : State) : State :=
  let d := s.estDemand
  let f := if 2 * d ≤ 200000 * s.repair.lanes then 100 else if 2 * d ≤ 400000 * s.repair.lanes then 200 else 400
  let f := if s.therm.throttle then max 100 (f / 2) else f
  { s with therm := { s.therm with estClk := f } }

end Sys2Proof.Machine
end

