-- ==== Sys2Proof/Machine/ChainCore.lean ====
section
/-! DEFINITION. How a port is enumerated, checked, calibrated and configured (03 R68–R95), and what the answers of its
nodes do (04 R113, R122–R137). -/

namespace Sys2Proof.Machine

open Sys2Proof

/-! ## Ends and addresses -/

/-- The end opposite to the active one. -/
def State.oppEnd (s : State) (p : Nat) : Nat := 1 - s.activeEnd p

/-- An end of a port is in lock. -/
def State.locked (s : State) (p e : Nat) : Bool := if e = 0 then (s.port p).lockN else (s.port p).lockS

/-- An end gains or loses lock. -/
def State.setLock (s : State) (p e : Nat) (b : Bool) : State :=
  s.onPort p (fun q => if e = 0 then { q with lockN := b } else { q with lockS := b })

/-- Addresses expected along the loop, from the N end: every configured node; at a wake that gives retained or roster
addresses, those of the nodes that are not absent (R78; 05 R155). -/
def State.loopAddrs (s : State) (p : Nat) : List Nat :=
  let l := addrs (s.portCfg p)
  if (s.port p).reWake || (s.port p).heartbeat then l.filter (fun a => !(s.node (nk p a)).missing) else l

/-- Address of the h-th node from an end; 0 beyond the last. -/
def State.hopAddr (s : State) (p e h : Nat) : Nat :=
  let l := s.loopAddrs p
  if h = 0 then 0 else (if e = 0 then l else l.reverse).getD (h - 1) 0

/-- Nodes reached from the active end and from the far end. -/
def State.nearCount (s : State) (p : Nat) : Nat := (s.port p).hop - 1
def State.farCount (s : State) (p : Nat) : Nat := (s.port p).fromFar - 1

/-! ## Conditions of the port's fault sources (11 R583) -/

/-- F27 stands while a configured node cannot be reached. -/
def State.f27Settle (s : State) (p : Nat) : State :=
  match (addrs (s.portCfg p)).find? (fun a => (s.node (nk p a)).missing) with
  | some a => s.stand 27 p { value := a }
  | none => s.cease 27 p

/-- F31 stands while the port is HELD for it, a node reports a failing self-test, or a confirmed open tap lacks its
mask. -/
def State.f31Settle (s : State) (p : Nat) : State :=
  let a := (addrs (s.portCfg p)).find? (fun a => (s.node (nk p a)).selftest)
  let v := match a with | some a => a | none => if (s.port p).f31Hold then (s.port p).f31Node else 0
  s.setCond 31 p ((s.port p).f31Hold || a.isSome || (s.cellsOfStr p).any (fun g => (s.cell g).maskBad)) { value := (v : Nat) }

/-- A node holds its port for F31 (R87; 04 R135). -/
def State.f31Node (s : State) (p a : Nat) : State :=
  (s.onPort p (fun q => { q with f31Hold := true, f31Node := a })).f31Settle p

/-- A node cannot be reached. -/
def State.nodeLost (s : State) (p a : Nat) : State :=
  (s.onNode (nk p a) (fun n => { n with missing := true, st := .deep })).f27Settle p

/-- F24 for an end (04 R105): it stands while any end of the port is without lock or idle ordered sets; the action is
settled anew, since the effective class follows the ends (11 R287). -/
def State.f24On (s : State) (p e : Nat) : State :=
  let s := s.onFault 24 (fun f => { f with ends := f.ends ||| (1#32 <<< (2 * p + e)) })
  ((s.stand 24 p { value := e }).settleScope p)

/-- An end receives idle ordered sets in lock again. -/
def State.f24Off (s : State) (p e : Nat) : State :=
  let s := s.onFault 24 (fun f => { f with ends := f.ends &&& ~~~(1#32 <<< (2 * p + e)) })
  if (s.fault 24).ends.getLsbD (2 * p) || (s.fault 24).ends.getLsbD (2 * p + 1) then s else s.cease 24 p

/-- The fault tone has ceased at an end: F25 ceases when it has at every end that recognised it (11 R583). -/
def State.f25Off (s : State) (p e : Nat) : State :=
  let f := s.fault 25
  if !f.ends.getLsbD (2 * p + e) then s
  else
    let s := s.onFault 25 (fun f => { f with ends := f.ends &&& ~~~(1#32 <<< (2 * p + e)) })
    if (s.fault 25).ends.getLsbD (2 * p) || (s.fault 25).ends.getLsbD (2 * p + 1) then s else s.cease 25 p

/-- An end is no longer declared, or no longer this module's: its lock, tone and fault conditions go with it (02 R50,
R67). -/
def State.endGone (s : State) (p e : Nat) : State :=
  let s := (s.setLock p e false).onPort p (fun q => { q with tone := q.tone.set e 0 })
  (s.f24Off p e).f25Off p e

/-- The declared ends that belong to this module. -/
def State.ownList (s : State) : List (Nat × Nat) := s.portList.flatMap (fun p => (s.ownEnds p).map (fun e => (p, e)))

/-- Of the ends `was`, those that no longer belong to the module are gone. -/
def State.endsSettle (s : State) (was : List (Nat × Nat)) : State :=
  (was.filter (fun x => !(s.ownEnds x.1).contains x.2)).foldl (fun s x => s.endGone x.1 x.2) s

/-! ## States of a port (R76) -/

/-- A port enters a state: leaving READY ends its Sedge session and burst (07 R204), leaving HELD ends what held it
(11 R583), and the insulation hand-over counts from when the designated node's port left READY (06 R169). -/
def State.portSt (s : State) (p : Nat) (st : PortSt) : State :=
  let old := (s.port p).st
  let s := if old == .ready && st != .ready then (s.burstOff p).sedgeAbort p else s
  let s := s.onPort p (fun q => { q with st := st, f31Hold := q.f31Hold && !(old == .held && st != .held) })
  let s := if old == .held && st != .held then (if (s.port p).rosterDue then s else s.cease 28 p).f31Settle p else s
  if s.gen.isoPort == some p then
    let t := if st == .ready then none else some (s.pack.isoOutT.getD s.now)
    { s with pack := { s.pack with isoOutT := t } }
  else s

/-! ## Host commands that wait for ports and nodes (19 R468, R471, R482) -/

/-- The running command of a reference. -/
def State.runOf (s : State) (r : CmdRef) : Option RunCmd := s.host.running.find? (fun c => decide (c.ref = r))

/-- The running command of a reference, changed. -/
def State.onRun (s : State) (r : CmdRef) (g : RunCmd → RunCmd) : State :=
  { s with host := { s.host with running := s.host.running.map (fun c => if c.ref = r then g c else c) } }

/-- Result code of a member for which the spec states none (assumption log 10): a free value that is not OK. -/
def State.codeDraw (s : State) : Nat × State := let (v, s) := s.draw; (v % 255 + 1, s)

/-- The outcome of a member of a running command: when every member has one, the command completes with OK or with
PARTIAL of the given kind. -/
def State.memberIn (s : State) (r : CmdRef) (kind a code : Nat) : State :=
  let s := s.onRun r (fun c => { c with todo := c.todo.filter (fun b => b ≠ a), members := c.members ++ [(a, code)] })
  match s.runOf r with
  | none => s
  | some c =>
    if !c.todo.isEmpty then s
    else
      let ok := (c.members.filter (fun m => m.2 == 0)).length
      if ok = c.members.length then s.okay r 0 []
      else s.finish r 1 0 (memberArray kind ok (c.members.map (fun m =>
        (m.1, m.2, if kind = 3 then (s.port m.1).st.ctorIdx else 0, 0, 0, 0, 0)))) true

/-- A port that PORT_RESTART named has come to READY or HELD. -/
def State.restartSettle (s : State) (p : Nat) : State :=
  match (s.port p).restartCmd with
  | none => s
  | some r =>
    let s := s.onPort p (fun q => { q with restartCmd := none })
    if (s.port p).st == .ready then s.memberIn r 3 p 0
    else let (c, s) := s.codeDraw; s.memberIn r 3 p c

/-- The port is kept out of service. -/
def State.heldEnter (s : State) (p : Nat) : State := (s.portSt p .held).restartSettle p

/-! ## READY -/

/-- Channels of a node's confirmed open taps, in the order of their confirmation, whose masks it holds: at most eight, no two
of them sharing a cell (05 R164; 04 R131). -/
def State.masksOf (s : State) (p a : Nat) (taps : List Nat) : List Nat :=
  ((taps.filter (fun g => g / 512 == p && nodeOf (s.portCfg p) (g % 512) == a)).map (fun g => g % 16)).foldl
    (fun l c => if l.length < 8 && l.all (fun x => x + 1 != c && c + 1 != x && x != c) then l ++ [c] else l) []

/-- Channels whose masks a node holds. -/
def State.masksDue (s : State) (p a : Nat) : List Nat := s.masksOf p a s.mram.taps

/-- Global index of a channel of a node. -/
def State.chanCell (s : State) (p a c : Nat) : Nat := gi p (16 * (monOrder (s.portCfg p) a).getD 0 + c)

/-- A node's writes are done. -/
def State.nodeDone (s : State) (p a : Nat) : Bool :=
  let n := s.node (nk p a)
  n.missing || ((n.st == .addressed || n.st == .ready) && n.delaysOk && n.threshOk &&
    (s.masksDue p a).all (fun c => n.masks.contains c || (s.cell (s.chanCell p a c)).maskBad))

/-- READY (R76): sweeps may start, and the estimator clock follows the demand (01 R40). The insulation injection is put
where it belongs (06 R169). -/
def State.readyEnter (s : State) (p : Nat) : State :=
  let s := (s.found p).foldl (fun s a => s.onNode (nk p a) (fun n => { n with st := .ready })) s
  let s := (s.portSt p .ready).broadcast p 0x07 (s.sweepCfgPayload p)
  let s := s.onPort p (fun q => { q with clsT := s.now, heartbeat := false, reWake := false, restoredT := none })
  let m := s.planMode p
  let s := (s.onPort p (fun q => { q with mode := m, modeReq := m, modePrev := m, modeS := 0, m3Since := s.now })).estClock
  let s := (s.onStr p (fun x => { x with filt := [] })).filtRestart p (s.firstS p m)
  (s.isoReady p).isoNext.restartSettle p

/-- CONFIGURE ends when every node's writes are done. -/
def State.configCheck (s : State) (p : Nat) : State :=
  if (s.port p).st == .configure && (addrs (s.portCfg p)).all (s.nodeDone p) then s.readyEnter p else s

/-! ## Writes (R84, R87; 04 R130, R131) -/

/-- SET_DELAYS: the stored delays and D, or during a recalibration the new ones (R86). -/
def State.delaysNow (s : State) (p a : Nat) : List Byte :=
  if (s.port p).recalOn then
    let n := s.node (nk p a)
    le 2 n.newN ++ le 2 n.newS ++ le 2 (s.port p).dNew ++ zeros 2
  else s.delaysPayload p a (s.port p).dW

/-- Writes a node's delays. -/
def State.writeDelays (s : State) (p a : Nat) : State :=
  (s.onNode (nk p a) (fun n => { n with delaysOk := false })).sendTo p a 0x04 (s.delaysNow p a) none

/-- Writes a node's thresholds. -/
def State.writeThresh (s : State) (p a : Nat) : State :=
  (s.onNode (nk p a) (fun n => { n with threshOk := false })).sendTo p a 0x05 (s.threshPayload p a) none

/-- Writes the masks a node lacks. -/
def State.writeMasks (s : State) (p a : Nat) : State :=
  ((s.masksDue p a).filter (fun c => !(s.node (nk p a)).masks.contains c)).foldl (fun s c =>
    s.sendTo p a 0x06 (s.pairSumPayload p c) none) s

/-- CONFIGURE starts: delays first, then thresholds, then masks. -/
def State.configStart (s : State) (p : Nat) : State :=
  let s := s.portSt p .configure
  let s := (s.found p).foldl (fun s a =>
    (s.onNode (nk p a) (fun n => { n with threshOk := false, rewrites := 0, masks := [] })).writeDelays p a) s
  s.configCheck p

/-- The sums d_N + d_S of the nodes measured from both ends differ by more than 8 ns (R85). -/
def State.sumsBad (s : State) (p : Nat) : Bool :=
  if !(s.portCfg p).endN || !(s.portCfg p).endS then false
  else
    let l := (s.found p).filter (fun a => 16 ≤ (s.node (nk p a)).probesN && 16 ≤ (s.node (nk p a)).probesS)
    match l.map (fun a => (s.node (nk p a)).newN + (s.node (nk p a)).newS) with
    | [] => false
    | x :: r => decide (8 < r.foldl max x - r.foldl min x)

/-- Every new delay of a recalibration has been written and echoed: it is in force. What differed before counts as persisting until
the next probes have been compared (R86). -/
def State.recalCheck (s : State) (p : Nat) : State :=
  if (s.port p).recalOn && (s.found p).all (fun a => (s.node (nk p a)).delaysOk) then
    let s := (s.found p).foldl (fun s a => s.onNode (nk p a) (fun n => { n with dN := n.newN, dS := n.newS })) s
    let s := s.onPort p (fun q => { q with recalOn := false, dW := q.dNew })
    if s.sumsBad p then s else s.cease 29 p
  else s

/-! ## Calibration (R83–R86) -/

/-- Ends of this module from which a node can be probed: in split mode the one on its side, both once the hop is repaired
(R95). -/
def State.probeEnds (s : State) (p a : Nat) : List Nat :=
  (s.ownEnds p).filter (fun e => !(s.port p).split || (s.port p).restoredT.isSome || s.endTo p a == e)

/-- Probe replies of a node at an end. -/
def Node.probes (n : Node) (e : Nat) : Nat := if e = 0 then n.probesN else n.probesS

/-- The next node and end to be probed. -/
def State.nextProbe (s : State) (p : Nat) : Option (Nat × Nat) :=
  ((s.found p).flatMap (fun a => (s.probeEnds p a).map (fun e => (a, e)))).find? (fun x => decide ((s.node (nk p x.1)).probes x.2 < 16))

/-- Sends PROBE to a node from an end. -/
def State.probeSend (s : State) (p e a : Nat) : State := s.sendCmd p e a 0x03 [] none

/-- Sends the next probe. -/
def State.probeNext (s : State) (p : Nat) : State :=
  match s.nextProbe p with | some (a, e) => s.probeSend p e a | none => s

/-- The measurement starts afresh, in a pair at the partner's ends too (R83). -/
def State.calStart (s : State) (p : Nat) : State :=
  let s := if s.isPair && s.actsPrimary && s.partnerUp then s.sendEvt (.chainCal p) else s
  ((s.found p).foldl (fun s a => s.onNode (nk p a) (fun n => { n with
    newN := n.dN, newS := n.dS, probesN := 0, probesS := 0, sumN := 0, sumS := 0 })) s).probeNext p

/-- The delays of every node have been measured, by this module or, in a pair, by the partner for the other ends. -/
def State.measured (s : State) (p : Nat) : Bool :=
  let o := 1 - s.pairEnd
  (s.nextProbe p).isNone && (!s.partnerUp || !s.actsPrimary || !s.wired p o || (s.found p).all (fun a =>
    16 ≤ (s.node (nk p a)).probes o || ((s.port p).split && (s.port p).restoredT.isNone && s.endTo p a != o)))

/-- A measured delay of a node is more than 20 ns from the stored one (11 R583 F29). -/
def State.delaysFar (s : State) (p : Nat) : Bool :=
  (s.found p).any (fun a =>
    let n := s.node (nk p a)
    let far (x y : Nat) : Bool := decide (20 < (x - y) + (y - x))
    far n.newN n.dN || far n.newS n.dS)

/-- Transmit phase for a worst delay (05 R140). -/
def phaseOf (D : Nat) : Nat := (80 - D % 80) % 80

/-- The measurement is complete: repeated once when the sums disagree (R85), otherwise taken over (R84). A port that
sweeps keeps the old values until the interpolator has moved and the new ones are echoed (R86; 05 R140). -/
def State.calDone (s : State) (p : Nat) : State :=
  if !s.measured p then s
  else if s.isPair && !s.actsPrimary then
    (if (s.port p).st == .ready then s.onPort p (fun q => { q with recalOn := false }) else s.readyEnter p)
  else
    let bad := s.sumsBad p
    if bad && !(s.port p).calRepeat then (s.onPort p (fun q => { q with calRepeat := true })).calStart p
    else
      let s := s.onPort p (fun q => { q with calRepeat := false })
      let s := if bad then s.stand 29 p {} else if (s.port p).recalOn && s.delaysFar p then s else s.cease 29 p
      let D := (s.found p).foldl (fun m a => max m (max (s.node (nk p a)).newN (s.node (nk p a)).newS)) 0
      if (s.port p).recalOn then
        let s := s.onPort p (fun q => { q with dNew := D })
        let s := if s.isPair && s.partnerUp then s.sendEvt (.chainPhase p D) else s
        if D = (s.port p).dW then (s.found p).foldl (fun s a => s.writeDelays p a) s else s
      else
        let s := (s.found p).foldl (fun s a => s.onNode (nk p a) (fun n => { n with dN := n.newN, dS := n.newS })) s
        (s.onPort p (fun q => { q with dW := D, phase := phaseOf D, calibrated := true })).configStart p

/-- CALIBRATE starts. -/
def State.calEnter (s : State) (p : Nat) : State :=
  let s := ((s.portSt p .calibrate).onPort p (fun q => { q with calRepeat := false })).calStart p
  if (s.nextProbe p).isNone then s.calDone p else s

/-! ## CHECK (R78, R80, R135) -/

/-- A node's type or counts differ from the configuration of its address. -/
def State.typeBad (s : State) (p a : Nat) : Bool :=
  let c := s.portCfg p
  let n := s.node (nk p a)
  match monOrder c a with
  | some o => n.typ != 1 || n.cells != cellsOf c o || n.sensors != sensorsOf c o
  | none => n.typ != 2 || n.cells != 0

/-- A capability bit that is mandatory for the node's type is not declared (04 R125, R135). -/
def State.capsBad (s : State) (p a : Nat) : Bool :=
  let n := s.node (nk p a)
  let need := if n.typ = 1 then [1, 2, 5] else [5]
  need.any (fun b => !n.caps.getLsbD b)

/-- The classification is made once every passport read has ended (R80). -/
def State.classifyStep (s : State) (p : Nat) : State :=
  if (s.port p).st == .check && (s.found p).all (fun a => (s.node (nk p a)).passTried) then
    let c := s.classify p
    let s := s.classified p c
    match c with
    | .reordered | .mixed => s.heldEnter p
    | .known => (if s.stands 28 p then s.cease 28 p else s).calEnter p
    | _ => s.calEnter p
  else s

/-- CHECK of a port (R78). `accept` marks the acceptance of a HELD port's roster, which is then classified NEW (R81). -/
def State.chainCheck (s : State) (p : Nat) (accept : Bool) : State :=
  let s := s.portSt p .check
  let s := s.onPort p (fun q => { q with firstM0 := 4 })
  let f := s.found p
  let s := (addrs (s.portCfg p)).foldl (fun s a => s.onNode (nk p a) (fun n => { n with missing := !f.contains a })) s
  let s := s.f27Settle p
  let s := match f.find? (s.capsBad p) with | some a => s.f31Node p a | none => s
  match f.find? (s.typeBad p), f.find? (s.capsBad p) with
  | some a, _ => (s.stand 28 p { value := a }).heldEnter p
  | none, some _ => s.heldEnter p
  | none, none =>
    if accept then (s.classified p .new).calEnter p
    else
      let s := f.foldl (fun s a => (s.onNode (nk p a) (fun n => { n with passTried := false })).sendTo p a 0x0B [] none) s
      s.classifyStep p

/-- The number of a port's last sweep is told to the partner, whose end goes on with the next (05 R156). -/
def State.sweepTell (s : State) (p : Nat) : State :=
  if s.isPair && s.partnerUp && s.actsPrimary then s.sendEvt (.chainSweep p (s.port p).seq) else s

/-! ## The end of an enumeration (R77, R78) -/

/-- The two directions have reached what they can: the port goes on in split mode from the start (R77, R93), in a pair on
both modules. -/
def State.farDone (s : State) (p : Nat) : State :=
  let e := s.activeEnd p
  let fromN := if e = 0 then s.nearCount p else s.farCount p
  let fromS := if e = 0 then s.farCount p else s.nearCount p
  let b := s.hopAddr p 0 fromN
  let hi := if fromS = 0 then portC (s.portCfg p) else s.hopAddr p 1 fromS - 1
  let s := s.onPort p (fun q => { q with split := true, splitReq := false, brkNode := b, brkFar := max b hi })
  let s := if s.actsPrimary then s.stand 26 p { value := b } else s
  let s := if s.isPair && s.partnerUp then (s.sendEvt (.chainBreak p b)).sweepTell p else s
  let s := ((s.ownEnds p).filter (fun e => !s.locked p e)).foldl (fun s e => s.f24On p e) s
  if (s.port p).heartbeat then (s.portSt p .configure).configCheck p else s.chainCheck p false

/-- The loop has closed (R75, R78). With fewer nodes than configured, each is given its roster address in a new wake;
a node that the roster does not hold, or an order that does not rise, leaves the port HELD. -/
def State.loopDone (s : State) (p : Nat) : State :=
  let q := s.port p
  let f := s.found p
  if s.isPair && s.pair.role == .standby then
    if q.heartbeat then s.readyEnter p
    else
      let s := (addrs (s.portCfg p)).foldl (fun s a => s.onNode (nk p a) (fun n => { n with st := .addressed, missing := false })) s
      s.calEnter p
  else if q.heartbeat then (s.portSt p .configure).configCheck p
  else if q.reWake || f.length = portC (s.portCfg p) then s.chainCheck p false
  else
    let as := f.map (fun a => ((s.node (nk p a)).uid.bind (s.rosterAddr p)).getD 0)
    if as.contains 0 then (s.stand 28 p {}).heldEnter p
    else if (as.zip (as.drop 1)).all (fun x => decide (x.1 < x.2)) then
      let s := (addrs (s.portCfg p)).foldl (fun s a => s.onNode (nk p a) (fun n => { n with missing := !as.contains a })) s
      ((s.f27Settle p).wakePort p true false).onPort p (fun q => { q with reWake := true })
    else (s.classified p .reordered).heldEnter p

/-- A hop has failed for the second time: enumeration goes on from the far end when that is declared wired (R77), in a pair
over the Causeway. With one wired end it ends there: the loop is whole when node C was the last (assumption log 85). -/
def State.hopFailed (s : State) (p : Nat) : State :=
  let o := s.oppEnd p
  if s.wired p o && s.reaches p o then
    let s := (s.portSt p .fromFar).onPort p (fun q => { q with fromFar := 1, retried := false, hopT := s.now })
    if (s.loopAddrs p).length ≤ s.nearCount p then s.farDone p else s.toneSend p o
  else if !s.wired p o && decide ((s.loopAddrs p).length ≤ s.nearCount p) then s.loopDone p
  else if (s.port p).heartbeat then (s.portSt p .configure).configCheck p
  else s.chainCheck p false

/-! ## Identities (04 R125, R127; R94) -/

/-- A node's identity is on record. -/
def State.identityOf (s : State) (p a : Nat) (i : Identity) (st : NodeSt) : State :=
  s.onNode (nk p a) (fun n => { n with
    uid := some i.uid, typ := i.typ, cells := i.cells, sensors := i.sensors, caps := i.caps, tta := i.tta, st := st
    minor := i.minor, build := i.build, missing := false })

/-- The identity differs from the roster at its address (05 R155). -/
def State.uidDiffers (s : State) (p a : Nat) (i : Identity) : Bool :=
  match s.rosterUid p a with | some u => u != i.uid | none => false

/-- The next hop after an identity reply: EXTEND, and from the far end, once every node is reached, CHECK. A port with one wired end
goes on past node C as well: two failed hops end its enumeration (`State.hopFailed`; DESIGN CHOICE, assumption log 85). -/
def State.hopOn (s : State) (p : Nat) : State :=
  if (s.port p).st == .fromFar then
    let s := s.onPort p (fun q => { q with fromFar := q.fromFar + 1, retried := false, hopT := s.now })
    if (s.loopAddrs p).length ≤ s.nearCount p + s.farCount p then s.farDone p else s
  else (s.portSt p .extend).onPort p (fun q => { q with hop := q.hop + 1, retried := false, hopT := s.now })

/-- The reply to ENUMERATE of an address (R76, R94; 05 R155). Another major version of the protocol is not accepted. In a
heartbeat wake the node's state is asked for; an identity that differs from the roster wakes the module. -/
def State.enumReply (s : State) (p a : Nat) (i : Identity) : State :=
  let q := s.port p
  if i.major ≠ 1 then s
  else if q.st == .ready then
    if s.rosterUid p a == some i.uid then
      let s := (s.identityOf p a i .addressed).f27Settle p
      (s.onNode (nk p a) (fun n => { n with threshOk := false, masks := [], rewrites := 0 })).writeDelays p a
    else s
  else if q.heartbeat then
    if s.uidDiffers p a i then
      let s := (s.identityOf p a i .addressed).stand 28 p { value := a }
      s.onPort p (fun q => { q with heartbeat := false })
    else ((s.identityOf p a i .woken).sendTo p a 0x10 [] none).hopOn p
  else (s.identityOf p a i .addressed).hopOn p

/-- The reply to IDENTIFY of a node that had been lost (R94): accepted when it matches the roster. -/
def State.identifyReply (s : State) (p a : Nat) (i : Identity) : State :=
  if i.major = 1 && s.rosterUid p a == some i.uid then (s.identityOf p a i .ready).f27Settle p else s

/-- Nodes that had been lost are asked for their identity (R94). -/
def State.seekLost (s : State) (p : Nat) : State :=
  ((addrs (s.portCfg p)).filter (fun a => (s.node (nk p a)).missing && !(s.req p).any (fun r => r.addr == a))).foldl
    (fun s a => s.sendTo p a 0x02 [] none) s

/-! ## Answers (04 R113, R123, R124) -/

/-- An echo repeats what was written. -/
def echoes (r : ChainReq) (rsp : Rsp) : Bool := rsp.status == 0 && rsp.data == .echo r.payload

/-- A write's echo differs (R87): it is rewritten once, after TONE_CLEAR when the tone state refuses THRESH; the second
time F31 is raised and the port is HELD. -/
def State.writeBad (s : State) (p : Nat) (r : ChainReq) (status : Nat) : State :=
  let n := s.node (nk p r.addr)
  if n.rewrites = 0 then
    let s := s.onNode (nk p r.addr) (fun n => { n with rewrites := 1 })
    let s := if r.tag = 0x05 && status = 4 then s.sendTo p r.addr 0x0E [] none else s
    if r.tag = 0x04 then s.writeDelays p r.addr else s.writeThresh p r.addr
  else (s.f31Node p r.addr).heldEnter p

/-- A mask's echo differs (05 R163): rewritten once, then F31. -/
def State.maskEcho (s : State) (p : Nat) (r : ChainReq) (ok : Bool) : State :=
  let c := field r.payload 0 1
  let g := s.chanCell p r.addr c
  if ok then
    let s := s.onNode (nk p r.addr) (fun n => { n with masks := n.masks.filter (fun x => x ≠ c) ++ [c] })
    ((s.onCell g (fun x => { x with maskBad := false, maskRw := false })).f31Settle p).configCheck p
  else if !(s.cell g).maskRw then
    (s.onCell g (fun x => { x with maskRw := true })).sendTo p r.addr 0x06 r.payload none
  else ((s.onCell g (fun x => { x with maskBad := true, maskRw := false })).f31Settle p).configCheck p

/-- A delay has been echoed. -/
def State.delaysEcho (s : State) (p a : Nat) : State :=
  let s := s.onNode (nk p a) (fun n => { n with delaysOk := true, rewrites := 0 })
  if (s.port p).recalOn then s.recalCheck p
  else if (s.node (nk p a)).threshOk then s.configCheck p else s.writeThresh p a

/-- Thresholds have been echoed: the node holds no masks, and they are rewritten. -/
def State.threshEcho (s : State) (p a : Nat) : State :=
  let s := s.onNode (nk p a) (fun n => { n with threshOk := true, rewrites := 0, masks := [], st := .ready })
  (s.writeMasks p a).configCheck p

/-- A later re-send of BALANCE that no command waits for (19 R472): an echo that differs is retried once, then balancing
on the node is stopped and recorded, under a code the spec does not give (assumption log 10). -/
def State.balanceEcho (s : State) (p : Nat) (r : ChainReq) (ok : Bool) : State :=
  if ok then s
  else if (s.node (nk p r.addr)).rewrites = 0 then
    (s.onNode (nk p r.addr) (fun n => { n with rewrites := 1 })).sendTo p r.addr 0x09 r.payload none
  else
    let o := (monOrder (s.portCfg p) r.addr).getD 0
    let s := (List.range 16).foldl (fun s c => s.onCell (gi p (16 * o + c)) (fun x => { x with bal := 0 })) s
    let s := (s.onNode (nk p r.addr) (fun n => { n with balance := 0, balT := 0, rewrites := 0 })).balHold p r.addr []
    let (v, s) := s.draw
    (s.sendTo p r.addr 0x09 (zeros 4) none).eventRec 8 (v % 256) r.addr p 0 0 0

/-- A node takes no part in a session (07 R203 step 3): its echo differs. -/
def State.sedgeDrop (s : State) (p a : Nat) : State :=
  let s := s.sendTo p a 0x0A (le 1 0xFF ++ zeros 7) none
  s.onPort p (fun q => { q with sedgeSel := q.sedgeSel.filter (fun x => x.1 ≠ a) })

/-- The answer to ISO_CTRL (06 R169): a stop that is echoed lets the injection move on. -/
def State.isoEcho (s : State) (p : Nat) (r : ChainReq) (ok : Bool) : State :=
  if !ok || field r.payload 0 1 ≠ 0 then s
  else
    ({ s with pack := { s.pack with
        injPort := if s.pack.injPort == some p then none else s.pack.injPort
        isoStopped := s.pack.isoStopped || s.gen.isoPort == some p
        isoBackStopped := s.pack.isoBackStopped || s.gen.isoBackup == some p } } : State).isoNext

/-- The answer of a node whose state was asked for in a heartbeat wake (05 R155): one that has reset is written its
delays, thresholds and masks. -/
def State.statusIn (s : State) (p a : Nat) (b : List Byte) : State :=
  let s := s.onNode (nk p a) (fun n => { n with status := b })
  if (s.node (nk p a)).st != .woken then s
  else if field b 0 1 = 4 then (s.onNode (nk p a) (fun n => { n with st := .ready })).configCheck p
  else
    (s.onNode (nk p a) (fun n => { n with st := .addressed, threshOk := false, masks := [], rewrites := 0 })).writeDelays p a

/-- What a host command that waited for this answer completes with. -/
def State.hostAnswer (s : State) (r : ChainReq) (c : CmdRef) (rsp : Rsp) : State :=
  match r.tag with
  | 0x09 =>
    if rsp.status ≠ 0 then s.memberIn c 4 r.addr rsp.status
    else if echoes r rsp then s.memberIn c 4 r.addr 0
    else let (v, s) := s.codeDraw; s.memberIn c 4 r.addr v
  | 0x0B => match rsp.data with
    | .passport b => if rsp.status = 0 then s.okay c 0 b else s.fail c 4
    | _ => s.fail c 4
  | 0x10 => match rsp.data with
    | .status b => if rsp.status = 0 then s.okay c 0 b else s.fail c 4
    | _ => s.fail c 4
  | _ => s

/-- What an answer does, by command (04 R123). The MARK of a probe follows the CMD (R129): it leaves when the node's RSP has come,
which tells that it is armed (DESIGN CHOICE, assumption log 117). -/
def State.answer (s : State) (p : Nat) (r : ChainReq) (rsp : Rsp) : State :=
  let a := r.addr
  let s := match r.cmd with | some c => s.hostAnswer r c rsp | none => s
  match r.tag, rsp.data with
  | 0x01, .identity i => if rsp.status = 0 then s.enumReply p (field r.payload 0 1) i else s
  | 0x02, .identity i => if rsp.status = 0 && (s.node (nk p a)).missing then s.identifyReply p a i else s
  | 0x03, _ => if rsp.status = 0 then s.emit (.mark p r.end_ s.now) else s
  | 0x04, _ => if echoes r rsp then s.delaysEcho p a else s.writeBad p r rsp.status
  | 0x05, _ => if echoes r rsp then s.threshEcho p a else s.writeBad p r rsp.status
  | 0x06, _ => s.maskEcho p r (echoes r rsp)
  | 0x09, _ => if r.cmd.isSome then s else s.balanceEcho p r (echoes r rsp)
  | 0x0A, _ => if field r.payload 0 1 = 0xFF || echoes r rsp then s else s.sedgeDrop p a
  | 0x0B, d =>
    let s := s.onNode (nk p a) (fun n => { n with
      passTried := true, pass := match d with | .passport b => if rsp.status = 0 then some b else none | _ => none })
    s.classifyStep p
  | 0x0C, _ => if rsp.status = 6 then s.onNode (nk p a) (fun n => { n with nvFail := true }) else
      s.onNode (nk p a) (fun n => { n with pass := if rsp.status = 0 then some r.payload else n.pass, nvFail := false })
  | 0x0E, .tone t => s.onNode (nk p a) (fun n => { n with tone := t })
  | 0x0F, .selfTest w =>
    (s.onNode (nk p a) (fun n => { n with selftest := if w = 0#32 then false else n.selftest })).f31Settle p
  | 0x10, .status b => if rsp.status = 0 then s.statusIn p a b else s
  | 0x11, _ => s.isoEcho p r (echoes r rsp)
  | _, _ => s

/-- A host command that waited for an answer which never came. -/
def State.hostSilent (s : State) (r : ChainReq) (c : CmdRef) : State :=
  if r.tag = 0x09 then let (v, s) := s.codeDraw; s.memberIn c 4 r.addr v else s.fail c 5

/-- A command has gone unanswered three times (04 R113): F30 as a finding while the node's blocks arrive, F27 when they
do not; what waited for the answer goes on (R80, R87): a passport that CHECK cannot read counts as invalid, and its node
stays on the port. -/
def State.silent (s : State) (p : Nat) (r : ChainReq) : State :=
  let a := r.addr
  let s := match r.cmd with | some c => s.hostSilent r c | none => s
  if 62 ≤ a then s
  else
    let lost := (s.node (nk p a)).missing
    let s := if (s.node (nk p a)).blocks then s.finding 30 p { value := a }
      else if r.tag = 0x0B && (s.port p).st == .check then s.stand 27 p { value := a } else s.nodeLost p a
    match r.tag with
    | 0x02 => if lost then s.enumerate p (s.endTo p a) a else s
    | 0x03 =>
      let s := s.onNode (nk p a) (fun n => { n with probesN := 16, probesS := 16 })
      if (s.port p).st == .calibrate || (s.port p).recalOn then
        (if (s.nextProbe p).isNone then s.calDone p else s.probeNext p) else s
    | 0x04 | 0x05 => s.writeBad p r 0
    | 0x06 => s.maskEcho p r false
    | 0x09 => if r.cmd.isSome then s else s.balanceEcho p r false
    | 0x0A => if field r.payload 0 1 = 0xFF then s else s.sedgeDrop p a
    | 0x0B => (s.onNode (nk p a) (fun n => { n with passTried := true, pass := none })).classifyStep p
    | 0x10 => s.configCheck p
    | 0x11 => s.isoNext
    | _ => s

/-! ## Frames that fail their checks (01 R22; 04 R114) -/

/-- Frames and blocks received at an end: `n` of them, `bad` failing. F30 stands while at least 100 of the last 10 s, and
more than 1 %, failed at an end. -/
def State.frameCount (s : State) (p e n bad : Nat) : State :=
  let s := s.onPort p (fun q =>
    let keep (e : Nat) := (q.win.getD e []).filter (fun x => decide (s.now < x.1 + sec 10))
    { q with
      win := (q.win.set (1 - e) (keep (1 - e))).set e ((s.now, n, bad) :: keep e)
      badN := if e = 0 then min (q.badN + bad) 0xFFFFFFFF else q.badN
      badS := if e = 1 then min (q.badS + bad) 0xFFFFFFFF else q.badS })
  let hit (e : Nat) : Bool :=
    let w := (s.port p).win.getD e []
    let b : Nat := (w.map (fun x => x.2.2)).sum
    let t : Nat := (w.map (fun x => x.2.1)).sum
    decide (100 ≤ b) && decide (t < 100 * b)
  s.setCond 30 p (hit 0 || hit 1) { value := e }

end Sys2Proof.Machine
end

