-- ==== Sys2Proof/Machine/NvBase.lean ====
section
/-! DEFINITION. Non-volatile records of the running state and their return at a start: string counters, saved estimator
state, impedance tables, ageing records, held records (07 R195, R199; 08 R235; 22 R533–R538, R584). -/

namespace Sys2Proof.Machine

open Sys2Proof

/-! ## String counters (22 R534, R584) -/

/-- The string counters as a record. -/
def State.counterReq (s : State) : NvReq := { kind := 7, key := 3, body := s.counterBody }

/-- Writes a kind 0x03 entry on this module and its partner (17 R428). -/
def State.counterSave (s : State) : State := s.mirrorDue s.counterReq none

/-- Newest valid kind 0x03 entry. -/
def State.lastCounters (s : State) : Option JEntry := s.mram.journal.find? (fun e => e.kind == 3 && e.commit != 0)

/-- A 64-bit two's complement field. -/
def field64 (b : List Byte) (o : Nat) : Int := (BitVec.ofNat 64 (field b o 8)).toInt

/-- String counters return from a body: the ageing counters always, the charge counters where `charge` says so: they
survive every reset except power-on reset (06 R184; 21 R519). -/
def State.countersFrom (s : State) (b : List Byte) (charge : Bool) : State :=
  (List.range (field b 8 1)).foldl (fun s i =>
    let o := 16 + 80 * i
    let p := field b o 1
    if 16 ≤ p then s
    else s.onStr p (fun x =>
      let x := { x with
        cycles := field b (o + 0x20) 4, hours := field b (o + 0x24) 4
        dod := (List.range 10).map (fun k => (k, field b (o + 0x28 + 4 * k) 4)) }
      if charge then { x with qNet := field64 b (o + 8), qIn := field b (o + 0x10) 8, qOut := field b (o + 0x18) 8 } else x)) s

/-! ## Saved estimator state (22 R533) -/

/-- The saved estimator state: 8 bytes per global cell index. -/
def State.estBody (s : State) : List Byte :=
  ((List.range 8192).map (fun g =>
    let e := s.est g
    if e.seeded then le 2 (e.true_.toNat / 100) ++ le 2 (min (e.sigma / 100) 65535) ++ le 2 (e.rep / 100) ++ leI 2 e.h
    else zeros 8)).flatten

/-- Net charge counters at the time of the saved state, which the counted charge of 08 R236 refers to. -/
def State.stampSaved (s : State) : State :=
  s.portList.foldl (fun s p => s.onStr p (fun x => { x with savQ := x.qNet, savT := s.now })) s

/-- The saved estimator state as a record. -/
def State.estReq (s : State) : NvReq := { kind := 4, key := 0, body := s.estBody }

/-- Writes the saved estimator state once the estimates are seeded. -/
def State.estSave (s : State) : State := if s.pwr.estSeeded then (s.nvDue s.estReq).stampSaved else s

/-! ## Tables and ageing records (07 R199; 08 R235) -/

/-- Every cell of every string. -/
def State.allCells (s : State) : List Nat := s.portList.flatMap s.cellsOfStr

/-- Every table is written with its current ages. -/
def State.tablesSave (s : State) : State := s.allCells.foldl (fun s g => s.tableSave g) s

/-- The ageing record of a cell is written. -/
def State.ageSave (s : State) (g : Nat) : State := s.mirrorDue { kind := 2, key := g, body := s.ageBody g } none

/-- The ageing record of every seeded cell is written. -/
def State.agesSave (s : State) : State :=
  (s.allCells.filter (fun g => (s.est g).seeded)).foldl (fun s g => s.ageSave g) s

/-- What is written at entry to Moss or Peat (21 R511 step 4, R515 step 2; 22 R533, R534). -/
def State.saveAll (s : State) : State := s.tablesSave.agesSave.counterSave.estSave

/-- A cell's working table is loaded from a 320-byte record (07 R195). -/
def State.tableFrom (s : State) (g : Nat) (b : List Byte) : State :=
  let sg (n : Nat) : Int := (BitVec.ofNat 16 n).toInt
  let mask := field b 0x10 9
  s.onEst g (fun e => { e with
    ages := (List.range 12).map (fun i => (i, field b (4 + i) 1))
    meas := ((List.range 72).filter (fun i => mask.testBit i)).map (fun i => (i, true))
    updates := field b 0x1C 4, zreset := field b 1 1 / 2 % 2 == 1, unwritten := 0, unwrT := none, fitDue := List.range 12
    entries := (List.range 72).map (fun i => (i, (sg (field b (0x20 + 4 * i) 2), sg (field b (0x22 + 4 * i) 2)))) })

/-- A cell's working table is loaded from MRAM, where it holds one. -/
def State.tableLoad (s : State) (g : Nat) : State :=
  match Tab.find s.mram.imp g with
  | some r => s.tableFrom g r.body
  | none => s

/-- Ages below 168 become 168 when the elapsed time is unknown (07 R197). -/
def CellEst.stale168 (e : CellEst) : CellEst :=
  let ages : Tab Nat Nat := e.ages.map (fun x => (x.1, if x.2 < 168 then 168 else x.2))
  { e with ages := ages, zreset := false }

/-! ## Sectors (23 R553, R561) -/

/-- A repair waits for the next boot (23 R551, R552, R561): recorded with origin 2. -/
def State.repairPend (s : State) (kind unit : Nat) : State :=
  let r : RepairRec := { kind := kind, origin := 2, unit := unit, detail := 0, t := s.now }
  if s.repair.records.any (fun x => x.origin == 2 && x.kind == kind && x.unit == unit) then s
  else { s with repair := { s.repair with records := r :: s.repair.records } }

/-- A sector is remapped to the next spare sector, with its table entry and repair record; one more repair event is
written when fewer than 8 spares remain (R553). In the save window the repair waits for the next boot (R561). -/
def State.sectorRemap (s : State) (sector : Nat) : State :=
  let n := s.mram.remap.length
  if 48 ≤ n then s
  else if s.pwr.intr == .saveWindow then s.repairPend 4 sector
  else
    let s := s.takeCommit 0x0B
    let s := { s with mram := { s.mram with remap := s.mram.remap ++ [sector] } }
    let s := s.repaired 4 sector n 3
    if n + 1 ≤ 40 then s else s.bbEvent 7 4 255 (s.factoryRepairs.length + s.repair.records.length - 1) 0 0

/-! ## Held and deferred records (22 R536, R537) -/

/-- Records held in SRAM are written in the order in which they fell due, as soon as records may start. -/
def State.flushHeld (s : State) : State :=
  if s.mayWrite then
    let l := s.mram.held
    l.foldl (fun s h => s.nvCommit h.req) { s with mram := { s.mram with held := [] } }
  else s

/-- The save set (22 R537): each record starts with at least 10 ms of hold-up, and is otherwise held. -/
def State.saveSet (s : State) : State :=
  let one (s : State) (r : NvReq) : State :=
    if 100 ≤ s.pwr.holdup && s.mounted then s.nvCommit r
    else { s with mram := { s.mram with held := s.mram.held ++ [{ req := r, due := s.now }] } }
  let s := one s s.counterReq
  if s.pwr.estSeeded then (one s s.estReq).stampSaved else s

/-! ## The journal at a start (22 R535) -/

/-- One journal entry at the scan, oldest first: replayed when it is committed, of kind 0x01 or 0x02 and without an
applied entry; discarded when its commit word is invalid, with the event "learning discarded" for kind 0x02. -/
def State.journalEntry (s : State) (e : JEntry) : State :=
  if e.commit = 0 || e.commit = 0xFFFFFFFF then
    let s := { s with mram := { s.mram with journal := s.mram.journal.erase e } }
    if e.kind = 2 then s.bbEvent 5 0 255 e.subject 0 0 else s
  else if s.isApplied e.commit || (e.kind ≠ 1 && e.kind ≠ 2) then s
  else
    let s := if e.kind = 1 then
        let c := s.commitOf 1
        let s := s.takeCommit 1
        ({ s with mram := { s.mram with imp := s.mram.imp.set e.subject { body := e.body, commit := c } } } : State).applied e.commit
      else s.nvCommit { kind := 2, key := e.subject, body := e.body.take 0x3C }
    s.bbEvent 6 e.kind 255 e.commit 0 0

/-- The journal is scanned from its oldest entry. -/
def State.journalScan (s : State) : State := s.mram.journal.reverse.foldl (fun s e => s.journalEntry e) s

end Sys2Proof.Machine
end

