-- ==== Sys2Proof/Machine/Chain.lean ====
section
/-! DEFINITION. The commands of the chain family: waking and enumerating, responses and timeouts, probes, idle sets and
tones, breaks, events of nodes, port engines (chapters 03, 04; 23 R554, R555). -/

namespace Sys2Proof.Machine

open Sys2Proof

/-- A port of this module's configuration whose end belongs to it and is powered. -/
def State.live (s : State) (p e : Nat) : Bool := s.declared p && s.phyOn p e

/-- What an end receives reaches its port engine: the engine is powered and works (01 R34; 23 R555). -/
def State.heard (s : State) (p e : Nat) : Bool := s.live p e && s.chnUp p && (s.port p).engine

/-! ## Waking and enumerating -/

/-- WAKE_TONE_DETECTED (R73, R75): the last node wakes the end opposite to the active one, which answers it and is about to
lock. -/
def execWakeToneDetected (p : Nat) (e : Nat) (s : State) : Out :=
  .next (if s.heard p e && decide (e = s.oppEnd p) then s.onPort p (fun q => { q with answered := true }) else s)

/-- A frame that passed its checks tells its node's tone state (04 R109); one that is newly set ends a Sedge session
(07 R204), and the node's balancing (04 R132). -/
def State.nodeTone (s : State) (p a : Nat) (t : Bool) : State :=
  let old := (s.node (nk p a)).tone
  let s := s.onNode (nk p a) (fun n => { n with tone := t })
  if t && !old then (s.balHold p a []).sedgeAbort p else s

/-- A frame arrives at an end: its checks are counted there, and one that passes them is taken (01 R22; 04 R100, R111,
R112, R114). -/
def State.frameIn (s : State) (p e : Nat) (f : RawFrame) (k : State → Frame → State) : State :=
  if !s.heard p e then s
  else match frameParse f with
  | .error _ => s.frameCount p e 1 1
  | .ok f => k (s.frameCount p e 1 0) f

/-- A node's frame is taken: its tone state, then what it says. -/
def State.nodeFrame (s : State) (p : Nat) (f : Frame) (k : State → State) : State :=
  k (if 1 ≤ f.src && f.src ≤ 33 then s.nodeTone p f.src f.tone else s)

/-- An event frame of code `n` (04 R126): what it says of its node. Another frame is not this event. -/
def State.evtIn (s : State) (p e : Nat) (f : RawFrame) (n : Nat) (k : State → Nat → List Byte → State) : State :=
  s.frameIn p e f (fun s f =>
    if f.typ = 5 && f.tag = n && 1 ≤ f.src && f.src ≤ 33 then s.nodeFrame p f (fun s => k s f.src f.payload) else s)

/-- A node locks on the hop in progress: it is enumerated (R76). A node beyond the configured count raises F28
(R78). -/
def State.hopLock (s : State) (p e h : Nat) : State :=
  let a := s.hopAddr p e h
  if a = 0 then (s.stand 28 p { value := portC (s.portCfg p) + 1 }).heldEnter p
  else s.enumerate p e a

/-- An end of a standby locks: on the hop that the primary enumerates from it, which the primary is told (assumption log 86), or
at the close of the loop. -/
def State.standbyLock (s : State) (p e : Nat) : State :=
  let s := s.setLock p e true
  match (s.port p).st with
  | .fromFar => s.sendEvt (.chainLock p)
  | .wake => s.portSt p .close
  | _ => s

/-- SYMBOL_LOCK (R74, R76, R94): lock in both directions on the hop that is being enumerated from end `e`, or at the end
itself: at the opposite end the loop closes. Nodes that had been lost are sought once an end has lock again. On a port
without an engine the tone recogniser alone locks (01 R17, R18). -/
def execSymbolLock (p : Nat) (e : Nat) (s : State) : Out :=
  .next (
    if !s.live p e then s
    else if !s.heard p e then s.setLock p e true
    else
      let q := s.port p
      if !s.actsPrimary then s.standbyLock p e
      else if e = s.activeEnd p && (q.st == .wake || q.st == .retry || q.st == .extend) then
        let s := if q.hop = 1 then s.setLock p e true else s
        (s.onPort p (fun q => { q with st := .assign })).hopLock p e q.hop
      else if e = s.oppEnd p && q.st == .fromFar then
        (s.setLock p e true).hopLock p e q.fromFar
      else if e = s.oppEnd p && q.st == .extend then
        (s.setLock p e true).portSt p .close
      else
        let s := s.setLock p e true
        if q.st == .ready then s.seekLost p else s)

/-- LOOP_CLOSURE (R75, R78): the opposite end has locked and reports the closure. -/
def execLoopClosure (p : Nat) (s : State) : Out :=
  .next (
    let q := s.port p
    let listening := !s.actsPrimary && q.st == .wake
    if !s.declared p || !(q.st == .extend || q.st == .close || listening) then s
    else
      let o := s.oppEnd p
      let s := if (s.ownEnds p).contains o then s.setLock p o true else s
      (s.portSt p .close).loopDone p)

/-- The bound of a hop, from the start of its wake tone (R77). -/
def Port.hopEnd (q : Port) : Nat := q.hopT + (if q.warm then ms 3 else ms 10)

/-- A hop that has failed is retried once, from its upstream neighbour: the hop from an end by the end itself. -/
def State.hopRetry (s : State) (p e : Nat) (first : Bool) (st : PortSt) : State :=
  let s := s.onPort p (fun q => { q with st := st, retried := true, hopT := s.now })
  if first then s.toneSend p e else s

/-- HOP_TIMEOUT (R77): 3 ms after the wake tone of the hop when warm, 10 ms from Peat. The hop is retried once; then
enumeration goes on from the far end, or ends there. -/
def execHopTimeout (p : Nat) (s : State) : Out :=
  .next (
    let q := s.port p
    let timed := q.st ∈ [PortSt.wake, .assign, .extend, .close, .retry, .fromFar]
    if !s.declared p || !s.actsPrimary || !timed then s
    else
      let s := (s.at q.hopEnd).onReq p (fun l => l.filter (fun r => r.addr ≠ 62))
      if q.st == .fromFar then
        (if q.retried then s.farDone p else s.hopRetry p (s.oppEnd p) (q.fromFar == 1) .fromFar)
      else if q.retried then s.hopFailed p
      else s.hopRetry p (s.activeEnd p) (q.hop == 1) .retry)

/-! ## Responses and probes -/

/-- A standby hears a node's delays and D echoed to the primary (05 R140; 03 R84, R86). On a port that sweeps, the new D is in force once
every node that the standby's end reaches has echoed it. -/
def State.delaysHeard (s : State) (p a : Nat) (b : List Byte) : State :=
  let D := field b 4 2
  let q := s.port p
  let s := if q.dNew = D then s
    else (s.found p).foldl (fun s a => s.onNode (nk p a) (fun n => { n with delaysOk := false })) (s.onPort p (fun q => { q with dNew := D }))
  let s := s.onNode (nk p a) (fun n => { n with dN := field b 0 2, dS := field b 2 2, delaysOk := true })
  let l := (s.found p).filter (fun a => !q.split || (s.ownEnds p).contains (s.endTo p a))
  if q.st == .ready && q.calibrated && !l.all (fun a => (s.node (nk p a)).delaysOk) then s
  else s.onPort p (fun q => { q with dW := D, phase := phaseOf D, calibrated := true })

/-- What a standby learns from the responses that reach its end (R69, R83, R91): identities, and from the echoes of SET_DELAYS the
delays and D, with which it pulses when it has to (assumption log 87). -/
def State.overhear (s : State) (p : Nat) (rsp : Rsp) : State :=
  if s.actsPrimary || rsp.status ≠ 0 || rsp.src = 0 || 33 < rsp.src then s
  else match rsp.tag, rsp.data with
  | _, .identity i => if i.major = 1 then s.identityOf p rsp.src i .addressed else s
  | 0x04, .echo b => s.delaysHeard p rsp.src b
  | _, _ => s

/-- A response that is taken: it answers the request it belongs to (R113), which a standby has sent for the primary. A command that
left from the partner's end bears the partner's seq. -/
def State.rspTake (s : State) (p : Nat) (rsp : Rsp) : State :=
  let s := s.overhear p rsp
  match (s.req p).find? (fun r => r.tag == rsp.tag && (r.seq == rsp.seq || !(s.ownEnds p).contains r.end_) &&
      (r.addr == rsp.src || r.addr == 62)) with
  | some r =>
    let s := s.onReq p (fun l => l.filter (fun x => decide (x ≠ r)))
    if r.relay then s.sendEvt (.chainRsp p rsp) else s.answer p r rsp
  | none => s

/-- RSP_FRAME_RECEIVED (04 R113, R123; R76, R80, R84, R87): the answer to a command, once; a copy from the other end has
none to meet. -/
def execRspFrameReceived (p : Nat) (e : Nat) (f : RawFrame) (s : State) : Out :=
  .next (s.frameIn p e f (fun s f => if f.typ = 2 then s.nodeFrame p f (fun s => s.rspTake p (rspOf f)) else s))

/-- Processing time of a command, ns (04 R123). -/
def procTime (tag : Nat) : Nat :=
  match tag with
  | 0x05 | 0x06 => us 100
  | 0x0B => ms 1
  | 0x0C => ms 20
  | 0x0F => ms 5
  | _ => us 20

/-- A command is sent again, with rtx and the same seq, by the end it left from. -/
def State.cmdAgain (s : State) (p : Nat) (r : ChainReq) : State :=
  let s := s.onReq p (fun l => l.map (fun x => if x = r then { x with tries := x.tries + 1, t := s.now } else x))
  if (s.ownEnds p).contains r.end_ then
    s.emit (.chain p r.end_ s.now (cmdFrame r.end_ r.addr r.tag r.seq true r.payload))
  else s.sendEvt (.chainCmd p r.addr r.tag true r.payload)

/-- CMD_RESPONSE_TIMEOUT (04 R113): no response within 2 D, the processing time and 20 µs; the command is retransmitted, at
most twice. What a standby has sent for the primary is the primary's to repeat. -/
def execCmdResponseTimeout (p : Nat) (addr : Nat) (s : State) : Out :=
  .next (
    match (s.req p).find? (fun r => r.addr == addr && !r.relay) with
    | none => s
    | some r =>
      let s := s.at (r.t + 2 * (s.port p).dW + procTime r.tag + us 20)
      if r.tries < 3 then s.cmdAgain p r
      else (s.onReq p (fun l => l.filter (fun x => decide (x ≠ r)))).silent p r)

/-- Hop delay of a round trip, ns (R83). -/
def hopDelay (rtt tta : Nat) : Nat := (rtt - tta) / 2

/-- A measuring probe's reply is added; the sixteenth gives the delay. -/
def State.probeAdd (s : State) (p e a rtt : Nat) : State :=
  s.onNode (nk p a) (fun n =>
    if e = 0 then
      let sum := n.sumN + rtt
      { n with probesN := n.probesN + 1, sumN := sum, newN := if n.probesN = 15 then (sum - 16 * n.tta) / 32 else n.newN }
    else
      let sum := n.sumS + rtt
      { n with probesS := n.probesS + 1, sumS := sum, newS := if n.probesS = 15 then (sum - 16 * n.tta) / 32 else n.newS })

/-- A node's delay differs by `diff` ns from the stored one (R86): more than 20 ns calls for a recalibration, more than 100 ns
or a difference that a recalibration has left raises F29. -/
def State.probeDiff (s : State) (p a diff : Nat) : State :=
  let bad := decide (20 < diff)
  let s := s.onNode (nk p a) (fun n => { n with diff := bad })
  if !bad then s
  else
    let s := if 100 < diff || (s.port p).recalTried then s.stand 29 p { value := a } else s
    s.onPort p (fun q => { q with recal := true })

/-- A probe of the running cycle (R86), or across a repaired hop (R95), is compared with the stored delay; a standby tells the
primary of a difference (assumption log 86). -/
def State.probeCompare (s : State) (p e a rtt : Nat) : State :=
  let n := s.node (nk p a)
  let d := hopDelay rtt n.tta
  let st := if e = 0 then n.dN else n.dS
  let diff := if d < st then st - d else d - st
  if s.actsPrimary then s.probeDiff p a diff
  else if 20 < diff then s.sendEvt (.chainDiff p a diff) else s

/-- A probe reply counts for the calibration of its node (R83, R86): the sixteenth is told the partner by a standby, and
the next probe follows, or the end of the calibration. -/
def State.probeTaken (s : State) (p e addr rtt : Nat) : State :=
  let s := s.probeAdd p e addr rtt
  let m := s.node (nk p addr)
  let s := if m.probes e = 16 && s.partnerUp && s.pair.role == .standby then
      s.sendMirror (.hopDelay p addr (if e = 0 then m.newN else m.newS)) else s
  if (s.nextProbe p).isNone then s.calDone p else s.probeNext p

/-- PROBE_REPLY (R83–R86, R95): the round trip of a probe from end `e` to node `addr`. -/
def execProbeReply (p : Nat) (e : Nat) (addr : Nat) (rtt : Nat) (s : State) : Out :=
  .next (
    let q := s.port p
    let n := s.node (nk p addr)
    if !s.heard p e || n.missing || !(n.st == .addressed || n.st == .ready) then s
    else if q.st == .calibrate || (q.recalOn && decide (n.probes e < 16)) then
      if 16 ≤ n.probes e then s else s.probeTaken p e addr rtt
    else if q.st == .ready then s.probeCompare p e addr rtt
    else s)

/-- DELAY_PROBE_CYCLE (R86): the active end sends one probe to each node, in split mode each end to those on its side. -/
def execDelayProbeCycle (p : Nat) (s : State) : Out :=
  .next (
    let q := s.port p
    if q.st != .ready || !(s.actsPrimary || q.split) || q.recalOn then s
    else
      let s := if (s.found p).any (fun a => (s.node (nk p a)).diff) then s
        else s.onPort p (fun q => { q with recalTried := false })
      ((s.found p).filter (fun a => (s.ownEnds p).contains (s.endTo p a))).foldl (fun s a => s.probeSend p (s.endTo p a) a) s)

/-- INTERPOLATOR_PHASE_REACHED (05 R140): the transmit phase is at its new value, and the new D is written, by a module that acts as
primary; a standby's end, which the primary has told of it, only moves its phase. -/
def execInterpolatorPhaseReached (p : Nat) (s : State) : Out :=
  .next (
    let q := s.port p
    if q.dNew = 0 || !(q.recalOn || !s.actsPrimary) then s
    else if !s.actsPrimary then s.onPort p (fun q => { q with phase := phaseOf q.dNew })
    else
      let s := s.onPort p (fun q => { q with phase := phaseOf q.dNew })
      (s.found p).foldl (fun s a => s.writeDelays p a) s)

/-! ## Idle sets and tones -/

/-- IDLE_ORDERED_SET (04 R104, R105; R583): three consecutive IDLE_FAULT sets are the fault tone; F24 of the end is over,
and F25 of it after 1 ms of IDLE_OK only. -/
def execIdleOrderedSet (p : Nat) (e : Nat) (isFault : Bool) (s : State) : Out :=
  .next (
    if !s.live p e || !s.locked p e then s
    else
      let s := s.f24Off p e
      let n := (s.port p).tone.getD e 0
      if isFault then
        let s := s.onPort p (fun q => { q with tone := q.tone.set e (min (n + 1) 3), okIdleT := q.okIdleT.set e none })
        if n = 2 then s.toneTrip p e else s
      else
        let t := ((s.port p).okIdleT.getD e none).getD s.now
        let s := s.onPort p (fun q => { q with tone := q.tone.set e 0, okIdleT := q.okIdleT.set e (some t) })
        if t + ms 1 ≤ s.now then s.f25Off p e else s)

/-- The tone is treated as ceased at an end without lock or idle sets (04 R105): its count starts anew, and so does the 1 ms of IDLE_OK that
ends F25 (11 R583). -/
def State.toneOver (s : State) (p e : Nat) : State :=
  s.onPort p (fun q => { q with tone := q.tone.set e 0, okIdleT := q.okIdleT.set e none })

/-- LOSS_OF_SYMBOL_LOCK (04 R105): for more than 2 µs; the tone is taken as ceased, and F24 is raised for the end. -/
def execLossOfSymbolLock (p : Nat) (e : Nat) (s : State) : Out :=
  .next (
    if !s.live p e then s
    else
      ((s.setLock p e false).toneOver p e).f24On p e)

/-- IDLE_SET_TIMEOUT (04 R105): lock held without an idle ordered set for 400 µs. -/
def execIdleSetTimeout (p : Nat) (e : Nat) (s : State) : Out :=
  .next (
    if !s.live p e || !s.locked p e then s
    else
      (s.toneOver p e).f24On p e)

/-- ALARM_TONE_DETECTED (04 R107): treated as recognition of the fault tone, on a port in NAP too. -/
def execAlarmToneDetected (p : Nat) (e : Nat) (s : State) : Out :=
  .next (
    if !s.declared p || !(s.ownEnds p).contains e || s.pwr.st == .peat then s
    else
      let s := s.onPort p (fun q => { q with okIdleT := q.okIdleT.set e none })
      s.toneTrip p e)

/-! ## Breaks and split mode (R88–R95) -/

/-- A break between addresses `b` and `b + 1`: F26, and split mode at the next sweep boundary. A second break leaves the
nodes between the two unreachable (R94). -/
def State.breakAt (s : State) (p b : Nat) : State :=
  let q := s.port p
  let s := if s.actsPrimary then s.stand 26 p { value := b } else s
  if q.split || q.splitReq then
    let lo := min q.brkNode b
    let hi := max q.brkFar b
    let s := s.onPort p (fun q => { q with brkNode := lo, brkFar := hi, restoredT := none })
    ((addrs (s.portCfg p)).filter (fun a => decide (lo < a) && decide (a ≤ hi))).foldl (fun s a => s.nodeLost p a) s
  else s.onPort p (fun q => { q with brkNode := b, brkFar := b, splitReq := true, restoredT := none })

/-- The address north of the hop that an event names: node `a` and its north (0) or south (1) side. -/
def hopOf (a side : Nat) : Nat := if side = 0 then a - 1 else a

/-- BREAK_EVENT (R88, R90): a node has lost lock on its north or south side. A module of a pair tells its partner, whose end
the report need not reach (R90 step 3; assumption log 86). -/
def execBreakEvent (p : Nat) (e : Nat) (f : RawFrame) (s : State) : Out :=
  .next (s.evtIn p e f 0x01 (fun s a b =>
    let s := s.breakAt p (hopOf a (field b 0 1))
    if s.partnerUp then s.sendEvt (.chainBreak p (hopOf a (field b 0 1))) else s))

/-- A hop is whole again (R94, R95): of two breaks the other stays; the last one repaired, the active end probes across the
hop. Nodes that had been lost are sought. -/
def State.hopRestored (s : State) (p b : Nat) : State :=
  let q := s.port p
  if !(q.split || q.splitReq) then s
  else if q.brkNode ≠ q.brkFar then
    (s.onPort p (fun q => { q with
      brkNode := if b = q.brkNode then q.brkFar else q.brkNode, brkFar := if b = q.brkFar then q.brkNode else q.brkFar })).seekLost p
  else
    let s := s.seekLost p
    if b ≠ q.brkNode || q.restoredT.isSome then s
    else
      let s := s.onPort p (fun q => { q with restoredT := some s.now })
      let e := s.activeEnd p
      let far := if e = 0 then b + 1 else b
      if (s.found p).contains far && (s.ownEnds p).contains e then s.probeSend p e far else s

/-- RESTORED_EVENT (R94, R95): the nodes on either side of a hop hold lock without errors for 1 s. -/
def execRestoredEvent (p : Nat) (e : Nat) (f : RawFrame) (s : State) : Out :=
  .next (s.evtIn p e f 0x02 (fun s a b => s.hopRestored p (hopOf a (field b 0 1))))

/-- SPLIT_MODE_ENTRY (R89–R91): at the next sweep boundary both ends issue, in a pair with the primary's sweep number (05 R156;
assumption log 86). -/
def execSplitModeEntry (p : Nat) (s : State) : Out :=
  .next (
    if (s.port p).splitReq then (s.onPort p (fun q => { q with split := true, splitReq := false })).sweepTell p else s)

/-- SPLIT_MODE_END (R95): 10 s without an error on the repaired hop, at a sweep boundary. The condition of F26 is over. -/
def execSplitModeEnd (p : Nat) (s : State) : Out :=
  .next (
    let q := s.port p
    match q.restoredT with
    | some t =>
      if !(q.split || q.splitReq) || q.recal || q.recalOn then s
      else
        let s := s.at (t + sec 10)
        (s.onPort p (fun q => { q with split := false, splitReq := false, restoredT := none })).cease 26 p
    | none => s)

/-! ## Events of nodes (04 R126) -/

/-- Position of the first channel of a mask on a node, and of the first sensor. -/
def State.maskPos (s : State) (p a : Nat) (m : Nat) (n w : Nat) : Nat :=
  match monOrder (s.portCfg p) a with
  | some o => n * o + ((List.range n).find? (fun i => (BitVec.ofNat w m).getLsbD i)).getD 0
  | none => 0xFFFF

/-- The crossed cells and sensors of a node whose tone state is set: F00, F01 and F08 latch (11 R289). -/
def State.toneOrigin (s : State) (p a ov uv ot : Nat) : State :=
  let s := s.nodeTone p a true
  let go (s : State) (n m pos : Nat) : State :=
    if m = 0 then s else if s.stands n p then s.stand n p { pos := pos } else s.finding n p { pos := pos }
  let s := go s 0 ov (s.maskPos p a ov 16 16)
  let s := go s 1 uv (s.maskPos p a uv 16 16)
  go s 8 ot (s.maskPos p a ot 8 8)

/-- TONE_ORIGIN_EVENT (04 R104; 11 R289): the node whose tone state is set names the crossed cells and sensors. The frame
arrives at `t`. -/
def execToneOriginEvent (p : Nat) (e : Nat) (bytes : List Byte) (lineErr : Bool) (t : Nat) (s : State) : Out :=
  .next ((s.at t).evtIn p e { bytes := bytes, lineErr := lineErr } 0x03 (fun s a b => s.toneOrigin p a (field b 0 2) (field b 2 2) (field b 4 1)))

/-- SELF_TEST_FAIL_EVENT (04 R126): F31 stands until a SELF_TEST of the node returns 0. -/
def execSelfTestFailEvent (p : Nat) (e : Nat) (f : RawFrame) (s : State) : Out :=
  .next (s.evtIn p e f 0x04 (fun s a b =>
    if field b 0 4 = 0 then s else (s.onNode (nk p a) (fun n => { n with selftest := true })).f31Settle p))

/-- NV_FAIL_EVENT (04 R126): a passport write failed after its response, as the port end `pe` hears: the port and,
as the parity, the end. -/
def execNvFailEvent (pe : Nat) (f : RawFrame) (s : State) : Out :=
  .next (s.evtIn (pe / 2) (pe % 2) f 0x05 (fun s a _ => s.onNode (nk (pe / 2) a) (fun n => { n with nvFail := true })))

/-! ## Port engines (R96; 23 R554, R555, R558) -/

/-- F07 of a port (11 R287): a cell without a valid sample. -/
def State.f07Settle (s : State) (p : Nat) : State :=
  match (s.cellsOfStr p).find? (fun g => (s.cell g).stale) with
  | some g => s.stand 7 p { pos := g % 512 }
  | none => s.cease 7 p

/-- A port is left without an engine: its cells are stale (23 R555). -/
def State.noEngine (s : State) (p : Nat) : State :=
  let s := s.onPort p (fun q => { q with engine := false, sweepOpen := false })
  ((s.cellsOfStr p).foldl (fun s g => s.onCell g (fun c => { c with stale := true, word := c.word ||| (1#32 <<< 22) })) s).f07Settle p

/-- An engine, 16 for PE16, is declared failed (23 R554, R555): it is not used again, and a port that has lost its engine
waits for its substitution, or is left without one. -/
def State.engineFail (s : State) (eng : Nat) : State :=
  let s := { s with repair := { s.repair with engBad := s.repair.engBad ||| (1#17 <<< eng) } }
  if eng = 16 then
    let s := { s with repair := { s.repair with pe16Bad := true } }
    match s.repair.pe16Port with
    | some p => s.noEngine p
    | none => s
  else if (s.port eng).engineBad then s
  else
    let s := s.onPort eng (fun q => { q with engineBad := true, engine := false })
    if s.repair.pe16Bad || s.repair.pe16Port.isSome then s.noEngine eng else s

/-- ENGINE_LOOPBACK_TEST (23 R554, R555): the safety cores declare an engine failed when its test fails. -/
def execEngineLoopbackTest (eng : Nat) (ok : Bool) (s : State) : Out :=
  .next (if ok || !s.drv.coresUp then s else s.engineFail eng)

/-- PE16 takes up a port; its state and sequence numbers go on (R96). In the save window the repair waits for the next boot
(23 R561). -/
def State.engineTake (s : State) (p : Nat) : State :=
  if s.repair.pe16Bad || s.repair.pe16Port.isSome then s
  else if s.pwr.intr == .saveWindow then s.repairPend 5 p
  else
    let s := { s with repair := { s.repair with pe16Port := some p } }
    (s.onPort p (fun q => { q with engine := true })).repaired 5 p 16 4

/-- ENGINE_SUBSTITUTION (R96; 23 R554): the safety cores have declared the port's engine failed, by its loopback test, for
want of a sweep, or by its checksum, and PE16 takes up the port. -/
def execEngineSubstitution (p : Nat) (s : State) : Out :=
  .next (
    if !s.drv.coresUp then s
    else ((if (s.port p).engineBad then s else s.engineFail p).engineTake p))

end Sys2Proof.Machine
end

