-- ==== Sys2Proof/Machine/Contactor.lean ====
section
/-! DEFINITION. The commands of the contactor family: the deadlines of the close sequence and the checks at open
(12 R316–R331). A deadline moves the time base to its instant (assumption log 11) and does nothing where it no longer
applies (assumption log 12). -/

namespace Sys2Proof.Machine

open Sys2Proof

/-- The sequence runs and is at a step; while the safety cores are in reset the outputs hold (12 R330). -/
def State.atPh (s : State) (ph : SeqPhase) : Bool := s.seq.active && !s.seq.reverting && s.seq.ph == ph && s.drv.coresUp

/-- PRECLOSE_TEST_END (R316 step 4): the pre-close test has passed, and the KN coil is switched on. -/
def execPrecloseTestEnd (s : State) : Out :=
  let p := s.seqLead
  .next (match s.ctrOf p .pre, s.ctrOf p .kn with
    | some i, some kn =>
      if !s.atPh .preOn then s
      else
        let s := s.at (s.seq.t + s.closeNs i + ms 50)
        if s.seqBarred then s.seqFault 2
        else if s.supplyLow kn then s.seqAbort 5
        else
          let s := s.ctrOn kn
          let tc := s.now + s.closeNs kn
          let c := ((s.portCfg p).pre.getD { r := 0, c := 0, rating := 0 })
          ({ s with seq := { s.seq with
              ph := .kn, t := s.now, tc := tc, tau := 0, cest := 0, fitRep := none, okSamples := 0, outOfWin := 0, samples := [], fitted := false, busH := []
              tout := 9 * tauExp c / 2 + ms s.gen.margin } } : State).seqTell
    | _, _ => s)

/-- FIRST_FIT_DUE (R316 step 5): at t_c + the greater of 0.2 τ_exp and 6 sweep periods. -/
def execFirstFitDue (s : State) : Out :=
  let p := s.seqLead
  .next (
    if !(s.atPh .kn || s.atPh .charging) || s.seq.fitted then s
    else
      let c := ((s.portCfg p).pre.getD { r := 0, c := 0, rating := 0 })
      let s := s.at (s.seq.tc + max (tauExp c / 5) (6 * period (s.port p).mode))
      let s := ({ s with seq := { s.seq with ph := .charging, fitted := true } } : State).seqTell
      if s.busRose p then s.seqFit p else s.noRise p)

/-- PRECHARGE_TIMEOUT (R316 step 7, R319). -/
def execPrechargeTimeout (s : State) : Out :=
  let p := s.seqLead
  .next (
    if !(s.atPh .kn || s.atPh .charging) then s
    else
      let s := s.at (s.seq.tc + s.seq.tout)
      ((s.seqAbort 0x0A).finding 35 p { value := s.vBus p }).seqKick)

/-- CLOSE_TIME_ELAPSED (R322 step 4; R316 steps 4 and 5): with pre-charge, charging begins; in the window, KP closes when
|V_x| is still within ΔV, and otherwise KN opens and the member waits for the window again. -/
def execCloseTimeElapsed (s : State) : Out :=
  let p := s.seqLead
  .next (
    if s.atPh .kn then
      let s := s.at s.seq.tc
      ({ s with seq := { s.seq with ph := .charging } } : State).seqTell
    else if s.atPh .knWin then
      match s.ctrOf p .kn with
      | some kn =>
        let s := s.at (s.seq.t + s.closeNs kn)
        if s.inWindow then (s.kpStart p .kpWin).seqKick
        else
          let s := s.ctrOff kn [kn] false
          let s := if (s.ctr kn).st != .opening then s
            else s.onOpn p (fun o => { o with ph := .first, first := .kn, t := s.now, loaded := false, await := false, wasConn := false })
          let s := s.seqPh .waitWindow
          { s with seq := { s.seq with winOk := [] } }
      | none => s
    else s)

/-- CLOSE_VERIFY_TIMEOUT (R316 step 9, R322 step 5): the close time + 50 ms has elapsed, and the contactor is verified or
F33 is raised. -/
def execCloseVerifyTimeout (s : State) : Out :=
  let p := s.seqLead
  .next (
    if s.atPh .kp || s.atPh .kpWin then
      match s.ctrOf p .kp with
      | some i =>
        let s := s.at (s.seq.t + s.closeNs i + ms 50)
        (if s.kpOk p then s.kpVerified p else s.seqF33 [i]).seqKick
      | none => s
    else if s.atPh .oth then
      match s.seqMember with
      | .oth i =>
        let s := s.at (s.seq.t + s.closeNs i + ms 50)
        (if s.auxOpen i || !s.othOn i then s.seqF33 [i] else s.memberDone).seqKick
      | .string _ => s
    else s)

/-- PRE_OPEN_VERIFY (R316 step 11): the PRE open time + 20 ms has elapsed; the member is DONE, or F32 is raised for a PRE
whose wired auxiliary contact still reads closed (R328). -/
def execPreOpenVerify (s : State) : Out :=
  let p := s.seqLead
  .next (
    if !s.atPh .preOff then s
    else match s.ctrOf p .pre with
      | some i =>
        let s := s.at (s.seq.t + s.openNs i + ms 20)
        (if s.auxClosed i then s.seqF32 [i] else (s.setCtr i .isOpen).memberDone).seqKick
      | none => s.memberDone.seqKick)

/-- WINDOW_WAIT_EXPIRY (R322 step 2, R316): the member fails with VOLTAGE_WINDOW without switching. -/
def execWindowWaitExpiry (s : State) : Out :=
  .next (
    if !(s.atPh .waitSamples || s.atPh .waitWindow) then s
    else ((s.at (s.seq.t0 + ms s.gen.windowWait)).memberEnd 0x0C).seqKick)

/-- CHECK_AT_OPEN (R327, R328): of a string by the first current sample at or after the instant of the check, of OTH contactor `c`, named as 17 + c, by its auxiliary
contact. -/
def execCheckAtOpen (p : Nat) (s : State) : Out :=
  let i := p - 17
  let p := s.leadOf p
  .next (
    if !s.drv.coresUp then s
    else if 17 ≤ p then
      (if (s.ctr i).st != .opening then s
       else ((s.at ((s.ctr i).t + s.openNs i + ms 20)).verifyOpen i).seqKick)
    else if (s.opn p).ph != .first then s
    else
      let s := s.at (s.checkDue p)
      if s.checkHas p then (s.checkOpen p).seqKick else s.onOpn p (fun o => { o with await := true }))

/-- CHECK_AT_OPEN_NO_DATA (R327): no valid sample or substitute within 100 ms of the instant of the check. -/
def execCheckAtOpenNoData (p : Nat) (s : State) : Out :=
  let p := s.leadOf p
  .next (
    if (s.opn p).ph != .first || s.checkHas p || !s.drv.coresUp then s
    else ((s.at (s.checkDue p + ms 100)).checkNoData p).seqKick)

/-- SECOND_CONTACTOR_CHECK (R327): the other contactor's open time + 20 ms, or that time after the release of F34. -/
def execSecondContactorCheck (p : Nat) (s : State) : Out :=
  let p := s.leadOf p
  .next (
    if !s.drv.coresUp then s
    else match (s.opn p).ph with
    | .second | .suspect | .released | .noData => ((s.at (s.openDue p (s.otherOf p))).secondCheck p).seqKick
    | _ => s)

/-- BUS_DISCHARGE_TIMEOUT (R328): the bus has not fallen to 10 % of V_str, and F32 is raised for the contactor opened
last. -/
def execBusDischargeTimeout (p : Nat) (s : State) : Out :=
  let p := s.leadOf p
  .next (
    if !(s.opn p).bus then s
    else
      let s := s.at (s.opn p).busT
      let s := s.onOpn p (fun o => { o with bus := false })
      if 9 * s.vStr p ≤ 10 * ((s.str p).vx.getD 0).natAbs then s
      else match s.otherOf p with
        | some j => s.weld j
        | none => s)

/-- PRECHARGE_LOCKOUT_END (R321): a lockout ends when neither of its conditions holds. -/
def execPrechargeLockoutEnd (p : Nat) (s : State) : Out := .next (s.lockCheck p)

/-- F37 stands while a coil channel is tripped or in open load, or a coil-off echo of the partner is missing (13 R340;
12 R331). -/
def State.f37Cond (s : State) : Bool :=
  s.pair.noEcho != 0 || (List.range 12).any (fun ch => s.isCoil ch && ((s.outc ch).tripped || (s.outc ch).openLoad))

/-- F37 stands or ceases as its conditions say; it names the channel and the contactors on it, those of a later channel too (13 R340). -/
def State.f37Settle (s : State) (ch : Nat) : State :=
  let l := s.ctrsOn ch
  let named := s.isLatched 37 16
  let s := s.setCond 37 16 s.f37Cond { value := ch, pos := l.headD 0xFFFF }
  if named && ((s.outc ch).tripped || (s.outc ch).openLoad || s.pair.noEcho.getLsbD ch) then s.f37Rec l ch else s

/-- COIL_ECHO_TIMEOUT (R331): no echo of a coil-off within 2 ms; the primary raises F37 for the partner's channel. -/
def execCoilEchoTimeout (ch : Nat) (s : State) : Out :=
  .next (
    match s.pair.coilWait.find? (fun x => x.1 == ch) with
    | none => s
    | some x =>
      let s := s.at (x.2 + ms 2)
      let s := { s with pair := { s.pair with
        coilWait := s.pair.coilWait.filter (fun y => y ≠ x), noEcho := s.pair.noEcho ||| (1#12 <<< ch) } }
      s.f37Settle ch)

end Sys2Proof.Machine
end

