-- ==== Sys2Proof/Machine/Reset.lean ====
section
/-! DEFINITION. Resets of the cores, the hold window and limp-home (13 R343–R347; 21 R518–R521), and the end of a
maintenance session (14 R371). -/

namespace Sys2Proof.Machine

open Sys2Proof

/-- A maintenance session ends: its cause 1 close command, 2 idle time, 3 contactor close command, 4 reset of the safety
cores (14 R371; 11 R305). -/
def State.maintEnd (s : State) (cause : Nat) : State :=
  if s.cfg.maint then
    ({ s with cfg := { s.cfg with maint := false } } : State).eventRec 6 3 0 255 0 cause 0
  else s

/-- The hold window starts (13 R344); a window that runs is not restarted (21 R527). Outputs and LSW latches hold. -/
def State.holdStart (s : State) : State :=
  let s := s.maintEnd 4
  let s := { s with drv := { s.drv with coresUp := false, downT := s.now, interrupted := s.drv.interrupted || s.seq.active, partHeld := s.drv.partHeld || s.partnerUp } }
  if s.drv.hold then s
  else
    let s := { s with drv := { s.drv with hold := true, holdEnd := s.now + sec s.gen.hold } }
    (s.event .drv 7).eventRec 2 8 0 255 1 s.holdLeft 0

/-- A reset of the safety cores with its GLB_RESET_CAUSE bit (21 R518). -/
def State.safeReset (s : State) (cause : Nat) : State := (s.resetCause cause).holdStart

/-- The active firmware slot under trial is given up for the previous one (22 R540). -/
def State.fwRevert (s : State) : State :=
  let m := s.mram
  let s := { s with mram := { m with fwActive := m.fwPrev, fwTrialT := none, fwVersion := (m.fw.getD m.fwPrev {}).version } }
  s.bbEvent 0x0B m.fwPrev 255 (m.fw.getD m.fwPrev {}).version 0 0

/-- A safety core watchdog or lockstep reset (21 R518, R521; 22 R540): the third within 10 min leaves the cores held in
reset, with its repair record (23 R558); within 10 min of a trial start the firmware reverts. -/
def State.watchReset (s : State) (cause : Nat) : State :=
  let recent := (s.drv.resets.filter (fun t => s.now < t + mins 10)).length
  let s := { s with drv := { s.drv with resets := (s.now :: s.drv.resets).take 3 } }
  let s := s.safeReset cause
  let s := if 2 ≤ recent && !s.drv.coresHeld then
      ({ s with drv := { s.drv with coresHeld := true } } : State).repairRec 7 0 0
    else s
  match s.mram.fwTrialT with
  | some t => if s.now < t + mins 10 then s.fwRevert else s
  | none => s

/-- Commands passed to the safety cores: contactors and drive, and fault clear (18 R460). -/
def passedToSafe (op : Nat) : Bool := (0x30 ≤ op && op ≤ 0x34) || op == 0x40

/-- A reset of the service cores (21 R518, R520; 18 R460): fetching and stream writing pause, commands passed to the
safety cores complete with TIMEOUT, the others go on once the cores resume. -/
def State.svcReset (s : State) (cause : Nat) : State :=
  let s := s.resetCause cause
  let s := { s with drv := { s.drv with svcUp := false } }
  let s := (List.range 64).foldl (fun s n => if (s.ring n).en then s.onRing n (fun r => { r with paused := true }) else s) s
  (s.host.running.filter (fun c => passedToSafe c.ref.opcode)).foldl (fun s c => s.fail c.ref 5) s

/-! ## Channels -/

/-- LATCH mode of a channel: always for a coil channel (13 R340). -/
def State.latchMode (s : State) (ch : Nat) : Bool := s.isCoil ch || (s.outCfg ch).latch

/-- Coils of a channel lost without command: their contactors pass through OPENING under the checks at open (13 R340). -/
def State.coilLost (s : State) (ch : Nat) : State :=
  (s.ctrsOn ch).foldl (fun s i =>
    if !(s.ctr i).coil && !s.heldOn i then s
    else
      let s := (s.onCtr i (fun k => { k with coil := false, above := false, t := s.now })).setCtr i .opening
      match s.ctrCfg i with
      | some c =>
        if (c.role == .kp || c.role == .kn) && (s.opn c.port).ph == .idle then
          s.onOpn c.port (fun o => if !s.actsPrimary then o else { o with
            ph := .first, first := c.role, t := s.now, loaded := false, reqs := o.reqs + 1 })
        else s
      | none => s) s

/-- A coil channel that hardware switches off: in a pair the partner's paralleled channel holds the coil (02 R61; 13 R344);
otherwise its contactors open. -/
def State.coilCut (s : State) (ch : Nat) : State := if s.partnerUp || s.drv.partHeld then s else s.coilLost ch

/-! ## Limp-home (13 R345–R347) -/

/-- Level of the DIN that drives a channel. -/
def State.dinOf (s : State) (ch : Nat) : Bool := s.drv.din.getLsbD (s.fuse.set.din.getD ch 0)

/-- A selected channel follows its DIN, and its contactors read UNKNOWN (13 R346). -/
def State.limpChannel (s : State) (ch : Nat) : State :=
  let on := s.dinOf ch && !(s.outc ch).tripped && s.outUp && s.fed ch
  let s := s.onOutc ch (fun o => { o with on := on, onT := if on && !o.on then s.now else o.onT })
  (s.ctrsOn ch).foldl (fun s i => (s.onCtr i (fun k => { k with coil := on })).setCtr i .unknown) s

/-- A check at open that limp-home meets (13 R346): a selected contactor carries none. With F selected the opening goes on with the other
contactor, whose auxiliary contact is still checked; with the other one selected it ends once F has been checked (12 R327, R328). -/
def State.limpCheck (s : State) (p : Nat) : State :=
  match s.ctrOf p (s.firstOf p), s.otherOf p with
  | some f, some j =>
    let ph := (s.opn p).ph
    if ph == .idle || !(s.limpCtr f || s.limpCtr j) then s
    else if !s.drv.coresUp then s.onOpn p (fun o => { o with ph := .idle, await := false })
    else if s.limpCtr j then (if ph == .first && !s.limpCtr f then s else s.openDone p)
    else
      let s := if ph == .first then s.ctrOff j (s.ctrsOf p) false else s
      s.onOpn p (fun o => { o with ph := .noData, t := s.now, await := false })
  | _, _ => s

/-- Channels selected for limp-home. -/
def State.limpChannels (s : State) : List Nat := (List.range 12).filter s.limpSel

/-- In limp-home with the safety cores dead, unselected channels are off (13 R346). -/
def State.limpDead (s : State) : State :=
  if s.drv.dead then
    ((List.range 12).filter (fun ch => !s.limpSel ch)).foldl (fun s ch => (s.channel ch false).coilCut ch) s
  else s

/-- Limp-home begins: 1 by LIMP_N, 2 by the watchdog (13 R345; 12 R330). With the safety cores dead, unselected channels
are off. A sequence is aborted by the safety cores (01 R15): one that their reset interrupted is closed out when they
resume (12 R330). -/
def State.limpEnter (s : State) (by_ : Nat) : State :=
  if s.drv.limp then s.limpDead
  else
    let s := { s with drv := { s.drv with limp := true, limpWd := by_ == 2 } }
    let s := (s.event .drv 5).eventRec 2 7 0 255 1 by_ 0
    let s := if s.drv.coresUp then s.seqAbort 0x0F else s
    let s := s.limpChannels.foldl (fun s ch =>
      (s.onOutc ch (fun o => { o with restart := o.tripped })).limpChannel ch) s
    (s.portList.foldl (fun s p => s.limpCheck p) s).limpDead

/-- Limp-home ends (13 R347): selected coil channels switch off, and the other selected channels return to their rule. -/
def State.limpExit (s : State) : State :=
  if !s.drv.limp then s
  else
    let by_ := if s.drv.limpWd then 2 else 1
    let s := { s with drv := { s.drv with limp := false, limpWd := false } }
    let s := (s.event .drv 6).eventRec 2 7 0 255 0 by_ 0
    s.limpChannels.foldl (fun s ch =>
      if s.isCoil ch then
        let s := s.coil ch false
        let s := (s.ctrsOn ch).foldl (fun s i => s.onCtr i (fun k => { k with coil := true })) s
        s.coilLost ch
      else
        let on := if (s.outCfg ch).use == .thermal && s.pwr.st == .run then s.thermWant ch else (s.outc ch).cmd
        s.channel ch on) s

end Sys2Proof.Machine
end

