-- ==== Sys2Proof/Machine/Regs.lean ====
section
/-! DEFINITION. What BAR0 reads (20 R489–R506; 18 R441–R445; 16 R395): the 32-bit value at an offset. -/

namespace Sys2Proof.Machine

open Sys2Proof

/-- A temperature or current in 16 bits, two's complement (00 R11). -/
def s16 (v : Int) : Nat := (v % 65536).toNat

/-- A signed value in 32 bits, two's complement. -/
def s32 (v : Int) : Nat := (v % 4294967296).toNat

/-- A signed value in 64 bits, two's complement. -/
def s64 (v : Int) : Nat := (v % 18446744073709551616).toNat

/-- RING_CTRL (18 R442). -/
def ctrlWord (r : Ring) : Nat :=
  r.en.toNat + 4 * r.typ.ctorIdx + 16 * r.sizeLog2 + 512 * r.cq + 65536 * r.vector + 4194304 * r.ie.toNat + 16777216 * r.fn

/-- RING_STATUS (18 R443). -/
def statusWord (r : Ring) : Nat := r.run.toNat + 2 * r.err.toNat + 65536 * r.gen

/-- GLB registers (R494). -/
def State.glbReg (s : State) (o : Nat) : Nat :=
  match o with
  | 0x000 => 0x01014096
  | 0x004 => s.mram.fwVersion
  | 0x008 => s.serial % 2 ^ 32
  | 0x00C => s.serial / 2 ^ 32
  | 0x010 => s.glbStatus
  | 0x014 => s.sealInForce
  | 0x018 => match s.cfg.pend with | some b => (crc32c b.bytes).toNat | none => 0
  | 0x020 => (s.evr .resetCause).bits.toNat
  | 0x024 => (s.evr .resetCause).cnt
  | 0x028 => s.host.resetTime % 2 ^ 32
  | 0x02C => s.host.resetTime / 2 ^ 32
  | 0x030 => s.latchedMask % 2 ^ 32
  | 0x034 => s.latchedMask / 2 ^ 32
  | 0x038 => s.standingMask % 2 ^ 32
  | 0x03C => s.standingMask / 2 ^ 32
  | 0x040 => (s.evr .irqStatus).bits.toNat
  | 0x044 => (s.evr .irqStatus).cnt
  | 0x048 => (s.irqc .glb0).toNat
  | 0x04C => (s.irqc .glb1).toNat
  | 0x058 => (s.evr .ringPendLo).bits.toNat
  | 0x05C => (s.evr .ringPendLo).cnt
  | 0x060 => (s.evr .ringPendHi).bits.toNat
  | 0x064 => (s.evr .ringPendHi).cnt
  | _ => 0

/-- PWR registers (R497). -/
def State.pwrReg (s : State) (o : Nat) : Nat :=
  match o with
  | 0x000 => s.pwr.entering + 256 * s.pwr.wakeSrc
  | 0x004 => s.pwr.domains.toNat
  | 0x008 => s.gen.wakeEn
  | 0x00C => s.pwr.wakeTimer.toNat
  | 0x010 => (s.evr .pwr).bits.toNat
  | 0x014 => (s.evr .pwr).cnt
  | 0x018 => s.pwr.vsup
  | 0x01C => s.pwr.vcoilA
  | 0x020 => s.pwr.vcoilB
  | 0x024 => s.pwr.holdup
  | 0x028 => (s.irqc .pwr).toNat
  | _ => 0

/-- RING registers (18 R441). -/
def State.ringReg (s : State) (o : Nat) : Nat :=
  let r := s.ring (o / 64)
  match o % 64 with
  | 0x00 => ctrlWord r
  | 0x04 => statusWord r
  | 0x08 => r.errCnt
  | 0x0C => r.groups.toNat
  | 0x10 => r.base % 2 ^ 32
  | 0x14 => r.base / 2 ^ 32
  | 0x18 => r.shadow % 2 ^ 32
  | 0x1C => r.shadow / 2 ^ 32
  | 0x20 => r.modCount + 65536 * r.modTime
  | 0x24 => r.ovf
  | 0x28 => r.devIdx
  | 0x2C => r.hostIdx
  | _ => 0

/-- FUSE registers (R498). -/
def State.fuseReg (s : State) (o : Nat) : Nat :=
  let slots := (List.range 4).map (fun n => Tab.find s.fuse.slots n)
  if 0x100 ≤ o then
    if o < 0x300 then field (s.fuse.slots.getD ((o - 0x100) / 0x80) []) ((o - 0x100) % 0x80) 4 else 0
  else match o with
  | 0x000 =>
    bitsOf (slots.map Option.isSome) + 16 * bitsOf (slots.map (fun x => match x with | some b => slotPasses b | none => false)) +
      256 * s.fuse.inForce + 2048 * (s.stands 60 16).toNat + 4096 * (decide (2375 ≤ s.pwr.vprog ∧ s.pwr.vprog ≤ 2625)).toNat +
      8192 * s.fuse.programming.toNat
  | 0x004 => s.fuseCrc
  | 0x008 => s.fuse.set.position + 4 * s.fuse.set.pref.toNat
  | 0x00C => s.fuse.set.limpSel.toNat
  | 0x010 => packBits 2 s.fuse.set.din
  | _ => 0

/-- REPAIR registers (R499; 23 R549, R553). -/
def State.repairReg (s : State) (o : Nat) : Nat :=
  let r := s.repair
  match o with
  | 0x000 => s.rowsUsed + 256 * 32 + 65536 * s.colsUsed + 16777216 * 16
  | 0x004 => s.mram.remap.length + 65536 * (48 - s.mram.remap.length)
  | 0x008 =>
    r.pe16Port.isSome.toNat + 2 * r.pe16Port.getD 0 + 32 * r.pe16Bad.toNat + 65536 * r.spareLane.isSome.toNat +
      131072 * r.spareLane.getD 0 + 1048576 * r.lanes + 16777216 * r.lockstep.toNat
  | 0x00C => r.ce
  | 0x010 => r.ue
  | 0x014 => s.therm.scrubSram + 65536 * s.therm.scrubMram
  | 0x018 => s.host.selfTestResult.toNat
  | 0x01C => s.factoryRepairs.length + r.records.length
  | 0x020 => (s.evr .repair).bits.toNat
  | 0x024 => (s.evr .repair).cnt
  | 0x028 => (s.irqc .repair).toNat
  | _ => 0

/-- TIME registers (R500). -/
def State.timeReg (s : State) (o : Nat) : Nat :=
  match o with
  | 0x000 => s.now % 2 ^ 32
  | 0x004 => s.now / 2 ^ 32
  | 0x008 => s64 s.netHeld % 2 ^ 32
  | 0x00C => s64 s.netHeld / 2 ^ 32
  | 0x010 => s64 s.time.netRaw % 2 ^ 32
  | 0x014 => s64 s.time.netRaw / 2 ^ 32
  | 0x018 =>
    bitsOf [s.time.netValid, s.conf.net.role == 1 && s.actsPrimary, s.conf.net.role == 2,
      s.isPair && s.pair.role == .standby, s.time.keeper]
  | 0x01C => s32 s.pairOfs
  | 0x020 => (s.evr .time).bits.toNat
  | 0x024 => (s.evr .time).cnt
  | 0x028 => (s.irqc .time).toNat
  | _ => 0

/-- THERM registers (R501). -/
def State.thermReg (s : State) (o : Nat) : Nat :=
  let t := s.therm
  let sn (n : Nat) : Nat := s16 (t.sens.getD n 2500)
  match o with
  | 0x000 => s16 t.tj + 65536 * t.band + 524288 * t.warn.toNat + 1048576 * t.throttle.toNat
  | 0x004 => sn 0 + 65536 * sn 1
  | 0x008 => sn 2 + 65536 * sn 3
  | 0x00C => t.aside.toNat
  | 0x010 => s16 t.peak
  | 0x014 => (s.evr .therm).bits.toNat
  | 0x018 => (s.evr .therm).cnt
  | 0x01C => (s.irqc .therm).toNat
  | _ => 0

/-- Bit rate of a phase, kbit/s (16 R389). -/
def kbits (b : BitTiming) : Nat := if b.brp = 0 then 0 else 80000 / (b.brp * (1 + b.tseg1 + b.tseg2))

/-- CANx_HP_STAT (16 R395). -/
def hpStat (k : CanCtl) : Nat := k.hpNew.toNat + 2 * k.hpTimed.toNat + 256 * k.hpOver

/-- A word of the high-priority window (16 R395); an empty buffer reads 0. -/
def hpWord (k : CanCtl) (o : Nat) : Nat :=
  if o = 0x150 then hpStat k
  else match k.hp with
  | none => 0
  | some h =>
    if o = 0x100 then h.t % 2 ^ 32
    else if o = 0x104 then h.t / 2 ^ 32
    else if o = 0x108 then idWord h.frame + 2 ^ 30 * h.frame.rtr.toNat
    else if o = 0x10C then h.frame.dlc + 256 * h.flags + 65536 * h.filter + 16777216 * h.frame.data.length
    else if 0x110 ≤ o && o ≤ 0x14C then field (padTo 64 h.frame.data) (o - 0x110) 4
    else 0

/-- CAN registers (R502). -/
def State.canRegs (s : State) (c o : Nat) : Nat :=
  let k := s.can c
  let cf := Tab.find s.conf.cans c
  match o with
  | 0x000 =>
    k.errSt + 4 * k.alone.toNat + 8 * k.mode + 32 * k.single.toNat + 64 * k.tb0.isSome.toNat + 128 * k.tb1.isSome.toNat +
      256 * k.tb2.isSome.toNat + 512 * k.prio.toNat
  | 0x004 => k.tec % 512 + 65536 * k.recCnt
  | 0x008 => (s.evr (canReg c)).bits.toNat
  | 0x00C => (s.evr (canReg c)).cnt
  | 0x010 => k.collCnt
  | 0x014 => k.collId.toNat
  | 0x018 => k.rxDrop
  | 0x01C => match cf with | some x => kbits x.nominal + 65536 * kbits x.data | none => 0
  | 0x020 => (s.irqc (if c = 0 then .canA else .canB)).toNat
  | _ => hpWord k o

/-- SPD registers (R503). -/
def State.spdReg (s : State) (o : Nat) : Nat :=
  if o = 0x080 then (s.irqc .spd).toNat
  else if 0x080 < o then 0
  else
    let n := o / 0x40
    let x := s.axle n
    let reg : EvReg := if n = 0 then .spd0 else .spd1
    match o % 0x40 with
    | 0x00 => s.axleFlags n + 256 * x.slips.countP id + 65536 * x.rev.toNat
    | 0x04 => s.axleSpeed n
    | 0x08 => s32 x.count
    | 0x0C => x.tEdge % 2 ^ 32
    | 0x10 => x.tEdge / 2 ^ 32
    | 0x14 => s32 x.idx
    | 0x18 => x.tIdx % 2 ^ 32
    | 0x1C => x.tIdx / 2 ^ 32
    | 0x20 => if x.based then x.phase else 0xFFFF
    | 0x24 => x.glitches
    | 0x28 => (s.evr reg).bits.toNat
    | 0x2C => (s.evr reg).cnt
    | 0x30 => x.irqEn.toNat
    | _ => 0

/-- DRV_OUTn (R504). -/
def State.outReg (s : State) (n : Nat) : Nat :=
  let o := s.outc n
  o.retries % 16 + 16 * o.cause + 64 * o.thermLatch.toNat + 128 * (s.latchMode n).toNat +
    256 * (!(s.outCfg n).slow || s.isCoil n).toNat + 65536 * s16 o.cur

/-- DRV registers (R504). -/
def State.drvReg (s : State) (o : Nat) : Nat :=
  if 0x020 ≤ o && o < 0x050 then s.outReg ((o - 0x020) / 4)
  else if 0x050 ≤ o && o < 0x060 then
    let l := s.lsw ((o - 0x050) / 4)
    s16 l.cur + 65536 * l.vds
  else if 0x060 ≤ o && o < 0x078 then
    let r := (o - 0x060) / 4
    packBits 4 ((List.range 8).map (fun i =>
      if 8 * r + i < s.conf.ctrs.length then (s.ctr (8 * r + i)).st.ctorIdx else 0))
  else match o with
  | 0x000 => s.outState
  | 0x004 => s.outFlags
  | 0x008 => s.lswState
  | 0x00C => s.limpStatus
  | 0x010 => (s.evr .drv).bits.toNat
  | 0x014 => (s.evr .drv).cnt
  | 0x018 => s.holdLeft
  | 0x078 => (s.irqc .drv).toNat
  | _ => 0

/-- A configured safe message has been delivered within its last timeout (R505). -/
def State.msgFresh (s : State) (m : Nat) : Bool :=
  match s.conf.msgs[m]? with
  | some c => (s.msg m).lastSeq.isSome && decide (s.now < (s.msg m).lastT + msgTimeout c)
  | none => false

/-- SAFEIN registers (R505). -/
def State.safeinReg (s : State) (o : Nat) : Nat :=
  match o with
  | 0x000 => s.hvilByte 0 + 256 * s.hvilByte 1
  | 0x004 => (s.loop 0).cur + 65536 * (s.loop 1).cur
  | 0x008 => s.dualStatus s.iso 42 43
  | 0x00C => s.dualStatus s.lid 44 45
  | 0x010 =>
    bitsOf [s.safe.standstill, s.stands 47 16, s.safe.stillDisc, s.safe.speedDisc] +
      65536 * min (s.safeSpeed.getD 0 / 10) 65535
  | 0x014 =>
    bitsOf ((List.range 8).map s.msgFresh) + 256 * bitsOf ((List.range 8).map (fun n => (s.msg n).f46)) +
      65536 * s.pack.emgMsg.toNat + 131072 * s.pack.emgHost.toNat
  | 0x018 => (s.evr .safein).bits.toNat
  | 0x01C => (s.evr .safein).cnt
  | 0x020 => s.pwr.chgPres.toNat + 2 * s.pwr.svcWake.toNat
  | 0x024 => (s.irqc .safein).toNat
  | _ => 0

/-- PAIR registers (R506); on a single module every register but PAIR_IRQ_CFG reads 0. -/
def State.pairReg (s : State) (o : Nat) : Nat :=
  if o = 0x028 then (s.irqc .pair).toNat
  else if !s.isPair then 0
  else match o with
  | 0x000 => s.pairStatus
  | 0x004 => s.pair.diverged.toNat
  | 0x008 => s.pair.partner.serial.toNat % 2 ^ 32
  | 0x00C => s.pair.partner.serial.toNat / 2 ^ 32
  | 0x010 => s.pair.delay
  | 0x014 => s.pair.hbMiss
  | 0x018 => s.pair.crcErr
  | 0x01C => (s.evr .pair).bits.toNat
  | 0x020 => (s.evr .pair).cnt
  | 0x024 => s.pair.resync
  | _ => 0

/-- The 32-bit value at an aligned offset of BAR0 (R489); reserved offsets and write-only registers read 0. -/
def State.reg (s : State) (off : Nat) : Nat :=
  if off % 4 ≠ 0 then 0
  else
    let o := off % 0x1000
    match off / 0x1000 with
    | 0x0 => s.glbReg o
    | 0x1 => s.pwrReg o
    | 0x2 => s.ringReg o
    | 0x4 => s.fuseReg o
    | 0x5 => s.repairReg o
    | 0x6 => s.timeReg o
    | 0x7 => s.thermReg o
    | 0x9 => s.canRegs 0 o
    | 0xA => s.canRegs 1 o
    | 0xB => s.spdReg o
    | 0xC => s.drvReg o
    | 0xD => s.safeinReg o
    | 0xE => s.pairReg o
    | _ => 0

end Sys2Proof.Machine
end

