-- ==== Sys2Proof/Machine/RingBase.lean ====
section
/-! DEFINITION. The rings (18 R439–R459): set-up, shadows, signalling, errors, and the reset of the host interface. -/

namespace Sys2Proof.Machine

open Sys2Proof

/-- Entries of a ring. -/
def Ring.size (r : Ring) : Nat := 2 ^ r.sizeLog2

/-- A ring does its work: enabled, running, not paused (18 R438, R443, R460). -/
def State.works (s : State) (n : Nat) : Bool := (s.ring n).en && (s.ring n).run && !(s.ring n).paused && !s.host.d3hot

/-- Writes the shadow of a ring (R446). -/
def State.shadow (s : State) (n : Nat) : State :=
  let r := s.ring n
  s.emit (.shadow n r.shadow r.devIdx r.gen r.ovf)

/-- A bit of RING_STATUS is set: 0 db_err, 1 dma_err, 2 desc_err, 3 loss, 4 cfg_err (R443). -/
def State.ringErr (s : State) (n bit : Nat) : State :=
  s.onRing n (fun r => { r with err := r.err ||| (1#5 <<< bit), errCnt := min (r.errCnt + 1) 255 })

/-- A ring sends its message (R457), or sets its pending bit while MSI-X is disabled (R458). -/
def State.ringMessage (s : State) (n : Nat) : State :=
  let s := s.onRing n (fun r => { r with unsig := 0 })
  if s.host.msixEn then s.msix (s.ring n).vector
  else
    let s := s.setBits (if n < 32 then .ringPendLo else .ringPendHi) (1#32 <<< (n % 32))
    (s.setBits .irqStatus (1#32 <<< 16)).driveIrq

/-- An entry has been written on a ring: counted as unsignalled, and signalled at the count threshold, or at once when
both thresholds are 0 (R457). -/
def State.signal (s : State) (n : Nat) : State :=
  if !(s.ring n).ie then s
  else
    let s := s.onRing n (fun r => { r with unsig := r.unsig + 1, unsigT := if r.unsig = 0 then s.now else r.unsigT })
    let r := s.ring n
    if (r.modCount ≠ 0 && r.modCount ≤ r.unsig) || (r.modCount = 0 && r.modTime = 0) then s.ringMessage n else s

/-- A command whose result is a set of records completes once the last of them has been written or dropped (19 R466). -/
def State.streamsDone (s : State) : State :=
  let l := s.host.running.filter (fun c =>
    (c.ref.opcode == 0x50 && !s.host.streamQ.any (fun x => x.fn == fnNvOut)) ||
    (c.ref.opcode == 0x52 && !s.host.streamQ.any (fun x => x.fn == fnBlackBox)))
  l.foldl (fun s c => s.finish c.ref 0 (c.todo.headD 0) [] false) s

/-- Ring type of its code. -/
def ringType (c : Nat) : RingType :=
  match c with | 1 => .submission | 2 => .completion | 3 => .stream | _ => .disabled

/-- The fields of RING_CTRL but en and rst (R442). -/
def Ring.fields (r : Ring) (v : Nat) : Ring :=
  { r with
    typ := ringType (v / 4 % 4), sizeLog2 := v / 16 % 32, cq := v / 512 % 64, vector := v / 65536 % 64
    ie := v / 4194304 % 2 == 1, fn := v / 16777216 % 256 }

/-- The checks of an enable (R447 step 3). -/
def State.enableOk (s : State) (n : Nat) : Bool :=
  let r := s.ring n
  let cqOk := (s.ring r.cq).en && (s.ring r.cq).typ == .completion
  let fnOk := !(List.range 64).any (fun m => m != n && (s.ring m).en && (s.ring m).fn == r.fn)
  r.typ != .disabled && 4 ≤ r.sizeLog2 && r.sizeLog2 ≤ 16 && r.base != 0 && r.shadow != 0 &&
    (r.typ != .submission || cqOk) && (r.typ != .stream || fnOk)

/-- Enables a ring (R447): refused with cfg_err, or its indices at 0, its generation incremented, its shadow written and
run set. A ring that an error stopped does nothing more until rst (R443). -/
def State.ringStart (s : State) (n : Nat) : State :=
  if !s.enableOk n then s.ringErr n 4
  else if (s.ring n).stopped then s.onRing n (fun r => { r with en := true })
  else
    let s := s.onRing n (fun r => { r with
      en := true, run := true, devIdx := 0, hostIdx := 0, gen := (r.gen + 1) % 65536, phase := true, seq := 0, dropped := 0
      first := true, unsig := 0, outst := 0, paused := !s.drv.svcUp })
    s.shadow n

/-- Disables a ring at once (R442). -/
def State.ringStop (s : State) (n : Nat) : State := s.onRing n (fun r => { r with en := false, run := false })

/-- A ring is stopped by an error (R443). -/
def State.ringHalt (s : State) (n : Nat) : State := s.onRing n (fun r => { r with run := false, stopped := true })

/-- A write of RING_CTRL (R442): while en is 1 only en and rst are taken. -/
def State.ringCtrl (s : State) (n : Nat) (v : Word) : State :=
  let was := (s.ring n).en
  let s := if was then s else s.onRing n (fun r => r.fields v.toNat)
  if v.getLsbD 1 then (s.ringStop n).onRing n (fun r => { r with devIdx := 0, hostIdx := 0, ovf := 0, stopped := false })
  else if !v.getLsbD 0 then s.ringStop n
  else if was then s
  else s.ringStart n

/-- GLB_IRQ_STATUS [16] follows the ring bits, and IRQ_N the enabled bits (R458). -/
def State.ringAck (s : State) : State :=
  let none_ := (s.evr .ringPendLo).bits == 0#32 && (s.evr .ringPendHi).bits == 0#32
  (if none_ then s.onEvr .irqStatus (fun e => { e with bits := e.bits &&& 0xFFFEFFFF#32 }) else s).driveIrq

/-- W1C of an event register (20 R492, R493): bit 16 of GLB_IRQ_STATUS takes no write. -/
def State.evClear (s : State) (r : EvReg) (v : Word) : State :=
  match r with
  | .irqStatus => (s.onEvr r (fun e => { e with bits := e.bits &&& ~~~(v &&& 0x0000FFFF#32) })).driveIrq
  | .ringPendLo | .ringPendHi => (s.onEvr r (fun e => { e with bits := e.bits &&& ~~~v })).ringAck
  | _ => s.onEvr r (fun e => { e with bits := e.bits &&& ~~~v })

/-- The counter of an event register is cleared (20 R492). -/
def State.cntClear (s : State) (r : EvReg) : State := s.onEvr r (fun e => { e with cnt := 0 })

/-- A host doorbell write (R445; R440, R443): an index out of range, beyond the permitted advance or on a disabled ring
sets db_err and stops the ring. -/
def State.doorbell (s : State) (n : Nat) (v : Word) : State :=
  let r := s.ring n
  let N := r.size
  let i := v.toNat
  let adv := (i + N - r.hostIdx % N) % N
  let room := if r.typ == .completion then (r.devIdx + N - r.hostIdx % N) % N
    else N - 1 - (r.hostIdx + N - r.devIdx % N) % N
  if !r.en then s.ringErr n 0
  else if !r.run then s
  else if N ≤ i || room < adv then (s.ringErr n 0).ringHalt n
  else s.onRing n (fun r => { r with hostIdx := i })

/-- The HOST domain is reset (18 R459, R460; 20 R491): every ring at its default, MSI-X disabled, interrupt set-up and
pending bits cleared, HP locks released; completions of commands started before it are not written. -/
def State.hostReset (s : State) : State :=
  let log := s.host.log.map (fun e => if e.status = 0xFF then { e with carried := true } else e)
  let s := { s with
    rings := [], irqCfg := []
    host := { s.host with
      ready := false, d3hot := false, msixEn := false, msixMask := 0, msixPend := 0, msixTab := [], hiCap := [], log := log
      finished := [], streamQ := [], epoch := s.host.epoch + 1 } }
  let s := [EvReg.irqStatus, .ringPendLo, .ringPendHi].foldl (fun s r => s.onEvr r (fun _ => {})) s
  ((s.hpRelease 0).hpRelease 1).driveIrq

end Sys2Proof.Machine
end

