-- ==== Sys2Proof/Machine/PowerBase.lean ====
section
/-! DEFINITION. What the resets, the power states and a start-up do (chapter 21; 10 R283; 11 R302; 14 R369; 17 R428):
loss of SRAM, entry to Moss and Peat, protective shutdown, the fuse check, the mount of the MRAM. -/

namespace Sys2Proof.Machine

open Sys2Proof

/-! ## Fuse slots (11 R302; 22 R541) -/

/-- The fused set of a slot image. -/
def fuseParse (b : List Byte) : FuseSet :=
  let w := field b 0x2C 4
  let mins := field b 0x10 24
  let din := field b 0x30 3
  { hardOv := field b 4 4, hardUv := field b 8 4, hardOt := (BitVec.ofNat 16 (field b 0xC 2)).toInt, packOc := field b 0xE 2
    minCls := (List.range 64).map (fun n => mins / 8 ^ n % 8), wait := field b 0x28 2, deadC := field b 0x2A 1
    wade := field b 0x2B 1, limpSel := BitVec.ofNat 12 w, position := w / 65536 % 4, pref := w / 262144 % 2 == 1
    din := (List.range 12).map (fun n => din / 4 ^ n % 4) }

/-- Field by field the strictest of two sets; the DIN mapping, the position and the preference of the second. -/
def FuseSet.strictest (a b : FuseSet) : FuseSet :=
  { hardOv := min a.hardOv b.hardOv, hardUv := max a.hardUv b.hardUv, hardOt := min a.hardOt b.hardOt
    packOc := min a.packOc b.packOc
    minCls := (List.range 64).map (fun n => min (fusedClass (a.minCls.getD n 4)) (fusedClass (b.minCls.getD n 4)))
    wait := min a.wait b.wait, deadC := min a.deadC b.deadC, wade := min a.wade b.wade, limpSel := a.limpSel &&& b.limpSel
    position := b.position, pref := b.pref, din := b.din }

/-- Programmed slots, in slot order. -/
def FuseBank.programmed (f : FuseBank) : List (Nat × List Byte) :=
  (List.range 4).filterMap (fun n => (Tab.find f.slots n).map (fun b => (n, b)))

/-- The slot in force: the highest-numbered programmed one, 7 with none. -/
def FuseBank.last (f : FuseBank) : Nat := match f.programmed.getLast? with | some x => x.1 | none => 7

/-- The fused values that R302 gives while F60 stands. -/
def FuseBank.fallback (f : FuseBank) : FuseSet :=
  match (f.programmed.filter (fun x => slotPasses x.2)).map (fun x => fuseParse x.2) with
  | [] => { factorySet with limpSel := 0, position := 0 }
  | x :: r => r.foldl FuseSet.strictest x

/-- The slots are checked at power-on reset: the slot in force, or F60 with the values of R302. -/
def State.fuseVerify (s : State) : State :=
  let f := s.fuse
  let n := f.last
  let b := f.slots.getD n []
  if slotPasses b then { s with fuse := { f with inForce := n, set := fuseParse b } }
  else ({ s with fuse := { f with inForce := n, set := f.fallback } } : State).stand 60 16 {}

/-! ## What SRAM held is lost (21 R518, R519) -/

/-- What of a string survives outside SRAM: its charge counters (06 R184), and what its contactors tell. -/
def Str.kept (x : Str) : Str :=
  { qNet := x.qNet, qIn := x.qIn, qOut := x.qOut, qRem := x.qRem, inRem := x.inRem, outRem := x.outRem, savQ := x.savQ, savT := x.savT
    gaps := x.gaps, vStr := x.vStr, conn := x.conn, connT := x.connT, openT := x.openT, f21 := x.f21, subst := x.subst }

/-- A port as it starts: OFF, with its engine as the repairs leave it (23 R554). What AON and the PHYs hold stays: the PHY
supply switch, symbol locks and tone recognisers, which only a power-on reset or the loss of their supply clears
(01 R17, R18, R35). -/
def State.portFresh (s : State) (p : Nat) : Port :=
  let bad := s.repair.engBad.getLsbD p
  let q := s.port p
  { engineBad := bad, engine := !bad || (s.repair.pe16Port == some p && !s.repair.pe16Bad)
    phy := q.phy, lockN := q.lockN, lockS := q.lockS, tone := q.tone, okIdleT := q.okIdleT }

/-- Every port as it starts. -/
def State.portsFresh (s : State) : Tab Nat Port :=
  (List.range 16).filterMap (fun p => if s.portFresh p = {} then none else some (p, s.portFresh p))

/-- The chain PHYs and the tone recognisers of a port without supply. -/
def Port.dark (q : Port) : Port := { q with phy := false, lockN := false, lockS := false, tone := [], okIdleT := [] }

/-- The PHY supply of every port is off (21 R515, R525). -/
def State.portsDark (s : State) : State :=
  let ports : Tab Nat Port := s.ports.map (fun x => (x.1, x.2.dark))
  { s with ports := ports }

/-- SRAM contents and the state of every domain but AON and DRV are lost; counts since power-on reset go on. Network time
is invalid (16 R406), and a snapshot that was collecting ends (22 R548). -/
def State.sramLost (s : State) : State :=
  let t := s.time
  let strs : Tab Nat Str := s.strs.map (fun x => (x.1, x.2.kept))
  let axles : Tab Nat Axle := s.axles.map (fun x => (x.1, { a := x.2.a, b := x.2.b, glitches := x.2.glitches, irqEn := x.2.irqEn, stillT := s.now }))
  let cans : Tab Nat CanCtl := s.cans.map (fun x => (x.1, { rxDrop := x.2.rxDrop }))
  let snaps := s.mram.snaps.map (fun x => { x with todo := [] })
  let mram : Mram := { s.mram with held := [], collecting := [], staging := [], snaps := snaps }
  let pair : Pair := { hbMiss := s.pair.hbMiss, crcErr := s.pair.crcErr }
  let pack : Pack := { limSeq := s.pack.limSeq, tick100 := s.pack.tick100, openT := s.pack.openT, emgHost := s.pack.emgHost
                       emgLapse := s.pack.emgLapse, f20 := s.pack.f20, subst := s.pack.subst }
  let pwr : Power := { s.pwr with estSeeded := false, firstLimits := false, ready := false }
  let time : TimeBase := { t with reedIssued := false, netValid := false, netApplied := 0, netOfs := s.netHeld
                                  netTarget := s.netHeld, netOfsT := s.now }
  { s with
    time := time, pwr := pwr, discs := [], ports := s.portsFresh, nodes := [], reqs := [], chainSeq := [], cells := [], ests := []
    sens := [], zones := [], strs := strs, pack := pack, safe := {}, msgs := [], axles := axles, cans := cans
    pair := pair, mram := mram, cfg := { s.cfg with pend := none, mism := 0 } }

/-- Every OUT channel is switched off (21 R515, R525; 13 R343). In a pair the partner's paralleled channels hold each coil
(02 R61); otherwise contactors whose coils go off pass through OPENING. -/
def State.outsOff (s : State) : State :=
  (List.range 12).foldl (fun s ch =>
    let s := s.onOutc ch (fun o => { o with on := false, cmd := false, restart := false, changeT := s.now })
    if s.partnerUp then s else s.coilLost ch) s

/-! ## Start-up (21 R522) -/

/-- A slot marked for trial starts (22 R540). -/
def State.trialStart (s : State) : State :=
  match s.mram.fwTrial with
  | none => s
  | some k =>
    let m := s.mram
    let v := (m.fw.getD k {}).version
    ({ s with mram := { m with
        fwPrev := m.fwActive, fwActive := k, fwTrial := none, fwTrialT := some s.now, fwVersion := v } } : State).bbEvent 0x0A k 255 v 0 0

/-- Start-up begins at t0, in the Peat or the warm column. The cores held in reset are released by RST_N and power-on
reset, not by a wake from Peat (R521). -/
def State.startUp (s : State) (peat : Bool) : State :=
  let s := s.keeperOff
  let s := { s with pwr := { s.pwr with
    starting := true, startStep := 1, startT := s.now, startPeat := peat, ready := false, rstLow := false, restartDue := false } }
  { s with drv := { s.drv with coresHeld := peat && s.drv.coresHeld } }

/-- Every declared port that is OFF and whose engine is powered (01 R34) starts its wake tone (R522 step 7), while the seal
is valid (14 R370). -/
def State.portsStart (s : State) : State :=
  if !s.cfg.valid then s
  else (s.portList.filter (fun p => (s.port p).st == .off && !(s.port p).nap && s.chnUp p)).foldl
    (fun s p => s.wakePort p (!s.pwr.startPeat) false) s

/-- Largest module time in any valid black-box record, none without one (01 R29). -/
def State.lastTime (s : State) : Option Nat :=
  let l := s.mram.events.map (·.t) ++ s.mram.snaps.map (·.t) ++ s.mram.snaps.flatMap (fun x => x.sweeps.map (fun y => y.2.t))
  match l with
  | [] => none
  | x :: r => some (r.foldl max x)

/-- Power-on reset with VSUP at `v`, mV (01 R29; 20 R496; 21 R518, R522): every domain is reset; MRAM, fuses and the
levels at the pins stay; the time base starts from T_last + 50 ms; the fuse slots are checked. -/
def State.powerOn (s : State) (v : Nat) : State :=
  let t0 := match s.lastTime with | some t => t + ms 50 | none => 0
  let z := State.reset
  let m := s.sramLost.mram
  let ports : Tab Nat Port := s.portsFresh.map (fun x => (x.1, x.2.dark))
  let ctrs : Tab Nat Ctr := s.ctrs.map (fun x => (x.1, { aux := x.2.aux }))
  let opens : Tab Nat StrOpen := s.opens.map (fun x => (x.1, { nextFirst := x.2.nextFirst }))
  let strs : Tab Nat Str := s.strs.map (fun x => (x.1, { savQ := x.2.savQ, savT := x.2.savT }))
  let axles : Tab Nat Axle := s.axles.map (fun x => (x.1, { a := x.2.a, b := x.2.b, stillT := t0 }))
  let r := s.repair
  let s := { z with
    pending := s.pending, sent := s.sent, free := s.free
    time := { z.time with now := t0, bootT := t0, netOfsT := t0, lastOut := t0 }
    pwr := { z.pwr with
      vsup := v, vcoilA := s.pwr.vcoilA, vcoilB := s.pwr.vcoilB, vprog := s.pwr.vprog, chgPres := s.pwr.chgPres
      svcWake := s.pwr.svcWake, startT := t0, startStep := 2 }
    host := { z.host with perstLow := s.host.perstLow }
    fuse := { slots := s.fuse.slots }
    cfg := { z.cfg with copy1 := s.cfg.copy1, copy2 := s.cfg.copy2, sealVal := s.cfg.sealVal }
    drv := { z.drv with limpN := s.drv.limpN, din := s.drv.din }
    ctrs := ctrs, opens := opens, strs := strs, axles := axles, ports := ports
    mram := { m with refuse := false, impT := [], passDue := false }
    repair := { rows := r.rows, cols := r.cols, pages := r.pages, pe16Port := r.pe16Port, pe16Bad := r.pe16Bad
                spareLane := r.spareLane, lanes := r.lanes, laneBad := r.laneBad, records := r.records, engBad := r.engBad } }
  s.fuseVerify.trialStart

/-! ## The configuration copies (14 R369) -/

/-- A configuration copy matches the stored seal. -/
def State.copyOk (s : State) (c : Option NvBlob) : Bool :=
  match c, s.cfg.sealVal with
  | some b, some v => crc32c b.blob.bytes == v
  | _, _ => false

/-- Writes a blob to one copy; copy 2 only after copy 1 (22 R533). -/
def State.copyWrite (s : State) (two : Bool) (b : Blob) : State :=
  let c := s.commitOf 3
  let s := s.takeCommit 3
  if two then { s with cfg := { s.cfg with copy2 := some { blob := b, commit := c } } }
  else { s with cfg := { s.cfg with copy1 := some { blob := b, commit := c } } }

/-- The best copy: of those that match the seal, the one with the highest commit. -/
def State.bestCopy (s : State) : Option NvBlob :=
  let l := (if s.copyOk s.cfg.copy1 then s.cfg.copy1.toList else []) ++ (if s.copyOk s.cfg.copy2 then s.cfg.copy2.toList else [])
  match l with
  | [x, y] => if x.commit < y.commit then some y else some x
  | x :: _ => some x
  | [] => none

/-- A failed copy is rewritten from the best one. -/
def State.copyMend (s : State) (b : NvBlob) : State :=
  let s := if s.copyOk s.cfg.copy1 then s else s.copyWrite false b.blob
  if s.copyOk s.cfg.copy2 then s else s.copyWrite true b.blob

/-- The check at a start: the blob in force, or F61 with no valid seal; a change of the seal's validity interrupts
(20 R493). -/
def State.copiesAtStart (s : State) : State :=
  let was := s.cfg.valid
  let s := match s.bestCopy with
    | some b =>
      let s := s.copyMend b
      ({ s with cfg := { s.cfg with work := some b.blob, valid := true } } : State).cease 61 16
    | none => ({ s with cfg := { s.cfg with work := none, valid := false } } : State).stand 61 16 {}
  if s.cfg.valid == was then s else s.raiseIrq 2

/-- The check at a scrub: a failed copy is rewritten, both from SRAM when both fail and the working copy still matches. -/
def State.copiesAtScrub (s : State) : State :=
  match s.bestCopy, s.cfg.work with
  | some b, _ => s.copyMend b
  | none, some w =>
    if s.cfg.valid && s.cfg.sealVal == some (crc32c w.bytes) then
      ((s.copyWrite false w).copyWrite true w).eventRec 6 1 0 255 s.sealInForce 0 0
    else s
  | none, none => s

/-! ## The configuration comes into force -/

/-- Both CAN controllers take their configured mode (16 R389, R397); one that it disables stops (R392). -/
def State.canConf (s : State) : State :=
  [0, 1].foldl (fun s c =>
    let was := (s.can c).mode
    let s := match Tab.find s.conf.cans c with
      | some x => s.onCan c (fun k => { k with mode := if x.enabled then 0 else 2, single := x.single, prio := x.prio })
      | none => s.onCan c (fun k => { k with mode := 2 })
    if was = 0 && (s.can c).mode ≠ 0 then s.canStop c else s) s

/-- E_th and the attempts of each PRE after a power-on reset (12 R320). -/
def State.preInit (s : State) : State :=
  (s.portList.filter (fun p => (Tab.find s.pres p).isNone)).foldl (fun s p =>
    match (s.portCfg p).pre with
    | some c =>
      let v := (s.portCfg p).vMax
      s.onPre p (fun _ => { eth := 3 * c.c * v * v / 4 / 1000000000, ethT := s.time.bootT, attempts := [s.time.bootT] })
    | none => s) s

/-- Confirmed open taps are read back from MRAM (05 R164; 11 R583). -/
def State.tapsLoad (s : State) : State :=
  let s := s.mram.taps.foldl (fun s g => s.onCell g (fun c => { c with openTap := true })) s
  s.portList.foldl (fun s p =>
    let g := (s.cellsOfStr p).find? (fun g => (s.cell g).openTap || (s.cell g).unexpl)
    s.setCond 5 p g.isSome { pos := match g with | some g => g % 512 | none => 0xFFFF }) s

/-- Learned offsets are read back (06 R176). -/
def State.offsLoad (s : State) : State :=
  s.mram.offs.foldl (fun s x =>
    if x.1 = 16 then { s with pack := { s.pack with off := x.2 } } else s.onStr x.1 (fun y => { y with off := x.2 })) s

/-- The service cores run: the rings they had paused go on (18 R460). They run from the mount of the MRAM on, which they
carry out (01 R25). -/
def State.svcResume (s : State) : State :=
  let s := { s with drv := { s.drv with svcUp := true } }
  (List.range 64).foldl (fun s n => if (s.ring n).paused then s.onRing n (fun r => { r with paused := false }) else s) s

/-- The ages of a table read from MRAM (07 R195, R197, R199; assumption log 98): those of one written since the power-on reset
move on by the hours that have passed since, in Peat by the whole hours of the stay; those of an earlier one are at least
168, with flags [1] clear, which is an unwritten change. -/
def State.tableAges (s : State) (g : Nat) : State :=
  match Tab.find s.mram.imp g, Tab.find s.mram.impT g with
  | some _, some t =>
    let h (u : Nat) : Nat := u / sec 3600 - t / sec 3600
    s.onEst g (fun e => e.older (if s.pwr.startPeat then h s.pwr.peatT + (s.pwr.startT - s.pwr.peatT) / sec 3600 else h s.now))
  | some _, none =>
    s.onEst g (fun e => { e.stale168 with unwrT := if e.stale168 = e then e.unwrT else some (e.unwrT.getD s.now) })
  | none, _ => s

/-- Step 5 of R522 (22 R535): held records are written, the journal is scanned, counters and offsets return, the copies
are checked against the seal, and the tables are loaded with their ages. -/
def State.mount (s : State) : State :=
  let por := s.pwr.porMount
  let s := { s with pwr := { s.pwr with startStep := 5, porMount := false } }
  let s := s.svcResume
  let s := s.flushHeld.journalScan
  let s := match s.lastCounters with | some e => s.countersFrom e.body por | none => s
  let old := if por then [] else (List.range 12).map s.retriesOf
  let s := s.copiesAtStart.retriesTake old
  let s := s.canConf.preInit.tapsLoad.offsLoad
  s.allCells.foldl (fun s g => (s.tableLoad g).tableAges g) s

/-! ## Moss and Peat (21 R510–R516) -/

/-- Domains of the Moss column of R34 that are powered throughout: AON, SAFE, SRAM, MEAS, DRV and LINK. -/
def mossDomains : BitVec 12 := 0xE13#12

/-- The heartbeat sweeps of a cycle in Moss are over, every port woken for them in NAP again: CHN_LO and CHN_HI go off, and
the PLL stops (01 R28, R34). -/
def State.mossRest (s : State) : State :=
  if s.pwr.st == .moss && s.portList.all (fun p => (s.port p).nap || !(s.port p).heartbeat) then
    ({ s with pwr := { s.pwr with domains := mossDomains } } : State).keeperOn
  else s

/-- A port's nodes go to NAP after its heartbeat sweep (R155 step 1): the ends' PHYs are switched off. On the way to Peat the
passports that are due are written first (R515). -/
def State.napPort (s : State) (p : Nat) : State :=
  let s := if s.pwr.peatDue && s.mram.passDue && s.fullPrimary then s.passWrite p else s
  let s := if s.actsPrimary then s.broadcast p 0x0D (le 1 1 ++ zeros 3) else s
  let s := (s.found p).foldl (fun s a =>
    (s.onNode (nk p a) (fun n => { n with st := .nap, balance := 0, balT := 0 })).balHold p a []) s
  ((s.portSt p .off).onPort p (fun q => { q with nap := true, phy := false, lockN := false, lockS := false })).mossRest

/-- Entry to Moss (R511): thermal outputs off, sessions and bursts ended, records written, publication over, every port's
nodes in NAP, the host link down. -/
def State.mossEnter (s : State) : State :=
  let s := ((List.range 12).filter (fun ch => (s.outCfg ch).use == .thermal)).foldl (fun s ch => s.channel ch false) s
  let s := s.portList.foldl (fun s p => (s.burstOff p).sedgeAbort p) s
  let s := s.saveAll
  let s := (s.portList.filter (fun p => (s.port p).st == .ready)).foldl (fun s p => s.napPort p) s
  let s := s.powerState .moss 1 s.pwr.wakeSrc
  let s := { s with
    pwr := { s.pwr with
      mossT := s.now, wakeTimerTaken := s.pwr.wakeTimer.toNat, domains := mossDomains, firstLimits := false
      mossOver := false, peatDue := false }
    drv := { s.drv with svcUp := false }
    pair := { s.pair with trained := false, retrain := s.partnerUp, hbOk := false, proof := false } }
  s.hostReset.keeperOn

/-- The passports that are due are written before Peat. -/
def State.peatPass (s : State) : State :=
  if s.mram.passDue && s.fullPrimary then
    let t := (s.portList.filter (fun p => (s.port p).st == .ready)).foldl (fun s p => s.passWrite p) s
    { t with mram := { t.mram with passDue := false } }
  else s

/-- One port goes to Peat: a wake tone to a napping chain, and the broadcast that stops its nodes. -/
def State.peatPort (s : State) (p : Nat) : State :=
  (if (s.port p).nap && s.actsPrimary then s.toneSend p (s.activeEnd p) else s).broadcast p 0x0D (le 1 2 ++ zeros 3)

/-- What is powered off on the way to Peat. -/
def State.peatOff (s : State) (role : PairRole) : State :=
  { s with
    pwr := { s.pwr with peatT := s.now, domains := 0x001#12, selfCheck := false, peatDue := false }
    drv := { s.drv with coresUp := false, svcUp := false }
    pair := { s.pair with role := role } }

/-- Entry to Peat (R515): passports that are due, tables, ageing records and the journal are written, SLEEP level 2 is
broadcast, every channel is switched off, and every domain but AON. Roles are kept (17 R409). -/
def State.peatEnter (s : State) : State :=
  let s := s.peatPass.saveAll
  let s := if s.actsPrimary then s.portList.foldl State.peatPort s else s
  let s := s.outsOff.powerState .peat 2 s.pwr.wakeSrc
  let rest := s.portList.map (fun p => (p, (s.str p).lowT.getD s.now))
  let s := rest.foldl (fun s x => s.onStr x.1 (fun y => { y with lowT := some x.2 })) s.sramLost
  (s.portsDark.hostReset.peatOff s.pair.role).keeperOn

/-- The passports that were due are written, every port is in NAP again, and the module goes on from Moss to Peat (R513,
R515). -/
def State.peatSettle (s : State) : State :=
  if s.pwr.peatDue && s.pwr.st == .moss && s.portList.all (fun p => (s.port p).nap || !(s.port p).heartbeat) then
    ({ s with mram := { s.mram with passDue := false } } : State).peatEnter
  else s

/-- Wake from Peat (R515, R516, R522): outputs off and LSW latches closed, unless VSUP is absent (02 R45); the HVIL loops and the ISO and LID channels
count as open until they are proven again (14 R353, R357). -/
def State.peatWake (s : State) (src : Nat) (selfCheck : Bool) : State :=
  let s := s.powerState .run 0 src
  let s := { s with pwr := { s.pwr with selfCheck := selfCheck } }
  let s := if s.pwr.intr == .over then s else
    (List.range 4).foldl (fun s j => s.onLsw j (fun l => { l with closed := true, hwOpen := false })) s
  let s := [0, 1].foldl (fun s n => (s.onLoop n (fun l => { l with passed := false, oks := 0, proven := false }))) s
  let un (d : DualIn) : DualIn := { d with prov0 := false, prov1 := false, ok0 := 0, ok1 := 0, bad0 := 0, bad1 := 0 }
  let s := { s with iso := un s.iso, lid := un s.lid }
  let s := s.startUp true
  let s := s.resetCause 11
  [40, 41, 42, 44].foldl (fun s n => s.stand n 16 {}) s

/-- The result word of the self-tests of a Peat self-check, which no event tells (23 R559, R560; assumption log 10): a failure sets
REPAIR_EVENT [7]. -/
def State.selfCheckTest (s : State) : State :=
  let (v, s) := s.draw
  let s := { s with host := { s.host with selfTestResult := BitVec.ofNat 32 v } }
  if s.host.selfTestResult = 0#32 then s else s.event .repair 7

/-- The end of the Peat self-check (R516), once the estimates are seeded: a true rest point, the ageing records, the
summary record, and back to Peat. -/
def State.selfCheckEnd (s : State) : State :=
  if s.pwr.selfCheck && s.pwr.estSeeded then
    let s := if s.actsPrimary then s.allCells.foldl (fun s g => s.trueRest g) s else s
    let s := s.agesSave.selfCheckTest
    (s.bbEvent 0x10 0 255 s.host.selfTestResult.toNat 0 0).peatEnter
  else s

/-! ## Estimator lanes (23 R556) -/

/-- A lane is declared failed (23 R556; 01 R41): the spare takes over for the first; each further one raises F55. In the save
window the repair waits for the next boot (23 R561). -/
def State.laneFail (s : State) (k : Nat) : State :=
  let r := s.repair
  if 9 ≤ k || r.laneBad.getLsbD k || (k = 8 && r.spareLane.isNone) then s
  else if s.pwr.intr == .saveWindow then s.repairPend 6 k
  else
    let s := { s with repair := { r with laneBad := r.laneBad ||| (1#9 <<< k) } }
    let s := if r.spareLane.isNone then
        ({ s with repair := { s.repair with spareLane := some k } } : State).repaired 6 k 8 5
      else ({ s with repair := { s.repair with lanes := s.repair.lanes - 1 } } : State).stand 55 16 { value := k }
    s.estClock

/-! ## Coil supplies (11 R287 F39; 12 R329) -/

/-- F39 stands while a channel that holds a closed contactor is fed from a supply below the coil minimum. -/
def State.f39Settle (s : State) : State :=
  let s := s.setCond 39 16 (!s.f39List.isEmpty) { value := min s.pwr.vcoilA s.pwr.vcoilB, pos := s.f39List.headD 0xFFFF }
  let more := s.f39Banks.filter (fun b => !s.pwr.f39Named.contains b)
  if !s.isLatched 39 16 || more.isEmpty then s
  else ({ s with pwr := { s.pwr with f39Named := s.pwr.f39Named ++ more } } : State).f39Rec (s.f39Names more) 0xFFFF

/-! ## Protective shutdown (10 R283) -/

/-- Step 4: every domain but AON and DRV is powered down, with the outputs off. -/
def State.shutDown (s : State) : State :=
  let s := s.outsOff
  let s := s.sramLost.hostReset
  let s := { s with
    pwr := { s.pwr with domains := 0x401#12, restartDue := true, st := .run, entering := 0 }
    drv := { s.drv with coresUp := false, svcUp := false } }
  s.keeperOn

/-- The shutdown goes on once no coil is on, its contactors having been commanded open, and within 1 s of t0 in every case. -/
def State.shutStep (s : State) : State :=
  if s.stands 14 16 && !s.pwr.restartDue && (!s.scopeOn 16 || decide (s.therm.shutT + sec 1 ≤ s.now)) then s.shutDown else s

/-! ## Wakes (21 R512) -/

/-- A wake source 1–6 is enabled in the configuration. -/
def State.wakeOn (s : State) (code : Nat) : Bool := s.gen.wakeEn.testBit (code - 1)

end Sys2Proof.Machine
end

