-- ==== Sys2Proof/Machine/Thermal.lean ====
section
/-! DEFINITION. The commands of the thermal family (chapter 10). -/

namespace Sys2Proof.Machine

open Sys2Proof

/-- One NTC input is converted (R266; 12 R310): a thermistor reading, or an auxiliary contact, invalid between 1 and
20 kΩ. -/
def State.ntcIn (s : State) (n ohm : Nat) : State :=
  match s.conf.ntc.getD n .absent with
  | .absent => s
  | .therm r b =>
    let v := ntcTemp r b ohm
    s.tempIn (4096 + n) (if v < -5500 then rawOpen else if 15000 < v then rawShort else v)
  | .aux =>
    (List.range s.conf.ctrs.length).foldl (fun s i =>
      match s.conf.ctrs[i]? with
      | some c => match c.aux with
        | some (m, make) => if m = n then
            s.onCtr i (fun k => { k with aux := if ohm < 1000 then some make else if 20000 < ohm then some (!make) else none })
          else s
        | none => s
      | none => s) s

/-- NTC_SAMPLE (R266): the eight inputs, in Run. -/
def execNtcSample (ohms : List Nat) (s : State) : Out :=
  .next (if s.pwr.st != .run then s else (List.range 8).foldl (fun s n => s.ntcIn n (ohms.getD n 0)) s)

/-- Period of an evaluation rate, ns (R274). -/
def evalPeriod (rate : Nat) : Nat := if 50 ≤ rate then ms 20 else if 10 ≤ rate then ms 100 else sec 1

/-- An evaluation instant of a period has come since `t` (R274). -/
def State.instantIn (s : State) (t period : Nat) : Bool := decide (t / period < s.now / period)

/-- An instant of the rate a port runs at has come since its last evaluation. -/
def State.portEval (s : State) (p : Nat) : Bool := s.instantIn (s.port p).evalT (evalPeriod (s.port p).rateHi)

/-- An instant of the 50 Hz of NTC inputs and coolant zones has come. -/
def State.ntcEval (s : State) : Bool := s.instantIn s.therm.evalT (ms 20)

/-- Validity, levels, rises, their faults and the demands (10 R266–R278) of the sensors of ports `ps`, of the NTC inputs where `ntc` says
so, and of every zone that holds one of them. -/
def State.tempEvalOf (s : State) (ps : List Nat) (ntc : Bool) : State :=
  let ks := (ps.flatMap (fun p => (declSensors (s.portCfg p)).map (si p))) ++ (if ntc then (List.range 8).map (4096 + ·) else [])
  let zs := s.zoneList.filter (fun z => (s.zoneCfg z).sensors.any (fun k => if k < 4096 then ps.contains (k / 256) else ntc))
  let strs := s.portList.filter (fun p => ps.contains p || zs.any (fun z => (s.zoneStrings z).contains p) ||
    (ntc && !(s.cellNtcs p).isEmpty))
  let s := ks.foldl (fun s k => s.sensorEval k) s
  let s := zs.foldl (fun s z => s.zoneLevels z) s
  let s := (zs.filter (fun z => !(s.zoneCfg z).coolant)).foldl (fun s z =>
    ((s.zoneCfg z).sensors.foldl (fun s k => s.riseEval z k) s).f11End z) s
  let s := strs.foldl (fun s p => ((((s.f08Settle p).f09Settle p).f10Settle p).f12Settle p).demandStep p) s
  let s := ps.foldl (fun s p => s.onPort p (fun q => { q with evalT := s.now })) s
  if !ntc then s
  else
    let s := { s with therm := { s.therm with evalT := s.now } }
    let l := s.zoneList.filter (fun z => (s.zone z).limit)
    let s := s.setCond 13 16 (!l.isEmpty) { value := l.foldl (fun m z => max m ((s.zoneHigh z).getD (0, 0)).1) (-27315) }
    s.setCond 12 16 ((List.range 8).any (fun n => (s.sensor (4096 + n)).f12 &&
      !s.portList.any (fun p => (s.sensorsOfStr p).contains (4096 + n)))) {}

/-- The evaluation of an instant in Run: of every port and input whose own instant has come, then the outputs (R274, R275, R279). -/
def State.tempEval (s : State) : State := (s.tempEvalOf (s.portList.filter s.portEval) s.ntcEval).thermOuts

/-- The evaluation of a port's heartbeat sweep in Moss (R276): its levels; a finding wakes the module. -/
def State.mossEval (s : State) (p : Nat) : State :=
  let s := s.tempEvalOf [p] false
  if s.mossFinding then s.wakeBy 8 else s

/-- TEMPERATURE_EVALUATION (R268–R275, R279; assumption log 24): validity, rises, levels, their faults, demand and outputs, in Run. In Moss
the heartbeat sweep evaluates; in Peat none is made (R276). -/
def execTemperatureEvaluation (s : State) : Out :=
  .next (
    if s.pwr.st != .run then s
    else s.tempEval)

/-- The rate a port falls to at `t` (R275): its demand, but 10 Hz while that of 10 Hz has not been absent for 60 s itself. -/
def State.demandFall (s : State) (p t : Nat) : Nat :=
  let d := s.portDemand p
  if 10 < (s.port p).rateHi && t < (s.port p).rate10T + sec 60 then max d 10 else d

/-- TEMPERATURE_DEMAND_FALL (R275): the higher demand of a port has been absent for 60 s. -/
def execTemperatureDemandFall (p : Nat) (s : State) : Out :=
  .next (
    let q := s.port p
    let d := s.portDemand p
    if q.rateHi ≤ d then s
    else
      let s := s.at (q.rateFallT + sec 60)
      let r := s.demandFall p s.now
      (s.onPort p (fun q => { q with rateHi := r, rateFallT := if d < r then q.rate10T else s.now })).planKick p)

/-- RISE_CONFIRMATION_TIMEOUT (R278): the 10 s window ends and the rise stays unconfirmed, or it has held for 20 s and
F11 is raised, flagged unconfirmed. -/
def execRiseConfirmationTimeout (sensor : Nat) (s : State) : Out :=
  .next (
    let x := s.sensor sensor
    match x.riseT, s.zoneOf sensor with
    | some t, some z =>
      if !x.riseUnc then
        let s := s.at (t + sec 10)
        if x.aboveT.isNone then s.onSensor sensor (fun x => { x with riseT := none }) else s.riseFlag sensor true
      else match x.aboveT with
        | some a =>
          let s := s.at (a + sec 20)
          ((s.onSensor sensor (fun x => { x with riseT := none })).f11Raise z sensor true).riseFlag sensor false
        | none => s
    | _, _ => s)

/-- THERMAL_OUTPUT_SWITCH (R279): the minimum on or off time of a channel has passed, and it follows its table. -/
def execThermalOutputSwitch (ch : Nat) (s : State) : Out :=
  .next (
    if s.thermWant ch == (s.outc ch).cmd then s
    else ((s.at ((s.outc ch).changeT + sec s.gen.minHold)).thermSwitch ch))

/-! ## The junction (R281–R283) -/

/-- Boundaries of the bands, 0.01 °C. -/
def bandEdge (b : Nat) : Int := [0, 7000, 11000, 13500].getD b 13500

/-- The band at a junction temperature (R281): up on reaching a boundary, down only 3 °C below it. -/
def bandOf (was : Nat) (t : Int) : Nat :=
  let up := ((List.range 4).filter (fun b => decide (bandEdge b ≤ t))).length
  let down := ((List.range 4).filter (fun b => decide (bandEdge b - 300 < t))).length
  if was ≤ up then up else min was down

/-- SRAM scrub period, s, and MRAM scrub interval, min, of a band. -/
def scrubOf (b : Nat) : Nat × Nat := [(60, 1440), (60, 1440), (30, 360), (10, 60), (2, 10)].getD b (2, 10)

/-- A junction level sets or releases, with its record and THERM_EVENT bit (R282; 20 R501). -/
def State.junctionLevel (s : State) (level : Nat) (was now_ : Bool) (tj : Int) : State :=
  if was == now_ then s
  else
    let s := if !now_ then s.event .therm 4 else if level = 1 then s.event .therm 1 else if level = 2 then s.event .therm 2 else s
    s.eventRec 4 4 0 255 level tj now_.toNat

/-- A sensor differs from the mean of the other three by more than 10 °C. -/
def setAside (l : List Int) (n : Nat) : Bool :=
  let x := l.getD n 0
  let o := (l.sum - x)
  decide (3000 < (3 * x - o).natAbs)

end Sys2Proof.Machine
end

