-- ==== Sys2Proof/Machine/SweepCore.lean ====
section
/-! DEFINITION. What a sweep does (chapter 05): which sweep a port issues, the blocks of its COLLECT frames, the end of the
sweep with its comparisons, records and consumers, and the open-wire group. Voltages of cells in 10 µV. -/

namespace Sys2Proof.Machine

open Sys2Proof

/-! ## Which sweep (R143–R147, R161; 17 R420) -/

/-- The run of M3 sweeps of a port lasts longer than 4 s: a Sedge session of more than 31 periods of 127.75 ms (R147). -/
def State.longM3 (s : State) (p : Nat) : Bool := (s.port p).sedge && decide (sec 4 < s.gen.sedgeP * us 127750)

/-- Instant of the sweep that the running open-wire group awaits (R161): S_k − 500 µs, S_k, S_k + 500 µs. -/
def Port.owAt (q : Port) : Nat := q.owS + us 500 * q.owStep - us 1000

/-- Mode, temperatures, stack voltage and ow flag of the sweep that a port issues at grid instant `S`; none where the plan
issues none. An open-wire group takes the place of what its instants meet (R161). -/
def State.swKind (s : State) (p S : Nat) : Option (Nat × Bool × Bool × Bool) :=
  let q := s.port p
  let k := S / us 250
  let hot := decide (50 ≤ q.rateHi)
  if q.owStep ≠ 0 && q.owS ≤ S + us 500 then (if S = q.owAt then some (2, false, true, true) else none)
  else if q.takeover then some (3, false, false, false)
  else if s.pwr.st == .moss then (if k % 4000 = 0 then some (0, true, true, false) else none)
  else match s.modeOn p S with
  | 0 => if k % 160 = 0 then some (0, true, true, false) else none
  | 1 => if k % 20 = 0 then some (1, decide (k % (if hot then 80 else 160) = 0), true, false) else none
  | 2 =>
    let t := decide (k % (if hot then 80 else 128) = 0)
    if k % 2 = 0 then some (2, t, t, false) else none
  | _ =>
    if s.longM3 p && k % 4000 = 0 then some (2, true, true, false)
    else if s.longM3 p && k % 4000 = 1 then none
    else some (3, false, false, false)

/-- Corner of a sweep: 6 in an open-wire group (R145). -/
def State.swCorner (s : State) (p mode : Nat) (ow : Bool) : Nat := if ow then 6 else s.cornerOf p mode

/-- REED flags byte (04 R115). -/
def reedFlags (mode : Nat) (ow temps stack : Bool) : Nat := mode + 4 * ow.toNat + 8 * temps.toNat + 16 * stack.toNat

/-- A sweep begins at nominal instant `S`, with the REED frame of time `t`: its kind is noted, a change of corner starts the
settling from that frame (R145), and the lowest corner in force is looked at anew (06 R177). -/
def State.sweepBegin (s : State) (p S seq mode : Nat) (temps stack ow : Bool) (c t : Nat) : State :=
  let s := s.onPort p (fun q => { q with
    seq := seq, sweepS := S, sweepOpen := true, swTemps := temps, swStack := stack, swOw := ow, swMode := mode
    sedgeS := if q.sedge && q.sedgeS.isNone && seq == q.sedgeSeq then some S else q.sedgeS
    compl := 0, ends := 0, endsDone := 0, launched := 0, swSeen := 0, takeover := false
    settleT := if c = q.corner then q.settleT else if c < 6 then t + 1000000000 / cornerHz c else 0
    corner := c
    balOff := if 2 ≤ mode && q.balOff ≤ q.balOn then t else q.balOff
    balOn := if mode < 2 && q.balOn < q.balOff then t else q.balOn })
  let s := s.onStr p (fun x => { x with iso := 0xFFFFFFFE })
  s.fMinStep

/-! ## Blocks (R165; 04 R117–R121; 01 R22) -/

/-- A REED frame of the partner was observed at an own end within the sweep's period while this module issues: the sweep
is discarded (17 R424). -/
def State.foreign (s : State) (p : Nat) : Bool :=
  let q := s.port p
  s.isPair && s.actsPrimary && !q.split && (s.ownEnds p).any (fun e =>
    let t := q.reedSeen.getD e 0
    t ≠ 0 && decide (q.sweepS < t + period q.swMode) && decide (t < q.sweepS + period q.swMode))

/-- A cell sample word (00 R11; R165). -/
def cellWord (v seq : Nat) (sus filt stale bal : Bool) : Word :=
  BitVec.ofNat 32 (v % 2 ^ 20 + 2 ^ 20 * sus.toNat + 2 ^ 21 * filt.toNat + 2 ^ 22 * stale.toNat + 2 ^ 23 * bal.toNat +
    2 ^ 24 * (seq % 256))

/-- The sense suspect flag of the master for a cell (R160, R163, R164). -/
def State.suspectOf (s : State) (g : Nat) : Bool := (s.cell g).suspect || s.paired g

/-- A channel is Sedge-excited at instant `S`: from the start sweep on, for `n` periods (07 R203). -/
def Port.excites (q : Port) (a ch S n : Nat) : Bool :=
  q.sedgeSel.contains (a, ch) && (match q.sedgeS with | some t => decide (t ≤ S) && decide (S < t + n * us 127750) | none => false : Bool)

/-- One cell sample of a valid monitor block. -/
def State.cellIn (s : State) (p a o ch : Nat) (x : Nat × Bool × Bool) : State :=
  let q := s.port p
  let g := gi p (16 * o + ch)
  let v := (if q.swMode = 3 then 10 * x.1 else x.1) % 2 ^ 20
  let sus := (q.swMode != 3 && x.2.1) || s.suspectOf g
  let bal := if q.swMode = 3 then q.excites a ch q.sweepS s.gen.sedgeP else x.2.2
  let s := s.onCell g (fun c => { c with
    v := v, word := cellWord v q.seq sus (q.corner < 6) false bal, validT := some q.sweepS, stale := false
    owA := if q.swOw && q.owStep = 1 then v else c.owA, owT := if q.swOw && q.owStep = 2 then v else c.owT })
  if q.swOw || q.sweepS < q.settleT then s
  else s.onEst g (fun e => { e with
    vHist := (q.sweepS, v) :: e.vHist.filter (fun y => decide (q.sweepS < y.1 + sec 120)) })

/-- The insulation result, kΩ, is below the limit (06 R170): the configured one, or 100 Ω/V × the highest configured string
voltage. -/
def State.isoLow (s : State) (z : Nat) : Bool :=
  match s.gen.isoLim with
  | some l => z < l
  | none => 10000 * z < (s.portList.map (fun p => (s.portCfg p).vMax)).foldl max 0

/-- The samples of a valid block. -/
def State.blockData (s : State) (p : Nat) (b : Block) : State :=
  let c := s.portCfg p
  let q := s.port p
  match monOrder c b.addr with
  | none =>
    let s := s.onStr p (fun x => { x with
      iRaw := b.cur, vStr := some b.vStr, vx := some b.vx, iso := b.iso.getD 0xFFFFFFFE })
    match b.iso with
    | some z => s.setCond 53 16 (s.isoLow z) { value := z, port := p }
    | none => s
  | some o =>
    let s := ((List.range (cellsOf c o)).zip b.cells).foldl (fun s x => s.cellIn p b.addr o x.1 x.2) s
    let s := if q.swTemps then
        ((List.range (sensorsOf c o)).zip b.temps).foldl (fun s x => s.tempIn (si p (8 * o + x.1)) x.2) s
      else s
    if q.swStack then s.onNode (nk p b.addr) (fun n => { n with stack := b.stack.getD 0xFFFFFFFF }) else s

/-- Completion bit of an address. -/
def cbit (a : Nat) : BitVec 64 := 1#64 <<< (a - 1)

/-- A block that passed its CRC-8: the first good copy is used (01 R22). Its header tells the tone state, a pending
self-test failure, a missed sample and whether the sinks were active (R161). Of a node that had been lost it tells only that
its blocks arrive: its data are taken once its identifier has been read (03 R94). -/
def State.blockIn (s : State) (p : Nat) (b : Block) : State :=
  let c := s.portCfg p
  let q := s.port p
  if !(addrs c).contains b.addr || b.isString != (monOrder c b.addr).isNone || (q.swSeen &&& cbit b.addr) != 0#64 then s
  else
    let s := s.onPort p (fun q => { q with swSeen := q.swSeen ||| cbit b.addr })
    if (s.node (nk p b.addr)).missing then s else
    let s := (s.nodeTone p b.addr b.tone).onNode (nk p b.addr) (fun n => { n with
      selftest := b.selftest, settleShort := b.settleShort, damaged := b.damaged })
    let s := s.f31Settle p
    let s := if q.swOw && !b.isString && b.ow != (q.owStep == 2) then
        (s.onNode (nk p b.addr) (fun n => { n with owBad := true })).onPort p (fun q => { q with owVoid := true })
      else s
    if b.missed then s
    else (s.onPort p (fun q => { q with compl := q.compl ||| cbit b.addr })).blockData p b

/-- The node at an address contributed a valid block to the sweep. -/
def State.contributed (s : State) (p a : Nat) : Bool := ((s.port p).compl &&& cbit a) != 0#64

/-! ## Comparisons at the end of a sweep (R163; 01 R23; 11 R287) -/

/-- Readings of a port that are judged at instant `S`: the cell, the reading, and whether it is a pair's sum; of a
confirmed open tap only the pair is judged. -/
def State.vUnits (s : State) (p S : Nat) : List (Nat × Nat × Bool) :=
  let ok (g : Nat) : Bool := (s.cell g).validT == some S
  (s.cellsOfStr p).filterMap (fun g =>
    if (s.cell g).openTap then (if ok g && ok (g + 1) then some (g, (s.cell g).v + (s.cell (g + 1)).v, true) else none)
    else if s.paired g || !ok g then none
    else some (g, (s.cell g).v, false))

/-- One voltage source is judged on the readings; with no reading nothing changes. -/
def State.judge (s : State) (n p : Nat) (us_ : List (Nat × Nat × Bool)) (hit : Nat × Nat × Bool → Bool) : State :=
  match us_.find? hit with
  | some x => s.stand n p { value := x.2.1, pos := x.1 % 512 }
  | none => if us_.isEmpty then s else s.cease n p

/-- At or above a limit, for a pair at or above twice the limit less 50 mV. -/
def above (lim : Nat) (x : Nat × Nat × Bool) : Bool := if x.2.2 then decide (2 * lim ≤ x.2.1 + 5000) else decide (lim ≤ x.2.1)

/-- At or below a limit, for a pair at or below twice the limit and 50 mV. -/
def below (lim : Nat) (x : Nat × Nat × Bool) : Bool := if x.2.2 then decide (x.2.1 ≤ 2 * lim + 5000) else decide (x.2.1 ≤ lim)

/-- F00–F03 of a port: the soft limits by the port engine, the hard limits by the safety cores. -/
def State.voltFaults (s : State) (p S : Nat) : State :=
  let u := s.vUnits p S
  let c := s.portCfg p
  let s := s.judge 2 p u (above c.softOv)
  let s := s.judge 3 p u (below c.softUv)
  let s := s.judge 0 p u (above (s.hardOv p))
  s.judge 1 p u (below (s.hardUv p))

/-- Sum of a monitor node's cell readings. -/
def State.nodeSum (s : State) (p o : Nat) : Nat :=
  ((List.range (cellsOf (s.portCfg p) o)).map (fun ch => (s.cell (gi p (16 * o + ch))).v)).sum

/-- F06 of a port: the stack voltage of a node against the sum of its readings, 0.2 % of the sum and 20 mV. -/
def State.stackFault (s : State) (p : Nat) : State :=
  let c := s.portCfg p
  let l := (List.range c.m).filter (fun o => match addrOf c o with
    | some a => s.contributed p a && (s.node (nk p a)).stack != 0xFFFFFFFF
    | none => false)
  let dev (o : Nat) : Nat :=
    let v : Int := 100 * (s.node (nk p ((addrOf c o).getD 0))).stack
    (v - s.nodeSum p o).natAbs
  match l.find? (fun o => decide (s.nodeSum p o + 1000000 < 500 * dev o)) with
  | some o => s.stand 6 p { value := (s.node (nk p ((addrOf c o).getD 0))).stack, pos := 16 * o }
  | none => if l.isEmpty then s else s.cease 6 p

/-- F09 from the node temperatures of a sweep (01 R23). -/
def State.tempFaults (s : State) (p : Nat) : State :=
  ((s.zonesOf p).foldl (fun s z => s.zoneDerate z) s).f09Settle p

/-! ## The signature check (R159, R160) -/

/-- Median of a list; of an even number of values the mean of the middle two, rounded down (DESIGN CHOICE, assumption log 99). -/
def medianOf (l : List Int) : Int :=
  let m := l.mergeSort (fun a b => decide (a ≤ b))
  let n := m.length
  if n = 0 then 0 else if n % 2 = 1 then m.getD (n / 2) 0 else (m.getD (n / 2 - 1) 0 + m.getD (n / 2) 0) / 2

/-- The suspect pairs of a node, by lower channel. -/
def State.suspectPairs (s : State) (p o : Nat) : List Nat :=
  let n := s.node (nk p ((addrOf (s.portCfg p) o).getD 0))
  let cs := (List.range (cellsOf (s.portCfg p) o)).map (fun ch => s.cell (gi p (16 * o + ch)))
  let ch : List Int := cs.map (fun c => (c.v : Int) - c.prev)
  let med := medianOf ch
  let d := ch.map (fun x => x - med)
  let stackOk : Bool := decide ((100 * ((n.stack : Int) - n.prevStack) - ch.sum).natAbs ≤ 500)
  if n.prevStack = 0 || n.prevStack = 0xFFFFFFFF || n.stack = 0xFFFFFFFF || !stackOk then []
  else (List.range (cs.length - 1)).filter (fun c =>
    let a := d.getD c 0
    let b := d.getD (c + 1) 0
    decide (1000 ≤ a.natAbs) && decide (1000 ≤ b.natAbs) && decide (a * b < 0) && decide ((a + b).natAbs ≤ 200))

/-- A cell is suspect from this sweep on. -/
def State.suspect (s : State) (g : Nat) : State :=
  s.onCell g (fun c => { c with suspect := true, word := c.word ||| (1#32 <<< 20) })

/-- An open-wire group is requested on a port, which ends a Sedge session (07 R204): of a standby's segment, from the primary
(assumption log 86). -/
def State.owRequested (s : State) (p : Nat) : State :=
  let s := (s.sedgeAbort p).onPort p (fun q => { q with owSig := true })
  if s.partnerUp && !s.actsPrimary then s.sendEvt (.owRequest p) else s

/-- The check on a node, whose readings it then keeps for the next one. A suspect pair requests an open-wire group. -/
def State.signatureNode (s : State) (p o : Nat) : State :=
  match addrOf (s.portCfg p) o with
  | none => s
  | some a =>
    if !s.contributed p a then s
    else
      let l := s.suspectPairs p o
      let s := l.foldl (fun s c => (s.suspect (gi p (16 * o + c))).suspect (gi p (16 * o + c + 1))) s
      let s := if l.isEmpty then s else s.owRequested p
      let s := (List.range (cellsOf (s.portCfg p) o)).foldl (fun s ch =>
        s.onCell (gi p (16 * o + ch)) (fun c => { c with prev := c.v })) s
      s.onNode (nk p a) (fun n => { n with prevStack := n.stack })

/-- The signature check of a sweep. -/
def State.signature (s : State) (p : Nat) : State :=
  (List.range (s.portCfg p).m).foldl (fun s o => s.signatureNode p o) s

/-! ## The open-wire group (R161–R164) -/

/-- Broadcasts OW_SET with a tap mask, in split mode to both segments (R156). -/
def State.owSet (s : State) (p mask : Nat) : State :=
  (if s.actsPrimary then s.broadcast p 0x08 (le 4 mask) else s).onPort p (fun q => { q with owSetT := s.now })

/-- Taps of every occupied channel of the port's nodes. -/
def State.owMask (s : State) (p : Nat) : Nat :=
  let n := (s.portCfg p).cells.foldl max 0
  if n = 0 then 0 else 2 ^ (n + 1) - 1

/-- S_k of a group that starts now (R154, R161): the next grid instant of the base mode, or of M0 in quiet mode, before which
reference A can be taken. -/
def State.owInstant (s : State) (p : Nat) : Nat :=
  let m := s.hotMode p (if (s.port p).quiet then 0 else (s.portCfg p).plan.base)
  ceilTo (period m) (s.now + us 500 + (s.port p).dW + s.reedLead p 2 true)

/-- A group with its test sample at `S` begins: its first sweep is reference A. -/
def State.owBegin (s : State) (p S : Nat) : State :=
  let s := (addrs (s.portCfg p)).foldl (fun s a => s.onNode (nk p a) (fun n => { n with owBad := false })) s
  s.onPort p (fun q => { q with owStep := 1, owS := S, owVoid := false, owDue := false, owSig := false, owTick := s.now })

/-- A group starts. -/
def State.owStart (s : State) (p : Nat) : State :=
  let S := s.owInstant p
  ((s.owBegin p S).owSet p 0).planTell (.planOw p S)

/-- An instant of the running group has passed without its sweep: the group is repeated (R161). -/
def State.owMissed (s : State) (p S : Nat) : State :=
  let q := s.port p
  if q.owStep ≠ 0 && q.owAt < S then (s.onPort p (fun q => { q with owStep := 0, owVoid := false })).owRequested p else s

/-- A group that is due is taken when the plan permits (R154): requested by the signature check it ends an M3 run, a
periodic one waits for the end of a Sedge session or a burst, and for a burst that is due. -/
def State.owTry (s : State) (p : Nat) : State :=
  let q := s.port p
  if q.st != .ready || !s.actsPrimary || q.owStep ≠ 0 || q.firstM0 ≠ 0 || q.takeover || s.pwr.st != .run then s
  else if q.owSig then ((s.burstOff p).sedgeAbort p).owStart p
  else if q.owDue && !q.sedge && !q.burst && !q.burstDue then s.owStart p
  else s

/-- Twice the shift of a channel (R162). -/
def State.shift2 (s : State) (p o ch : Nat) : Int :=
  let c := s.cell (gi p (16 * o + ch))
  2 * (c.owT : Int) - c.owA - c.v

/-- Interior tap j of a node is open. -/
def State.tapOpen (s : State) (p o j : Nat) : Bool :=
  let a := s.shift2 p o (j - 1)
  let b := s.shift2 p o j
  1 ≤ j && decide (j < cellsOf (s.portCfg p) o) && decide (a ≤ -10000) && decide (10000 ≤ b) && decide ((a + b).natAbs ≤ 1000)

/-- Outcome of a cell: 0 beside an open tap, 1 intact, 2 unexplained open, 3 indeterminate. -/
def State.owOutcome (s : State) (p o ch : Nat) : Nat :=
  let d := (s.shift2 p o ch).natAbs
  if s.tapOpen p o ch || s.tapOpen p o (ch + 1) then 0 else if d < 400 then 1 else if 10000 ≤ d then 2 else 3

/-- Position of the lower cell of the pair whose tap makes a cell indeterminate (R162; 11 R305): a reading that rises under the sinks
tells of the tap below the cell, one that falls of the tap above it (assumption log 34). -/
def State.tapLower (s : State) (g : Nat) : Nat :=
  if 0 < s.shift2 (g / 512) (g % 512 / 16) (g % 16) && g % 16 ≠ 0 then g % 512 - 1 else g % 512

/-- A cell's tap is reported degraded (1) or no longer degraded (2) (11 R305, kind 0x08): the node's address, the position `pos` of the
lower cell of the pair, and how many consecutive groups found the cell indeterminate. -/
def State.degradedRec (s : State) (g pos code n : Nat) : State :=
  s.eventRec 8 code ((addrOf (s.portCfg (g / 512)) (g % 512 / 16)).getD 0) (g / 512) (pos : Nat) n 0

/-- What the outcome does to a cell (R163). -/
def State.owApply (s : State) (g r : Nat) : State :=
  let c := s.cell g
  match r with
  | 0 => s.onCell g (fun c => { c with suspect := true, unexpl := false, intact := false, indet := 0 })
  | 1 =>
    let s := if c.degraded then s.degradedRec g c.degPos 2 0 else s
    s.onCell g (fun c => { c with suspect := false, unexpl := false, intact := true, indet := 0, degraded := false })
  | 2 => s.onCell g (fun c => { c with suspect := true, unexpl := true, intact := false, indet := 0 })
  | _ =>
    let n := min (c.indet + 1) 3
    let low := s.tapLower g
    let s := if n = 3 && !c.degraded then (s.degradedRec g low 1 n).onCell g (fun c => { c with degPos := low }) else s
    s.onCell g (fun c => { c with
      indet := n, intact := false, suspect := c.suspect || n == 3, degraded := c.degraded || n == 3 })

/-- A newly confirmed open tap: kept in MRAM after those confirmed before it, and its mask is written unless the node holds eight
or one of a pair that shares a cell with it (R163, R164; 04 R131). A standby tells the primary of one in its own segment, which
does so. -/
def State.tapNew (s : State) (p o ch : Nat) : State :=
  let g := gi p (16 * o + ch)
  if (s.cell g).openTap then s
  else
    let s := s.onCell g (fun c => { c with openTap := true })
    if !s.actsPrimary then (if s.partnerUp then s.sendEvt (.owTap g) else s) else
    let l := s.mram.taps.filter (fun x => x / 512 == p && x != g)
    let s := s.mirrorDue { kind := 9, key := p, body := ((l ++ [g]).map (le 2)).flatten } none
    match addrOf (s.portCfg p) o with
    | some a =>
      if (s.masksOf p a (l ++ [g])).contains ch then s.sendTo p a 0x06 (s.pairSumPayload p ch) none else s
    | none => s

/-- F05 of a port (11 R583). -/
def State.f05Settle (s : State) (p : Nat) : State :=
  let g := (s.cellsOfStr p).find? (fun g => (s.cell g).openTap || (s.cell g).unexpl)
  s.setCond 5 p g.isSome { pos := match g with | some g => g % 512 | none => 0xFFFF }

/-- A node is classified when its blocks of all three sweeps served; otherwise the group has found none of its cells intact
(R164). -/
def State.owNode (s : State) (p o : Nat) : State :=
  match addrOf (s.portCfg p) o with
  | none => s
  | some a =>
    if (s.node (nk p a)).owBad then
      (List.range (cellsOf (s.portCfg p) o)).foldl (fun s ch => s.onCell (gi p (16 * o + ch)) (fun c => { c with intact := false })) s
    else
      let rs := (List.range (cellsOf (s.portCfg p) o)).map (fun ch => (ch, s.owOutcome p o ch, s.tapOpen p o (ch + 1)))
      let s := rs.foldl (fun s x => s.owApply (gi p (16 * o + x.1)) x.2.1) s
      (rs.filter (fun x => x.2.2)).foldl (fun s x => s.tapNew p o x.1) s

/-- The classification (R161 step 7): a void result requests a whole group again. A pair that its own sweeps made suspect is
tested by it (assumption log 34). -/
def State.owClassify (s : State) (p : Nat) : State :=
  let s := (List.range (s.portCfg p).m).foldl (fun s o => s.owNode p o) s
  let s := s.f05Settle p
  let void := (s.port p).owVoid
  let s := s.onPort p (fun q => { q with owDoneT := s.now, owStep := 0, owSig := false })
  let s := if void then s.owRequested p else s
  match (s.port p).owCmd with
  | some r => if void then s else (s.onPort p (fun q => { q with owCmd := none })).okay r 0 []
  | none => s

/-- A group's sweep has ended: nodes without a valid block get no result of the group, and the next step follows. -/
def State.owAdvance (s : State) (p : Nat) : State :=
  let q := s.port p
  if !q.swOw || q.owStep = 0 then s
  else
    let s := ((addrs (s.portCfg p)).filter (fun a => !s.contributed p a)).foldl
      (fun s a => s.onNode (nk p a) (fun n => { n with owBad := true })) s
    match q.owStep with
    | 1 => (s.owSet p (s.owMask p)).onPort p (fun q => { q with owStep := 2 })
    | 2 => (s.owSet p 0).onPort p (fun q => { q with owStep := 3 })
    | _ => s.owClassify p

/-! ## Bursts (R150, R151, R154) -/

/-- A burst that is due starts when the plan permits: not beside a group, and a Sedge session counts it as taken. One that falls due
under a temperature demand above 1 Hz counts as taken too, which the spec does not say (R154 line 2; DESIGN CHOICE,
assumption log 100). -/
def State.burstTry (s : State) (p : Nat) : State :=
  let q := s.port p
  if !q.burstDue || q.st != .ready || !s.actsPrimary || s.pwr.st != .run then s
  else if q.sedge || 1 < q.rateHi || q.burst then s.onPort p (fun q => { q with burstDue := false })
  else if q.owStep ≠ 0 || q.owSig || q.firstM0 ≠ 0 then s
  else ((s.onPort p (fun q => { q with burst := true, burstDue := false })).planKick p).planTell (.planBurst p true)

/-! ## Records and staging (R166, R167; 22 R545; 01 R24) -/

/-- The "none" code of a signed 32-bit field (00 R11). -/
def none32 : Int := -2147483648

/-- The string current field of a sweep: none without a string node's valid block; the substitute while one is in force (06 R183). -/
def State.strField (s : State) (p : Nat) : Int :=
  match (s.portCfg p).strNode with
  | some a =>
    if (s.str p).subst then (s.derived p (s.port p).sweepS).getD none32
    else if s.contributed p a then (s.str p).iRaw - (s.str p).off else none32
  | none => none32

/-- The pack current field of a sweep at `S`: the sample taken at that instant; one that is not at hand any more, or not yet,
gives way to the latest (assumption log 89). -/
def State.packField (s : State) (S : Nat) : Int :=
  if !s.gen.packUsed then none32
  else (currentAt S s.pack.iHist s.pack.i).getD none32

/-- A sensor's field in a sweep's record. -/
def State.tempField (s : State) (p k : Nat) : Nat :=
  let c := s.portCfg p
  let x := s.sensor (si p k)
  if sensorsOf c (k / 8) ≤ k % 8 then 0x7FFE
  else match addrOf c (k / 8) with
  | some a => if !s.contributed p a then 0x7FFD
      else if x.openShort = 1 then 0x7FFF else if x.openShort = 2 then 0x8000 else (BitVec.ofInt 16 (x.last.getD 0)).toNat
  | none => 0x7FFD

/-- Body of a cell frame record. -/
def State.sweepRecord (s : State) (p : Nat) (settling : Bool) : List Byte :=
  let c := s.portCfg p
  let q := s.port p
  let inc := (addrs c).any (fun a => !s.contributed p a)
  let flags := q.swMode + bitsOf [false, false, q.swOw, q.swTemps, q.swStack, q.split, inc, settling]
  let sOk : Bool := match c.strNode with | some a => s.contributed p a | none => false
  let x := s.str p
  let cellW (pos : Nat) : Nat :=
    if occupied c pos then (s.cell (gi p pos)).word.toNat else 2 ^ 24 * (q.seq % 256)
  let head := le 8 q.sweepS ++ le 2 q.seq ++ le 1 p ++ le 1 flags ++ le 1 q.corner ++ le 1 (portC c) ++ le 1 c.m ++
    le 1 q.ends.toNat ++ le 8 q.compl.toNat ++ leI 4 (s.strField p) ++
    leI 4 (if sOk then x.vStr.getD none32 else none32) ++ leI 4 (if sOk then x.vx.getD none32 else none32) ++
    le 4 x.iso ++ leI 4 (s.packField q.sweepS) ++ zeros 4
  let stack := (List.range c.m).map (fun o => match addrOf c o with
    | some a => le 4 (if s.contributed p a then (s.node (nk p a)).stack else 0xFFFFFFFF)
    | none => le 4 0xFFFFFFFF)
  head ++ ((List.range (16 * c.m)).map (fun pos => le 4 (cellW pos))).flatten ++
    (if q.swStack then stack.flatten else []) ++
    (if q.swTemps then ((List.range (8 * c.m)).map (fun k => le 2 (s.tempField p k))).flatten else [])

/-- A cell's code in a black-box sweep record (22 R545). -/
def State.bbCell (s : State) (p pos : Nat) : Nat :=
  if !occupied (s.portCfg p) pos then 0xFFFE
  else if (s.cell (gi p pos)).stale then 0xFFFF
  else min ((s.cell (gi p pos)).v / 10) 0xFFFD

/-- The sweep enters black-box staging: the port's last 16, and the 16 that follow a trigger wait for their records. -/
def State.stage (s : State) (p : Nat) : State :=
  let q := s.port p
  let x : Staged := {
    seq := q.seq, t := q.sweepS, mode := q.swMode, split := q.split, compl := q.compl, iStr := s.strField p
    iPack := s.packField q.sweepS, cells := (List.range 512).map (s.bbCell p) }
  let st := s.mram.staging.set p ((x :: s.mram.staging.getD p []).take 16)
  let got (n : Snapshot) : Nat := n.sweeps.length + n.todo.length + n.skipped
  let full (n : Snapshot) : Bool := decide (n.pre + 16 ≤ got n)
  let sn := if s.mram.collecting.getD p 0 = 0 then s.mram.snaps
    else match s.mram.snaps.find? (fun n => n.port == p) with
    | some n => s.mram.snaps.map (fun m => if m = n && !full m then { m with todo := m.todo ++ [{ x with idx := 16 + got m - m.pre }] } else m)
    | none => s.mram.snaps
  { s with mram := { s.mram with staging := st, snaps := sn } }

/-! ## The end of a sweep -/

/-- Cells and stack voltages of nodes without a valid block (R165): stale, the last valid voltage repeated. -/
def State.staleMarks (s : State) (p : Nat) : State :=
  let c := s.portCfg p
  let q := s.port p
  (List.range c.m).foldl (fun s o =>
    match addrOf c o with
    | none => s
    | some a =>
      if s.contributed p a then s
      else
        let s := (List.range (cellsOf c o)).foldl (fun s ch =>
          let g := gi p (16 * o + ch)
          let sus := s.suspectOf g
          s.onCell g (fun x => { x with stale := true, word := cellWord x.v q.seq sus (q.corner < 6) true false })) s
        if q.swStack then s.onNode (nk p a) (fun n => { n with stack := 0xFFFFFFFF }) else s) s

/-- Whose blocks arrive (04 R113), and what is done about nodes that had been lost (03 R94). -/
def State.blocksSeen (s : State) (p : Nat) : State :=
  let q := s.port p
  let l := addrs (s.portCfg p)
  let s := l.foldl (fun s a => s.onNode (nk p a) (fun n => { n with blocks := (q.swSeen &&& cbit a) != 0#64 })) s
  if s.actsPrimary && l.any (fun a => (s.node (nk p a)).missing && (s.node (nk p a)).blocks) then s.seekLost p else s

/-- The first sweeps after READY (21 R522): after the fourth the estimates are seeded (08 R236) and the plan starts. -/
def State.firstSweeps (s : State) (p : Nat) : State :=
  let n := (s.port p).firstM0
  if n = 0 then s
  else
    let s := s.onPort p (fun q => { q with firstM0 := n - 1 })
    if n = 1 then (s.seedPort p).planKick p else s

/-- What the sweep's string current does: the sample in use, and for the strings of the port's contactors the disconnects,
the close sequence and the checks at open. -/
def State.sweepCurrent (s : State) (p : Nat) (settling : Bool) : State :=
  let q := s.port p
  let ok : Bool := match (s.portCfg p).strNode with | some a => s.contributed p a | none => false
  let (s, i) := s.strSample p q.sweepS (if ok then some (s.str p).iRaw else none) settling q.swOw
  let miss := s.modeOn p q.sweepS == 3 && q.swMode != 3
  let s := if s.pwr.st == .run then
      (s.impSample p q.sweepS (if miss then none else i) settling q.swOw).sedgeSample p settling q.swOw else s
  let s := s.ethSample p
  let s := match s.ctrCur p with
    | some i => if (s.str p).iT = q.sweepS then s.discSample p i else s
    | none => s
  (s.seqSample p ok).openSample p

/-- A sweep that this module issues is discarded when the partner's REED frame of the same sweep period was observed at its own
ends: no node of it counts as contributing (17 R424). -/
def State.sweepVoid (s : State) (p : Nat) : State :=
  let q := s.port p
  let same := match q.reedPartner with
    | some S => decide (q.sweepS < S + period q.swMode ∧ S < q.sweepS + period q.swMode)
    | none => false
  if same && s.pair.role != .standby && !q.split then s.onPort p (fun q => { q with compl := 0 }) else s

/-- A sweep ends when its COLLECT frames have arrived at every own end in lock, or the next one begins: every consumer of
01 R24 takes it. -/
def State.sweepClose (s : State) (p : Nat) : State :=
  let s := s.sweepVoid p
  let q := s.port p
  if !q.sweepOpen then s
  else
    let settling := decide (q.sweepS < q.settleT)
    let s := (s.onPort p (fun q => { q with sweepOpen := false })).sedgeStops p
    let s := (s.staleMarks p).blocksSeen p
    let s := if q.swOw then s else s.voltFaults p q.sweepS
    let s := if q.swOw || !q.swStack then s else s.stackFault p
    let s := if q.swStack then s.signature p else s
    let s := (s.f07Settle p).sweepCurrent p settling
    let s := if q.swTemps then s.tempFaults p else s
    let s := (s.record (fnCells p) (s.sweepRecord p settling)).stage p
    let s := ((s.owAdvance p).firstSweeps p).selfCheckEnd
    if s.pwr.st == .moss then
      let s := s.mossEval p
      if s.pwr.st == .moss then (s.napPort p).peatSettle else s
    else (s.burstTry p).owTry p

/-- Every own end in lock has delivered the sweep's COLLECT frame; in Moss the active end has, where it is one of them (R155 step 1). -/
def State.sweepFull (s : State) (p : Nat) : Bool :=
  let l := (s.ownEnds p).filter (s.locked p)
  let l := if s.pwr.st == .moss && l.contains (s.activeEnd p) then [s.activeEnd p] else l
  !l.isEmpty && l.all (fun e => (s.port p).endsDone.getLsbD e)

/-! ## Balancing (19 R472; 04 R124, R132) -/

/-- Channels of a node with balancing time remaining, and their ends. -/
def State.balDue (s : State) (p a : Nat) : List (Nat × Nat) :=
  match monOrder (s.portCfg p) a with
  | some o => ((List.range (cellsOf (s.portCfg p) o)).map (fun ch => (ch, (s.cell (gi p (16 * o + ch))).bal))).filter
      (fun x => decide (s.now < x.2))
  | none => []

/-- Sends a node BALANCE with every channel with time remaining and the shortest of the remaining times, in s rounded up;
with none, a BALANCE of mask 0. -/
def State.balDrive (s : State) (p a : Nat) (ref : Option CmdRef) : State :=
  let l := s.balDue p a
  let mask := (l.map (fun x => 2 ^ x.1)).sum
  let t := match l.map (·.2) with | [] => 0 | x :: r => r.foldl min x
  let dur := (t - s.now + 999999999) / 1000000000
  let s := (s.onNode (nk p a) (fun n => { n with balance := BitVec.ofNat 16 mask, balT := t, rewrites := 0 })).balHold p a
    (if (s.node (nk p a)).tone then [] else l.map (·.1))
  s.sendTo p a 0x09 (le 2 mask ++ le 2 dur) ref

end Sys2Proof.Machine
end

