-- ==== Sys2Proof/Machine/Sweep.lean ====
section
/-! DEFINITION. The commands of the sweep family (chapter 05; 04 R115–R121): Reed pulses, COLLECT frames, mode changes,
bursts, quiet mode, open-wire groups, and the end of a balancing duration (19 R472). -/

namespace Sys2Proof.Machine

open Sys2Proof

/-! ## Reed pulses -/

/-- The port may issue Reed pulses (03 R70, R91; 05 R154 line 1; 17 R422). -/
def State.mayReed (s : State) (p : Nat) : Bool :=
  let q := s.port p
  s.declared p && q.st == .ready && q.engine && q.phy && s.chnUp p && (s.actsPrimary || q.split) && (!s.isPair || s.drv.coresUp) &&
    !(s.pair.retrain && s.pwr.st == .run && decide (s.now < s.pwr.startT + ms 90))

/-- A recalibration starts at a sweep boundary (03 R86). -/
def State.recalTry (s : State) (p : Nat) : State :=
  let q := s.port p
  if q.recal && !q.recalOn && s.actsPrimary then
    (s.onPort p (fun q => { q with recal := false, recalOn := true, recalTried := true, dNew := 0 })).calStart p
  else s

/-- Ends from which a port's Reed pulses leave: the active end, in split mode every own end (03 R91). -/
def State.reedEnds (s : State) (p : Nat) : List Nat :=
  if (s.port p).split then s.ownEnds p else (s.ownEnds p).filter (· == s.activeEnd p)

/-- The COLLECT frame of the previous sweep has left the issuing ends (R157). -/
def State.collectLeft (s : State) (p : Nat) : Bool :=
  !(s.port p).sweepOpen || (s.reedEnds p).all (fun e => (s.port p).launched.getLsbD e)

/-- When a COLLECT frame leaves: T + D + t_conv + 2 µs (04 R117). -/
def Port.collectT (q : Port) : Nat := q.sweepS + tConv q.swMode + us 2

/-- When the EOF of the REED frame of a sweep at `S` leaves (R148). -/
def State.reedEof (s : State) (p S mode : Nat) (ow : Bool) : Nat := S - (s.port p).dW - s.reedLead p mode ow

/-- The REED frame can still leave in its window, after the COLLECT frame of the previous sweep (R148, R157), which takes 14 code
groups, and in a group at least 50 µs after OW_SET (R161). -/
def State.reedMay (s : State) (p S mode : Nat) (ow : Bool) : Bool :=
  let q := s.port p
  let t := s.reedEof p S mode ow
  decide (q.dW + s.reedLead p mode ow ≤ S) && decide (s.now ≤ t) && (q.sweepS = 0 || decide (q.collectT + 1120 ≤ t)) &&
    (!ow || q.owStep ≤ 1 || decide (q.owSetT + us 50 ≤ t))

/-- The REED frame and the MARK of a sweep of a kind (mode, temperatures, stack, open-wire step): the frame in its window, the
MARK at T = S − D (R139, R148; 04 R115). -/
def State.reedSend (s : State) (p : Nat) (S : Nat) (k : Nat × Bool × Bool × Bool) : State :=
  let (mode, temps, stack, ow) := k
  let t := s.reedEof p S mode ow
  let s := s.at t
  let seq := ((s.port p).seq + 1) % 65536
  let s := s.sweepBegin p S seq mode temps stack ow (s.swCorner p mode ow) t
  let T := S - (s.port p).dW
  let fl := reedFlags mode ow temps stack
  let s := (s.reedEnds p).foldl (fun s e =>
    (s.chainOut p e t (reedFrame e (s.cseq (2 * p + e)) T seq fl (s.port p).corner)).emit (.mark p e T)) s
  ({ s with time := { s.time with reedIssued := true } } : State).recalTry p

/-- REED_ISSUE (R138–R148, R153, R154, R157; 04 R115): the REED frame and the MARK at S − D, from the active end and in split
mode from both ends. A sweep still open is closed first. Where the plan issues no sweep at `S`, or its frame can no longer
leave in its window, nothing is sent. -/
def execReedIssue (p : Nat) (S : Nat) (s : State) : Out :=
  .next (
    if !s.mayReed p || S % 250000 ≠ 0 || S ≤ (s.port p).sweepS || !s.collectLeft p then s
    else
      let s := (s.sweepClose p).owMissed p S
      match s.swKind p S with
      | none => s
      | some k => if s.mayReed p && s.reedMay p S k.1 k.2.2.2 then s.reedSend p S k else s)

/-- Nominal instant of a sweep observed at time stamp `t`: the nearest grid instant to t + D. -/
def State.observedS (s : State) (p t : Nat) : Nat := (t + (s.port p).dW + 125000) / 250000 * 250000

/-- A module of a pair observes the other's REED frame: a proof of life (17 R423), and for a standby the sweep of its own
ports, whose mode, flags and corner the frame gives (R142; 04 R117). -/
def State.reedOther (s : State) (p : Nat) (r : Reed) : State :=
  let s := s.proofOfLife r.t
  let q := s.port p
  if s.pair.role != .standby || q.split || q.st != .ready then s
  else
    let s := s.sweepClose p
    s.sweepBegin p (s.observedS p r.t) r.seq r.mode r.temps r.stack r.ow r.corner s.now

/-- An observed REED pulse is noted with its arrival time, and in a pair the instant of its sweep (17 R424); a suspected break is
over (R69). -/
def State.reedNoted (s : State) (p e : Nat) (r : Reed) : State :=
  let s := s.onPort p (fun q => { q with
    reedSeen := q.reedSeen.set e s.now, reedPartner := if s.isPair then some (s.observedS p r.t) else none })
  if (s.port p).split || (s.port p).splitReq then s else s.cease 26 p

/-- REED_FRAME_OBSERVED (03 R69; 17 R423, R424): a Reed pulse at a listening end. In a pair it is proof of life of the
partner, and the standby takes the sweep's instant, number and mode from it. A suspected break ends with it. It arrives at `t`. -/
def execReedFrameObserved (p : Nat) (e : Nat) (f : RawFrame) (t : Nat) (s : State) : Out :=
  .next ((s.at t).frameIn p e f (fun s f =>
    if f.typ ≠ 3 then s
    else
      let s := s.reedNoted p e (reedOf f)
      if s.isPair then s.reedOther p (reedOf f) else s))

/-- Loop delay of a port, ns: d_N + d_S, which every node has in common (R85). -/
def State.loopDelay (s : State) (p : Nat) : Nat :=
  (s.found p).foldl (fun m a => max m ((s.node (nk p a)).dN + (s.node (nk p a)).dS)) 0

/-- T of the Reed pulse that a listening end awaits: of the sweep this module issues, or of the next one of a standby's mode. -/
def State.pulseT (s : State) (p : Nat) : Option Nat :=
  let q := s.port p
  if s.actsPrimary then (if q.sweepOpen then some (q.sweepS - q.dW) else none)
  else if q.st == .ready then some ((q.sweepS / period q.mode + 1) * period q.mode - q.dW)
  else none

/-- A Reed pulse is missing: a suspected break, which a standby reports to the primary (R69, R88; assumption log 86). -/
def State.pulseMissed (s : State) (p : Nat) : State :=
  if s.actsPrimary then s.stand 26 p { value := (s.port p).brkNode } else s.sendEvt (.chainPulse p)

/-- REED_PULSE_MISSING (03 R69, R88): a Reed pulse has not arrived at a listening end within the loop delay and 2 µs of its time
stamp. -/
def execReedPulseMissing (p : Nat) (e : Nat) (s : State) : Out :=
  .next (
    let q := s.port p
    if !s.heard p e || e = s.activeEnd p || !s.wired p (1 - e) || q.split then s
    else match s.pulseT p with
    | none => s
    | some T =>
      if T ≤ q.reedSeen.getD e 0 + s.reedLead p q.swMode q.swOw then s
      else (s.at (T + s.loopDelay p + us 2)).pulseMissed p)

/-! ## COLLECT frames -/

/-- COLLECT_LAUNCH (04 R117): at T + D + t_conv + 2 µs from each wired end in service, once per sweep. -/
def execCollectLaunch (p : Nat) (e : Nat) (s : State) : Out :=
  .next (
    let q := s.port p
    if !s.heard p e || !q.sweepOpen || q.launched.getLsbD e then s
    else
      let s := (s.at q.collectT).onPort p (fun q => { q with launched := q.launched ||| (1#2 <<< e) })
      s.chainOut p e q.collectT (collectFrame e (s.cseq (2 * p + e)) q.seq))

/-- What delimits a node's block in the sweep in progress (04 R119): known once its identity has been read. -/
def State.shapeOf (s : State) (p a : Nat) : Option BlockShape :=
  let n := s.node (nk p a)
  let q := s.port p
  if !(addrs (s.portCfg p)).contains a || n.uid.isNone then none
  else some { str := n.typ == 2, cells := n.cells, sensors := n.sensors, mode := q.swMode, stack := q.swStack, temps := q.swTemps }

/-- An end has delivered its COLLECT frame of the open sweep, which closes once every end has. -/
def State.collectOver (s : State) (p e : Nat) : State :=
  let s := s.onPort p (fun q => { q with endsDone := q.endsDone ||| (1#2 <<< e) })
  if s.sweepFull p then s.sweepClose p else s

/-- A good COLLECT frame: its good blocks enter live state when it belongs to the open sweep (R117–R121). -/
def State.collectTake (s : State) (p e : Nat) (f : Frame) : State :=
  let q := s.port p
  if !q.sweepOpen || f.tag ≠ q.seq % 256 then s.frameCount p e 1 0
  else
    let bs := blocksOf (s.shapeOf p) 33 f.payload
    let good := bs.filter (fun b => b.crcOk)
    let s := s.frameCount p e (1 + bs.length) (bs.length - good.length)
    let s := if s.foreign p then s
      else
        let s := good.foldl (fun s b => s.blockIn p b) s
        s.onPort p (fun q => { q with ends := if good.isEmpty then q.ends else q.ends ||| (1#2 <<< e) })
    s.collectOver p e

/-- A COLLECT frame that fails its CRC-32C: it is counted and discarded (04 R112). Where its header tells that it belongs to the open
sweep, the end counts as having delivered (DESIGN CHOICE, assumption log 117). -/
def State.collectBad (s : State) (p e : Nat) (f : RawFrame) : State :=
  let s := s.frameCount p e 1 1
  let q := s.port p
  if q.sweepOpen && collectHead f == some (q.seq % 256) then s.collectOver p e else s

/-- COLLECT_FRAME_RECEIVED (01 R22–R24; 04 R114, R117–R121; R165): the frame's checks and its blocks' are counted at the
end; the blocks of the sweep in progress are taken, the first good copy of each; when every end has delivered, the sweep
ends. -/
def execCollectFrameReceived (p : Nat) (e : Nat) (f : RawFrame) (s : State) : Out :=
  .next (
    if !s.heard p e then s
    else match frameParse f with
    | .error _ => s.collectBad p e f
    | .ok c => if c.typ = 4 then s.collectTake p e c else s.frameCount p e 1 0)

/-! ## Modes, bursts, quiet mode, groups -/

/-- A mode takes effect on a port from grid instant `S` (R153; 01 R40; 06 R177). -/
def State.modeTake (s : State) (p mode S : Nat) : State :=
  let s := s.onPort p (fun q => { q with
    mode := mode, modePrev := if s.now < q.modeS then q.modePrev else q.mode, modeS := S, m3Since := S })
  (s.filtRestart p S).estClock

/-- The mode the plan calls for takes effect, at its first grid instant whose REED window has not passed. -/
def State.modeChange (s : State) (p mode : Nat) : State :=
  let q := s.port p
  if q.st != .ready || mode ≠ q.modeReq || mode = q.mode then s
  else
    let S := s.firstS p mode
    (s.modeTake p mode S).planTell (.planMode p mode S)

/-- MODE_CHANGE (R153; 21 R520). -/
def execModeChange (p : Nat) (mode : Nat) (s : State) : Out :=
  .next (if s.drv.svcUp then s.modeChange p mode else s.deferPlan p 0)

/-- The next instant at which a burst of a port falls due (R151). -/
def burstAt (p int now : Nat) : Nat :=
  let d := p * int / 16
  if now ≤ d then d else d + (now - d + int - 1) / int * int

/-- A burst of a port falls due. -/
def State.burstDue (s : State) (p : Nat) : State :=
  let c := (s.portCfg p).plan
  if !s.declared p || c.burstInt = 0 || (s.port p).burst || !s.actsPrimary || s.pwr.st != .run then s
  else (s.onPort p (fun q => { q with burstDue := true })).burstTry p

/-- M3_BURST_START (R151, R154; 21 R520): on the module time base. -/
def execM3BurstStart (p : Nat) (s : State) : Out :=
  .next (
    let c := (s.portCfg p).plan
    if !s.declared p || c.burstInt = 0 then s
    else
      let s := s.at (burstAt p (sec c.burstInt) s.now)
      if s.drv.svcUp then s.burstDue p else s.deferPlan p 1)

/-- A burst ends; a periodic group deferred for it is taken. -/
def State.burstEnd (s : State) (p : Nat) : State := if (s.port p).burst then (s.burstOff p).owTry p else s

/-- M3_BURST_END (R150; 21 R520): the burst has lasted its length. -/
def execM3BurstEnd (p : Nat) (s : State) : Out :=
  .next (
    let q := s.port p
    if !q.burst then s
    else
      let s := if q.mode = 3 then s.at (q.m3Since + ms (s.portCfg p).plan.burst) else s
      if s.drv.svcUp then s.burstEnd p else s.deferPlan p 2)

/-- Quiet mode begins on a port. -/
def State.quietOn (s : State) (p : Nat) : State :=
  let q := s.port p
  if q.quiet || !(s.portCfg p).plan.quietOn || q.st != .ready || !s.actsPrimary || s.pwr.st != .run then s
  else ((s.onPort p (fun q => { q with quiet := true, quietT := s.now })).planKick p).planTell (.planQuiet p true)

/-- QUIET_MODE_ENTRY (R152; 21 R520): the current has stayed below the quiet threshold for the dwell. -/
def execQuietModeEntry (p : Nat) (s : State) : Out :=
  .next (
    match (s.str p).quietT with
    | some t =>
      if (s.port p).quiet then s
      else
        let s := s.at (t + sec (s.portCfg p).plan.quietDwell)
        if s.drv.svcUp then s.quietOn p else s.deferPlan p 3
    | none => s)

/-- Quiet mode ends on a port. -/
def State.quietOff (s : State) (p : Nat) : State :=
  if !(s.port p).quiet || !s.actsPrimary then s
  else (((s.onPort p (fun q => { q with quiet := false })).sedgeAbort p).planKick p).planTell (.planQuiet p false)

/-- QUIET_MODE_EXIT (R152; 07 R204; 21 R520): one sweep at twice the threshold, or 1 s at or above it. -/
def execQuietModeExit (p : Nat) (s : State) : Out :=
  .next (
    let x := s.str p
    let lv := s.quietLevel p (x.i.getD 0)
    let leave (s : State) : State := if s.drv.svcUp then s.quietOff p else s.deferPlan p 4
    if !(s.port p).quiet || !s.actsPrimary then s
    else if 2 * lv.2 ≤ lv.1 then leave s
    else match x.quietExT with
    | some t => leave (s.at (t + sec 1))
    | none => s)

/-- A periodic group falls due, or one that was requested is taken. -/
def State.owDueNow (s : State) (p : Nat) : State :=
  if (s.port p).st != .ready || !s.actsPrimary || (s.port p).owStep ≠ 0 then s
  else (s.onPort p (fun q => { q with owDue := true })).owTry p

/-- OPEN_WIRE_GROUP_DUE (R150, R154, R161; 21 R520). -/
def execOpenWireGroupDue (p : Nat) (s : State) : Out :=
  .next (
    let q := s.port p
    if q.st != .ready || !s.actsPrimary || q.owStep ≠ 0 then s
    else
      let s := if q.owSig || q.owDue || q.owTick = 0 then s else s.at (q.owTick + sec (s.portCfg p).plan.owInt)
      if s.drv.svcUp then s.owDueNow p else s.deferPlan p 5)

/-- The plan events that waited for the service cores are taken (21 R520), a burst and then a periodic group after all others: of those
that fall due together R154 decides. -/
def State.planResume (s : State) (p : Nat) : State :=
  let d := (s.port p).defer
  let l := d.filter (fun k => k ≠ 1 && k ≠ 5) ++ d.filter (· == 1) ++ d.filter (· == 5)
  let s := s.onPort p (fun q => { q with defer := [] })
  l.foldl (fun s k =>
    match k with
    | 0 => s.modeChange p (s.port p).modeReq
    | 1 => s.burstDue p
    | 2 => s.burstEnd p
    | 3 => s.quietOn p
    | 4 => s.quietOff p
    | 5 => s.owDueNow p
    | _ => s.sedgeStart p) s

/-- BALANCE_DURATION_END (19 R472): the shortest duration on a node has ended; it is sent the channels still due. -/
def execBalanceDurationEnd (p : Nat) (addr : Nat) (s : State) : Out :=
  .next (
    let n := s.node (nk p addr)
    if n.balance = 0 || !s.actsPrimary then s
    else
      let s := s.at n.balT
      let o := (monOrder (s.portCfg p) addr).getD 0
      let s := (List.range 16).foldl (fun s ch =>
        s.onCell (gi p (16 * o + ch)) (fun c => if c.bal ≤ s.now then { c with bal := 0 } else c)) s
      s.balDrive p addr none)

end Sys2Proof.Machine
end

