-- ==== Sys2Proof/Machine/Nv.lean ====
section
/-! DEFINITION. The commands of the non-volatile family (chapter 22; 03 R82; 08 R235; 23 R553): record writes, deferral,
periodic saves, snapshots. -/

namespace Sys2Proof.Machine

open Sys2Proof

/-! ## Record writes (R531) -/

/-- Logical MRAM offset of the copy that a write of a record would target (R528, R532), where the spec gives the record
a place. -/
def State.nvOffset (s : State) (r : NvReq) : Option Nat :=
  match r.kind with
  | 0x01 => some (320 * r.key)
  | 0x02 =>
    some ((if targetsB (Tab.find s.mram.ageA r.key) (Tab.find s.mram.ageB r.key) then 0x300000 else 0x280000) + 64 * r.key)
  | 0x03 => some (if r.key = 1 then 0x5C0000 else 0x580000)
  | 0x04 => some (if targetsB s.mram.estA s.mram.estB then 0x7B0000 else 0x7A0000)
  | 0x05 => some (if r.key = 1 then 0x6C0000 else 0x600000)
  | 0x0D => some (0x3DC000 + 35840 * s.snapSlot)
  | _ => none

/-- The offset, free within the 8 MB where the spec gives the record no place (assumption log 10). -/
def State.nvPlace (s : State) (r : NvReq) : Nat × State :=
  match s.nvOffset r with
  | some o => (o, s)
  | none => let (v, s) := s.draw; (v % 8388608, s)

/-- F58 for a record, with its black-box event (R544). -/
def State.nvFault (s : State) (r : NvReq) (off : Nat) : State :=
  (s.stand 58 16 { value := off }).bbEvent 0x0E r.kind 255 off 0 0

/-- A write whose read-back fails for good (R531 step 6): the copy it targeted is not valid, and the one before it stays
in force. An impedance table keeps its journal entry, and a journal entry is left without a valid commit word. -/
def State.nvSpoil (s : State) (r : NvReq) : State :=
  let s := s.takeCommit r.kind
  let drop (t : Tab Nat NvRec) : Tab Nat NvRec := t.filter (fun x => x.1 != r.key)
  match r.kind with
  | 0x01 =>
    let j := s.commitOf 7
    let s := (s.takeCommit 7).journal { kind := 1, target := 320 * r.key, subject := r.key, body := r.body, commit := j }
    { s with mram := { s.mram with imp := drop s.mram.imp } }
  | 0x02 =>
    if targetsB (Tab.find s.mram.ageA r.key) (Tab.find s.mram.ageB r.key) then
      { s with mram := { s.mram with ageB := drop s.mram.ageB } }
    else { s with mram := { s.mram with ageA := drop s.mram.ageA } }
  | 0x03 =>
    if r.key = 1 then { s with cfg := { s.cfg with copy2 := none } } else { s with cfg := { s.cfg with copy1 := none } }
  | 0x04 =>
    if targetsB s.mram.estA s.mram.estB then { s with mram := { s.mram with estB := none } }
    else { s with mram := { s.mram with estA := none } }
  | 0x05 => { s with mram := { s.mram with fw := s.mram.fw.set r.key {}, images := s.mram.images.set r.key [] } }
  | 0x07 => s.journal { kind := r.key, subject := field r.body 0 2, body := r.body, commit := 0 }
  | 0x0C | 0x0D => { s with mram := { s.mram with bbSeq := nextCommit s.mram.bbSeq } }
  | _ => s

/-- MRAM_RECORD_WRITE (R530–R536; 23 R553): the read-backs of the first and of the repeated write fail as `fail1` and
`fail2` tell. With no spare sector left, the first failure raises F58. -/
def execMramRecordWrite (rec_ : RecStart) (fail1 : Bool) (fail2 : Bool) (s : State) : Out :=
  .next (
    let s := s.holdupNow rec_.holdup
    let rec_ := rec_.req
    if !s.mayWrite then s.nvDue rec_
    else if !fail1 then s.nvCommit rec_
    else
      let (off, s) := s.nvPlace rec_
      if 48 ≤ s.mram.remap.length then (s.nvSpoil rec_).nvFault rec_ off
      else
        let s := s.sectorRemap (off / 4096)
        if fail2 then (s.nvSpoil rec_).nvFault rec_ off else s.nvCommit rec_)

/-- RECORD_DEFERRAL_RETRY (R536): deferred records are written once the hold-up is there. What PWR_HOLDUP reports by then is
a free value (assumption log 10). -/
def execRecordDeferralRetry (s : State) : Out :=
  .next (if s.mram.held.isEmpty then s else s.holdupDrawn.flushHeld)

/-- DEFERRED_RECORD_TIMEOUT (R536): the oldest deferred record is still unwritten 60 s after it fell due; it is retried
further. -/
def execDeferredRecordTimeout (s : State) : Out :=
  .next (
    if s.mayWrite || s.mram.refuse || 100 ≤ s.pwr.holdup then s
    else match s.mram.held.find? (fun h => !h.late) with
    | none => s
    | some h =>
      let s := s.at (h.due + sec 60)
      let held := s.mram.held.map (fun x => if x = h then { x with late := true } else x)
      let s := { s with mram := { s.mram with held := held } }
      let (off, s) := s.nvPlace h.req
      s.nvFault h.req off)

/-! ## Periodic saves -/

/-- JOURNAL_STRING_COUNTERS (R534): every 10 s in Run. -/
def execJournalStringCounters (s : State) : Out := .next (if s.pwr.st != .run then s else s.counterSave)

/-- ESTIMATOR_STATE_SAVE (R533): every 10 min in Run. -/
def execEstimatorStateSave (s : State) : Out := .next (if s.pwr.st != .run then s else s.estSave)

/-- AGEING_RECORD_DAILY (08 R235): every 24 h. -/
def execAgeingRecordDaily (s : State) : Out := .next (if s.pwr.st != .run then s else s.agesSave)

/-- PASSPORT_REWRITE (03 R82; 17 R424; 21 R515): every 24 h; passports that cannot be written in Moss are written at the
entry to Peat. A provisional primary writes none. -/
def execPassportRewrite (s : State) : Out :=
  .next (
    if !s.actsPrimary || s.pwr.st == .peat then s
    else if s.pwr.st != .run || !s.fullPrimary || !s.drv.svcUp then { s with mram := { s.mram with passDue := true } }
    else
      let s := (s.portList.filter (fun p => (s.port p).st == .ready)).foldl (fun s p => s.passWrite p) s
      { s with mram := { s.mram with passDue := false } })

/-! ## Snapshots (R545) -/

/-- SNAPSHOT_SWEEP_COMMIT (R545 steps 2–4): the next sweep record of the port's snapshot; after the last one, the event
"snapshot complete". -/
def execSnapshotSweepCommit (p : Nat) (s : State) : Out :=
  .next (
    if s.mram.collecting.getD p 0 = 0 || !s.mayWrite then s
    else match s.mram.snaps.find? (fun n => n.port == p) with
    | none => s
    | some n => match n.todo with
      | [] => s
      | x :: r =>
        let q := nextCommit s.mram.bbSeq
        let n' : Snapshot := { n with todo := r, sweeps := (q, x) :: n.sweeps }
        let snaps := s.mram.snaps.map (fun m => if m = n then n' else m)
        let done := r.isEmpty && decide (n.pre + 16 ≤ n'.sweeps.length + n.skipped)
        let k := if done then 0 else s.mram.collecting.getD p 0 + 1
        let s := { s with mram := { s.mram with bbSeq := q, snaps := snaps, collecting := s.mram.collecting.set p k } }
        if done then s.bbEvent 8 n.source p n.slot n'.sweeps.length 0 else s)

end Sys2Proof.Machine
end

