-- ==== Sys2Proof/Machine/Pair.lean ====
section
/-! DEFINITION. The commands of the pair family: training, heartbeats, loss and takeover, and what arrives over the
Causeway (chapter 17; 01 R30, R31; 11 R299; 12 R331). -/

namespace Sys2Proof.Machine

open Sys2Proof

/-! ## Digests and resync (R430) -/

/-- Records in the order of their commit sequences, the highest first. -/
def newestFirst (l : List (Nat × NvReq)) : List NvReq :=
  (l.foldl (fun m x => m.filter (fun y => decide (x.1 < y.1)) ++ [x] ++ m.filter (fun y => decide (y.1 ≤ x.1))) []).map (·.2)

/-- The records of a mirrored region, those with a commit sequence newest first. -/
def State.regionRecs (s : State) (r : Nat) : List NvReq :=
  match r with
  | 1 => s.portList.map (fun p => { kind := 8, key := p, body := ((List.range 33).map (fun i =>
      le 8 ((s.mram.roster.getD (nk p (i + 1)) 0#64).toNat))).flatten ++ s.mram.rosterSerial.getD p [] })
  | 2 => newestFirst (s.allCells.filterMap (fun g => (s.ageing g).map (fun x => (x.commit, { kind := 2, key := g, body := x.body }))))
  | 3 => newestFirst (s.allCells.filterMap (fun g =>
      (Tab.find s.mram.imp g).map (fun x => (x.commit, { kind := 1, key := g, body := x.body }))))
  | 4 => s.portList.map (fun p => { kind := 9, key := p, body := ((s.mram.taps.filter (fun g => g / 512 == p)).map (le 2)).flatten })
  | 5 => s.mram.offs.map (fun x => { kind := 0x0A, key := x.1, body := leI 4 x.2 })
  | 6 => match s.lastCounters with | some e => [{ kind := 7, key := 3, body := e.body }] | none => []
  | _ => []

/-- A resync of a region: the primary sends every record, and counts those whose result is awaited. -/
def State.resyncRegion (s : State) (r : Nat) : State :=
  if r = 0 then
    match s.cfg.work, s.cfg.sealVal with
    | some b, some v =>
      let s := s.sendNvw (.blob b v)
      { s with pair := { s.pair with resync := s.pair.resync + 1 } }
    | _, _ => s
  else
    (s.regionRecs r).foldl (fun s q =>
      let s := s.sendNvw (.write q)
      { s with pair := { s.pair with resync := s.pair.resync + 1 } }) s

/-- What a mirrored region holds, in the order of its keys (R430; assumption log 123). -/
def State.regionData (s : State) (r : Nat) : List Byte :=
  match r with
  | 0 => match s.cfg.work with | some b => b.bytes | none => []
  | 2 => (s.allCells.map (fun g => match s.ageing g with | some x => le 2 g ++ x.body | none => [])).flatten
  | 3 => (s.allCells.map (fun g => match Tab.find s.mram.imp g with | some x => le 2 g ++ x.body | none => [])).flatten
  | _ => ((s.regionRecs r).map (fun q => le 2 q.key ++ q.body)).flatten

/-- The digest of each mirrored region (R430). -/
def State.ownDigests (s : State) : List Word := (List.range 7).map (fun r => crc32c (s.regionData r))

/-- The regions whose digests differ from the partner's. -/
def State.digestMask (s : State) (partner : List Word) : BitVec 7 :=
  BitVec.ofNat 7 (bitsOf ((List.range 7).map (fun r => partner[r]? != s.ownDigests[r]?)))

/-! ## Heartbeats (R413, R414) -/

/-- HEARTBEAT_SEND (R412, R413): every 50 µs from the safety cores, over a trained Causeway. -/
def execHeartbeatSend (s : State) : Out :=
  .next (
    if !s.isPair || !s.pair.trained || !s.drv.coresUp || s.pwr.st != .run then s
    else
      (s.at (s.pair.hbT + us 50)).hbSend)

/-- In a window of received frames at least 100 failed their checks, and more than 1 % (R413). -/
def winBad (l : List (Nat × Bool)) : Bool :=
  let b := l.countP (·.2)
  decide (100 ≤ b) && decide (l.length < 100 * b)

/-- One frame received, with its check's outcome: the sliding window of R413, and F57. -/
def State.pairFrame (s : State) (bad : Bool) : State :=
  let p := s.pair
  let w := (s.now, bad) :: p.win.filter (fun x => decide (s.now < x.1 + sec 10))
  let s := { s with pair := { p with win := w, crcErr := if bad then min (p.crcErr + 1) 0xFFFFFFFF else p.crcErr } }
  if winBad w then s.stand 57 16 { value := w.countP (·.2) } else s

/-- Causes of F57 that stand whether or not heartbeats arrive (R408, R413, R415, R416). -/
def State.f57Own (s : State) : Bool :=
  s.pair.samePos || s.pair.fuseDiff || (match s.pair.ofsBadT with | some t => decide (t + ms 10 ≤ s.now) | none => false) ||
    winBad (s.pair.win.filter (fun x => decide (s.now < x.1 + sec 10)))

/-- F56 and F57 cease once heartbeats have run for 1 s and the mirror is synchronised (R427). -/
def State.rejoinSettle (s : State) : State :=
  if s.pair.hbOk && decide (s.pair.hbResumeT + sec 1 ≤ s.now) && s.pair.diverged == 0#7 && s.pair.resync == 0 then
    let s := s.cease 56 16
    if s.f57Own then s else s.cease 57 16
  else s

/-- A standby's time base follows the mean offset by at most one correction in 10,000 ticks (01 R30): 20 ns on a tick that
is behind, 0 ns on one that is ahead. -/
def State.slew (s : State) : State :=
  let o := s.pairOfs
  if 0 < s.time.stall || s.time.ticksSinceSlew < 10000 || o.natAbs < 10 then s
  else if 0 < o then { s with time := { s.time with now := s.time.now + 10, ticksSinceSlew := 0 } }
  else { s with time := { s.time with stall := 10, ticksSinceSlew := 0 } }

/-- The offset of a heartbeat on a standby (R415); TIME_EVENT [3] as the mean leaves ±150 ns (20 R500). -/
def State.offsetIn (s : State) (hb : Heartbeat) : State :=
  let o : Int := (hb.tTx : Int) + s.pair.delay - s.now
  let s := { s with pair := { s.pair with ofs := (o :: s.pair.ofs).take 64 } }
  let bad := decide (150 < s.pairOfs.natAbs)
  let s := if bad && s.pair.ofsBadT.isNone then s.event .time 3 else s
  let s := { s with pair := { s.pair with ofsBadT := if bad then some (s.pair.ofsBadT.getD s.now) else none } }
  s.slew

/-- A standby takes the primary's Wade timer (R417, R419). -/
def State.wadeMirror (s : State) (hb : Heartbeat) : State :=
  if hb.wade then { s with wade := { s.wade with on := true, left := hb.wadeLeft, since := s.now } }
  else if s.wade.on then { s with wade := { s.wade with on := false, left := s.wadeLeft, endT := s.now, everEnded := true } }
  else s

/-- Heartbeats resume (R427, R431): a partner that holds the primary role is joined as standby, two primaries settle it as
after a proof of life, and a provisional primary whose partner is not primary is primary. -/
def State.resume (s : State) (hb : Heartbeat) : State :=
  let lost := s.pair.proof || s.stands 56 16 || s.stands 57 16
  let s := { s with pair := { s.pair with hbOk := true, hbResumeT := s.now, mute := false } }
  let before := s.pair.role
  let mine := before == .primary
  let yields := if hb.role = 1 then
      (!mine || (s.pair.gained && (!hb.gained || s.fuse.set.position == 2)))
    else false
  let role : PairRole := if s.pair.samePos then .standby
    else if yields then .standby
    else if before == .provisional then .primary
    else before
  let s := { s with pair := { s.pair with role := role, proof := false, gained := s.pair.gained && role == PairRole.primary } }
  let s := if role == .standby && before == .primary then s.roleLost else s
  let s := if role == .standby then s.coilMask hb.coils else s
  if lost then s.pairEvent 3 before 0 0 else s.pairStatusRec

/-- The primary of a pair that runs again starts a resync of the regions that diverged while the partner was away (R429, R431). -/
def State.resyncBack (s : State) : State :=
  if s.pair.role == .primary && s.drv.svcUp then
    (List.range 7).foldl (fun s r => if s.pair.diverged.getLsbD r then s.resyncRegion r else s) s
  else s

/-- A heartbeat of the partner is taken (R414, R415, R427). -/
def State.hbIn (s : State) (hb : Heartbeat) : State :=
  let p := s.pair
  let gap := (hb.seq + 65536 - p.hbRxSeq) % 65536 - 1
  let s := { s with pair := { p with
    hbRxSeq := hb.seq, hbRxT := s.now, hbTx := hb.tTx, hbRcvd := hbBytes hb, partCoils := hb.coils
    hbMiss := if p.hbOk then min (p.hbMiss + gap) 0xFFFFFFFF else p.hbMiss
    partner := { p.partner with sealValid := hb.sealValid, sealVal := hb.sealVal, role := hb.role } } }
  let s := if p.hbOk then s else (s.resume hb).resyncBack
  let s := if s.pair.role == .standby then (s.wadeMirror hb).offsetIn hb else s
  s.rejoinSettle

/-- HEARTBEAT_RECEIVED (R411–R415, R427): a frame that fails its checks is discarded and counted; a heartbeat is taken. -/
def execHeartbeatReceived (f : RawFrame) (s : State) : Out :=
  .next (
    if !s.isPair || !s.pair.trained || s.pwr.st != .run then s
    else
      let s := s.pairFrame (!causeOk f)
      (match causeOk f, hbParse f with
      | true, some hb => s.hbIn hb
      | _, _ => s).pairChanged)

/-! ## Training (R408, R415, R416; 01 R31) -/

/-- What the module reports in training. -/
def State.ownId (s : State) : PartnerId :=
  { serial := BitVec.ofNat 64 s.serial, position := s.fuse.set.position, pref := s.fuse.set.pref, sealValid := s.cfg.valid
    sealVal := BitVec.ofNat 32 s.sealInForce, fuseCrc := BitVec.ofNat 32 s.fuseCrc, fw := BitVec.ofNat 32 s.mram.fwVersion
    role := s.pair.role.ctorIdx, time := s.now, sweeping := s.time.reedIssued }

/-- The first rule of R408 that separates the modules prefers this one. -/
def State.preferred (s : State) (p : PartnerId) : Bool :=
  if s.cfg.valid != p.sealValid then s.cfg.valid
  else if s.fuse.set.pref != p.pref then s.fuse.set.pref
  else decide (s.serial < p.serial.toNat)

/-- Role after training: a role that is held stays (R409, R426); otherwise R408 resolves it. -/
def State.trainRole (s : State) (p : PartnerId) : PairRole :=
  let mine := s.pair.role
  if p.position = s.fuse.set.position then .standby
  else if mine == .primary && p.role ≠ 1 then .primary
  else if mine != .primary && p.role = 1 then .standby
  else if mine == .primary && p.role = 1 then
    (if s.pair.gained && s.fuse.set.position == 2 then .standby else .primary)
  else if mine == .provisional then .primary
  else if s.preferred p then .primary else .standby

/-- A standby issues Reed pulses itself: a port of it is in split mode (03 R91). -/
def State.standbyReeds (s : State) : Bool := s.portList.any (fun p => (s.port p).st == .ready && (s.port p).split)

/-- Alignment at training (01 R30, R31): a standby that is behind steps forward while it issues no Reed pulse; one that is
ahead of a sweeping primary waits until it is within 150 ns; a primary that has not swept steps forward to a standby
that is ahead. -/
def State.align (s : State) (p : PartnerId) (delay : Nat) : State :=
  let t := p.time + delay
  if s.pair.role == .standby then
    if s.now ≤ t then (if s.standbyReeds then s else s.stepTo t)
    else if p.sweeping then { s with time := { s.time with stall := (s.now - t - 150 + 9) / 10 * 10 } }
    else s
  else if s.now < t && !s.time.reedIssued then s.stepTo t
  else s

/-- A successful training (R408, R415, R416): delay and role, the partner, F57 where the two do not fit. -/
def State.trainDone (s : State) (partner : PartnerId) (rtt : Nat) : State :=
  let s := s.sendTrain s.ownId
  let d := (rtt - 200) / 2
  let was := s.pair.role
  let role := s.trainRole partner
  let same := partner.position == s.fuse.set.position
  let differ := decide (partner.fuseCrc.toNat ≠ s.fuseCrc)
  let s := { s with
    pair := { s.pair with
      trained := true, retrain := false, delay := d, partner := partner, role := role, samePos := same, fuseDiff := differ, ofs := []
      ofsBadT := none, proof := false, gained := s.pair.gained && role == PairRole.primary }
    pwr := { s.pwr with startStep := max s.pwr.startStep 6 } }
  let s := if role == .standby && was == .primary then s.roleLost else s
  let s := s.align partner d
  let s := if same || differ then s.stand 57 16 {} else s
  let s := s.pairStatusRec
  if s.mounted then s.portsStart else s

/-- CAUSEWAY_TRAINING (R408, R415, R416; 01 R31; 21 R522 step 6): identities are exchanged, the role is resolved, the time
base aligned; at a start-up the ports start their wake tones. -/
def execCausewayTraining (partner : PartnerId) (rtt : Nat) (s : State) : Out :=
  .next (
    if !s.isPair || s.pwr.st != .run then s
    else s.trainDone partner rtt)

/-- No training within 2 s (R408, R416): primary without a partner, or, with a live partner in position 2, standby. -/
def State.trainMissed (s : State) : State :=
  let s := s.at (s.time.bootT + sec 2)
  let alive := s.pair.lifeT.isSome
  let role : PairRole := if alive && s.fuse.set.position == 2 then .standby else .primary
  let s := { s with pair := { s.pair with role := role } }
  let s := s.pairStatusRec
  let s := s.stand (if alive then 57 else 56) 16 {}
  let s := if role == .standby then s.soloStandby else s
  if s.mounted then s.portsStart else s

/-- TRAINING_DEADLINE (R426): 2 s after power-on reset without a trained Causeway. -/
def execTrainingDeadline (s : State) : Out :=
  .next (
    if !s.isPair || s.pair.trained || s.pair.role != .none then s
    else s.trainMissed)

/-! ## Mirrored writes (R428, R429) -/

/-- A mirrored write of a command has ended on the partner with a member result, 0 OK: with no other of the command
waiting, the command completes, PARTIAL when one failed. The completion value stands first in its list. -/
def State.nvwEnd (s : State) (r : CmdRef) (code : Nat) : State :=
  match s.host.running.find? (fun c => decide (c.ref = r)) with
  | none => s
  | some c =>
    let bad := c.members ++ (if code = 0 then [] else [(1, code)])
    if s.pair.nvw.any (fun x => x.ref == some r) then s.onRun r (fun c => { c with members := bad })
    else match bad with
      | [] => s.okay r (c.todo.headD 0) []
      | x :: _ => s.finish r 1 (c.todo.headD 0) (s.pairMembers 0 x.2 0 0) true

/-- A mirrored write that succeeded on this module only: its region is diverged, and a resync of it starts (R429). -/
def State.unmirrored (s : State) (r : Nat) : State :=
  let s := s.diverge r
  if s.partnerUp && s.pair.role == .primary && s.drv.svcUp then s.resyncRegion r else s

/-- The first waiting mirrored write that `f` picks is over with a member result. -/
def State.nvwTake (s : State) (f : NvwReq → Bool) (code : Nat) : State :=
  match s.pair.nvw.find? f with
  | none => s
  | some x =>
    let s := { s with pair := { s.pair with nvw := s.pair.nvw.erase x } }
    let s := if code = 0 then s else s.unmirrored (if x.isBlob then 0 else regionOf x.req.kind)
    match x.ref with
    | some r => s.nvwEnd r code
    | none => s

/-- NVW_RESULT_TIMEOUT (R429): no result within 100 ms. -/
def execNvwResultTimeout (s : State) : Out :=
  .next (
    match s.pair.nvw with
    | [] => s
    | x :: _ => (s.at (x.t + ms 100)).nvwTake (fun y => y == x) 5)

/-- Effect of a mirrored record on the standby's working state: open taps, ageing records, rosters. -/
def State.nvwApply (s : State) (r : NvReq) : State :=
  match r.kind with
  | 0x01 => s.onEst r.key (fun e => { e with unwritten := 0, unwrT := none })
  | 0x02 => s.ageLoad r.key
  | 0x08 => s.rosterSettle r.key
  | 0x09 =>
    let s := (s.cellsOfStr r.key).foldl (fun s g => s.onCell g (fun c => { c with openTap := s.mram.taps.contains g })) s
    s.f05Settle r.key
  | _ => s

/-- A port is no longer declared: its PHYs are off, its nodes are forgotten, and no condition stands on it. -/
def State.portGone (s : State) (p : Nat) : State :=
  let s := (s.onPort p (fun q => { engineBad := q.engineBad, engine := q.engine })).onReq p (fun _ => [])
  let s := { s with nodes := s.nodes.filter (fun x => x.1 / 64 != p) }
  (List.range 64).foldl (fun s n => s.cease n p) s

/-- A sealed configuration comes into force: both copies written, the seal stored, controllers and resistors set up, and
every port back to CONFIGURE, or woken from OFF (14 R368 step 6). A port that is no longer declared loses its PHY supply
and the conditions that stood on it (02 R50, R67). -/
def State.sealTake (s : State) (b : Blob) (v : Word) : State :=
  let s := (s.copyWrite false b).copyWrite true b
  let was := s.portList
  let ends := s.ownList
  let old := (List.range 12).map s.retriesOf
  let s := { s with cfg := { s.cfg with work := some b, valid := true, sealVal := some v, pend := none, mism := 0 } }
  let s := ((s.cease 61 16).raiseIrq 2).bbEvent 0x0D 0 255 v.toNat 0 0
  let s := s.retriesTake old
  let s := s.canConf.preInit.tapsLoad.offsLoad
  let gone := was.filter (fun p => !s.declared p)
  let s := (gone.foldl (fun s p => (s.portSt p .off).portGone p) s).endsSettle ends
  s.portList.foldl (fun s p =>
    if (s.port p).st == .off then
      let s := (s.cellsOfStr p).foldl (fun s g => s.tableLoad g) s
      (s.portSt p .wake).wakePort p true false
    else if (s.port p).st == .ready then s.configStart p
    else s) s

/-- A frame of a mirrored write is taken (R428, R429): the standby writes and answers, the primary takes the result. -/
def State.nvwIn (s : State) (fr : NvwFrame) : State :=
  match fr with
  | .write r =>
    if s.pair.role != .standby then s
    else if s.mayWrite then ((s.nvCommit r).nvwApply r).sendNvw (.result r 0)
    else s.nvDue r
  | .blob b v =>
    if s.pair.role != .standby || !s.drv.svcUp then s
    else if crc32c b.bytes != v then s.sendNvw (.blobResult 2)
    else if !s.limitsFit b.cfg then s.sendNvw (.blobResult 7)
    else (s.sealTake b v).sendNvw (.blobResult 0)
  | .pending b =>
    if s.pair.role != .standby || !s.drv.svcUp then s
    else ({ s with cfg := { s.cfg with pend := b, pendT := s.now, mism := 0 } } : State).raiseIrq 2
  | .result r st =>
    if !s.drv.svcUp then s
    else if s.pair.nvw.any (fun x => x.req == r && !x.isBlob) then s.nvwTake (fun x => x.req == r && !x.isBlob) st
    else { s with pair := { s.pair with resync := s.pair.resync - 1 } }
  | .blobResult st =>
    if !s.drv.svcUp then s
    else if s.pair.nvw.any (fun x => x.isBlob) then s.nvwTake (fun x => x.isBlob) st
    else { s with pair := { s.pair with resync := s.pair.resync - 1 } }

/-- NVW_FRAME_RECEIVED (R428, R429; 14 R372): the standby writes its own copy and returns the result; the primary takes
the result of a write that waits, or of a record of a resync. -/
def execNvwFrameReceived (fr : NvwFrame) (s : State) : Out :=
  .next (
    if !s.isPair || !s.pair.trained then s
    else ((s.pairFrame false).nvwIn fr).pairChanged)

/-! ## Loss and takeover (R418–R421) -/

/-- A KP or KN of a string is opening: the role of the one that is, KP before KN. -/
def State.openingRole (s : State) (p : Nat) : Option Role :=
  [Role.kp, Role.kn].find? (fun r => match s.ctrOf p r with | some i => (s.ctr i).st == .opening | none => false)

/-- A close sequence that the former primary left unfinished is closed out (R421; 12 R330): each string with a contactor
closing, its PRE on, or its PRE being verified after the close, is opened, the PRE first. An opening goes on with its check
at open (R327). -/
def State.takeoverClose (s : State) : State :=
  let half (p : Nat) : Bool := s.leadOf p == p && (s.ctrsOf p).any (fun i =>
    ((s.ctr i).st == .closing && (s.ctr i).coil) || (s.ctrOf p .pre == some i &&
      ((s.ctr i).coil || ((s.ctr i).st == .opening && (s.openingRole p).isNone))))
  let s := (s.portList.filter half).foldl (fun s p => s.beginOpen p false) s
  let s := (s.portList.filter (fun p => s.leadOf p == p && (s.opn p).ph == .idle)).foldl (fun s p =>
    match s.openingRole p with
    | some r => s.onOpn p (fun o => { o with ph := .first, first := r, t := s.now, loaded := false, reqs := o.reqs + 1 })
    | none => s) s
  let oth := (List.range s.conf.ctrs.length).filter (fun i =>
    (s.ctr i).st == .closing && (match s.ctrCfg i with | some c => c.role == .oth | none => false))
  oth.foldl (fun s i => s.ctrOff i [i] false) s

/-- A string asks for its KN as a module that takes over sees it: its KP or PRE is on, or the former primary's sequence stood at it. -/
def State.knClaims (s : State) (p : Nat) : Bool :=
  let on (r : Role) : Bool := match s.ctrOf p r with | some i => (s.ctr i).coil | none => false
  let told : Bool := match s.pair.seqTold with
    | some x => (match (s.groupCfg x.1).members[x.2.1]? with | some (.string q) => s.leadOf q == s.leadOf p | _ => false)
    | none => false
  on .kp || on .pre || told

/-- What a module that takes over asks of a shared KN channel (12 R324): nothing for a string that does not ask for it while another does. -/
def State.knAsked (s : State) : State :=
  let other (p n : Nat) : Bool := (s.ctrsOn ((s.ctrCfg n).elim 0 (·.out))).any (fun j =>
    match s.ctrCfg j with | some d => j != n && d.port != p && s.knClaims d.port | none => false)
  let l := s.portList.filterMap (fun p => match s.ctrOf p .kn with
    | some n => if !s.knClaims p && s.channelShared n && other p n then some n else none
    | none => none)
  l.foldl (fun s n => s.onCtr n (fun x => { x with coil := false })) s

/-- Takeover (R419–R421): the standby is provisional primary, its fault matrix decides, every READY port issues a takeover
sweep, and ports that wait for a partner's delays go on. -/
def State.takeover (s : State) (seq tRef : Nat) : State :=
  let before := s.pair.role
  let s := { s with pair := { s.pair with
    role := .provisional, gained := true, partHoldEnd := s.pair.hbRxT + sec s.gen.hold }, time := { s.time with stall := 0 } }
  let s := s.pairEvent 1 before seq tRef
  let s := s.wadeAdopt.knAsked.settle.takeoverClose
  s.portList.foldl (fun s p =>
    if (s.port p).st == .ready then s.onPort p (fun q => { q with takeover := true })
    else if (s.port p).st == .calibrate && s.measured p then s.calDone p
    else s) s

/-- The partner is lost (R418–R420): its heartbeat is over, the proof window starts, a standby takes over, and what waits for the partner ends. -/
def State.partnerLose (s : State) : State :=
  let s := s.at (s.pair.hbRxT + us 300)
  let was := s.pair.role
  let s := { s with drv := { s.drv with partHeld := false } }
  let T := match s.conf.partner with | some c => msgTimeout c | none => ms 50
  let p := s.pair
  let s := { s with pair := { p with
    hbOk := false, hbMiss := min (p.hbMiss + 6) 0xFFFFFFFF, wasPrim := was == PairRole.primary, lifeT := none, proof := true
    proofEnd := s.now + T, coilWait := [], noEcho := 0, handover := none, check := none } }
  let s := s.pairEvent 0 was p.hbRxSeq p.hbTx
  let s := if was == .standby then s.takeover p.hbRxSeq p.hbTx else s
  let s := (p.handover.toList ++ p.check.toList).foldl (fun s r => s.fail r 5) s
  p.nvw.foldl (fun s x => s.nvwTake (fun y => y == x) 5) s

/-- PARTNER_LOST (R418, R431): no valid heartbeat for 300 µs, as the safety cores judge. Mirrored writes and commands that
wait for the partner end. -/
def execPartnerLost (s : State) : Out :=
  .next (
    if !s.partnerUp || !s.drv.coresUp || s.pwr.st != .run then s
    else s.partnerLose)

/-- The proof window has ended (R420): this module is primary alone. -/
def State.proofOver (s : State) : State :=
  let s := s.at s.pair.proofEnd
  let T := match s.conf.partner with | some c => msgTimeout c | none => ms 50
  let quiet := s.portList.all (fun p => (s.port p).st != .ready)
  let s := { s with pair := { s.pair with
    proof := false, role := .primary, mute := !s.pair.wasPrim && quiet, muteEnd := s.now + T } }
  (s.stand 56 16 {}).pairStatusRec

/-- PROOF_WINDOW_END (R424): no proof of life; F56 latches, and the role is primary. One gained with no port READY bars
closes for one further window (R423). -/
def execProofWindowEnd (s : State) : Out :=
  .next (
    if !s.pair.proof then s
    else s.proofOver)

/-- Closes are barred after such a gain until a READY port has shown no REED frame of the partner for one further window
(R423). -/
def State.muted (s : State) : Bool :=
  let T := match s.conf.partner with | some c => msgTimeout c | none => ms 50
  s.pair.mute && !(decide (s.pair.muteEnd ≤ s.now) && s.portList.any (fun p =>
    let q := s.port p
    q.st == .ready && decide (q.clsT + T ≤ s.now) && q.reedSeen.all (fun x => decide (x.2 + T ≤ s.now))))

/-! ## Frames of the Causeway (R417) -/

/-- COIL_FRAME_RECEIVED (12 R331): a change is applied to the paralleled channel and echoed, a coil-on with its LSW latches
re-armed (R427); an echo ends the wait for it. A change that the safety cores do not make is not echoed. -/
def execCoilFrameReceived (f : CoilFrame) (s : State) : Out :=
  .next (
    if !s.isPair || !s.pair.trained then s else
    let s := s.pairFrame false
    if f.echo && f.on then s
    else if f.echo then
      let s := { s with pair := { s.pair with
        coilWait := s.pair.coilWait.filter (fun x => x.1 ≠ f.ch), noEcho := s.pair.noEcho &&& ~~~(1#12 <<< f.ch) } }
      if s.pair.coilWait.isEmpty && !s.f37Cond then s.cease 37 16 else s
    else if !s.pairMay f.ch f.on then s
    else
      let s := s.channel f.ch f.on
      let s := (s.ctrsOn f.ch).foldl (fun s i => s.onCtr i (fun k => { k with coil := f.on, t := s.now })) s
      let s := if f.on then (s.ctrsOn f.ch).foldl (fun s i => match s.ctrCfg i with
          | some c => s.rearm c.lsw
          | none => s) s
        else s
      s.sendCoil { f with echo := true })

/-- A contactor state told by the primary; a string with KN and KP closed is connected. -/
def State.ctrTold (s : State) (c st : Nat) : State :=
  let states : List CtrState := [.isOpen, .closing, .closed, .opening, .welded, .unknown]
  let s := s.setCtr c (states.getD st .unknown)
  match s.ctrCfg c with
  | some k =>
    if k.role == .oth || !s.memberClosed (.string k.port) then s
    else (s.setOf k.port).foldl (fun s p => s.onStr p (fun x =>
      { x with conn := true, connT := if x.conn then x.connT else s.now })) s
  | none => s

/-! Chain work of a pair at the standby's ends (03 R77, R83, R89–R91; assumption log 86). -/

/-- A command that the primary sends by this module's end. A repetition keeps its seq. -/
def State.relayCmd (s : State) (p addr tag : Nat) (rtx : Bool) (payload : List Byte) : State :=
  let e := s.pairEnd
  let old := (s.req p).find? (fun r => r.relay && r.addr == addr && r.tag == tag)
  if !s.live p e then s
  else match rtx, old with
  | true, some r => s.emit (.chain p e s.now (cmdFrame e addr tag r.seq true payload))
  | _, _ =>
    let q := s.cseq (2 * p + e)
    let s := s.chainOut p e s.now (cmdFrame e addr tag q false payload)
    if addr = 63 then s
    else s.onReq p (fun l => l.filter (fun r => !(r.relay && r.addr == addr)) ++ [{
      end_ := e, addr := addr, tag := tag, seq := q, payload := payload, t := s.now, relay := true }])

/-- A break that the partner reports. A standby whose far end has been enumerated from (R77) goes on in split mode and measures
its delays. -/
def State.chainBroken (s : State) (p b : Nat) : State :=
  if !s.actsPrimary && (s.port p).st == .fromFar then
    (s.onPort p (fun q => { q with split := true, splitReq := false, brkNode := b, brkFar := b })).calEnter p
  else s.breakAt p b

/-- Wake tones, locks, missing pulses and calibrations that the modules ask of each other or tell each other. -/
def State.chainEvt (s : State) (p : Nat) (ev : PairEvt) : State :=
  let q := s.port p
  match ev with
  | .chainWake _ =>
    if s.actsPrimary || !s.live p s.pairEnd then s
    else ((s.portSt p .fromFar).onPort p (fun q => { q with hopT := s.now })).emit (.wakeTone p s.pairEnd)
  | .chainLock _ => if s.actsPrimary && q.st == .fromFar then s.hopLock p (s.oppEnd p) q.fromFar else s
  | .chainPulse _ => if s.actsPrimary && !q.split then s.pulseMissed p else s
  | .chainCal _ =>
    if s.actsPrimary || !(q.st == .ready || q.st == .calibrate) then s
    else (s.onPort p (fun q => { q with recalOn := q.st == .ready })).calStart p
  | _ => s

/-- What a PAIR_EVT frame says is taken (R409, R417, R422, R426): each form in the role it addresses. -/
def State.evtTake (s : State) (ev : PairEvt) : State :=
  match ev with
  | .latch n scope true =>
    let s := s.onMark n scope (fun m => { m with there := true })
    let c := s.effClass n scope
    if s.actsPrimary && (c == 1 || c == 2) then (s.latch n scope { partner := true }).seqKick else s
  | .latch n scope false =>
    let s := s.onMark n scope (fun m => { m with there := false })
    if s.stands n scope || !(s.why n scope).partner then s else s.unlatch n scope
  | .latchOver n scope => s.onMark n scope (fun m => { m with there := false })
  | .handover =>
    if s.pair.role != .standby then s
    else ((s.takeRole .primary false 4).wadeAdopt.knAsked.settle).sendEvt .handoverDone
  | .handoverDone =>
    match s.pair.handover with
    | some r =>
      let s := { s with pair := { s.pair with handover := none } }
      ((s.takeRole .standby false 4).roleLost).okay r 0 []
    | none => s
  | .contactor c st => if s.pair.role == .standby then s.ctrTold c st else s
  | .seqStep g m st =>
    if s.pair.role != .standby then s
    else
      let old := match s.pair.seqTold with | some x => if x.1 = g && x.2.1 ≤ m then s.pair.resTold else [] | none => []
      { s with pair := { s.pair with seqTold := some (g, m, st), resTold := old } }
  | .seqResult g m c =>
    if s.pair.role != .standby then s
    else { s with pair := { s.pair with seqTold := none, resTold := (g, m, c) :: s.pair.resTold } }
  | .planMode p m S =>
    if s.pair.role != .standby then s
    else (s.onPort p (fun q => { q with modeReq := m })).modeTake p m S
  | .planBurst p on => if s.pair.role == .standby then s.onPort p (fun q => { q with burst := on }) else s
  | .planQuiet p on =>
    if s.pair.role == .standby then s.onPort p (fun q => { q with quiet := on, quietT := s.now }) else s
  | .planSedge p on n sel =>
    if s.pair.role == .standby then
      s.onPort p (fun q => { q with
        sedge := on, sedgeSel := sel, sedgeSeq := n, sedgeS := none, sedgeLast := 0, sedgeT := if on then s.now else q.sedgeT
        sedgeEndT := if on then q.sedgeEndT else s.now })
    else s
  | .planOw p S => if s.pair.role == .standby then s.owBegin p S else s
  | .powerState st =>
    if s.pair.role != .standby || s.pwr.st != .run then s
    else if st = 1 then s.mossEnter else if st = 2 then s.peatEnter else s
  | .chainWake p | .chainLock p | .chainPulse p | .chainCal p => s.chainEvt p ev
  | .chainCmd p a t rtx b => if s.pair.role == .standby then s.relayCmd p a t rtx b else s
  | .chainRsp p r => if s.actsPrimary then s.rspTake p r else s
  | .chainBreak p b => s.chainBroken p b
  | .chainPhase p D =>
    if s.actsPrimary then s
    else (s.found p).foldl (fun s a => s.onNode (nk p a) (fun n => { n with delaysOk := false })) (s.onPort p (fun q => { q with dNew := D }))
  | .chainSweep p q => if s.actsPrimary then s else s.onPort p (fun x => { x with seq := q })
  | .owRequest p => if s.actsPrimary && (s.port p).st == .ready then s.owRequested p else s
  | .owTap g => if s.actsPrimary then (s.tapNew (g / 512) (g % 512 / 16) (g % 16)).f05Settle (g / 512) else s
  | .chainDiff p a d => if s.actsPrimary && (s.port p).st == .ready then s.probeDiff p a d else s

/-- PAIR_EVT_FRAME_RECEIVED (11 R299; 17 R409, R417; 21 R510). -/
def execPairEvtFrameReceived (ev : PairEvt) (s : State) : Out :=
  .next (
    if !s.isPair || !s.pair.trained then s
    else ((s.pairFrame false).evtTake ev).pairChanged)

/-- Limits of the standby, as the primary published them (09 R263): its own record with the mirrored flag, and the values a
takeover starts from. -/
def State.limitsTold (s : State) (body : List Byte) (lim : List Nat) : State :=
  let b := body.take 13 ++ le 1 (field body 13 1 ||| 0x80) ++ body.drop 14
  let tab (f : Nat → Nat) : Tab Nat Nat := (List.range 8).map (fun i => (i, f i))
  let s := { s with
    pack := { s.pack with
      lim := tab (fun i => lim.getD i 0), bind := tab (fun i => if i < 4 then field body 26 1 else field body 27 1)
      lastLim := b, limSeq := field body 8 4 }
    pwr := { s.pwr with firstLimits := true } }
  let s := (List.range (field body 12 1)).foldl (fun s k =>
    let o := 24 + 40 * (k + 1)
    s.onStr (field body o 1) (fun x => { x with lim := tab (fun i => field body (o + 4 + 4 * i) 4) })) s
  s.record fnLimits b

/-- A cell's state of the primary replaces the standby's, which publishes what the primary's entry says (08 R239). -/
def State.cellTold (s : State) (g : Nat) (soc : Int) (sigma rep : Nat) (h v1 v2 : Int) (b : List Byte) : State :=
  s.onEst g (fun e => { e with
    soc := soc, sigma := sigma, rep := rep, h := h, v1 := v1, v2 := v2, seeded := true, anchor := field b 3 1
    cap := field b 0x18 4, capSigma := field b 0x1C 2
    growth := (field b 0x1E 2 : Nat), cycles := field b 0x28 4, restT := field b 0x2C 8, restSoc := field b 0x34 2
    learnSt := field b 0x37 1, restNew := field b 2 1 / 64 % 2 == 1
    restQ := e.qNet - (BitVec.ofNat 32 (field b 0x38 4)).toInt * 3600000 })

/-- What the primary computes for a string or the pack comes into force on the standby (08 R239; assumption log 93). -/
def State.strTold (s : State) (p rep : Nat) (turn extreme : Int) (b : List Byte) : State :=
  if p = 255 then
    { s with pack := { s.pack with rep := rep, resLeft := field b 0x0A 2, reserve := field b 1 1 / 2 % 2 == 1 } }
  else s.onStr p (fun x => { x with
    rep := rep, socRes := field b 8 2, cycles := field b 0x20 4, hours := field b 0x24 4, turn := turn, extreme := extreme
    dod := (List.range 10).map (fun k => (k, field b (0x30 + 4 * k) 4)) })

/-- The digests of the regions agree, or differ in the regions of a mask: those are marked diverged, and the primary starts
a resync. -/
def State.digests (s : State) (mask : BitVec 7) : State :=
  let s := (List.range 7).foldl (fun s r => if mask.getLsbD r then s.diverge r else s) s
  if mask == 0#7 || s.pair.role != .primary then s
  else
    let s := { s with pair := { s.pair with resync := 0 } }
    (List.range 7).foldl (fun s r => if mask.getLsbD r then s.resyncRegion r else s) s

/-- A mirrored item is taken (R425–R427): measurements by either member, results and state by the standby. -/
def State.mirrorTake (s : State) (item : MirrorItem) : State :=
  let stby := s.pair.role == .standby
  match item with
  | .hopDelay p a d =>
    let far := 1 - s.pairEnd
    let s := s.onNode (nk p a) (fun n => if far = 0 then { n with newN := d, probesN := 16 } else { n with newS := d, probesS := 16 })
    if s.actsPrimary && ((s.port p).st == .calibrate || (s.port p).recalOn) && s.measured p then s.calDone p else s
  | .packCurrent S i => { s with pack := { s.pack with partH := (S, i) :: s.pack.partH.filter (fun x => decide (S < x.1 + ms 50)) } }
  | .coilSupply a b => { s with pair := { s.pair with partVcoil := (a, b) } }
  | .coilCurrent l => { s with pair := { s.pair with partCoilI := l } }
  | .axle v => { s with pair := { s.pair with partSpeed := v } }
  | .counters p n i o => if stby then s.onStr p (fun x => { x with qNet := n, qIn := i, qOut := o }) else s
  | .offset k o =>
    if !stby then s
    else if k = 16 then (if s.pack.offT.isSome then s else { s with pack := { s.pack with off := o } })
    else s.onStr k (fun x => { x with off := o })
  | .resistor p e l => if stby then s.onPre p (fun x => { x with eth := e, ethT := s.now, attempts := l }) else s
  | .cell g soc sigma rep h v1 v2 b => if stby then s.cellTold g soc sigma rep h v1 v2 b else s
  | .strEst p rep turn ext b => if stby then s.strTold p rep turn ext b else s
  | .impedance g slot b z => if stby then s.tableSet g slot b z else s
  | .limits body lim => if stby then s.limitsTold body lim else s
  | .digest own => s.digests (s.digestMask own)
  | .result fn body => if stby then s.record fn body else s

/-- MIRROR_FRAME_RECEIVED (R417; 03 R83; 07 R200; 08 R239; 09 R263). -/
def execMirrorFrameReceived (item : MirrorItem) (s : State) : Out :=
  .next (
    if !s.isPair || !s.pair.trained || !s.drv.svcUp then s
    else ((s.pairFrame false).mirrorTake item).pairChanged)

/-! ## Digest exchanges (R430) -/

/-- An exchange begins: this module's digests go to the partner (17 R430). -/
def State.digestBegin (s : State) : State :=
  let s := if s.pair.check.isSome then s else s.at (s.pair.digT + sec 60)
  let s : State := { s with pair := { s.pair with digT := s.now } }
  s.sendMirror (.digest s.ownDigests)

/-- An exchange ends with the regions that differ, and a MIRROR_CHECK that waits for it completes (17 R430; 19 R481). -/
def State.digestEnd (s : State) (mask : BitVec 7) : State :=
  let s := s.digests mask
  match s.pair.check with
  | some r =>
    let s := { s with pair := { s.pair with check := none } }
    if mask == 0#7 then s.okay r 0 [] else s.finish r 9 mask.toNat [] false
  | none => s

/-- DIGEST_EXCHANGE (R430; 19 R483): every 60 s, or for a MIRROR_CHECK, which completes with the regions that differ. -/
def execDigestExchange (partner : List Word) (s : State) : Out :=
  .next (if !s.partnerUp || !s.drv.svcUp then s else s.digestBegin.digestEnd (s.digestBegin.digestMask partner))

/-- A resync has ended: no region diverges, and the pair event says how much it took. -/
def State.resyncDone (s : State) : State :=
  let n := ((List.range 7).filter (fun r => s.pair.diverged.getLsbD r)).map (fun r => if r = 0 then 1 else (s.regionRecs r).length)
  let s := { s with pair := { s.pair with diverged := 0, resync := 0 } }
  (s.pairEvent 6 s.pair.role n.sum 0).rejoinSettle

/-- RESYNC_COMPLETE (R427, R430): a fresh exchange agrees, and the mirror is synchronised. -/
def execResyncComplete (s : State) : Out :=
  .next (
    if !s.partnerUp || s.pair.diverged == 0#7 then s
    else s.resyncDone)

/-- PAIR_OFFSET_FAULT (R415): the mean offset has been beyond ±150 ns for 10 ms. -/
def execPairOffsetFault (s : State) : Out :=
  .next (
    match s.pair.ofsBadT with
    | some t => ((s.at (t + ms 10)).stand 57 16 { value := s.pairOfs }).pairChanged
    | none => s)

end Sys2Proof.Machine
end

