-- ==== Sys2Proof/Machine/Power.lean ====
section
/-! DEFINITION. The commands of the power family: resets, start-up, supply interruptions, wakes, and protective shutdown
(chapter 21; 10 R283; 23 R549, R550). -/

namespace Sys2Proof.Machine

open Sys2Proof

/-! ## Resets (R518, R519) -/

/-- POWER_ON_RESET (01 R29; 11 R302; 20 R496; 21 R518, R522): power-good is VSUP at 16.8 V or more. -/
def execPowerOnReset (vsup : Nat) (s : State) : Out := .next (if vsup < 16800 then s else s.powerOn vsup)

/-- What RST_N leaves of the power states: only AON and DRV are powered, and the openings under way are kept. -/
def State.rstPower (s : State) (d : Tab Nat Disc) : State :=
  { s with
    pwr := { s.pwr with
      st := .run, entering := 0, starting := true, startStep := 0, rstLow := true, restartDue := false, selfCheck := false
      domains := 0x401#12 }
    discs := d }

/-- The coils that the partner holds are known by what was told last (13 R344). -/
def State.partHold (s : State) : State := { s with drv := { s.drv with partHeld := s.drv.partHeld || s.partnerUp } }

/-- A reset by RST_N (R519): every domain but AON and DRV, with the hold window started. An opening under way is taken up
again on resumption with its deadline (12 R330). -/
def State.rstReset (s : State) : State :=
  let d := s.discs
  let s := s.partHold
  let s := ((s.flushCan 0 5).flushCan 1 5).sramLost.hostReset.keeperOn
  let s := (s.rstPower d).resetCause 1
  let s := { s with drv := { s.drv with svcUp := false } }
  s.holdStart

/-- RST_N_RESET (R518, R519; 13 R343; 16 R406; 18 R460): RST_N low for at least 10 µs resets every domain but AON and
DRV, and the hold window starts. In Moss it brings the module to Run. In Peat no domain that it reaches is powered, and it is no
wake source (R515): only its cause is recorded. -/
def execRstNReset (lowUs : Nat) (s : State) : Out :=
  .next (
    if lowUs < 10 then s
    else if s.pwr.st == .peat then
      let s := s.event .resetCause 1
      { s with host := { s.host with resetTime := s.now } }
    else (if s.pwr.st == .run then s else s.powerState .run 0 s.pwr.wakeSrc).rstReset)

/-- RST_N_DEASSERT (R522): t0 of the warm start-up; a slot marked for trial starts (22 R540). -/
def execRstNDeassert (s : State) : Out :=
  .next (if !s.pwr.rstLow then s else (s.startUp false).trialStart)

/-- The order in which domains are switched on (R517). -/
def domOrder : List Nat := [0, 10, 9, 4, 1, 5, 7, 8, 2, 3, 11, 6]

/-- The domains that must report power-good before domain `d` is switched on: those before it, CHN_LO and CHN_HI
together. -/
def domBefore (d : Nat) : List Nat := domOrder.takeWhile (· != (if d = 8 then 7 else d))

/-- DOMAIN_POWER_GOOD (R517): the next domain in order is powered, during a start-up; a Peat self-check powers neither
LINK nor HOST (R516). Ports whose engines are powered only after the mount start then. -/
def execDomainPowerGood (dom : Nat) (s : State) : Out :=
  .next (
    let ok := (domBefore dom).all (fun d => s.pwr.domains.getLsbD d)
    if s.pwr.st == .peat || s.pwr.rstLow || s.pwr.restartDue || s.pwr.intr == .over || !ok || 12 ≤ dom ||
        (s.pwr.selfCheck && (dom == 6 || dom == 11)) then s
    else
      let s := { s with pwr := { s.pwr with domains := s.pwr.domains ||| (1#12 <<< dom) } }
      if (dom == 7 || dom == 8) && s.pwr.st == .run && s.mounted && !(s.isPair && !s.pair.trained) then s.portsStart else s)

/-- One repair that built-in repair makes (23 R549, R550): a spare row or column, or with none left, and for a page, a
page of the reserve; F59 when the reserve is exhausted. -/
def State.sramRepair (s : State) (kind unit : Nat) : State :=
  let r := s.repair
  if kind = 1 && s.rowsUsed < 32 then
    ({ s with repair := { r with rows := r.rows + 1 } } : State).repaired 1 unit s.rowsUsed 2
  else if kind = 2 && s.colsUsed < 16 then
    ({ s with repair := { r with cols := r.cols + 1 } } : State).repaired 2 unit s.colsUsed 2
  else if r.pages < 192 then
    ({ s with repair := { r with pages := r.pages + 1 } } : State).repaired 3 unit r.pages 2
  else s.stand 59 16 {}

/-- A repair that waited for the boot (23 R551, R552, R561): of SRAM, of an MRAM sector, of an engine, of a lane. -/
def State.pendApply (s : State) (r : RepairRec) : State :=
  match r.kind with
  | 4 => s.sectorRemap r.unit
  | 5 => s.engineTake r.unit
  | 6 => s.laneFail r.unit
  | _ => s.sramRepair r.kind r.unit

/-- The built-in repair at a start (23 R549–R552, R561): what waits, then what it finds. -/
def State.bootRepair (s : State) (finds : List RepairFind) : State :=
  let s := { s with pwr := { s.pwr with startStep := max s.pwr.startStep 4 } }
  let due := (s.repair.records.filter (fun r => r.origin == 2)).reverse
  let s := { s with repair := { s.repair with records := s.repair.records.filter (fun r => r.origin != 2) } }
  let s := due.foldl (fun s r => s.pendApply r) s
  finds.foldl (fun s f => s.sramRepair f.kind f.unit) s

/-- BUILT_IN_REPAIR (23 R549–R552): at a start-up, pending repairs and page map-outs are applied, then spares assigned to what
the march test finds; a failure in a page that cannot be mapped out latches F59. -/
def execBuiltInRepair (finds : List RepairFind) (unmappable : Nat) (s : State) : Out :=
  .next (
    if !s.pwr.starting || s.pwr.rstLow || 4 ≤ s.pwr.startStep then s
    else if unmappable = 0 then s.bootRepair finds
    else (s.bootRepair finds).stand 59 16 {})

/-- MRAM_MOUNT (R522 step 5; 14 R369; 22 R535): once per start-up; on a single module the ports then start their wake
tones, in a pair after the Causeway's training. -/
def execMramMount (s : State) : Out :=
  .next (
    if s.mounted || s.pwr.rstLow then s
    else
      let s := s.mount
      if s.isPair && !s.pair.trained then s else s.portsStart)

/-- READY_TO_CLOSE (R524): every condition holds, and a held GROUP_CLOSE proceeds. -/
def execReadyToClose (s : State) : Out :=
  .next (
    if !s.readyNow then s
    else
      let s := { s with pwr := { s.pwr with ready := true, starting := false, startStep := 12 } }
      s.seqKick)

/-- The start-up has not reached readiness in time (R523, R524): a trial reverts, a close command that waits fails. -/
def State.readyOut (s : State) : State :=
  let s := s.at (s.pwr.startT + ms 1200)
  let s := if s.mram.fwTrialT.isSome && !s.drv.coresUp then s.fwRevert else s
  if s.seq.active && s.seq.ph == .waitReady && s.seq.idx = 0 && !s.seq.reverting then
    let r := s.seq.cmd
    let s := { s with seq := { s.seq with active := false } }
    if s.host.running.any (fun c => c.ref == r) then s.fail r 4 else s
  else s

/-- READY_TIMEOUT (R524; 22 R540): the module is not ready within 1.2 s of t0: a held GROUP_CLOSE completes with
STATE_NOT_PERMITTED, and firmware under trial whose safety cores are not supervising is given up. -/
def execReadyTimeout (s : State) : Out :=
  .next (
    if s.pwr.ready then s
    else s.readyOut)

/-! ## Supply interruptions (R525, R526; 22 R537) -/

/-- SUPPLY_INTERRUPTION_BEGIN (R525 step 1): VSUP below 15.0 V for 100 µs; the power-loss record is written, and further
record starts are refused. In Peat only AON runs, and before the mount no record is started (R527). -/
def execSupplyInterruptionBegin (vsup : SupplyRead) (s : State) : Out :=
  .next (
    let s := s.holdupNow vsup.holdup
    if s.pwr.intr != .none || 15000 ≤ vsup.vsup then s
    else
      let s := { s with pwr := { s.pwr with vsup := vsup.vsup, intr := .rideThrough, intrT := s.now } }
      let s := if s.pwr.st == .peat || !s.mounted then s else s.bbEvent 3 0 255 vsup.vsup 0 0
      { s with mram := { s.mram with refuse := true } })

/-- What collects post-trigger data ends. -/
def State.snapsOver (s : State) : State :=
  { s with mram := { s.mram with collecting := [], snaps := s.mram.snaps.map (fun x => { x with todo := [] }) } }

/-- The save window is announced, a close sequence ends, and the outputs go off. -/
def State.saveStart (s : State) : State :=
  let s := s.at (s.pwr.intrT + ms 20)
  (((({ s with pwr := { s.pwr with intr := .saveWindow } } : State).event .pwr 2).seqAbort 0x0E).outsOff).snapsOver

/-- The save window begins (R526): outputs off, what collects ends, the save set is written. -/
def State.saveWindow (s : State) : State :=
  if s.saveStart.pwr.st == .run then s.saveStart.saveSet else s.saveStart

/-- SAVE_WINDOW_ENTRY (R525 step 3; 13 R343): 20 ms into the interruption every OUT channel is switched off and the save
set is written; in Moss only the power-loss entry was (R526). A close sequence under way ends. What PWR_HOLDUP reports by then is a
free value (assumption log 10). -/
def execSaveWindowEntry (s : State) : Out :=
  .next (
    if s.pwr.intr != .rideThrough then s
    else s.holdupDrawn.saveWindow)

/-- The save window is over: every domain but AON loses its supply. -/
def State.saveOver (s : State) : State :=
  let s := { s with pwr := { s.pwr with intr := .over, domains := 0x001#12, ready := false } }
  let s := (List.range 12).foldl (fun s ch => s.onOutc ch (fun o => { o with on := false, cmd := false })) s
  let s := { s with drv := { s.drv with coresUp := false, svcUp := false } }
  s.sramLost.portsDark.hostReset.keeperOn

/-- SAVE_WINDOW_EXPIRY (R525 step 4): at 40 ms, or when the store is exhausted, every domain but AON is switched off. LSW
latches stay while either coil supply is present (13 R343). -/
def execSaveWindowExpiry (s : State) : Out :=
  .next (
    if s.pwr.intr == .none || s.pwr.intr == .over then s
    else s.saveOver)

/-- INTERRUPTION_END (R525–R527; 22 R537): power-good again. In the ride-through the held records are written and the
interruption is reported; in the save window the refusal lifts and the channels stay off. Before the MRAM was mounted, or
after the domains went off, power-on reset follows. VSUP stands at 16.8 V or more, at a value the event does not tell
(assumption log 10). -/
def execInterruptionEnd (s : State) : Out :=
  .next (
    let (v, s) := s.draw
    let v := 16800 + v % 137201
    if s.pwr.intr == .none then s
    else if s.pwr.intr == .over || !s.mounted then s.powerOn v
    else
      let ride := s.pwr.intr == .rideThrough
      let d := (s.now - s.pwr.intrT) / 1000
      let s := { s with pwr := { s.pwr with intr := .none, vsup := v }, mram := { s.mram with refuse := false } }
      let s := s.flushHeld
      if ride then
        let s := s.event .pwr 1
        if s.pwr.st == .peat then s else s.bbEvent 4 0 255 d 0 0
      else s)

/-! ## Wakes (R512, R513, R516) -/

/-- WAKE_PACK_CURRENT (R512): pack current above the wake threshold for 10 ms in Moss. -/
def execWakePackCurrent (i : Int) (s : State) : Out :=
  .next (if s.wakeOn 1 && decide (s.gen.wakeI < i.natAbs) then s.wakeBy 1 else s)

/-- CAN_WAKE (16 R388; R512): a wake detector acts only while its controller is not disabled. -/
def execCanWake (c : Nat) (s : State) : Out :=
  .next (if s.wakeOn (2 + c) && (s.can c).mode != 2 then s.wakeBy (2 + c) else s)

/-- WAKE_TIMER_EXPIRY (R512): the timer taken at the Moss entry; it acts only while PWR_WAKE_TIMER is not 0. -/
def execWakeTimerExpiry (s : State) : Out :=
  .next (
    if s.pwr.st != .moss || s.pwr.wakeTimerTaken = 0 || s.pwr.wakeTimer = 0 || !s.wakeOn 4 then s
    else (s.at (s.pwr.mossT + sec s.pwr.wakeTimerTaken)).wakeBy 4)

/-- A wake input wakes the module: from Moss when it is enabled, from Peat always; a self-check becomes a full start
(R515, R516). -/
def State.wakePin (s : State) (code : Nat) : State :=
  if s.pwr.st == .peat then s.peatWake code false
  else if s.pwr.selfCheck then { s with pwr := { s.pwr with selfCheck := false, wakeSrc := code } }
  else if s.wakeOn code then s.wakeBy code
  else s

/-- CHG_PRES_HIGH (R512; 20 R505; 10 R279): high for 10 ms. -/
def execChgPresHigh (s : State) : Out :=
  .next (
    let was := s.pwr.chgPres
    let s := { s with pwr := { s.pwr with chgPres := true } }
    let s := if was then s else s.event .safein 9
    (s.wakePin 5).thermOuts)

/-- SVC_WAKE_HIGH (R512; 20 R505): high for 10 ms. -/
def execSvcWakeHigh (s : State) : Out :=
  .next (
    let was := s.pwr.svcWake
    let s := { s with pwr := { s.pwr with svcWake := true } }
    let s := if was then s else s.event .safein 10
    s.wakePin 6)

/-- CHG_PRES_LOW (20 R505; 10 R279). -/
def execChgPresLow (s : State) : Out :=
  .next (
    if !s.pwr.chgPres then s
    else (({ s with pwr := { s.pwr with chgPres := false } } : State).event .safein 9).thermOuts)

/-- SVC_WAKE_LOW (20 R505). -/
def execSvcWakeLow (s : State) : Out :=
  .next (
    if !s.pwr.svcWake then s
    else ({ s with pwr := { s.pwr with svcWake := false } } : State).event .safein 10)

/-- The module's PLL runs and CHN_LO and CHN_HI are powered for heartbeat sweeps in Moss (01 R28, R34). -/
def State.mossUp (s : State) : State :=
  ({ s with pwr := { s.pwr with domains := mossDomains ||| 0x180#12 } } : State).keeperOff

/-- Every port whose nodes are in NAP is woken, with its retained addresses, for one sweep in Moss. -/
def State.mossWake (s : State) : State :=
  (s.portList.filter (fun p => (s.port p).nap)).foldl (fun s p => s.wakePort p true true) s.mossUp

/-- HEARTBEAT_SWEEP_CYCLE (05 R155): once per second in Moss every port whose nodes are in NAP is woken for one M0 sweep. A
sweep whose COLLECT frame has not arrived ends 20 ms after its instant; its port then sleeps until the next cycle. -/
def execHeartbeatSweepCycle (s : State) : Out :=
  .next (
    let late (s : State) (p : Nat) : State :=
      if (s.port p).sweepOpen then (s.at ((s.port p).sweepS + ms 20)).sweepClose p else s
    if s.pwr.st == .moss && s.portList.any (fun p => (s.port p).sweepOpen) then s.portList.foldl late s
    else if s.pwr.st != .moss || s.portList.all (fun p => !(s.port p).nap) then s else s.mossWake)

/-- With every contactor open the module passes from Moss to Peat (R513): at once, or once its ports, woken for a sweep, have
had the passports that are due (R515 step 1). -/
def State.mossToPeat (s : State) : State :=
  if s.mram.passDue && s.fullPrimary && s.portList.any (fun p => (s.port p).nap) then
    ({ s with pwr := { s.pwr with peatDue := true } } : State).mossWake
  else s.peatEnter

/-- MOSS_LIMIT_EXPIRY (R513): with every contactor OPEN the module passes to Peat; otherwise a black-box record, once. -/
def execMossLimitExpiry (s : State) : Out :=
  .next (
    if s.pwr.st != .moss || s.gen.mossLim = 0 || s.pwr.mossOver || s.pwr.peatDue then s
    else
      let s := s.at (s.pwr.mossT + sec (3600 * s.gen.mossLim))
      if s.allOpen then s.mossToPeat
      else ({ s with pwr := { s.pwr with mossOver := true } } : State).bbEvent 0x0F 0 255 0 0 0)

/-- SELF_CHECK_ALARM (R516): the end of the self-check interval in Peat; the start-up runs without HOST and LINK, and its
end is the seeding of the estimates. -/
def execSelfCheckAlarm (s : State) : Out :=
  .next (
    if s.pwr.st != .peat then s
    else (s.at (s.pwr.peatT + sec (86400 * s.gen.selfChk))).peatWake 7 true)

/-! ## Protective shutdown (10 R283) -/

/-- The junction is at 150 °C (R282, R283 steps 1–4): F14 latches, and a class B disconnect is requested. It takes effect at once with no
coil on. -/
def State.junctionTrip (s : State) : State :=
  if s.stands 14 16 then s
  else
    let s := { s with therm := { s.therm with shutT := s.now } }
    let s := s.junctionLevel 3 s.therm.shut true s.therm.tj
    let s := { s with therm := { s.therm with shut := true } }
    (s.stand 14 16 { value := s.therm.tj }).shutStep

/-- Four junction readings (with all set aside the junction temperature is a free value, assumption log 103): sensors set aside, band, levels and their effects (10 R281, R282),
at 150 °C the protective shutdown. The scrub periods follow the band at the next scrub cycles. -/
def State.junctionIn (s : State) (t0 t1 t2 t3 : Int) : State :=
  let l := [t0, t1, t2, t3]
  let bad := (List.range 4).map (setAside l)
  let m : BitVec 4 := BitVec.ofNat 4 (bitsOf bad)
  let ok := (List.range 4).filterMap (fun n => if bad.getD n false then none else some (l.getD n 0))
  let (d, s) := if ok.isEmpty then s.draw else (0, s)
  let tj := match ok with | [] => (BitVec.ofNat 16 d).toInt | x :: r => r.foldl max x
  let t := s.therm
  let b := bandOf t.band tj
  let w := crossed t.warn (some tj) 12500 300
  let th := crossed t.throttle (some tj) 13500 500
  let s := { s with therm := { t with
    sens := (List.range 4).map (fun n => (n, l.getD n 0)), tj := tj, peak := max t.peak tj, band := b, aside := m
    warn := w, throttle := th } }
  let s := if m &&& ~~~t.aside != 0#4 then s.event .therm 3 else s
  let s := ((List.range 4).filter (fun n => m.getLsbD n && !t.aside.getLsbD n)).foldl (fun s n =>
    s.eventRec 4 6 n 255 (l.getD n 0) ((l.sum - l.getD n 0) / 3) 0) s
  let s := if b = t.band then s else (s.event .therm 0).eventRec 4 5 0 255 b t.band tj
  let s := (s.junctionLevel 1 t.warn w tj).junctionLevel 2 t.throttle th tj
  let s := (s.setCond 15 16 th { value := tj }).estClock
  if 15000 ≤ tj then s.junctionTrip else s

/-- JUNCTION_READ (R281, R282): in Run and Moss; once the protective shutdown has powered the cores down there is none. -/
def execJunctionRead (t0 : Int) (t1 : Int) (t2 : Int) (t3 : Int) (s : State) : Out :=
  .next (
    if s.pwr.st == .peat || s.pwr.restartDue then s
    else s.junctionIn t0 t1 t2 t3)

/-- JUNCTION_SHUTDOWN (R283 steps 1–4): the AON comparator at 150 °C. -/
def execJunctionShutdown (s : State) : Out := .next s.junctionTrip

/-- JUNCTION_RECOVERY (R283 steps 5 and 6): 140 °C; F14 ceases, and the powered-down domains restart as after RST_N.
Step 4 falls within 1 s of t0 in every case. -/
def execJunctionRecovery (s : State) : Out :=
  .next (
    if !s.stands 14 16 then s
    else
      let s := s.shutStep
      let s := if s.pwr.restartDue then s
        else
          let s := s.at (s.therm.shutT + sec 1)
          s.shutDown
      let s := s.junctionLevel 3 s.therm.shut false s.therm.tj
      let s := { s with therm := { s.therm with shut := false } }
      let s := s.cease 14 16
      let s := (s.startUp false).resetCause 9
      s)

/-! ## Supplies and clock -/

/-- VSUP_OUT_OF_RANGE (24 R565; 11 R287 F62; 20 R497): VSUP leaves or re-enters 16.8–154 V. -/
def execVsupOutOfRange (v : Nat) (s : State) : Out :=
  .next (
    let s := { s with pwr := { s.pwr with vsup := v } }
    if 16800 ≤ v && v ≤ 154000 then s.cease 62 16 else (s.event .pwr 4).stand 62 16 { value := v })

/-- A channel after its supply was read (24 R565): without supply it is off, a coil on it lost unless the partner's channel is fed;
with supply back, a commanded output that holds no coil is on again, and a channel in limp-home follows its DIN. -/
def State.supplyTurn (s : State) (ch : Nat) : State :=
  let o := s.outc ch
  if s.drv.limp && s.limpSel ch then (if o.on == s.fed ch then s else s.limpChannel ch)
  else if s.fed ch then (if o.cmd && !o.on && !o.tripped && !s.isCoil ch then s.channel ch true else s)
  else if !o.on then s
  else
    let s := s.onOutc ch (fun o => { o with on := false, cmd := o.cmd && !s.isCoil ch, changeT := s.now })
    if 0 < s.supplyOf ch then s else s.coilLost ch

/-- COIL_SUPPLY_LOW (11 R287 F39; 24 R565): readings of VCOIL_A and VCOIL_B, mV; 0 where a supply is reversed or absent. -/
def execCoilSupplyLow (a : Nat) (b : Nat) (s : State) : Out :=
  .next (
    let s := { s with pwr := { s.pwr with vcoilA := a, vcoilB := b } }
    (List.range 12).foldl State.supplyTurn s.f39Settle)

/-- PLL_LOSS (01 R28): the keeper takes over, and the time base resumes from it; protection goes on (01 R18). -/
def execPllLoss (s : State) : Out := .next (s.keeperOn.tick.keeperOff)

end Sys2Proof.Machine
end

