-- ==== Sys2Proof/Machine/Diag.lean ====
section
/-! DEFINITION. The commands of the diagnostics family (chapter 23) and the lapses of what a host has given (09 R257;
14 R368, R371; 19 R474; 22 R540). -/

namespace Sys2Proof.Machine

open Sys2Proof

/-! ## SRAM (R551, R552) -/

/-- A corrected error (R551). A word corrected twice within 24 h calls for a row or column repair: which of the two, and
its address, is not stated (assumption log 10). -/
def State.corrected (s : State) (w : Nat) : State :=
  let again := match Tab.find s.repair.ceWords w with
    | some t => decide (s.now < t + sec 86400)
    | none => false
  let s := { s with repair := { s.repair with
    ce := min (s.repair.ce + 1) 0xFFFFFFFF, ceWords := s.repair.ceWords.set w s.now } }
  let s := s.event .repair 0
  if again then
    let (v, s) := s.draw
    s.repairPend (1 + v % 2) (v / 2 % 65536)
  else s

/-- SRAM_CORRECTED_ERROR (R551). -/
def execSramCorrectedError (w : Nat) (s : State) : Out := .next (s.corrected w)

/-- SRAM_SCRUB (R551; 10 R281): every word is read, and the words in error are corrected; the period of the present junction band takes
effect. -/
def execSramScrub (bad : List Nat) (s : State) : Out :=
  .next (bad.foldl (fun s w => s.corrected w) { s with therm := { s.therm with scrubSram := (scrubOf s.therm.band).1 } })

/-- What an uncorrectable error does to its region (R552). -/
def State.regionLost (s : State) (r : SramRegion) : State :=
  match r with
  | .fwSafe => s.watchReset 8
  | .fwSvc => s.svcReset 6
  | .live g => (s.onCell g (fun c => { c with stale := true, word := c.word ||| (1#32 <<< 22) })).f07Settle (g / 512)
  | .accum g b =>
    let a := (s.est g).acc6.getD b {}
    s.onEst g (fun e => { e with acc6 := e.acc6.set b { a with lost := true } })
  | .table g => match Tab.find s.mram.imp g with
    | some r => s.tableFrom g r.body
    | none => s.onEst g (fun e => { e with ages := [], meas := [], entries := [], updates := 0, unwritten := 0, unwrT := some (e.unwrT.getD s.now) })
  | .frame p e => s.frameCount p e 1 1
  | .mirror => s.pairFrame true
  | .prefetch n =>
    let q := s.ring n
    if q.typ == .submission && q.en && q.run && q.devIdx != q.hostIdx then
      ((s.onRing n (fun r => { r with devIdx := (r.devIdx + 1) % r.size })).shadow n).ringErr n 2
    else s
  | .staging p k =>
    let gone (l : List Staged) : List Staged := l.filter (fun x => x.seq != k)
    let snaps := s.mram.snaps.map (fun n =>
      if n.port == p && n.todo.any (fun x => x.seq == k) then { n with todo := gone n.todo, skipped := n.skipped + 1 } else n)
    let st := s.mram.staging.set p (gone (s.mram.staging.getD p []))
    { s with mram := { s.mram with staging := st, snaps := snaps } }

/-- An uncorrectable error (R552): counted, F59, the region's outcome, and a page map-out at the next boot. -/
def State.uncorrectable (s : State) (region : SramRegion) (w : Nat) : State :=
  let s := { s with repair := { s.repair with ue := min (s.repair.ue + 1) 0xFFFFFFFF } }
  let s := (s.event .repair 1).stand 59 16 { value := w }
  (s.regionLost region).repairPend 3 (w / 512)

/-- SRAM_UNCORRECTABLE_ERROR (R552). -/
def execSramUncorrectableError (region : SramRegion) (w : Nat) (s : State) : Out := .next (s.uncorrectable region w)

/-! ## MRAM (R553; 14 R369) -/

/-- MRAM_SCRUB (R553, R561; 14 R369): sectors with three or more corrected words are remapped, and the configuration copies
are checked; `copyBad1` and `copyBad2` tell which no longer match the seal. -/
def execMramScrub (badSectors : List Nat) (copyBad1 : Bool) (copyBad2 : Bool) (s : State) : Out :=
  .next (
    let s := { s with therm := { s.therm with scrubMram := (scrubOf s.therm.band).2 } }
    if !s.mounted then s
    else
      let s := if copyBad1 then { s with cfg := { s.cfg with copy1 := none } } else s
      let s := if copyBad2 then { s with cfg := { s.cfg with copy2 := none } } else s
      if s.pwr.intr == .saveWindow then badSectors.foldl (fun s x => s.sectorRemap x) s
      else if !s.mayWrite then s
      else (badSectors.foldl (fun s x => s.sectorRemap x) s).copiesAtScrub)

/-! ## Lanes and the reference (R556, R559, R560) -/

/-- LANE_CROSS_CHECK (R556): every 100 ms in Run; `bad` is the lane that the third lane disagrees with. -/
def execLaneCrossCheck (bad : Option Nat) (s : State) : Out :=
  .next (
    match bad with
    | some k => if s.pwr.st != .run then s else s.laneFail k
    | none => s)

/-- REFERENCE_CHECK (R559, R560): every 10 s in Run; a failing element sets REPAIR_EVENT [7]. -/
def execReferenceCheck (bad : BitVec 3) (s : State) : Out :=
  .next (
    if s.pwr.st != .run then s
    else
      let s := { s with repair := { s.repair with refBad := bad } }
      if bad = 0#3 then s else s.event .repair 7)

/-! ## Lapses -/

/-- FIRMWARE_TRIAL_CONFIRM (22 R540): 10 min from the trial start. -/
def execFirmwareTrialConfirm (s : State) : Out :=
  .next (
    match s.mram.fwTrialT with
    | none => s
    | some t =>
      let s := s.at (t + mins 10)
      { s with mram := { s.mram with fwTrialT := none, fwPrev := s.mram.fwActive } })

/-- The pending blob is discarded, with its interrupt and event record (14 R368; 20 R493; 11 R305). -/
def State.pendDrop (s : State) : State :=
  match s.cfg.pend with
  | none => s
  | some b =>
    let s := if s.partnerUp && s.pair.role == .primary then s.sendNvw (.pending none) else s
    (({ s with cfg := { s.cfg with pend := none, mism := 0 } } : State).raiseIrq 2).eventRec 6 2 0 255 2 (crc32c b.bytes).toNat 0

/-- PENDING_BLOB_DISCARD (14 R368): 30 min without a confirmation. -/
def execPendingBlobDiscard (s : State) : Out :=
  .next (
    if s.cfg.pend.isNone then s
    else
      (s.at (s.cfg.pendT + mins 30)).pendDrop)

/-- MAINT_SESSION_TIMEOUT (14 R371): 30 min without a command. -/
def execMaintSessionTimeout (s : State) : Out :=
  .next (if !s.cfg.maint then s else (s.at (s.cfg.maintT + mins 30)).maintEnd 2)

/-- MASS_LAPSE (09 R257): 10 min after the supplied mass was last written. -/
def execMassLapse (s : State) : Out :=
  .next (
    if s.pack.mass.isNone then s
    else
      let s := s.at (s.pack.massT + mins 10)
      { s with pack := { s.pack with mass := none } })

/-- EMERGENCY_SUPPLY_LAPSE (19 R474): the host's command lapses, where it was given a lapse. -/
def execEmergencySupplyLapse (s : State) : Out :=
  .next (
    match s.pack.emgLapse with
    | none => s
    | some t =>
      let s := s.at t
      { s with pack := { s.pack with emgHost := false, emgLapse := none } })

/-- SERVICE_CORES_RESUMED (21 R520; 18 R460): rings go on, and the plan events that fell due are taken. -/
def execServiceCoresResumed (s : State) : Out :=
  .next (
    if s.drv.svcUp || s.pwr.st != .run || !s.mounted then s
    else s.portList.foldl (fun s p => s.planResume p) s.svcResume.flushHeld)

end Sys2Proof.Machine
end

