-- ==== Sys2Proof/Machine/FaultCmds.lean ====
section
/-! DEFINITION. The commands of the fault family (11 R284–R298). -/

namespace Sys2Proof.Machine

open Sys2Proof

/-- The condition of F38 for an LSW is over once its latch has changed state (assumption log 16). -/
def State.lswSettle (s : State) : State :=
  let s := (List.range 4).foldl (fun s j =>
    if (s.lsw j).f38 && (s.lsw j).closed != (s.lsw j).f38Closed then s.onLsw j (fun l => { l with f38 := false }) else s) s
  if (List.range 4).all (fun j => !(s.lsw j).f38) then s.cease 38 16 else s

/-- The whole matrix is settled: the LSW releases, the coil supplies, every scope, the close sequence, a shutdown. -/
def State.matrixEval (s : State) : State :=
  let s := s.lswSettle
  s.f39Settle.settle.seqKick.shutStep

/-- FAULT_MATRIX_EVALUATION (R298): the action on each contactor and limit is settled anew. -/
def execFaultMatrixEvaluation (s : State) : Out := .next s.matrixEval

/-- PERSISTENCE_EXPIRY (R284): a condition has stood for its persistence, and the source latches. -/
def execPersistenceExpiry (src : Nat) (scope : Nat) (s : State) : Out :=
  .next (
    if !s.stands src scope then s
    else
      let s := s.at ((s.mark src scope).since + s.persistence src)
      (s.latch src scope (s.why src scope)).seqKick)

/-- CLASS_B_WAIT_EXPIRY (R290 steps 5 and 6): the open command is issued regardless of current, with the
opened-above-rating flag. The pack's entry, 16, stands for every string and OTH contactor that still waits; 17 + c names
OTH contactor c. -/
def execClassBWaitExpiry (scope : Nat) (s : State) : Out :=
  .next (
    let d := s.disc scope
    if d.kind != .classB || !s.drv.coresUp then s
    else
      let s := s.at d.deadline
      let due := ((if scope = 16 then s.discKeys 16 else [scope]).filter (fun q =>
        (s.disc q).kind == .classB && decide ((s.disc q).deadline ≤ s.now)))
      ((due.foldl (fun s q => if (s.disc q).kind == .classB then s.openScope q true else s) s).seqKick).shutStep)

/-- Since when the current of a scope has been below the low-current threshold. -/
def State.lowSince (s : State) (scope : Nat) : Option Nat :=
  match s.scopeStr scope with | some p => (s.str p).lowWin | none => s.pack.lowWin

/-- When the first low-current window of a scope opens (R291): now, at a safe standstill with the current below every break
rating; otherwise once the current has stayed below the threshold for 2 s. -/
def State.windowAt (s : State) (scope : Nat) : Option Nat :=
  let below := match s.scopeCur scope with | some i => decide ((i.natAbs : Int) < s.breakOf scope) | none => false
  if s.safe.standstill && below then some s.now else (s.lowSince scope).map (· + sec 2)

/-- LOW_CURRENT_WINDOW (R291): a pending class C opens by the steps of class B at the first low-current window. -/
def execLowCurrentWindow (scope : Nat) (s : State) : Out :=
  .next (
    match s.windowAt scope with
    | some t => if (s.disc scope).kind == .classC then (s.at t).startWindow scope else s
    | none => s)

/-- The class C latches of a scope act in class B from now on (R291), each with its fault event record. -/
def State.escalateB (s : State) (scope : Nat) : State :=
  let l := (List.range 64).filter (fun n => s.isLatched n scope && s.effClass n scope == 2)
  l.foldl (fun s n =>
    (s.onFault n (fun f => { f with escB := f.escB ||| (1#17 <<< scope), change := s.now })).faultRec n scope 3 (s.why n scope) 0) s

/-- CLASS_C_DEADLINE (R291): from the deadline onwards the latch acts in class B. -/
def execClassCDeadline (scope : Nat) (s : State) : Out :=
  .next (
    if (s.disc scope).kind != .classC then s
    else
      let s := (s.at (s.disc scope).deadline).escalateB scope
      s.startB scope s.waitW none)

/-- CLASS_D_RELEASE (R294): a class D latch clears by itself at the end of its release time; a source configured as
latching clears only by command. -/
def execClassDRelease (src : Nat) (scope : Nat) (s : State) : Out :=
  .next (
    if !s.isLatched src scope || s.stands src scope || s.effClass src scope ≠ 3 || (s.faultCfg src).latching then s
    else (s.at ((s.mark src scope).ceased + s.releaseTime src)).unlatch src scope)

/-- The Wade timer reaches zero (R297). -/
def State.wadeOut (s : State) : State :=
  let s := s.at (s.wade.since + ms s.wade.left)
  { s with wade := { s.wade with expired := true, left := 0, since := s.now } }

/-- WADE_TIMER_EXPIRY (R297): a class C disconnect is requested for the scope of every W source that still stands. -/
def execWadeTimerExpiry (s : State) : Out := .next (if !s.wade.on then s else s.wadeOut.wadeOpens)

end Sys2Proof.Machine
end

