-- ==== Sys2Proof/Machine/HostRead.lean ====
section
/-! DEFINITION. What host commands read (19 R483–R487; 22 R543–R547; 23 R558): the entries and sections of the snapshot,
and the records of the black box. -/

namespace Sys2Proof.Machine

open Sys2Proof

/-! ## Entries of the fixed sections (R486) -/

/-- CRC-32C of the pending blob; 0 when none. -/
def State.pendCrc (s : State) : Nat := match s.cfg.pend with | some b => (crc32c b.bytes).toNat | none => 0

/-- Time that remains of the maintenance session, s. -/
def State.maintLeft (s : State) : Nat := if s.cfg.maint then (s.cfg.maintT + mins 30 - s.now) / 1000000000 else 0

/-- The 64-byte module entry. -/
def State.moduleEntry (s : State) : List Byte :=
  le 8 s.serial ++ le 8 s.now ++ le 1 s.fuse.set.position ++ le 1 s.pair.role.ctorIdx ++ le 2 s.moduleFlags ++
    le 4 s.sealInForce ++ le 4 s.pendCrc ++ le 4 s.fuseCrc ++ le 4 s.wadeLeft ++ le 4 s.maintLeft ++
    le 4 (s.evr .resetCause).bits.toNat ++ leI 2 s.therm.tj ++ le 1 s.therm.band ++ le 1 s.mram.fwActive ++
    le 4 (s.mram.fw.getD 0 {}).version ++ le 4 (s.mram.fw.getD 1 {}).version ++ le 4 s.pwr.vsup ++ zeros 4

/-- Effective class code of a source: the strictest over its latched scopes, or over the scopes it may take. -/
def State.sourceClass (s : State) (n : Nat) : Nat :=
  let l := (List.range 17).filter (fun q => s.isLatched n q)
  let q := if !l.isEmpty then l else if scopeKind n 0 ≠ 2 then [16] else s.portList
  q.foldl (fun c q => min c (s.effClass n q)) (if q.isEmpty then s.effClass n 16 else 4)

/-- One 16-byte latch entry. -/
def State.latchEntry (s : State) (n : Nat) : List Byte :=
  let f := s.fault n
  le 1 n ++ le 1 (s.sourceClass n) ++
    le 1 (bitsOf [f.latched.getLsbD 16, f.standing.getLsbD 16, isW n && f.wade && s.wade.on]) ++ zeros 1 ++
    le 2 (f.latched.toNat % 65536) ++ le 2 (f.standing.toNat % 65536) ++ le 8 f.change

/-- One 16-byte contactor entry. -/
def State.ctrEntryOf (s : State) (i : Nat) : List Byte :=
  match s.ctrCfg i with
  | none => zeros 16
  | some c =>
    let oth := c.role == .oth
    let first := !oth && (if s.knHeld c.port then Role.kp else (s.opn c.port).nextFirst) == c.role
    let r := match c.role with | .kn => 0 | .kp => 1 | .pre => 2 | .oth => 3
    le 1 i ++ le 1 r ++ le 1 (s.ctr i).st.ctorIdx ++ le 1 (if oth then 255 else c.port) ++ le 1 c.out ++ le 1 c.lsw ++
      le 1 (bitsOf [c.aux.isSome, s.auxClosed i, first, !oth && (s.lockCause c.port).isSome]) ++
      le 1 (if oth then 0 else s.recentAttempts c.port) ++ leI 4 (if oth then -2147483648 else s.vxOf c.port) ++
      le 4 (if c.role == .pre then s.ethNow c.port / 1000 else 0)

/-- One 16-byte output entry: OUT0–OUT11 as 0–11, LSW0–LSW3 as 12–15. -/
def State.outputEntry (s : State) (n : Nat) : List Byte :=
  if n < 12 then
    let o := s.outc n
    le 1 n ++ le 1 (bitsOf [o.on, o.cmd, o.tripped, o.openLoad, o.thermLatch, s.limpSel n, s.dinOf n]) ++ le 1 o.retries ++
      le 1 o.cause ++ leI 4 o.cur ++ leI 2 o.temp ++ zeros 6
  else
    let l := s.lsw (n - 12)
    le 1 n ++ le 1 l.closed.toNat ++ zeros 2 ++ leI 4 l.cur ++ leI 2 l.temp ++ zeros 6

/-- Classification code of a port (R469). -/
def State.clsCode (s : State) (p : Nat) : Nat := match (s.port p).cls with | some c => c.ctorIdx | none => 0xFF

/-- One 32-byte port entry. -/
def State.portEntry (s : State) (p : Nat) : List Byte :=
  let q := s.port p
  let c := s.portCfg p
  let d := s.declared p
  le 1 p ++ le 1 q.st.ctorIdx ++ le 1 (s.clsCode p) ++
    le 1 (bitsOf [q.split, q.quiet, s.repair.pe16Port == some p, q.lockN, q.lockS, q.burst, q.sedge]) ++ le 1 (s.modeOn p s.now) ++
    le 1 q.corner ++ le 1 (if d then portC c else 0) ++ le 1 (if d then c.m else 0) ++ le 4 q.dW ++ le 2 q.seq ++ zeros 2 ++
    le 8 q.compl.toNat ++ le 4 q.badN ++ le 4 q.badS

/-- One 40-byte charge counter entry. -/
def chargeEntry (port : Nat) (subst learned : Bool) (net : Int) (qIn qOut : Nat) (off : Int) (gaps : Nat) : List Byte :=
  le 1 port ++ le 1 (bitsOf [subst, learned]) ++ zeros 6 ++ leI 8 net ++ le 8 qIn ++ le 8 qOut ++ leI 4 off ++ le 4 gaps

/-- An offset was learned within the last 7 days. -/
def State.within7 (s : State) (t : Option Nat) : Bool := match t with | some t => decide (s.now < t + sec 604800) | none => false

/-- The charge counter entries: the strings, then the pack with their sums. -/
def State.chargeEntries (s : State) : List (List Byte) :=
  let l := s.portList
  let sum (f : Str → Nat) : Nat := (l.map (fun p => f (s.str p))).sum
  let net : Int := (l.map (fun p => (s.str p).qNet)).sum
  l.map (fun p =>
    let x := s.str p
    chargeEntry p x.subst (s.within7 x.offT) x.qNet x.qIn x.qOut x.off x.gaps) ++
  [chargeEntry 255 s.pack.subst (s.within7 s.pack.offT) net (sum (·.qIn)) (sum (·.qOut)) s.pack.off (sum (·.gaps))]

/-- One 32-byte entry of the command log (R487). -/
def logEntryBytes (e : LogEntry) : List Byte :=
  le 8 e.ref.t ++ le 8 e.tEnd ++ le 2 e.ref.d.cmdId.toNat ++ le 1 e.ref.d.sq ++ le 1 e.ref.opcode ++ le 1 e.status ++
    le 1 (bitsOf [e.written, e.carried, e.isPartial]) ++ le 2 e.ref.gen ++ le 4 e.value ++ le 1 e.ok ++ zeros 3

/-- One 16-byte repair entry (23 R558). -/
def repairEntry (kind origin unit detail t : Nat) : List Byte :=
  le 1 kind ++ le 1 origin ++ le 2 unit ++ le 4 detail ++ le 8 t

/-- The repair entries: factory, then field in order of repair. -/
def State.repairEntries (s : State) : List (List Byte) :=
  s.factoryRepairs.map (fun w => repairEntry (w / 2 ^ 30) 0 (w % 65536) 0 0) ++
    s.repair.records.reverse.map (fun r => repairEntry r.kind r.origin r.unit r.detail r.t)

/-- The newest valid ageing record of a cell, zeros where there is none (08 R235). -/
def State.ageingBytes (s : State) (g : Nat) : List Byte :=
  match s.ageing g with
  | some r => padTo 60 r.body ++ le 4 r.commit
  | none => zeros 64

/-- The global indices of sections 0x06, 0x09 and 0x0A (R485). -/
def State.allPositions (s : State) : List Nat := s.portList.flatMap (fun p => (List.range (16 * (s.portCfg p).m)).map (gi p))

/-! ## The snapshot (R483–R485) -/

/-- Entry size and entries of a section; none where it does not apply to the configuration. -/
def State.sectionOf (s : State) (id : Nat) : Nat × Option (List (List Byte)) :=
  match id with
  | 0x01 => (64, some [s.moduleEntry])
  | 0x02 => (16, some ((List.range 64).map s.latchEntry))
  | 0x03 => (16, some ((List.range s.conf.ctrs.length).map s.ctrEntryOf))
  | 0x04 => (16, some ((List.range 16).map s.outputEntry))
  | 0x05 => (32, some ((List.range 16).map s.portEntry))
  | 0x06 => (64, some (s.allPositions.map (fun g => s.cellEntry (g / 512) (g % 512) s.now)))
  | 0x07 => (96, some (s.portList.map s.strEntry ++ [s.packEntry]))
  | 0x08 => (s.pack.lastLim.length, some [s.pack.lastLim])
  | 0x09 => (320, some (s.allPositions.map s.tableBytes))
  | 0x0A => (64, some (s.allPositions.map s.ageingBytes))
  | 0x0B =>
    (32, some (s.host.log.reverse.map logEntryBytes ++ List.replicate (64 - s.host.log.length) (zeros 32)))
  | 0x0C => (40, some s.chargeEntries)
  | 0x0D => (4, some ((List.range 10).map (fun k => le 4 (s.safeinReg (4 * k)))))
  | 0x0E => (40, some (([0, 1].filter (fun n => (s.axleCfg n).isSome)).map s.axleEntry))
  | 0x0F => (40, if s.isPair then some [padTo 40 s.pair.hbSent, padTo 40 s.pair.hbRcvd] else none)
  | _ => (16, some s.repairEntries)

/-- One directory entry. -/
def dirEntry (id flags esize count offset : Nat) : List Byte :=
  le 1 id ++ le 1 1 ++ le 1 flags ++ zeros 1 ++ le 2 esize ++ zeros 2 ++ le 4 count ++ le 4 offset

/-- Sections requested by a mask; 0 asks for the default set. -/
def snapIds (mask : Nat) : List Nat :=
  let m := if mask = 0 then 0xFCDF else mask
  ((List.range 16).filter m.testBit).map (· + 1)

/-- The snapshot for a result buffer, and whether a section was left out for want of space. -/
def State.readback (s : State) (mask room : Nat) : List Byte × Bool :=
  let ids := snapIds mask
  let start := 32 + 16 * ids.length
  let (dir, body, left) := ids.foldl (fun (x : List Byte × List Byte × Bool) id =>
    let (dir, body, left) := x
    let (esize, es) := s.sectionOf id
    match es with
    | none => (dir ++ dirEntry id 2 esize 0 0, body, left)
    | some l =>
      let pad := (8 - body.length % 8) % 8
      let off := start + body.length + pad
      let b := l.flatten
      if off + b.length ≤ room then (dir ++ dirEntry id 0 esize l.length off, body ++ zeros pad ++ b, left)
      else (dir ++ dirEntry id 1 esize l.length 0, body, true)) (([] : List Byte), ([] : List Byte), false)
  let head := le 4 (start + body.length) ++ le 1 1 ++ le 1 ids.length ++
    le 2 (bitsOf [left, s.isPair && s.pair.role == .standby]) ++ le 8 s.now ++ le 8 s.now ++ le 8 s.serial
  (head ++ dir ++ body, left)

/-! ## Records of the black box (22 R544, R545, R547) -/

/-- A record of the black box: its body, CRC and commit word. -/
def bbSealed (b : List Byte) (seq : Nat) : List Byte := b ++ le 4 (crc32c b).toNat ++ le 4 seq

/-- An event record. -/
def BbEvent.bytes (e : BbEvent) : List Byte :=
  bbSealed (le 1 1 ++ le 1 e.code ++ le 1 e.subject ++ le 1 e.port ++ le 4 e.value ++ le 8 e.t ++ le 4 e.value2 ++ le 4 e.value3)
    e.seq

/-- The header record of a snapshot. -/
def Snapshot.head (n : Snapshot) : List Byte :=
  bbSealed (padTo 1016 (le 1 2 ++ le 1 n.port ++ le 1 n.source ++ le 1 n.cls ++ le 2 n.pos ++ le 1 n.slot ++ le 1 n.pre ++
    le 8 n.t ++ le 1 n.m ++ le 1 n.c ++ zeros 6 ++ (n.temps.map (leI 2)).flatten ++ (n.stackV.map (le 4)).flatten)) n.seq

/-- A sweep record of a snapshot. -/
def Snapshot.sweepBytes (n : Snapshot) (seq : Nat) (x : Staged) : List Byte :=
  let after := decide (n.t < x.t)
  bbSealed (le 1 3 ++ le 1 x.idx ++ le 2 x.seq ++ le 4 n.seq ++ le 8 x.t ++
    le 1 (x.mode % 4 + bitsOf [false, false, x.split, after, x.compl.getLsbD 32]) ++ zeros 3 ++ leI 4 x.iStr ++
    leI 4 x.iPack ++ le 4 (x.compl.toNat % 2 ^ 32) ++ (x.cells.map (le 2)).flatten) seq

/-- Inserts a record by its sequence. -/
def seqInsert (x : Nat × List Byte) : List (Nat × List Byte) → List (Nat × List Byte)
  | [] => [x]
  | y :: r => if x.1 ≤ y.1 then x :: y :: r else y :: seqInsert x r

/-- Every valid record, in ascending sequence. -/
def State.bbRecords (s : State) : List (Nat × List Byte) :=
  let ev := s.mram.events.map (fun e => (e.seq, e.bytes))
  let sn := s.mram.snaps.flatMap (fun n => (n.seq, n.head) :: n.sweeps.map (fun x => (x.1, n.sweepBytes x.1 x.2)))
  (ev ++ sn).foldr seqInsert []

end Sys2Proof.Machine
end

