-- ==== Sys2Proof/Machine/RingCmds.lean ====
section
/-! DEFINITION. The commands of the ring family: doorbells, descriptors, completions, stream records, interrupts and
resets of the host interface, and accesses to BAR0 (18 R435–R460; 20 R489–R507). An access reaches the module only while
its host interface is ready: PERST_N low, or the HOST domain without power, holds it in reset (02 R57; 18 R437). -/

namespace Sys2Proof.Machine

open Sys2Proof

/-- DOORBELL (18 R445). -/
def execDoorbell (ring : Nat) (v : Word) (s : State) : Out := .next (if !s.host.ready then s else s.doorbell ring v)

/-- The opcodes that chapter 19 defines. -/
def definedOp (op : Nat) : Bool :=
  (1 ≤ op && op ≤ 4) || (0x10 ≤ op && op ≤ 0x16) || (0x20 ≤ op && op ≤ 0x23) || (0x30 ≤ op && op ≤ 0x34) ||
    (0x40 ≤ op && op ≤ 0x46) || (0x50 ≤ op && op ≤ 0x55) || (0x60 ≤ op && op ≤ 0x63) || (0x70 ≤ op && op ≤ 0x72) ||
    (0x80 ≤ op && op ≤ 0x82)

/-- A descriptor that R448 refuses: its group not admitted, or on a CAN transmit ring another command than a CAN
transmit or cancel for that ring's controller. -/
def descRefused (r : Ring) (op : Nat) (imm : Word) : Bool :=
  let c := r.fn - 0x30
  op == 0 || !r.groups.getLsbD (op / 16) || ((r.fn == 0x30 || r.fn == 0x31) &&
    !((op == 0x60 && imm.toNat % 2 == c) || (op == 0x61 && imm.toNat / 65536 % 2 == c)))

/-- A completion ring has a free entry (18 R452). -/
def Ring.free (r : Ring) : Bool := (r.devIdx + 1) % r.size ≠ r.hostIdx

/-- A submission ring has a descriptor that may be fetched: it works, fewer than 16 commands of it run, and its completion ring
has a free entry (R449, R452). -/
def State.fetchable (s : State) (n : Nat) : Bool :=
  let r := s.ring n
  let q := s.ring r.cq
  s.works n && r.typ == .submission && r.devIdx != r.hostIdx && decide (r.outst < 16) && q.en && q.run && q.free

/-- Ring 2 and the rings that admit only groups 0x30 and 0x40 are fetched first (R449). -/
def State.fetchFirst (s : State) (n : Nat) : Bool :=
  n == 2 || ((s.ring n).groups != 0#9 && ((s.ring n).groups &&& ~~~(0x18#9)) == 0#9)

/-- It is a ring's turn (R449): of the rings that are fetched first, or, with none of those fetchable, the next one in the
round-robin. -/
def State.fetchTurn (s : State) (n : Nat) : Bool :=
  let l := (List.range 64).filter s.fetchable
  s.fetchFirst n || (!l.any s.fetchFirst &&
    l.all (fun m => decide ((n + 63 - s.host.lastSq) % 64 ≤ (m + 63 - s.host.lastSq) % 64)))

/-- DESCRIPTOR_FETCH (18 R446, R448, R449, R452; 19 R464): the next descriptor of a ring whose turn it is is fetched and its command
started; a refused or undefined one completes with BAD_PARAM. The command itself is its own row (assumption log 18). -/
def execDescriptorFetch (ring : Nat) (opcode : Nat) (d : Desc) (s : State) : Out :=
  .next (
    let r := s.ring ring
    if !s.fetchable ring || !s.fetchTurn ring || (d.fence && 0 < r.outst) then s
    else
      let s := if s.fetchFirst ring then s else { s with host := { s.host with lastSq := ring } }
      let s := s.onRing ring (fun r => { r with devIdx := (r.devIdx + 1) % r.size, outst := r.outst + 1 })
      let s := s.shadow ring
      let ref := s.refOf opcode { d with sq := ring }
      if descRefused r opcode d.imm then (s.ringErr ring 2).finish ref 7 0 [] false
      else if !definedOp opcode then s.finish ref 7 0 [] false
      else s)

/-- Writes a completion (18 R450–R452, R460): the entry of the first finished command of a completion ring, after its
result buffer; one due on a ring that is disabled or stopped is discarded. -/
def State.complete (s : State) (cq : Nat) : State :=
    match s.host.finished.find? (fun c => (s.ring c.ref.d.sq).cq == cq) with
    | none => s
    | some c =>
      let q := s.ring cq
      let take (s : State) : State :=
        { s with host := { s.host with finished := s.host.finished.erase c } }
      if !q.en || !q.run || q.typ != .completion then (take s).release c.ref
      else if !s.works cq || !s.drv.svcUp || !q.free then s
      else
        let cut := c.result.take c.ref.d.resultLen
        let s := if cut.isEmpty then s else s.emit (.result c.ref cut)
        let flags := bitsOf [!cut.isEmpty, c.cut || decide (c.ref.d.resultLen < c.result.length), c.isPartial]
        let head := (s.ring c.ref.d.sq).devIdx
        let e := le 2 c.ref.d.cmdId.toNat ++ le 1 c.status ++ le 1 c.ref.d.sq ++ le 4 c.value ++ le 4 cut.length ++ le 2 head ++
          le 1 flags ++ le 1 q.phase.toNat
        let s := s.emit (.completion cq q.devIdx e)
        let n := (q.devIdx + 1) % q.size
        let s := s.onRing cq (fun q => { q with devIdx := n, phase := q.phase != (n == 0) })
        let s := (take s).logMod c.ref (fun e => { e with written := true })
        ((s.release c.ref).shadow cq).signal cq

/-- COMPLETION_WRITE (18 R450–R452, R460). -/
def execCompletionWrite (cq : Nat) (s : State) : Out := .next (s.complete cq)

/-- A record is dropped or truncated: counted in RING_OVF, with the loss flag (18 R455). -/
def State.recordLost (s : State) (n : Nat) : State :=
  (s.onRing n (fun r => { r with ovf := min (r.ovf + 1) 0xFFFFFFFF })).ringErr n 3

/-- The 32-byte header of a stream record (18 R454). -/
def State.recHeader (s : State) (n : Nat) (body : List Byte) (cut : Bool) : List Byte :=
  let r := s.ring n
  le 4 (32 + body.length) ++ le 4 r.seq ++ le 8 s.now ++ le 4 r.dropped ++ le 1 n ++ le 1 (cut.toNat + 2 * r.first.toNat) ++
    le 1 s.fuse.set.position ++ le 1 1 ++ le 4 (if cut then 0 else (crc32c body).toNat) ++ zeros 4

/-- The next record of a function code is written into a posted buffer, or dropped. -/
def State.recordWrite (s : State) (fn : Nat) (post : Option BufPost) : State :=
  match s.host.streamQ.find? (fun r => r.fn == fn) with
  | none => s
  | some x =>
    let take (s : State) : State := { s with host := { s.host with streamQ := s.host.streamQ.erase x } }
    match s.streamRing fn with
    | none => take s
    | some n =>
      let r := s.ring n
      if !r.run then take s
      else if !s.works n then s
      else
        let s := take s
        let step (s : State) : State := s.onRing n (fun r => { r with seq := (r.seq + 1) % 2 ^ 32 })
        match (if r.devIdx == r.hostIdx then none else post) with
        | none =>
          let s := (s.recordLost n).onRing n (fun r => { r with dropped := min (r.dropped + 1) 0xFFFFFFFF })
          let s := if fn = 0x25 then s.rxDropped 0 else if fn = 0x26 then s.rxDropped 1 else s
          step s
        | some b =>
          let cut := decide (b.len < 32 + x.body.length)
          let s := if cut then s.recordLost n else s.emit (.recordBody n r.devIdx (b.addr + 32) x.body)
          let s := s.emit (.recordHeader n r.devIdx b.addr (s.recHeader n x.body cut))
          let s := s.onRing n (fun r => { r with devIdx := (r.devIdx + 1) % r.size, dropped := 0, first := false })
          ((step s).shadow n).signal n

/-- STREAM_RECORD_WRITE (18 R453–R456): the first record due for a function code, into the buffer that the next post of
its ring names; without a post it is dropped, and a buffer that is too short takes the header alone. -/
def execStreamRecordWrite (fn : Nat) (post : Option BufPost) (s : State) : Out :=
  .next ((s.recordWrite fn post).streamsDone)

/-- INTERRUPT_MODERATION_TIMEOUT (18 R457). -/
def execInterruptModerationTimeout (ring : Nat) (s : State) : Out :=
  .next (
    let r := s.ring ring
    if !r.ie || r.unsig = 0 || r.modTime = 0 then s
    else (s.at (r.unsigT + us r.modTime)).ringMessage ring)

/-- MSIX_TABLE_WRITE (18 R457): an entry of the MSI-X table; unmasking a vector sends its pending message. -/
def execMsixTableWrite (vec : Nat) (entry : MsixEntry) (s : State) : Out :=
  .next (
    if !s.host.ready then s else
    let m := 1#64 <<< vec
    let h := s.host
    let s := { s with host := { h with
      msixTab := h.msixTab.set vec entry, msixMask := if entry.masked then h.msixMask ||| m else h.msixMask &&& ~~~m } }
    if !entry.masked && h.msixPend.getLsbD vec && !h.d3hot then
      ({ s with host := { s.host with msixPend := s.host.msixPend &&& ~~~m } } : State).emit (.msix vec)
    else s)

/-- RING_ENABLE (18 R442, R447): a RING_CTRL write with en = 1. -/
def execRingEnable (ring : Nat) (ctrl : Word) (s : State) : Out :=
  .next (if !s.host.ready then s else s.ringCtrl ring ((ctrl &&& ~~~2#32) ||| 1#32))

/-- RING_DISABLE (18 R442): a RING_CTRL write with en = 0. -/
def execRingDisable (ring : Nat) (ctrl : Word) (s : State) : Out :=
  .next (if !s.host.ready then s else s.ringCtrl ring (ctrl &&& ~~~3#32))

/-- RING_RESET (18 R442): a RING_CTRL write with rst = 1. -/
def execRingReset (ring : Nat) (ctrl : Word) (s : State) : Out :=
  .next (if !s.host.ready then s else s.ringCtrl ring (ctrl ||| 2#32))

/-- RING_STATUS_CLEAR (18 R443): W1C of the error flags in [5:1]. -/
def execRingStatusClear (ring : Nat) (v : Word) (s : State) : Out :=
  .next (if !s.host.ready then s else s.onRing ring (fun r => { r with err := r.err &&& ~~~((v >>> 1).setWidth 5) }))

/-- DMA_ERROR (18 R443, R460): the ring stops. -/
def execDmaError (ring : Nat) (s : State) : Out :=
  .next (
    if !(s.ring ring).en then s
    else (s.ringErr ring 1).ringHalt ring)

/-- What configuration space holds (R435, R436). -/
def State.cfgItem (s : State) (i : CfgItem) : Nat :=
  match i with
  | .vendorId => 0x1F7E | .deviceId => 0x4096 | .revisionId => 0x01 | .classCode => 0x118000 | .subVendorId => 0x1F7E
  | .subsystemId => 0x0001 | .interruptPin => 0 | .serialNumber => s.serial

/-- PCIE_CONFIG_REQUEST (18 R436, R437, R458): retry status until the host interface is ready; then an item is read, or the MSI-X
enable bit is written, which with MSI-X on releases IRQ_N. -/
def execPcieConfigRequest (q : CfgReq) (s : State) : Out :=
  .next (
    if !s.host.ready then { s with host := { s.host with cfgRetry := true } }
    else
      let s := { s with host := { s.host with cfgRetry := false } }
      match q with
      | .read i => { s with host := { s.host with readData := BitVec.ofNat 64 (s.cfgItem i) } }
      | .msix on => ({ s with host := { s.host with msixEn := on } } : State).driveIrq)

/-- HOST_INTERFACE_READY (18 R437): PERST_N is high and the HOST domain powered, and the host interface is ready. -/
def execHostInterfaceReady (s : State) : Out :=
  .next (
    if !s.pwr.domains.getLsbD 6 then s
    else { s with host := { s.host with perstLow := false, ready := true, cfgRetry := false } })

/-- PERST_N_ASSERT (18 R460; 20 R491, R496). -/
def execPerstNAssert (s : State) : Out :=
  .next (({ s with host := { s.host with perstLow := true } } : State).hostReset.resetCause 2)

/-- LINK_RESET (18 R460; 20 R491, R496): Function Level Reset, hot reset or link down. -/
def execLinkReset (s : State) : Out := .next (s.hostReset.resetCause 3)

/-- D3HOT_ENTRY (18 R438): fetching, stream writing and interrupts stop; ring set-up is kept. -/
def execD3hotEntry (s : State) : Out := .next (if !s.host.ready then s else ({ s with host := { s.host with d3hot := true } } : State).driveIrq)

/-- D0_RETURN (18 R438): every enabled ring resumes, and messages held meanwhile are sent. -/
def execD0Return (s : State) : Out :=
  .next (
    if !s.host.ready then s else
    let s := ({ s with host := { s.host with d3hot := false } } : State).driveIrq
    (List.range 64).foldl (fun s v =>
      if s.host.msixPend.getLsbD v && !s.host.msixMask.getLsbD v then
        ({ s with host := { s.host with msixPend := s.host.msixPend &&& ~~~(1#64 <<< v) } } : State).emit (.msix v)
      else s) s)

/-- GLB_CORE_RESET for the safety cores (20 R494, R507): ignored while a hold window runs. -/
def State.softSafe (s : State) : State := if s.drv.hold then s else s.safeReset 5

/-- SOFTWARE_RESET_SVC (20 R494; 21 R518). -/
def execSoftwareResetSvc (s : State) : Out := .next (if !s.host.ready then s else s.svcReset 4)

/-- SOFTWARE_RESET_SAFE (20 R494, R507; 13 R344). -/
def execSoftwareResetSafe (s : State) : Out := .next (if !s.host.ready then s else s.softSafe)

/-- SOFTWARE_RESET_BOTH (20 R494, R507). -/
def execSoftwareResetBoth (s : State) : Out := .next (if !s.host.ready then s else (s.svcReset 4).softSafe)

/-- IRQ_STATUS_ACK (18 R458; 20 R493). -/
def execIrqStatusAck (v : Word) (s : State) : Out := .next (if !s.host.ready then s else s.evClear .irqStatus v)

/-- RING_PEND_ACK (18 R458). -/
def execRingPendAck (hi : Bool) (v : Word) (s : State) : Out :=
  .next (if !s.host.ready then s else s.evClear (if hi then .ringPendHi else .ringPendLo) v)

/-- EVENT_REGISTER_CLEAR (20 R492). -/
def execEventRegisterClear (reg : EvReg) (v : Word) (s : State) : Out :=
  .next (if !s.host.ready then s else s.evClear reg v)

/-- EVENT_COUNTER_CLEAR (20 R492). -/
def execEventCounterClear (reg : EvReg) (s : State) : Out := .next (if !s.host.ready then s else s.cntClear reg)

/-! ## Reads with an effect (20 R490, R502; 16 R396) -/

/-- A 32-bit read returns a value. -/
def State.readOut (s : State) (v : Nat) : State := { s with host := { s.host with readData := BitVec.ofNat 64 v } }

/-- Offsets of the _LO halves of 64-bit values (20 R490): GLB, RING, TIME, SPD, PAIR and the windows of CAN. -/
def isLo (o : Nat) : Bool :=
  [0x0008, 0x0028, 0x0030, 0x0038, 0x6000, 0x6008, 0x6010, 0x9100, 0xA100, 0xB00C, 0xB018, 0xB04C, 0xB058, 0xE008].contains o ||
    (0x2000 ≤ o && o < 0x3000 && (o % 64 == 0x10 || o % 64 == 0x18))

/-- A read of the high-priority window locks the buffer (16 R396). -/
def State.hpRead (s : State) (c o : Nat) : State :=
  let s := s.readOut (hpWord (s.can c) o)
  if 0x100 ≤ o && o ≤ 0x14C then
    s.onCan c (fun k => { k with hpLock := true, hpLockT := if k.hpLock then k.hpLockT else s.now })
  else s

/-- LO_HALF_READ (20 R490): the low half is read and the whole value captured for the next read of its _HI; a half
captured by a paired read is returned as captured. -/
def execLoHalfRead (off : Nat) (s : State) : Out :=
  .next (
    if !s.host.ready then s else
    let hpLo := off == 0x9100 || off == 0xA100
    let lo := match Tab.find s.host.hiCap off with | some w => w.toNat | none => s.reg off
    let hi := match Tab.find s.host.hiCap (off + 4) with
      | some w => if (Tab.find s.host.hiCap off).isSome then w.toNat else s.reg (off + 4)
      | none => s.reg (off + 4)
    let s := if off = 0x6000 then { s with time := { s.time with lastOut := max s.time.lastOut s.now } } else s
    let s := if hpLo then s.hpRead (if off = 0x9100 then 0 else 1) 0x100 else s.readOut lo
    if isLo off then
      let old : Tab Nat Word := s.host.hiCap.filter (fun x => x.1 ≠ off)
      let cap := old.set (off + 4) (BitVec.ofNat 32 hi)
      { s with host := { s.host with hiCap := cap } }
    else s)

/-- SPD_CAPTURE_READ (20 R490, R503; 15 R375): a read of SPDn_COUNT or SPDn_INDEX captures its time stamp. -/
def execSpdCaptureRead (ch : Nat) (isIndex : Bool) (s : State) : Out :=
  .next (
    if !s.host.ready then s else
    let x := s.axle ch
    let o := 0xB000 + 0x40 * ch + (if isIndex then 0x18 else 0x0C)
    let t := if isIndex then x.tIdx else x.tEdge
    let s := s.readOut (s32 (if isIndex then x.idx else x.count))
    let cap := (s.host.hiCap.set o (BitVec.ofNat 32 t)).set (o + 4) (BitVec.ofNat 32 (t / 2 ^ 32))
    { s with host := { s.host with hiCap := cap } })

/-- COLL_CNT_READ (20 R502): the collision counter is read and cleared. -/
def execCollCntRead (c : Nat) (s : State) : Out :=
  .next (if !s.host.ready then s else (s.readOut (s.can c).collCnt).onCan c (fun k => { k with collCnt := 0 }))

/-- HP_WINDOW_READ (16 R396): a read of a word at 0x0100–0x014C locks the buffer. -/
def execHpWindowRead (c : Nat) (off : Nat) (s : State) : Out := .next (if !s.host.ready then s else s.hpRead c off)

/-- HP_STAT_READ (16 R395, R396): returns the status, releases the lock and clears new and lock timed out. -/
def execHpStatRead (c : Nat) (s : State) : Out :=
  .next (
    if !s.host.ready then s else
    let s := s.readOut (hpStat (s.can c))
    (s.onCan c (fun k => { k with hpNew := false, hpTimed := false })).hpRelease c)

/-- HP_LOCK_TIMEOUT (16 R396): 1 ms after it was set the lock is released. -/
def execHpLockTimeout (c : Nat) (s : State) : Out :=
  .next (
    let k := s.can c
    if !k.hpLock then s
    else ((s.at (k.hpLockT + ms 1)).onCan c (fun k => { k with hpTimed := true })).hpRelease c)

/-! ## Register writes (20 R489–R506) -/

/-- The event register at an offset of BAR0. -/
def evAt (off : Nat) : Option EvReg :=
  match off with
  | 0x0020 => some .resetCause | 0x0040 => some .irqStatus | 0x0058 => some .ringPendLo | 0x0060 => some .ringPendHi
  | 0x1010 => some .pwr | 0x5020 => some .repair | 0x6020 => some .time | 0x7014 => some .therm | 0x9008 => some .canA
  | 0xA008 => some .canB | 0xB028 => some .spd0 | 0xB068 => some .spd1 | 0xC010 => some .drv | 0xD018 => some .safein
  | 0xE01C => some .pair | _ => none

/-- The interrupt set-up register at an offset of BAR0, and whether it maps two sources. -/
def irqAt (off : Nat) : Option (IrqBlk × Bool) :=
  match off with
  | 0x0048 => some (.glb0, true) | 0x004C => some (.glb1, false) | 0x1028 => some (.pwr, false)
  | 0x5028 => some (.repair, false) | 0x6028 => some (.time, false) | 0x701C => some (.therm, false)
  | 0x9020 => some (.canA, true) | 0xA020 => some (.canB, true) | 0xB080 => some (.spd, true)
  | 0xC078 => some (.drv, false) | 0xD024 => some (.safein, false) | 0xE028 => some (.pair, false) | _ => none

/-- A write to a ring's set-up block (18 R441–R444); set-up registers take no write while the ring is enabled. -/
def State.ringWrite (s : State) (n o : Nat) (v : Word) : State :=
  let w := v.toNat
  let setUp (g : Ring → Ring) : State := if (s.ring n).en then s else s.onRing n g
  match o with
  | 0x00 => s.ringCtrl n v
  | 0x04 => s.onRing n (fun r => { r with err := r.err &&& ~~~((v >>> 1).setWidth 5) })
  | 0x08 => s.onRing n (fun r => { r with errCnt := 0 })
  | 0x0C => setUp (fun r => { r with groups := v.setWidth 9 })
  | 0x10 => setUp (fun r => { r with base := r.base / 2 ^ 32 * 2 ^ 32 + w / 4096 * 4096 })
  | 0x14 => setUp (fun r => { r with base := r.base % 2 ^ 32 + w * 2 ^ 32 })
  | 0x18 => setUp (fun r => { r with shadow := r.shadow / 2 ^ 32 * 2 ^ 32 + w / 8 * 8 })
  | 0x1C => setUp (fun r => { r with shadow := r.shadow % 2 ^ 32 + w * 2 ^ 32 })
  | 0x20 => setUp (fun r => { r with modCount := w % 256, modTime := w / 65536 })
  | _ => s

/-- REGISTER_WRITE (20 R489, R490): a 32-bit write of BAR0; a reserved, read-only or fused register takes none. -/
def execRegisterWrite (off : Nat) (v : Word) (s : State) : Out :=
  .next (
    if off % 4 ≠ 0 || !s.host.ready then s
    else match evAt off, (if off < 4 then none else evAt (off - 4)), irqAt off with
    | some r, _, _ => s.evClear r v
    | none, some r, _ => s.cntClear r
    | none, none, some (b, two) =>
      (s.onIrqc b (fun _ => v &&& (if two then 0x013F013F#32 else 0x0000013F#32))).driveIrq
    | none, none, none =>
      if off = 0x0050 then
        (if v = 0xC0DE0001#32 then s.svcReset 4
         else if v = 0xC0DE0002#32 then s.softSafe
         else if v = 0xC0DE0003#32 then (s.svcReset 4).softSafe
         else s)
      else if off = 0x100C then { s with pwr := { s.pwr with wakeTimer := v } }
      else if 0x2000 ≤ off && off < 0x3000 then s.ringWrite ((off - 0x2000) / 64) (off % 64) v
      else if 0x8000 ≤ off && off < 0x8200 && off % 8 = 0 then s.doorbell ((off - 0x8000) / 8) v
      else if off = 0xB030 then s.onAxle 0 (fun x => { x with irqEn := v.setWidth 8 })
      else if off = 0xB070 then s.onAxle 1 (fun x => { x with irqEn := v.setWidth 8 })
      else s)

end Sys2Proof.Machine
end

