-- ==== Sys2Proof/Machine/HostAdmin.lean ====
section
/-! DEFINITION. The host commands of the admin, chain and estimation groups (19 R470–R474). -/

namespace Sys2Proof.Machine

open Sys2Proof

/-! ## Admin (R470) -/

/-- IDENTIFY: the 64-byte module entry. -/
def execIdentify (d : Desc) (s : State) : Out :=
  .next (s.command 0x01 d (d.imm == 0#32 && d.paramLen == 0) [] false false (fun s r => s.okay r 0 s.moduleEntry))

/-- ECHO: the value returns imm. -/
def execEcho (d : Desc) (s : State) : Out :=
  .next (s.command 0x02 d (d.paramLen == 0) [] false false (fun s r => s.okay r d.imm.toNat []))

/-- The 32-byte result of TIME_GET. -/
def State.timeBytes (s : State) : List Byte :=
  le 8 s.now ++ le 8 s.netTime ++ leI 8 s.netHeld ++
    le 4 (bitsOf [s.time.netValid, s.conf.net.role == 1 && s.actsPrimary, s.conf.net.role == 2]) ++ zeros 4

/-- TIME_GET. -/
def execTimeGet (d : Desc) (s : State) : Out :=
  .next (s.command 0x03 d (d.imm == 0#32 && d.paramLen == 0) [] false false (fun s r => s.okay r 0 s.timeBytes))

/-- Completions that are due on the completion ring of a submission ring are written, as far as its entries go (21 R511,
R515). -/
def State.completeAll (s : State) (sq : Nat) : State :=
  let cq := (s.ring sq).cq
  (List.range s.host.finished.length).foldl (fun s _ => s.complete cq) s

/-- A class A, B or C latch whose scope still has a contactor that is not OPEN. -/
def State.openingPending (s : State) : Bool :=
  (List.range 17).any (fun q => s.scopeClass q ≤ 2 && (s.ctrsOf q).any (fun i => (s.ctr i).st != .isOpen))

/-- Moss entry is refused (21 R511). -/
def State.mossRefused (s : State) : Bool :=
  s.seq.active || s.openingPending || s.drv.limp || s.cfg.maint || !s.pair.nvw.isEmpty || s.pair.resync != 0

/-- POWER_STATE with 1 (21 R510, R511): the completion is written, the partner told, and the module enters Moss. -/
def execPowerStateMoss (d : Desc) (s : State) : Out :=
  .next (s.command 0x04 d (d.imm == 1#32 && d.paramLen == 0) [.P, .S, .C] false false (fun s r =>
    if s.mossRefused then s.fail r 4
    else
      let s := (s.okay r 0 []).completeAll d.sq
      let s := if s.partnerUp then s.sendEvt (.powerState 1) else s
      s.mossEnter))

/-- POWER_STATE with 2 (21 R510, R515): the same for Peat. -/
def execPowerStatePeat (d : Desc) (s : State) : Out :=
  .next (s.command 0x04 d (d.imm == 2#32 && d.paramLen == 0) [.P, .S, .O, .C] false false (fun s r =>
    let s := (s.okay r 0 []).completeAll d.sq
    let s := if s.partnerUp then s.sendEvt (.powerState 2) else s
    s.peatEnter))

/-! ## Chain and sampling (R471, R472) -/

/-- PORT_STATUS: the 32-byte port entry. -/
def execPortStatus (d : Desc) (s : State) : Out :=
  .next (s.command 0x10 d (immOnly d.imm 0xF#32 && d.paramLen == 0) [] false false (fun s r =>
    s.okay r 0 (s.portEntry (immF d.imm 3 0))))

/-- The mirrored records made since the queue was `was` report to a command. -/
def State.nvwRef (s : State) (was : List NvwReq) (r : CmdRef) : State :=
  let nvw := s.pair.nvw.map (fun x => if was.contains x then x else { x with ref := some r })
  { s with pair := { s.pair with nvw := nvw } }

/-- A step of a command, made with the queue `was` of mirrored records, completes with their results (17 R429): it waits for
those it made, and without a partner reports its standby as diverged where `wrote`. -/
def State.mirrored (s : State) (was : List NvwReq) (r : CmdRef) (wrote : Bool) : State :=
  if s.pair.nvw.any (fun x => !was.contains x) then (s.nvwRef was r).keep { ref := r, todo := [0] }
  else if wrote && s.isPair && !s.partnerUp then s.finish r 1 0 (s.pairMembers 0 9 0 0) true
  else s.okay r 0 []

/-- ROSTER_ACCEPT (03 R81, R82): the roster of a HELD port is accepted, and the port goes through CHECK. -/
def execRosterAccept (d : Desc) (s : State) : Out :=
  .next (s.command 0x11 d (immOnly d.imm 0xF#32 && d.paramLen == 0) [.P, .S, .M, .O] true false (fun s r =>
    let p := immF d.imm 3 0
    if (s.port p).st != .held then s.fail r 4
    else
      let t := s.chainCheck p true
      t.mirrored s.pair.nvw r ((t.port p).st != .held)))

/-- A mirrored command (17 R428, R429): each record is written on this module and sent to the partner; with a partner the
command completes once every result is in, without one a module of a pair reports its standby as diverged. -/
def State.mirrorCmd (s : State) (r : CmdRef) (l : List NvReq) (value : Nat) : State :=
  let s := l.foldl (fun s q => s.mirrorDue q (some r)) s
  if l.isEmpty || !s.isPair then s.okay r value []
  else if s.partnerUp then s.keep { ref := r, todo := [value] }
  else s.finish r 1 value (s.pairMembers 0 9 0 0) true

/-- The confirmed open taps of a port as a record. -/
def tapReq (p : Nat) (lower : List Nat) : NvReq :=
  { kind := 9, key := p, body := (lower.map (le 2)).flatten }

/-- OPEN_TAP_CLEAR (05 R164): the pair returns to its individual thresholds, and the port goes through CONFIGURE. -/
def execOpenTapClear (d : Desc) (s : State) : Out :=
  let p := immF d.imm 3 0
  let pos := immF d.imm 24 16
  let g := gi p pos
  .next (s.command 0x12 d (immOnly d.imm 0x01FF000F#32 && d.paramLen == 0 && s.mram.taps.contains g) [.P, .S, .M] true false
    (fun s r =>
      if !((s.cell g).intact && (s.cell (g + 1)).intact) then s.fail r 4
      else
        let s := s.onCell g (fun c => { c with openTap := false, maskBad := false })
        let rest := (s.mram.taps.filter (fun x => x / 512 == p)).filter (fun x => x ≠ g)
        let was := s.pair.nvw
        let t := (s.mirrorDue (tapReq p rest) none).f05Settle p
        (if (t.port p).st == .ready then t.configStart p else t).mirrored was r true))

/-- The parameters of BALANCE (R472): n entries, each naming an occupied position of the port once. -/
def State.balanceOk (s : State) (d : Desc) (p : Nat) (ents : List (Nat × Nat)) : Bool :=
  let ps := ents.map (·.1)
  immOnly d.imm 0xF#32 && 1 ≤ ents.length && ents.length ≤ 512 && d.paramLen == 4 + 4 * ents.length && s.declared p &&
    ps.all (occupied (s.portCfg p)) && decide ps.Nodup && ents.all (fun e => e.2 < 65536)

/-- A node's channels as BALANCE names them: refused as busy where one is excited in a Sedge session, otherwise driven. -/
def State.balanceNode (s : State) (r : CmdRef) (p a : Nat) (ents : List (Nat × Nat)) : State :=
  let l := ents.filter (fun e => nodeOf (s.portCfg p) e.1 == a)
  let excited := (s.port p).sedge && l.any (fun e => (s.port p).sedgeSel.contains (a, e.1 % 16))
  if excited then s.memberIn r 4 a 4
  else
    let s := l.foldl (fun s e => s.onCell (gi p e.1) (fun c => { c with bal := if e.2 = 0 then 0 else s.now + sec e.2 })) s
    s.balDrive p a (some r)

/-- BALANCE (R472; 04 R123, R132): each node that holds a named position is sent its channels. -/
def execBalance (d : Desc) (ents : List (Nat × Nat)) (s : State) : Out :=
  let p := immF d.imm 3 0
  .next (s.command 0x13 d (s.balanceOk d p ents) [.P, .S, .C] false false (fun s r =>
    let nodes := (ents.map (fun e => nodeOf (s.portCfg p) e.1)).dedup
    let s := s.keep { ref := r, todo := nodes }
    nodes.foldl (fun s a => s.balanceNode r p a ents) s))

/-- A node that answers: ADDRESSED or READY (R471). -/
def State.nodeUp (s : State) (p a : Nat) : Bool :=
  let n := s.node (nk p a)
  s.declared p && (n.st == .addressed || n.st == .ready)

/-- PASSPORT_READ: the passport as PASS_RD returns it. -/
def execPassportRead (d : Desc) (s : State) : Out :=
  let p := immF d.imm 3 0
  let a := immF d.imm 13 8
  .next (s.command 0x14 d (immOnly d.imm 0x3F0F#32 && d.paramLen == 0) [] false false (fun s r =>
    if !s.nodeUp p a then s.fail r 4 else (s.keep { ref := r, todo := [a] }).sendTo p a 0x0B [] (some r)))

/-- NODE_STATUS (R482): the STATUS response data of R123. -/
def execNodeStatus (d : Desc) (s : State) : Out :=
  let p := immF d.imm 3 0
  let a := immF d.imm 13 8
  .next (s.command 0x82 d (immOnly d.imm 0x3F0F#32 && d.paramLen == 0) [] false false (fun s r =>
    if !s.nodeUp p a then s.fail r 4 else (s.keep { ref := r, todo := [a] }).sendTo p a 0x10 [] (some r)))

/-- PORT_RESTART (03 R76): each named port whose contactors are all OPEN returns to WAKE. -/
def execPortRestart (d : Desc) (s : State) : Out :=
  .next (s.command 0x15 d (immOnly d.imm 0xFFFF#32 && d.paramLen == 0) [.P, .S, .C] false false (fun s r =>
    let l := (List.range 16).filter (fun p => d.imm.getLsbD p)
    let ok (p : Nat) : Bool := s.declared p && (s.ctrsOf p).all (fun i => (s.ctr i).st == .isOpen)
    if l.isEmpty then s.okay r 0 []
    else
      let s := s.keep { ref := r, todo := l }
      let s := (l.filter ok).foldl (fun s p =>
        ((s.portSt p .wake).wakePort p true false).onPort p (fun q => { q with restartCmd := some r })) s
      (l.filter (fun p => !ok p)).foldl (fun s p => s.memberIn r 3 p 4) s))

/-- OPEN_WIRE_NOW (05 R154, R161): one open-wire group is requested. -/
def execOpenWireNow (d : Desc) (s : State) : Out :=
  let p := immF d.imm 3 0
  .next (s.command 0x16 d (immOnly d.imm 0xF#32 && d.paramLen == 0) [.P, .S, .C] false false (fun s r =>
    if (s.port p).st != .ready then s.fail r 4
    else
      ((s.keep { ref := r }).onPort p (fun q => { q with owDue := true, owCmd := some r })).owTry p))

/-! ## Estimation (R473, R474) -/

/-- EMERGENCY_SUPPLY (08 R232; 14 R366): the host's command, with its lapse; the value tells whether the command is in
force from either source. -/
def execEmergencySupply (d : Desc) (s : State) : Out :=
  let k := immF d.imm 7 0
  let lapse := immF d.imm 31 16
  .next (s.command 0x20 d (immOnly d.imm 0xFFFF00FF#32 && d.paramLen == 0 && (k == 0x5A || k == 0xA5) && lapse ≤ 1440)
    [.P, .S] false false (fun s r =>
      let on := k == 0x5A
      let s := { s with pack := { s.pack with
        emgHost := on, emgLapse := if on && lapse ≠ 0 then some (s.now + mins lapse) else none } }
      s.okay r s.emergency.toNat []))

/-- VEHICLE_MASS (09 R257): the value returns the mass in force. -/
def execVehicleMass (d : Desc) (s : State) : Out :=
  let m := d.imm.toNat
  .next (s.command 0x21 d (d.paramLen == 0 && s.massIn m) [.P, .S] false false (fun s r =>
    let s := { s with pack := { s.pack with mass := some m, massT := s.now } }
    s.okay r s.massNow []))

/-- CELL_READ (08 R242): cell entries from live state within one port. -/
def execCellRead (d : Desc) (s : State) : Out :=
  let g := immF d.imm 12 0
  let n := immF d.imm 25 16
  .next (s.command 0x22 d (immOnly d.imm 0x03FF1FFF#32 && d.paramLen == 0 && 1 ≤ n && n ≤ 512 && g % 512 + n ≤ 512) [] false
    false (fun s r =>
      s.okay r 0 ((List.range n).map (fun i => s.cellEntry ((g + i) / 512) ((g + i) % 512) s.now)).flatten))

/-- The cells that CAPACITY_SET names. -/
def State.capCells (s : State) (p pos : Nat) : List Nat := if pos = 0xFFFF then s.cellsOfStr p else [gi p pos]

/-- CAPACITY_SET (08 R226, R235): capacity and its σ of the named cells, written as mirrored ageing records. -/
def execCapacitySet (d : Desc) (pos : Nat) (cap : Nat) (sigma : Nat) (s : State) : Out :=
  let p := immF d.imm 3 0
  .next (s.command 0x23 d
    (immOnly d.imm 0xF#32 && d.paramLen == 12 && s.declared p && (pos == 0xFFFF || occupied (s.portCfg p) pos))
    [.P, .S, .M] true false (fun s r =>
      let l := s.capCells p pos
      let s := l.foldl (fun s g => s.onEst g (fun e => { e with
        cap := cap, capSigma := sigma, learned := true, fromName := false })) s
      let s := s.ageFaults p
      s.mirrorCmd r (l.map (fun g => { kind := 2, key := g, body := s.ageBody g })) 0))

end Sys2Proof.Machine
end

