-- ==== Sys2Proof/Machine/Output.lean ====
section
/-! DEFINITION. The commands of the output family: trips and restarts of OUT channels, LSW faults, the watchdogs, the
hold window and limp-home (13 R336–R348; 21 R518–R521; 23 R557). -/

namespace Sys2Proof.Machine

open Sys2Proof

/-- Code of a trip cause (19 R486). -/
def tripCode : TripCause → Nat
  | .short => 1 | .overload => 2 | .overTemp => 3

/-- The coil of a tripped channel is off without command (13 R340; 12 R331): its contactors open and the primary has the partner's
channel follow; a standby's trip leaves the coil to the primary's channel. -/
def State.coilTrip (s : State) (ch : Nat) : State :=
  if s.partnerUp && s.pair.role != .primary then s
  else
    let s := s.coilLost ch
    if (s.outc ch).cmd then s.coil ch false else s

/-- CHANNEL_TRIP (R336, R338–R340): a channel that is on is off, its retry counter counts down, and a restart is awaited where R339
allows one, in limp-home the next edge of its DIN (R346); a trip of a coil channel raises F37, fails a member that closes
over it, and its contactors open, or stay UNKNOWN in limp-home. -/
def execChannelTrip (ch : Nat) (cause : TripCause) (cur : Int) (s : State) : Out :=
  .next (
    if !(s.outc ch).on then s else
    let latch := s.latchMode ch
    let coil := s.isCoil ch
    let limp := s.drv.limp && s.limpSel ch
    let s := s.onOutc ch (fun o =>
      let r := o.retries - 1
      { o with
        on := false, tripped := true, retries := r, cause := tripCode cause, tripT := s.now, cur := cur, cleared := false
        temp := if cause == .overTemp then max o.temp 17500 else o.temp
        thermLatch := o.thermLatch || (latch && cause == .overTemp)
        restart := limp || (o.cmd && !coil && 0 < r && !(latch && cause == .overTemp)) })
    let r := (s.outc ch).retries
    let s := (s.event .drv 0).eventRec 2 1 ch 255 (tripCode cause) cur r
    let s := if !coil && r = 0 then (s.event .drv 2).eventRec 2 3 ch 255 (tripCode cause) 0 0 else s
    if !coil then s
    else
      let inSeq := s.seq.active && (s.memberCtrs s.seqMember).any (s.ctrsOn ch).contains
      let s := if inSeq && s.drv.coresUp then s.seqAbort 8 else s
      (if limp then s.limpChannel ch else s.coilTrip ch).f37Settle ch)

/-- The trip of a channel that was cleared while hot, and does not restart, is over once the channel is cool (13 R339, R348). -/
def State.tripOver (s : State) (ch : Nat) : State :=
  let s := s.onOutc ch (fun o => { o with tripped := false, cleared := false, restart := false })
  if s.isCoil ch then s.f37Settle ch else s

/-- AUTOMATIC_RESTART (R339): every condition holds and the channel restarts, unless an off command or a release has cancelled it
(R348). A coil channel never does (R340), nor a
channel in the hold window (R343) or in limp-home (R346). -/
def execAutomaticRestart (ch : Nat) (temp : Int) (s : State) : Out :=
  .next (
    let o := s.outc ch
    let cool := o.tripped && temp < 15000 && !s.drv.hold && !(s.drv.limp && s.limpSel ch)
    let ok := cool && o.cmd && o.restart && !s.isCoil ch && s.outUp && s.fed ch &&
      (o.cleared || (0 < o.retries && !(s.latchMode ch && o.cause == 3)))
    let s := s.onOutc ch (fun o => { o with temp := temp })
    if !ok then (if cool && o.cleared then s.tripOver ch else s)
    else
      let s := s.at (o.tripT + ms 100)
      let s := s.onOutc ch (fun o => { o with
        on := true, tripped := false, thermLatch := false, restart := false, cleared := false, onT := s.now, changeT := s.now })
      (s.event .drv 1).eventRec 2 2 ch 255 o.retries temp 0)

/-- RETRY_RESTORE (R339): 60 s on without a trip restore the retry counter. -/
def execRetryRestore (ch : Nat) (s : State) : Out :=
  .next (
    let o := s.outc ch
    if o.on && !o.tripped then
      (s.at (o.onT + sec 60)).onOutc ch (fun o => { o with retries := s.retriesOf ch })
    else s)

/-- OPEN_LOAD (R337, R340): judged while the channel is on and not declared unused; found below 20 mA, and otherwise
cleared; on a coil channel it raises F37, in a pair on the sum of both modules' currents, the partner's as last mirrored. -/
def execOpenLoad (ch : Nat) (cur : Int) (s : State) : Out :=
  .next (
    let o := s.outc ch
    let used := s.isCoil ch || (s.outCfg ch).use != .unused
    if !o.on || !used then s
    else
      let all : Int := if s.isCoil ch && s.partnerUp then cur + s.pair.partCoilI.getD ch 0 else cur
      let found := decide (all.natAbs < 20)
      let s := s.at (o.onT + ms 100)
      let s := s.onOutc ch (fun o => { o with openLoad := found, cur := cur })
      if found == o.openLoad then s
      else
        let s := if found then s.event .drv 3 else s
        let s := s.eventRec 2 5 ch 255 found.toNat cur 0
        if s.isCoil ch then s.f37Settle ch else s)

/-- A condition of R342 holds on what the sensors of an LSW show, its latch open or closed: above 100 mA, below 10 V after a release, or
above 2 V while closed; a release discrepancy needs neither. The times of the conditions have passed as the command comes. -/
def lswFails (closed : Bool) (x : LswRead) : Bool :=
  match x.kind with
  | .failsToOpen => !closed && decide (100 < x.cur.natAbs ∧ x.vds < 1000)
  | .highResistance => closed && decide (100 < x.cur.natAbs ∧ 200 < x.vds)
  | .discrepancy => true

/-- LSW_FAULT (R342): the sensors of an LSW are read (R333), and F38 is raised where the condition holds; one declared unused raises none
(02 R67). -/
def execLswFault (j : Nat) (read : LswRead) (s : State) : Out :=
  .next (
    let s := s.onLsw j (fun l => { l with cur := read.cur, vds := read.vds, temp := read.temp })
    if !s.gen.lswUsed.getD j false || !lswFails (s.lsw j).closed read then s
    else (s.onLsw j (fun l => { l with f38 := true, f38Closed := l.closed })).stand 38 16
      { value := ((16 * read.kind.ctorIdx + j : Nat) : Int) })

/-- SAFETY_WATCHDOG (21 R518): SAFE is reset with cause [7]. -/
def execSafetyWatchdog (s : State) : Out := .next (s.watchReset 7)

/-- SERVICE_WATCHDOG (21 R518): SVC is reset with cause [6]. -/
def execServiceWatchdog (s : State) : Out := .next (s.svcReset 6)

/-- LOCKSTEP_MISMATCH (23 R557): both cores stop, SAFE is reset with cause [8], and REPAIR_ENGINE [24] records it. -/
def execLockstepMismatch (s : State) : Out :=
  .next ((({ s with repair := { s.repair with lockstep := true } } : State).event .repair 6).watchReset 8)

/-- A sequence that a reset of the safety cores left unfinished is closed out (12 R330; 17 R421): the member in progress
is opened under R324, the PRE first, with the result INTERRUPTED. -/
def State.closeOut (s : State) : State :=
  if !s.seq.active || s.seq.reverting then s
  else
    let s := match s.seqMember with
      | .string p => s.beginOpen p false
      | .oth c => s.ctrOff c [c] false
    s.memberEnd 0x10

/-- Current of an opening's entry above the break rating that it watches. -/
def State.aboveRating (s : State) (key : Nat) : Bool :=
  if key < 16 then (match s.ctrCur key with | some i => decide (s.breakFirst key < (i.natAbs : Int)) | none => false)
  else match s.pack.i, s.ctrCfg (key - 17) with | some i, some c => decide (c.breakI < i.natAbs) | _, _ => false

/-- Openings whose deadline passed while the safety cores were down are commanded at once (12 R330). -/
def State.openDueNow (s : State) : State :=
  ((s.discKeys 16).filter (fun q => (s.disc q).kind == .classB && decide ((s.disc q).deadline ≤ s.now))).foldl
    (fun s q => if (s.disc q).kind == .classB then s.openScope q (s.aboveRating q) else s) s

/-- The safety cores supervise again: the hold window ends, F63 ceases, limp-home ends while LIMP_N is high, an interrupted
sequence is closed out, by the partner in a pair, and the latches are settled (13 R344, R347; 17 R431; 21 R520). -/
def State.coresResume (s : State) : State :=
  let was := s.drv.hold
  let down := !s.drv.coresUp
  let left := s.holdLeft
  let cut := s.drv.interrupted
  let s := { s with drv := { s.drv with
    coresUp := true, hold := false, dead := false, switchOff := false, interrupted := false, partHeld := false } }
  let s := if was then (s.event .drv 8).eventRec 2 8 0 255 2 left 0 else s
  let s := s.cease 63 16
  let s := if s.drv.limpN then s.limpExit else s
  let s := if s.partnerUp && down then s.rejoin else if cut then s.closeOut else s
  let s := if s.wade.on && s.wade.expired then s.wadeOpens else s
  s.settle.openDueNow.seqKick

/-- The safety cores have data from every READY port (21 R520): its newest sweep was taken since they stopped. A pair module
without its partner sweeps only once they run again (17 R422). -/
def State.dataSince (s : State) : Bool :=
  (s.isPair && !s.partnerUp) || s.portList.all (fun p => (s.port p).st != .ready || !(s.port p).engine ||
    ((s.mram.staging.getD p []).head?.map (fun x => decide (s.drv.downT ≤ x.t))).getD false)

/-- The safety cores may resume supervision (21 R520, R521): they are not held in reset, the configuration is loaded, and the
data are current. -/
def State.coresMay (s : State) : Bool :=
  !s.drv.coresHeld && s.mounted && !s.pwr.rstLow && !s.pwr.restartDue && s.pwr.st != .peat && s.pwr.intr != .over && s.dataSince

/-- SUPERVISION_RESUMED (21 R520; R344, R347): the safety cores supervise again, take over the outputs as they find them,
and settle the latches. F63 ceases, and limp-home ends while LIMP_N is high. In a pair they send a heartbeat. -/
def execSupervisionResumed (s : State) : Out :=
  .next (
    if !s.coresMay then s
    else
      let s := s.coresResume
      if s.isPair && s.pair.trained && s.pwr.st == .run then s.hbSend else s)

/-- HOLD_WINDOW_EXPIRY (R344): both safety cores are declared dead, F63 latches, and the switch-off is awaited. -/
def execHoldWindowExpiry (s : State) : Out :=
  .next (
    if !s.drv.hold then s
    else
      let s := s.at s.drv.holdEnd
      let s := { s with drv := { s.drv with
        hold := false, dead := true, switchOff := true, switchOffT := s.now + ms s.fuse.set.wait } }
      ((s.event .drv 9).eventRec 2 8 0 255 3 0 0).stand 63 16 {})

/-- HOLD_SWITCH_OFF (R344 step 3, R345, R348): every coil channel is switched off, apart from those limp-home has taken;
limp-home begins. In a pair no contactor drops (02 R61). -/
def execHoldSwitchOff (s : State) : Out :=
  .next (
    if !s.drv.switchOff then s
    else
      let s := s.at s.drv.switchOffT
      let s := { s with drv := { s.drv with switchOff := false } }
      let l := (List.range 12).filter (fun ch => s.isCoil ch && !(s.drv.limp && s.limpSel ch))
      let s := l.foldl (fun s ch => (s.channel ch false).coilCut ch) s
      s.limpEnter 2)

/-- LIMP_N_LOW (R345): LIMP_N low for 10 ms. A drive stage without supply takes only the level (02 R45). -/
def execLimpNLow (s : State) : Out :=
  .next (
    let s : State := { s with drv := { s.drv with limpN := false } }
    if s.drvUp then (s.limpEnter 1).seqKick else s)

/-- LIMP_N_HIGH (R347): LIMP_N high for 100 ms ends limp-home while the safety cores are alive; otherwise it ends when they
resume. -/
def execLimpNHigh (s : State) : Out :=
  .next (
    let s := { s with drv := { s.drv with limpN := true } }
    if s.drv.coresUp then s.limpExit else s)

/-- DIN_EDGE (R346): in limp-home each selected channel follows its DIN; a tripped one restarts on the rising edge once
it is below 150 °C, unless a release of its LSW has cancelled that (R348). -/
def execDinEdge (n : Nat) (high : Bool) (s : State) : Out :=
  .next (
    let m := 1#4 <<< n
    let s := { s with drv := { s.drv with din := if high then s.drv.din ||| m else s.drv.din &&& ~~~m } }
    if !s.drv.limp then s
    else
      (s.limpChannels.filter (fun ch => s.fuse.set.din.getD ch 0 == n)).foldl (fun s ch =>
        let s := if high then s.onOutc ch (fun o =>
            if o.tripped && o.restart && o.temp < 15000 then
              { o with tripped := false, thermLatch := false, restart := false }
            else o) else s
        s.limpChannel ch) s)

end Sys2Proof.Machine
end

