-- ==== Sys2Proof/Machine/HostDrive.lean ====
section
/-! DEFINITION. The host commands of the contactors and drive group, and the clearing of faults (19 R475, R476, R478). -/

namespace Sys2Proof.Machine

open Sys2Proof

/-! ## Groups (12 R313–R315, R323, R330) -/

/-- Starts the close sequence of a group (12 R313). -/
def State.seqBegin (s : State) (r : CmdRef) (g : Nat) : State :=
  (({ s with seq := { active := true, group := g, cmd := r, t := s.now, t0 := s.now } } : State).keep { ref := r }).seqKick

/-- A group close command is refused in the present state (12 R313; 17 R416, R423; 21 R524). -/
def State.closeRefused (s : State) : Bool :=
  s.stands 60 16 || s.drv.limp || s.pair.fuseDiff || s.muted ||
    (!(s.pwr.ready || s.readyNow) && decide (s.pwr.startT + ms 1200 ≤ s.now))

/-- Every member of a group is closed, and none waits to be opened. -/
def State.groupClosed (s : State) (l : List Member) : Bool := l.all (fun m => s.memberClosed m && !s.memberOpening m)

/-- Contactors of a group. -/
def State.groupCtrs (s : State) (g : Nat) : List Nat := (s.groupCfg g).members.flatMap s.memberCtrs

/-- A GROUP_OPEN or DISCONNECT of the same ring still acts on one of the contactors (R488; 12 R330); `ops` are the
opcodes asked about. -/
def State.contends (s : State) (d : Desc) (ops l : List Nat) : Bool :=
  s.host.running.any (fun c => ops.contains c.ref.opcode && c.ref.d.sq == d.sq && c.todo.any l.contains)

/-- GROUP_CLOSE (12 R313–R316, R322; 14 R371; 19 R488): it ends the maintenance session at fetch, and then starts the
sequence; a group whose members are all closed is done. -/
def execGroupClose (d : Desc) (s : State) : Out :=
  .next ((s.maintEnd 3).command 0x30 d (immOnly d.imm 0xF#32 && d.paramLen == 0) [.P, .S, .C] true
    (s.seq.active || s.contends d [0x31, 0x32] (s.groupCtrs (immF d.imm 3 0))) (fun s r =>
    let l := (s.groupCfg (immF d.imm 3 0)).members
    if s.closeRefused then s.fail r 4
    else if l.isEmpty then s.fail r 7
    else if s.groupClosed l then s.okay r 0 []
    else s.seqBegin r (immF d.imm 3 0)))

/-- Members the sequence has not yet attempted that an open command covers. -/
def State.coveredLater (s : State) (keys : List Nat) : List Nat :=
  ((s.groupCfg s.seq.group).members.zipIdx.filter (fun x => decide (s.seq.idx < x.2) && (s.memberKeys x.1).any keys.contains)).map (·.2)

/-- An open command meets the close sequence (12 R314, R330): the member in progress is aborted when the command covers
it, and covered members not yet attempted are skipped. -/
def State.abortFor (s : State) (keys : List Nat) : State :=
  if s.seq.active && !s.seq.reverting && (s.memberKeys s.seqMember).any keys.contains then
    ({ s with seq := { s.seq with skip := s.seq.skip ++ s.coveredLater keys } } : State).seqStop 0x0D
  else s

/-- Indices of the members that are already open; a KN that other strings hold on keeps no string closed (12 R324). -/
def State.openMembers (s : State) (l : List Member) : List Nat :=
  (l.zipIdx.filter (fun x => (s.memberCtrs x.1).all (fun i => (s.ctr i).st == .isOpen || s.heldOn i))).map (·.2)

/-- GROUP_OPEN (12 R323, R324): a commanded open of every member that is not open; it completes once their contactors
are OPEN, WELDED or UNKNOWN. -/
def execGroupOpen (d : Desc) (s : State) : Out :=
  .next (s.command 0x31 d (immOnly d.imm 0xF#32 && d.paramLen == 0) [.P, .C] false
    (s.contends d [0x32] (s.groupCtrs (immF d.imm 3 0))) (fun s r =>
    let l := (s.groupCfg (immF d.imm 3 0)).members
    if l.isEmpty then s.fail r 7
    else
      let done := s.openMembers l
      let todo := (l.zipIdx.filter (fun x => !done.contains x.2)).map (·.1)
      let s := s.keep { ref := r, todo := todo.flatMap s.memberCtrs, members := done.map (fun i => (i, 0x11)) }
      let s := s.abortFor (todo.flatMap s.memberKeys)
      ((s.commandOpen todo (some r)).settleCmds).seqKick))

/-- DISCONNECT (11 R291): the scope opens under the steps of class B; it completes once every contactor of the scope is
OPEN, WELDED or UNKNOWN. -/
def execDisconnect (d : Desc) (s : State) : Out :=
  let n := immF d.imm 7 0
  .next (s.command 0x32 d (immOnly d.imm 0xFF#32 && d.paramLen == 0 && (n < 16 || n == 0xFF)) [.P, .C] false
    (s.contends d [0x31] (s.ctrsOf (if n < 16 then n else 16))) (fun s r =>
    let scope := if n < 16 then n else 16
    let s := s.keep { ref := r, todo := s.ctrsOf scope }
    let s := s.abortFor (s.discKeys scope)
    ((s.startB scope s.waitW (some r)).settleCmds).seqKick))

/-! ## Output channels (13 R339, R340; 10 R279) -/

/-- A channel that software may switch: configured as thermal or other, and not a coil's (R476). -/
def State.switchable (s : State) (ch : Nat) : Bool :=
  decide (ch < 12) && !s.isCoil ch && ((s.outCfg ch).use == .thermal || (s.outCfg ch).use == .other)

/-- A request of host software for a channel (R476; 10 R279): a thermal channel changes once its minimum on or off time has passed, and its
table goes on (assumption log 40); another at once. -/
def State.hostSwitch (s : State) (ch : Nat) (on : Bool) : State :=
  let waits := (s.outCfg ch).use == .thermal && (s.outc ch).cmd != on && !s.minHeld ch
  let same := (s.outCfg ch).use == .thermal && (s.outc ch).cmd == on
  let s := s.onOutc ch (fun o => { o with hostReq := on, reqDue := if waits then some on else none })
  if waits || same then s else s.channel ch on

/-- OUTPUT_SET (R476; 10 R279): the value is the channel's state at completion. -/
def execOutputSet (d : Desc) (s : State) : Out :=
  let ch := immF d.imm 3 0
  let on := d.imm.getLsbD 8
  .next (s.command 0x33 d (immOnly d.imm 0x10F#32 && d.paramLen == 0 && s.switchable ch) [.P, .S, .C] false false (fun s r =>
    if (s.drv.limp && s.limpSel ch) || (on && s.forcedOff ch) then s.fail r 4
    else
      let s := s.hostSwitch ch on
      s.okay r (s.outc ch).on.toNat []))

/-- Clears one channel (13 R339, R340): its retries are restored and one restart is permitted once it is cool; a coil
channel's trip ends, and it switches on again only on a new close command; so does that of a cool channel without command. -/
def State.outClear (s : State) (ch : Nat) : State :=
  let n := s.retriesOf ch
  let hot := (s.outc ch).tripped && decide (15000 ≤ (s.outc ch).temp)
  let coil := s.isCoil ch
  let s := s.onOutc ch (fun o =>
    let stays := o.tripped && (hot || (o.cmd && !coil))
    { o with retries := n, thermLatch := false, tripped := stays, cleared := stays, restart := stays && o.cmd && !coil })
  let s := s.eventRec 2 4 ch 255 n hot.toNat 0
  if coil then s.f37Settle ch else s

/-- OUTPUT_CLEAR (13 R339). -/
def execOutputClear (d : Desc) (s : State) : Out :=
  .next (s.command 0x34 d (immOnly d.imm 0xFFF#32 && d.paramLen == 0) [.C] false false (fun s r =>
    (((List.range 12).filter (fun ch => d.imm.getLsbD ch)).foldl (fun s ch => s.outClear ch) s).okay r 0 []))

/-! ## Clearing faults (11 R294; R478) -/

/-- The latches a FAULT_CLEAR names. -/
def State.latchesNamed (s : State) (src port : Nat) : List (Nat × Nat) :=
  let ns := if src = 0xFF then List.range 64 else [src]
  let qs := if port = 0xFF then List.range 17 else [port]
  ns.flatMap (fun n => (qs.filter (fun q => s.isLatched n q)).map (fun q => (n, q)))

/-- Clears what can be cleared; answers how many were and how many were refused. -/
def State.clearAll (s : State) : List (Nat × Nat) → State × Nat × Nat
  | [] => (s, 0, 0)
  | x :: r =>
    let (s, ok) := s.tryClear x.1 x.2
    let (s, a, b) := s.clearAll r
    (s, a + ok.toNat, b + (!ok).toNat)

/-- The nodes whose self-test failure holds a named F31 latch are tested again: F31 ends when the SELF_TEST of the node
returns 0 (11 R583; 04 R123; assumption log 111). -/
def State.retest (s : State) (l : List (Nat × Nat)) : State :=
  if !s.actsPrimary then s
  else (l.filter (fun x => x.1 == 31)).foldl (fun s x =>
    ((s.found x.2).filter (fun a => (s.node (nk x.2 a)).selftest)).foldl (fun s a => s.sendTo x.2 a 0x0F [] none) s) s

/-- FAULT_CLEAR (11 R294; R478): value [15:0] latches cleared, [31:16] latches refused. -/
def execFaultClear (d : Desc) (s : State) : Out :=
  let n := immF d.imm 7 0
  let p := immF d.imm 15 8
  .next (s.command 0x40 d (immOnly d.imm 0xFFFF#32 && d.paramLen == 0 && (n < 64 || n == 0xFF) && (p < 16 || p == 0xFF)) [.C]
    false false (fun s r =>
      let (s, ok, bad) := (s.retest (s.latchesNamed n p)).clearAll (s.latchesNamed n p)
      let s := s.settle.seqKick
      s.finish r (if n ≠ 0xFF && bad ≠ 0 then 4 else 0) (ok + 65536 * bad) [] false))

end Sys2Proof.Machine
end

