-- ==== Sys2Proof/Machine/CfgCheck.lean ====
section
/-! DEFINITION. The checks of a configuration blob at its load (14 R368 step 2): every rule of the chapters'
configuration tables. Fused maxima are applied where the values are used, the stricter of the two (11 R300). -/

namespace Sys2Proof.Machine

open Sys2Proof

/-- `x` lies in `lo`–`hi`. -/
def inR (lo x hi : Nat) : Bool := decide (lo ≤ x ∧ x ≤ hi)

/-- `x` lies in `lo`–`hi`, signed. -/
def inI (lo x hi : Int) : Bool := decide (lo ≤ x ∧ x ≤ hi)

/-- Keys of a table occur once and lie below `n`. -/
def keysOk {α : Type} (t : Tab Nat α) (n : Nat) : Bool := t.keys.all (fun k => decide (k < n)) && decide t.keys.Nodup

/-! ## Ports (03 R71; 05 R145, R149; 06 R582; 08 R240; 09 R265; 11 R303; 12 R308, R332) -/

/-- The sweep plan of a port: no corner above its mode's default, and a settle time that leaves room in M1 (R149). -/
def planOk (p : PlanCfg) : Bool :=
  decide (p.base ≤ 2) && p.corners.length == 4 &&
    (List.range 4).all (fun i => decide (p.corners.getD i 0 ≤ [0, 2, 4, 5].getD i 0)) &&
    inR 50 p.settle 2000 && decide (p.settle ≤ 397) && inR 1000 p.burst 4000 && p.burst % 250 == 0 &&
    (p.burstInt == 0 || inR 30 p.burstInt 600) && inR 5 p.quietC 100 && inR 1 p.quietDwell 60 && inR 2 p.owInt 60

/-- Pre-charge parameters of a string; r × c in ns. -/
def preOk (p : PreCfg) : Bool :=
  inR 1000 p.r 10000000 && inR 100 p.c 100000 && inR 25000000 (p.r * p.c) 10000000000 && inR 100000 p.rating 1000000000 &&
    inR 10 p.tauRes 3600

/-- The enumeration items of a port (03 R71). -/
def topologyOk (c : PortCfg) : Bool :=
  (c.endN || c.endS) && inR 1 c.m 32 && (match c.strNode with | some a => inR 1 a (c.m + 1) | none => true : Bool) &&
    c.cells.length == c.m && c.cells.all (inR 1 · 16) && c.sensors.length == c.m && c.sensors.all (inR 0 · 8)

/-- Configured hard limits lie within the range every node accepts, with the under-voltage limit below (04 R130). -/
def hardOk (ov uv : Nat) (ot : Int) : Bool :=
  inR 50000 ov 500000 && inR 50000 uv 500000 && decide (uv < ov) && inI (-4000) ot 12500

/-- The temperature table of a string: eight rows of eight C-rates (09 R265). -/
def tempTabOk (t : List (Int × List Nat)) : Bool :=
  t.length == 8 && t.all (fun r => r.2.length == 8 && r.2.all (inR 0 · 20000))

/-- The chemistry of a code. -/
def chemNamed (c : Cfg) (code : Nat) : Option ChemCfg := c.chems.find? (fun x => x.code == code)

/-- One port and its string. -/
def portOkCfg (s : State) (g : Cfg) (c : PortCfg) : Bool :=
  topologyOk c && planOk c.plan && (match c.pre with | some p => preOk p | none => true : Bool) &&
    inR 100 c.nameplate 200000 && c.reqChem.isSome && (match c.oS with | some o => inR 10 o 100000 | none => false : Bool) && inR 100000 c.iRange 4000000 && inR 1000 c.strOc 4000000 &&
    hardOk (c.hardOv.getD s.fuse.set.hardOv) (c.hardUv.getD s.fuse.set.hardUv) (c.hardOt.getD s.fuse.set.hardOt) &&
    limitsOk s.fuse.set c && (!g.gen.sedge || c.rBal.length == c.m) && c.rBal.all (inR 5000 · 500000) &&
    inR 50000 c.vMax 1800000 && inI (-3000) c.chgMin 1500 && inR 8000 c.taperHi 10000 && inR 0 c.taperLo 2000 &&
    tempTabOk c.tempTab && c.bounds.length == 8 && c.bounds.all (inR 0 · 4000000) &&
    (match chemNamed g c.chem with
      | some h => h.reqVChg.isSome && h.reqVDis.isSome && decide (h.vChg + 2000 ≤ c.softOv ∧ c.softUv + 2000 ≤ h.vDis)
      | none => false : Bool)

/-- The sensors of a cell: one or two, each a sensor of its own port or an NTC input (08 R214). -/
def cellSensOk (g : Cfg) (p pos : Nat) : Bool :=
  let l := g.cellSens.getD (gi p pos) []
  inR 1 l.length 2 && l.all (fun k => if k < 4096 then k / 256 == p else decide (k < 4104))

/-! ## Chemistries (07 R208; 08 R215, R216) -/

/-- Entries never fall. -/
def nonDecreasing : List Nat → Bool
  | a :: b :: r => decide (a ≤ b) && nonDecreasing (b :: r)
  | _ => true

/-- Temperatures rise by at least 5 °C. -/
def risingTemps : List Int → Bool
  | a :: b :: r => decide (a + 500 ≤ b) && risingTemps (b :: r)
  | _ => true

/-- One row of an OCV table, 100 µV. -/
def ocvRowOk (l : List Nat) : Bool :=
  l.length == 101 && l.all (inR 0 · 65535) && nonDecreasing l && decide (l.headD 0 + 1000 ≤ l.getLastD 0)

/-- One chemistry. -/
def chemOk (h : ChemCfg) : Bool :=
  h.temps.length == 5 && h.temps.all (inI (-4000) · 8000) && risingTemps h.temps && h.ocv.length == 5 && h.ocv.all ocvRowOk &&
    (h.hyst.isEmpty || (h.hyst.length == 5 && h.hyst.all (fun l => l.length == 101 && l.all (inR 0 · 65535)))) &&
    h.table.length == 72 && h.fit.isSome

/-! ## The current paths, the engines and the limits (06 R582; 07 R208; 08 R240; 09 R265) -/

/-- The current paths: the pack input may stay unused with one string only (02 R67). -/
def pathsOk (c : Cfg) : Bool :=
  let g := c.gen
  inR 10 g.oP 100000 &&
    (if g.packUsed then
      (match g.packVolt, g.packRatio with
        | some true, some r => inR 1000 r.natAbs 100000000
        | some false, some r => inR 100 r.natAbs 1000000
        | _, _ => false : Bool)
     else c.ports.length == 1)

/-- The impedance engine. -/
def impOk (g : GenCfg) : Bool :=
  g.bands.all (inR 0 · 5) && decide g.bands.Nodup && inR 5 g.exMin 100 && inR 9000 g.cohMin 9900 && inI (-2000) g.tLo 6000 &&
    inI (-2000) g.tHi 6000 && decide (g.tLo + 1000 ≤ g.tHi) && inR 24 g.sedgeAge 168 && inR 100 g.sedgeP 1024 &&
    inR 50 g.fitLim 250

/-- The estimator. -/
def estOk (g : GenCfg) : Bool :=
  inR 5 g.relax 240 && inR 50 g.sigOcv 1000 && inR 5 g.hystThr 100 && inR 10 g.conv 500 && inR 8000 g.socTop 10000 &&
    inR 0 g.eRes 1000000 && inI (-4000) g.tRes 6000 && inR 50 g.iRef 2000 && inR 0 g.refSlot 11 && inR 5000 g.fade 9500 &&
    inR 2000 g.growStr 30000 && inR 2000 g.growCell 50000 && inR 500 g.divLim 5000

/-- The limit functions. -/
def limOk (axles : Bool) (g : GenCfg) : Bool :=
  inR 0 g.pEm 1000000 && inR 0 g.iEm 2000 &&
    (match g.massMin, g.massMax with
      | some lo, some hi => inR 1000 lo 1000000 && inR 1000 hi 1000000 && decide (lo ≤ hi)
      | none, none => !axles
      | _, _ => false : Bool) && inR 500 g.eta 1000 && inR 100 g.decel 2000 &&
    (match g.packBounds with | some l => l.length == 8 && l.all (inR 0 · 32000000) | none => true : Bool)

/-! ## Zones (10 R266–R279) -/

/-- One zone: the levels rise by at least 3 °C, the hard level being the stricter of the configured and the fused one. -/
def zoneOk (fused : Int) (z : ZoneCfg) : Bool :=
  inI 100 z.hystW 1000 && inI 100 z.hystD 1000 && inI 2000 z.warn 8000 && z.sensors.all (fun k => decide (k < 4104)) &&
    (if z.coolant then z.sensors.all (fun k => decide (4096 ≤ k)) && decide (z.warn + 300 ≤ z.limit)
     else
      inI 2500 z.derate 8500 && decide (z.warn + 300 ≤ z.derate) && decide (z.derate + 300 ≤ min (z.hard.getD fused) fused) &&
        inR 1 z.minValid 8)

/-- Every sensor belongs to at most one zone, and has one or two neighbours where they are configured (10 R277). -/
def sensorsOk (c : Cfg) : Bool :=
  decide (c.zones.flatMap (fun z => z.2.sensors)).Nodup && keysOk c.nbrs 4104 && c.nbrs.all (fun x => inR 1 x.2.length 2)

/-- Settings of the temperature supervision. -/
def thermOk (g : GenCfg) : Bool := inI 200 g.jump 2000 && inI 20 g.riseThr 500 && inR 0 g.minHold 600

/-! ## The fault matrix (11 R287, R303) -/

/-- Range of a configurable persistence, ms; none where the persistence is not configurable. -/
def persRange (n : Nat) : Option (Nat × Nat) :=
  match n with
  | 2 | 3 => some (0, 2000) | 4 => some (1000, 600000) | 6 => some (100, 10000) | 7 => some (200, 5000)
  | 13 => some (100, 60000) | 18 => some (1, 1000) | 22 | 53 => some (1000, 60000) | 39 => some (1, 100)
  | 62 => some (100, 10000) | _ => none

/-- One source's settings. -/
def faultOk (n : Nat) (f : FaultCfg) : Bool :=
  (match f.cls with | some c => inR 0 c 4 | none => true : Bool) &&
    (match f.pers, persRange n with | none, _ => true | some t, some (lo, hi) => inR lo t hi | some _, none => false : Bool) &&
    (match f.factor with | some x => inR 0 x 1000 | none => true : Bool) && inR 0 f.release 600000

/-- The fault matrix's parameters. -/
def matrixOk (g : GenCfg) : Bool :=
  inR 50 g.wait 2000 && inR 100 g.facC 1000 && inR 10 g.lowC 500 && inR 1 g.deadC 60 && inR 1 g.wadeMin 240 &&
    inR 100 g.wadeFac 1000 && inR 200 g.imbal 5000 && (match g.iCont with | some i => inR 1000 i 32000000 | none => false : Bool) && inR 1 g.tau17 600 &&
    inR 16800 g.coilMin 154000

/-! ## Contactors, groups, output channels (12 R306–R312, R332; 13 R335, R349) -/

/-- One contactor. -/
def ctrCfgOk (c : Cfg) (x : CtrCfg) : Bool :=
  decide (x.out < 12) && decide (x.lsw < 4) && c.gen.lswUsed.getD x.lsw false && inR 5 x.closeMs 500 && inR 5 x.openMs 300 && inR 1000 x.breakI 4000000 &&
    !(c.outs.getD x.out {}).slow && (x.role == .oth || c.ports.any (fun p => p.1 == x.port)) &&
    (match x.aux with | some (i, _) => decide (i < 8) && c.ntc.getD i .absent == .aux | none => true : Bool)

/-- Contactors of a role of a string. -/
def ctrsRole (c : Cfg) (p : Nat) (r : Role) : List CtrCfg := c.ctrs.filter (fun x => x.role == r && x.port == p)

/-- The contactors of one string or string set: exactly one KN and KP, at most one PRE, no channel shared between them. -/
def stringCtrsOk (c : Cfg) (p : Nat) : Bool :=
  let kn := ctrsRole c p .kn
  let kp := ctrsRole c p .kp
  let pre := ctrsRole c p .pre
  (kn.isEmpty && kp.isEmpty && pre.isEmpty) ||
    (kn.length == 1 && kp.length == 1 && decide (pre.length ≤ 1) && decide ((kn ++ kp ++ pre).map (·.out)).Nodup &&
      (pre.isEmpty || ((c.ports.getD p {}).pre).isSome))

/-- The port whose contactors serve a string in a configuration. -/
def leadIn (c : Cfg) (p : Nat) : Nat := match c.sets.find? (fun x => x.2.contains p) with | some x => x.1 | none => p

/-- String sets hold configured strings, each string in at most one; the contactors of a set stand under its leading port (12 R307). -/
def setsOk (c : Cfg) : Bool :=
  decide (c.sets.flatMap (fun x => x.2)).Nodup && c.sets.all (fun x => x.2.contains x.1 && x.2.all (fun p => c.ports.any (fun q => q.1 == p))) &&
    c.ctrs.all (fun x => x.role == .oth || leadIn c x.port == x.port)

/-- One group: string members have contactors, and no two members' KP share a channel. -/
def groupOk (c : Cfg) (g : GroupCfg) : Bool :=
  let kps := g.members.filterMap (fun m => match m with
    | .string p => (ctrsRole c (leadIn c p) .kp).head?.map (·.out)
    | .oth _ => none)
  inR 1 g.members.length 16 && decide kps.Nodup && (g.allOrNone || inR 1 g.min g.members.length) &&
    g.members.all (fun m => match m with
      | .string p => !(ctrsRole c (leadIn c p) .kn).isEmpty && !(ctrsRole c (leadIn c p) .kp).isEmpty
      | .oth i => match c.ctrs[i]? with | some x => x.role == .oth | none => false)

/-- The contactors and groups. -/
def contactorsOk (c : Cfg) : Bool :=
  decide (c.ctrs.length ≤ 48) && setsOk c && c.ctrs.all (ctrCfgOk c) && (List.range 16).all (stringCtrsOk c) &&
    decide ((c.ctrs.filter (fun x => x.role == .pre)).map (·.out)).Nodup && decide (c.groups.length ≤ 16) &&
    c.groups.all (groupOk c)

/-- Parameters of the close sequence. -/
def closeOk (g : GenCfg) : Bool :=
  inR 200 g.winLo 900 && inR 1100 g.winHi 3000 && inR 800 g.k 950 && inR 20 g.margin 2000 && inR 2000 g.dv 200000 &&
    inR 0 g.windowWait 600000 && inR 16800 g.pickup 154000 && inR 500 g.busDisMs 60000

/-- The output channels. -/
def outsOk (c : Cfg) : Bool := keysOk c.outs 12 && c.outs.all (fun o => inR 0 o.2.retries 15) && inR 1 c.gen.hold 30

/-! ## Safety inputs, messages, axles, CAN, network time, power (14 R353–R363; 15 R384; 16 R389, R403–R405; 21 R512–R516) -/

/-- The safety inputs and the partner's speed. -/
def inputsOk (g : GenCfg) : Bool :=
  inR 2 g.debIso 100 && inR 2 g.debLid 100 && inR 10 g.discIso 2000 && inR 10 g.discLid 2000 && inR 100 g.spdDiff 2000 &&
    inR 5 g.spdPct 30 && inR 1 g.spdSec 20

/-- One received safe message. -/
def msgOk (m : MsgCfg) : Bool := inR 10 m.cycle 1000 && inR 1 m.skew 100

/-- The safe messages: the source byte where it is required, and both controllers enabled while any is sent or received
(14 R361, R363). -/
def msgsOk (pair : Bool) (c : Cfg) : Bool :=
  let some_ := !c.msgs.isEmpty || c.partner.isSome
  decide (c.msgs.length ≤ 8) && c.msgs.all msgOk && (match c.partner with | some m => msgOk m | none => true : Bool) &&
    (!(pair || some_) || c.gen.srcByte.isSome) &&
    (!(some_ || c.gen.srcByte.isSome) || ((c.cans.getD 0 {}).enabled && (c.cans.getD 1 {}).enabled))

/-- One axle channel: t_min within half the edge interval at the maximum speed (15 R384). -/
def axleCfgOk (a : AxleCfg) : Bool :=
  inR 16 a.n 1024 && inR 1 a.m 3 && decide (8 * a.m ≤ a.n) && inR 1000 a.circ 5000 && inR 2 a.tMin 200 &&
    decide (8 * a.n * a.vMax * a.tMin ≤ a.circ * 1000000) && inR 50 a.tStill 2000 && inR 1000 a.vMax 150000

/-- The bit timing of a controller: quanta of 12.5 ns per bit, the data rate at least the nominal rate (16 R389). -/
def canCfgOk (c : CanCfg) : Bool :=
  let q (t : BitTiming) : Nat := t.brp * (1 + t.tseg1 + t.tseg2)
  let n := c.nominal
  let d := c.data
  inR 1 n.brp 32 && inR 2 n.tseg1 256 && inR 1 n.tseg2 128 && inR 1 n.sjw 128 && decide (n.sjw ≤ n.tseg2) &&
    inR 80 (q n) 640 && inR 1 d.brp 32 && inR 1 d.tseg1 32 && inR 1 d.tseg2 16 && inR 1 d.sjw 16 && decide (d.sjw ≤ d.tseg2) &&
    inR 16 (q d) 640 && decide (q d ≤ q n) && inR 0 c.tdcOfs 127

/-- Network time. -/
def netOk (n : NetCfg) : Bool :=
  inR 0 n.role 2 && inR 10 n.period 1000 && inR 0 n.busDelay 10000 && inR 10000 n.step 1000000000 && inR 100 n.slew 10000 &&
    (n.role == 0 || n.onA || n.onB) && decide (n.id < if n.ide then 2 ^ 29 else 2 ^ 11)

/-- Wake, Moss limit and self-check interval. -/
def powerOk (g : GenCfg) : Bool :=
  inR 2000 g.wakeI 200000 && (g.mossLim == 0 || inR 1 g.mossLim 240) && inR 7 g.selfChk 90

/-! ## The whole configuration -/

/-- Ports, their cells and their chemistries. -/
def State.cfgPortsOk (s : State) (c : Cfg) : Bool :=
  keysOk c.ports 16 && c.ports.all (fun x => portOkCfg s c x.2) &&
    c.ports.all (fun x => (occPos x.2).all (fun pos => cellSensOk c x.1 pos)) &&
    (c.ports.map (fun x => x.2.chem)).all (fun code => match chemNamed c code with | some h => chemOk h | none => false)

/-- Every rule on the configuration a blob holds. -/
def State.cfgOk (s : State) (c : Cfg) : Bool :=
  s.cfgPortsOk c && pathsOk c && impOk c.gen && estOk c.gen && limOk (!c.axles.isEmpty) c.gen && thermOk c.gen && sensorsOk c && keysOk c.zones 32 &&
    c.zones.all (fun z => zoneOk s.fuse.set.hardOt z.2) && matrixOk c.gen && keysOk c.faults 64 &&
    c.faults.all (fun f => faultOk f.1 f.2) && contactorsOk c && closeOk c.gen && outsOk c && inputsOk c.gen &&
    msgsOk s.isPair c && keysOk c.axles 2 && c.axles.all (fun a => axleCfgOk a.2) && keysOk c.cans 2 &&
    c.cans.all (fun x => canCfgOk x.2) && netOk c.net && powerOk c.gen

end Sys2Proof.Machine
end

