-- ==== Sys2Proof/Machine/HostSeal.lean ====
section
/-! DEFINITION. The host commands of the safety and seal group (14 R367–R372; 19 R477; 22 R541, R542). -/

namespace Sys2Proof.Machine

open Sys2Proof

/-! ## The configuration blob (14 R368) -/

/-- A blob becomes the pending one, with its interrupt and event record (20 R493); an earlier pending blob is discarded. In a pair it is
mirrored to the partner (R372). -/
def State.pendTake (s : State) (b : Blob) : State :=
  let s := s.pendDrop
  let s := if s.partnerUp && s.pair.role == .primary then s.sendNvw (.pending (some b)) else s
  (({ s with cfg := { s.cfg with pend := some b, pendT := s.now, mism := 0 } } : State).raiseIrq 2).eventRec 6 2 0 255 1
    (crc32c b.bytes).toNat 0

/-- CFG_LOAD (14 R368 steps 1, 2): every rule is checked; a blob that breaks one is discarded. -/
def execCfgLoad (d : Desc) (blob : Blob) (s : State) : Out :=
  .next (s.command 0x41 d
    (d.imm == 0#32 && d.paramLen == blob.bytes.length && 1 ≤ blob.bytes.length && blob.bytes.length ≤ 262144) [.P, .m]
    false false (fun s r =>
      if !s.cfgOk blob.cfg then s.fail r 7 else (s.pendTake blob).okay r (crc32c blob.bytes).toNat []))

/-- The blob that CFG_READ names. -/
def State.blobOf (s : State) (pending : Bool) : Option Blob :=
  if pending then s.cfg.pend else if s.cfg.valid then s.cfg.work else none

/-- CFG_READ: writes the blob; its value is its CRC-32C. -/
def execCfgRead (d : Desc) (s : State) : Out :=
  .next (s.command 0x42 d (immOnly d.imm 1#32 && d.paramLen == 0) [] false false (fun s r =>
    match s.blobOf (d.imm.getLsbD 0) with
    | some b => s.okay r (crc32c b.bytes).toNat b.bytes
    | none => s.fail r 4))

/-- A blob goes to the partner, and the command completes with its result; without a partner it reports the standby as
diverged (14 R372; 17 R429). -/
def State.blobMirror (s : State) (r : CmdRef) (b : Blob) (v : Word) : State :=
  if s.partnerUp then
    let q : NvwReq := { req := { kind := 3, key := 0, body := b.bytes }, t := s.now, ref := some r, isBlob := true }
    (({ s with pair := { s.pair with nvw := s.pair.nvw ++ [q] } } : State).sendNvw (.blob b v)).keep { ref := r, todo := [0] }
  else (s.diverge 0).finish r 1 0 (s.pairMembers 0 9 0 0) true

/-- A confirmed blob comes into force on this module, and goes to the partner (14 R368 step 6, R372). -/
def State.sealConfirmed (s : State) (r : CmdRef) (b : Blob) (v : Word) : State :=
  let s := (s.eventRec 6 2 0 255 3 v.toNat 0).sealTake b v
  if s.isPair then s.blobMirror r b v else s.okay r 0 []

/-- SEAL_CONFIRM (14 R368 steps 4–6, R372): a mismatch keeps the pending blob, the third one discards it. A blob whose
limits no longer fit a fuse set that has come into force since its check is discarded (04 R130; assumption log 116). -/
def execSealConfirm (d : Desc) (s : State) : Out :=
  .next (s.command 0x43 d (d.paramLen == 0) [.P, .m, .O] true false (fun s r =>
    match s.cfg.pend with
    | none => s.fail r 4
    | some b =>
      if crc32c b.bytes == d.imm then
        if s.limitsFit b.cfg then s.sealConfirmed r b d.imm else s.pendDrop.fail r 7
      else
        let n := s.cfg.mism + 1
        let s := ({ s with cfg := { s.cfg with mism := n } } : State)
        (if n = 3 then s.pendDrop else s).fail r 2))

/-! ## Maintenance sessions (14 R371) -/

/-- A maintenance session may open: every contactor OPEN and, with two axle channels, safe standstill. -/
def State.maintAllowed (s : State) : Bool :=
  s.allOpen && (!((s.axleCfg 0).isSome && (s.axleCfg 1).isSome) || s.safe.standstill)

/-- MAINT_OPEN (14 R371; 19 R477). -/
def execMaintOpen (d : Desc) (s : State) : Out :=
  .next (s.command 0x44 d (d.paramLen == 0) [] false false (fun s r =>
    if !s.maintAllowed then s.fail r 4
    else if !s.cfg.valid || d.imm.toNat ≠ s.sealInForce then s.fail r 2
    else
      (({ s with cfg := { s.cfg with maint := true, maintT := s.now } } : State).eventRec 6 3 0 255 1 0 0).okay r 0 []))

/-- MAINT_CLOSE: OK also when no session is open. -/
def execMaintClose (d : Desc) (s : State) : Out :=
  .next (s.command 0x45 d (d.imm == 0#32 && d.paramLen == 0) [] false false (fun s r => (s.maintEnd 1).okay r 0 []))

/-! ## Fuse programming (22 R541, R542) -/

/-- The lowest unprogrammed slot; 4 when all are programmed. -/
def FuseBank.free (f : FuseBank) : Nat := ((List.range 4).find? (fun n => (Tab.find f.slots n).isNone)).getD 4

/-- Step 2 of R542: format, slot number, zero fields, hard limits, CRC. -/
def imageOk (n : Nat) (b : List Byte) : Bool :=
  let f := fuseParse b
  slotPasses b && field b 0 4 == 1 + 256 * n && field b 0x2C 4 / 4096 % 16 == 0 && field b 0x2C 4 / 2 ^ 19 == 0 &&
    field b 0x30 4 / 2 ^ 24 == 0 && field b 0x78 4 == 0 && (n == 0 || (b.drop 0x34).take 68 == zeros 68) &&
    hardOk f.hardOv f.hardUv f.hardOt

/-- Step 3 of R542: no field is less strict than the set it is compared with (11 R301; 22 R541). -/
def noLooser (new old : FuseSet) : Bool :=
  decide (new.hardOv ≤ old.hardOv ∧ old.hardUv ≤ new.hardUv ∧ new.hardOt ≤ old.hardOt ∧ new.packOc ≤ old.packOc) &&
    decide (new.wait ≤ old.wait ∧ new.deadC ≤ old.deadC ∧ new.wade ≤ old.wade) &&
    (List.range 64).all (fun n => decide (fusedClass (new.minCls.getD n 4) ≤ fusedClass (old.minCls.getD n 4))) &&
    new.limpSel &&& ~~~old.limpSel == 0 &&
    (new.position == old.position || (old.position == 0 && (new.position == 1 || new.position == 2))) &&
    (new.pref == old.pref || (old.position == 0 && new.position != 0)) &&
    (List.range 12).all (fun n => !new.limpSel.getLsbD n || new.din.getD n 0 == old.din.getD n 0)

/-- `n` free bytes. -/
def State.drawBytes (s : State) : Nat → List Byte × State
  | 0 => ([], s)
  | n + 1 =>
    let (v, s) := s.draw
    let (l, s) := s.drawBytes n
    (BitVec.ofNat 8 v :: l, s)

/-- A slot whose read-back differs (step 5): it is programmed with what no rule tells, and F60 latches. -/
def State.fuseFailed (s : State) (n : Nat) : State :=
  let set := s.fuse.fallback
  let (b, s) := s.drawBytes 128
  ({ s with fuse := { s.fuse with slots := s.fuse.slots.set n b, inForce := n, set := set } } : State).stand 60 16 {}

/-- A slot comes into force (step 6): every READY port returns to CONFIGURE. -/
def State.fuseTaken (s : State) (n : Nat) (b : List Byte) : State :=
  let ends := s.ownList
  let s := ({ s with fuse := { s.fuse with slots := s.fuse.slots.set n b, inForce := n, set := fuseParse b } } : State).cease 60 16
  let s := s.endsSettle ends
  let s := (s.portList.filter (fun p => (s.port p).st == .ready)).foldl (fun s p => s.configStart p) s
  s.bbEvent 0x0C n 255 s.fuseCrc 0 0

/-- FUSE_PROGRAM (22 R542): `progOk` tells what the module finds as it programs. -/
def execFuseProgram (d : Desc) (image : List Byte) (progOk : ProgRead) (s : State) : Out :=
  .next ((({ s with pwr := { s.pwr with vprog := progOk.vprog } } : State).holdupNow progOk.holdup).command 0x46 d (d.imm == 0#32 && d.paramLen == 128 && image.length == 128) [.m, .O] false false (fun s r =>
    let n := s.fuse.free
    if 4 ≤ n then s.fail r 8
    else if s.pwr.holdup < 200 || !(decide (2375 ≤ s.pwr.vprog ∧ s.pwr.vprog ≤ 2625)) then s.fail r 4
    else if !imageOk n image || (s.cfg.valid && !s.conf.ports.all (fun x => limitsOk (fuseParse image) x.2)) then s.fail r 7
    else if !noLooser (fuseParse image) s.fuse.set then s.fail r 8
    else if progOk.ok then (s.fuseTaken n image).okay r n []
    else (s.fuseFailed n).fail r 6))

end Sys2Proof.Machine
end

