-- ==== Sys2Proof/Machine/HostMisc.lean ====
section
/-! DEFINITION. The host commands of the non-volatile, CAN, pair and diagnostics groups (19 R479–R482; 16 R390–R400;
17 R409, R430, R432; 22 R539, R540, R547; 23 R560). -/

namespace Sys2Proof.Machine

open Sys2Proof

/-! ## Records (R479; 22 R547) -/

/-- A record of TABLE_READ. -/
def tableRec (kind : Nat) (x : Nat × List Byte) : List Byte := le 1 kind ++ zeros 3 ++ le 4 x.1 ++ x.2

/-- The records that TABLE_READ of a kind writes: index and body. -/
def State.tableRecs (s : State) (kind first count : Nat) : List (Nat × List Byte) :=
  let gs := (List.range count).map (first + ·)
  match kind with
  | 1 => gs.filterMap (fun g => (Tab.find s.mram.imp g).map (fun r => (g, r.body)))
  | 2 => (gs.filter (fun g => (s.ageing g).isSome)).map (fun g => (g, s.ageingBytes g))
  | 3 => (s.regionRecs 1).map (fun q => (q.key, q.body))
  | 4 => (s.regionRecs 4).map (fun q => (q.key, q.body))
  | 5 => (s.regionRecs 5).map (fun q => (q.key, q.body))
  | _ => (s.regionRecs 6).map (fun q =>
      (0, le 1 3 ++ zeros 1 ++ le 2 q.body.length ++ le 4 0xFFFFFFFF ++ le 4 0xFFFFFFFF ++ zeros 4 ++ q.body))

/-- TABLE_READ: the records go to the ring of function 0x28, and the command completes with their number once the last is
written or dropped (R466). -/
def execTableRead (d : Desc) (first : Nat) (count : Nat) (s : State) : Out :=
  let k := immF d.imm 7 0
  .next (s.command 0x50 d (immOnly d.imm 0xFF#32 && d.paramLen == 8 && 1 ≤ k && k ≤ 6 &&
      (if k ≤ 2 then 1 ≤ count && first + count ≤ 8192 else first == 0 && count == 0 : Bool)) [] false false (fun s r =>
    let l := s.tableRecs k first count
    let s := s.keep { ref := r, todo := [l.length] }
    (l.foldl (fun s x => s.record fnNvOut (tableRec k x)) s).streamsDone))

/-- One record of TABLE_WRITE passes its check: its length, its cell index and, where its layout holds one, its CRC. -/
def tableRecOk (k : Nat) (q : NvReq) : Bool :=
  q.kind == k && decide (q.key < 8192) &&
    (if k == 1 then q.body.length == 320 && field q.body 2 2 == q.key
     else q.body.length == 64 && field q.body 0 2 == q.key && field q.body 0x38 4 == (crc32c (q.body.take 0x38)).toNat)

/-- A written record comes into force in the working copy. -/
def State.tableTake (s : State) (q : NvReq) : State :=
  if q.kind == 1 then s.tableFrom q.key q.body else (s.ageFrom q.key q.body).ageFaults (q.key / 512)

/-- TABLE_WRITE: nothing is written when a record fails its check; otherwise each is a mirrored record. -/
def execTableWrite (d : Desc) (recs : List NvReq) (s : State) : Out :=
  let k := immF d.imm 7 0
  .next (s.command 0x51 d (immOnly d.imm 0xFF#32 && (k == 1 || k == 2) &&
      d.paramLen == 8 + (if k = 1 then 320 else 64) * recs.length) [.P, .S, .M, .O] true false (fun s r =>
    if !recs.all (tableRecOk k) then s.fail r 7
    else
      let s := recs.foldl (fun s q => s.tableTake q) s
      s.mirrorCmd r (recs.map (fun q => { q with body := if k = 1 then q.body else q.body.take 0x3C })) 0))

/-- BB_READ (22 R547): the records from a sequence on, in ascending order, to the ring of function 0x24. -/
def execBbRead (d : Desc) (s : State) : Out :=
  .next (s.command 0x52 d (d.paramLen == 0) [] false false (fun s r =>
    let l := s.bbRecords.filter (fun x => decide (d.imm.toNat ≤ x.1))
    let s := s.keep { ref := r, todo := [0] }
    (l.foldl (fun s x => s.record fnBlackBox x.2) s).streamsDone))

/-- BB_CLEAR (22 R546, R547): every record is invalidated; the sequence counter goes on. It would interfere with a
snapshot that is still being written. -/
def execBbClear (d : Desc) (s : State) : Out :=
  .next (s.command 0x53 d (d.imm == 0#32 && d.paramLen == 0) [.M] false
    ((List.range 16).any (fun p => s.mram.collecting.getD p 0 ≠ 0)) (fun s r =>
      let s := { s with mram := { s.mram with events := [], snaps := [], snapCount := 0 } }
      (s.bbEvent 9 0 255 0 0 0).okay r 0 []))

/-! ## Firmware (22 R539, R540) -/

/-- Changes a firmware slot and its image. -/
def State.fwSet (s : State) (k : Nat) (x : FwSlot) (img : List Byte) : State :=
  { s with mram := { s.mram with fw := s.mram.fw.set k x, images := s.mram.images.set k img } }

/-- A chunk follows on the chunks before it: the first starts the image, a later one goes on where they ended and names
the same image. -/
def FwSlot.takes (x : FwSlot) (c : FwChunk) : Bool :=
  decide (c.total ≤ 786432) && decide (c.offset + c.data.length ≤ c.total) &&
    (if c.first then c.offset == 0
     else !x.valid && c.offset == x.next && c.offset != 0 && c.total == x.total && c.crc == x.crc) &&
    (!c.last || c.offset + c.data.length == c.total)

/-- An image passes its checks: its CRC, and its header against device and body. -/
def imagePasses (crc : Word) (img : List Byte) : Bool :=
  let h := Config.fwHeader (img.take 64)
  let body := img.drop 64
  crc32c img == crc && decide (64 ≤ img.length) && h.1 == 0x4096 && h.2.2.1 == body.length && h.2.2.2 == (crc32c body).toNat

/-- FW_LOAD (22 R539): a first chunk invalidates the slot, and takes back a mark for trial; after the last one the image is
checked, and a failed check leaves the slot invalid. -/
def execFwLoad (d : Desc) (chunk : FwChunk) (s : State) : Out :=
  let k := immF d.imm 0 0
  .next (s.command 0x54 d (immOnly d.imm 1#32 && d.paramLen == 16 + chunk.data.length) [.M] false false (fun s r =>
    let x := s.mram.fw.getD k {}
    if k == s.mram.fwActive then s.fail r 4
    else if !x.takes chunk then s.fail r 7
    else
      let img := (if chunk.first then [] else s.mram.images.getD k []) ++ chunk.data
      let n := chunk.offset + chunk.data.length
      let s := if s.mram.fwTrial == some k then { s with mram := { s.mram with fwTrial := none } } else s
      if !chunk.last then (s.fwSet k { total := chunk.total, crc := chunk.crc, next := n } img).okay r chunk.crc.toNat []
      else if imagePasses chunk.crc img then
        let v := (Config.fwHeader (img.take 64)).2.1
        (s.fwSet k { valid := true, version := v, total := chunk.total, crc := chunk.crc, next := n } img).okay r chunk.crc.toNat []
      else (s.fwSet k {} []).fail r 7))

/-- FW_ACTIVATE (22 R540): a valid slot is marked for trial at the next start. -/
def execFwActivate (d : Desc) (s : State) : Out :=
  let k := immF d.imm 0 0
  .next (s.command 0x55 d (immOnly d.imm 1#32 && d.paramLen == 0) [.M, .O] false false (fun s r =>
    if !(s.mram.fw.getD k {}).valid then s.fail r 4
    else ({ s with mram := { s.mram with fwTrial := some k } } : State).okay r 0 []))

/-! ## CAN (R480; 16 R390–R400) -/

/-- A frame that no controller can send. -/
def frameMalformed (f : CanFrame) : Bool :=
  (f.fdf && f.rtr) || (f.brs && !f.fdf) || decide ((if f.ide then 2 ^ 29 else 2 ^ 11) ≤ f.id) || decide (16 ≤ f.dlc) ||
    f.data.length != (if f.rtr then 0 else lenOf f.fdf f.dlc)

/-- On a CAN transmit ring a command names the ring's own controller (18 R448; 19 R480). -/
def State.ownCan (s : State) (sq c : Nat) : Bool := ((s.ring sq).fn != 0x30 || c == 0) && ((s.ring sq).fn != 0x31 || c == 1)

/-- CAN_TX (16 R390, R392): the frame joins the submissions of its controller, and the command completes with its final
result. -/
def execCanTx (d : Desc) (frame : CanFrame) (s : State) : Out :=
  let c := immF d.imm 0 0
  .next (s.command 0x60 d (immOnly d.imm 1#32 && d.paramLen == 80 && s.ownCan d.sq c && !frameMalformed frame) [] false false
    (fun s r =>
      if (s.can c).mode ≠ 0 then s.fail r 4
      else (s.onCan c (fun k => { k with txq := k.txq ++ [{ frame := frame, ref := r }] })).loadTx c))

/-- A submission of a ring with a host tag. -/
def TxBuf.tagged (b : TxBuf) (sq : Nat) (id : BitVec 16) : Bool := b.ref.d.sq == sq && b.ref.d.cmdId == id

/-- The transmission of a buffer has begun (16 R391): only of the buffer that contends for the bus; whether its start of
frame has passed, no command tells (assumption log 10). -/
def State.begun (s : State) (c b : Nat) : Bool × State :=
  let k := s.can c
  if k.started.isSome then (k.started == some b, s)
  else if k.mode ≠ 0 || k.errSt == 2 || k.next != some b then (false, s)
  else
    let (v, s) := s.draw
    (v % 2 == 1, s)

/-- Cancels the host frame in a buffer: withdrawn, or not retried once its transmission has begun. -/
def State.cancelBuf (s : State) (c b : Nat) : State :=
  let (on, s) := s.begun c b
  if !on then s.dropBuf c b 1 0
  else
    let mark (o : Option TxBuf) : Option TxBuf := o.map (fun x => { x with cancel := true })
    s.onCan c (fun k => { k with
      started := some b, tb1 := if b = 1 then mark k.tb1 else k.tb1, tb2 := if b = 2 then mark k.tb2 else k.tb2 })

/-- CAN_CANCEL (16 R391; R480): of a submission of its own ring, by host tag. -/
def execCanCancel (d : Desc) (s : State) : Out :=
  let c := immF d.imm 16 16
  let id := BitVec.ofNat 16 (immF d.imm 15 0)
  .next (s.command 0x61 d (immOnly d.imm 0x1FFFF#32 && d.paramLen == 0 && s.ownCan d.sq c) [] false false (fun s r =>
    let k := s.can c
    let inBuf (o : Option TxBuf) : Bool := match o with | some x => x.tagged d.sq id | none => false
    if inBuf k.tb1 then (s.cancelBuf c 1).okay r 0 []
    else if inBuf k.tb2 then (s.cancelBuf c 2).okay r 0 []
    else match k.txq.find? (fun x => x.tagged d.sq id) with
      | some x => ((s.onCan c (fun k => { k with txq := k.txq.erase x })).txResult x 1 0).okay r 0 []
      | none =>
        if s.host.finished.any (fun x => x.ref.opcode == 0x60 && x.ref.d.sq == d.sq && x.ref.d.cmdId == id) then s.okay r 1 []
        else s.fail r 7))

/-- The parameters of CAN_FILTER: of the default action only RING and DISCARD, of a filter all but DISCARD. -/
def filterOk (dflt : Bool) (p : FilterParam) : Bool :=
  decide (p.id < 2 ^ 29) && decide (p.mask < 2 ^ 29) && decide (p.ide ≤ 2) && decide (p.fdf ≤ 2) &&
    (if dflt then p.action == 1 || p.action == 4 else decide (p.action ≤ 3))

/-- CAN_FILTER (16 R393): writes a filter, or the default action. -/
def execCanFilter (d : Desc) (param : FilterParam) (s : State) : Out :=
  let c := immF d.imm 0 0
  let n := immF d.imm 12 8
  let dflt := d.imm.getLsbD 13
  .next (s.command 0x62 d (immOnly d.imm 0x3F01#32 && d.paramLen == 16 && filterOk dflt param) [] false false (fun s r =>
    (s.onCan c (fun k => if dflt then { k with defRing := param.action == 1 } else { k with filters := k.filters.set n param })).okay
      r 0 []))

/-- The module sends or receives a configured safe message (14 R363). -/
def State.usesSafe (s : State) : Bool := s.gen.srcByte.isSome || !s.conf.msgs.isEmpty || s.conf.partner.isSome

/-- CAN_MODE (16 R397, R400; R480). -/
def execCanMode (d : Desc) (s : State) : Out :=
  let c := immF d.imm 0 0
  let m := immF d.imm 9 8
  .next (s.command 0x63 d (immOnly d.imm 0x1301#32 && d.paramLen == 0 && m ≤ 2) [] false false (fun s r =>
    if m ≠ 0 && s.usesSafe && !s.cfg.maint then s.fail r 4
    else
      let s := s.onCan c (fun k => { k with mode := m, single := d.imm.getLsbD 12 })
      (if m = 0 then s else s.canStop c).okay r 0 []))

/-! ## The pair (R481; 17 R409, R430, R432) -/

/-- The partner's hold window runs, as its last heartbeat tells (17 R414). -/
def State.partnerHold (s : State) : Bool := field s.pair.hbRcvd 19 1 / 16 % 2 == 1

/-- ROLE_HANDOVER (17 R409). -/
def execRoleHandover (d : Desc) (s : State) : Out :=
  .next (s.command 0x70 d (d.imm == 0#32 && d.paramLen == 0) [.X, .P, .S, .C] false false (fun s r =>
    if s.pair.diverged != 0#7 || s.seq.active || s.opens.any (fun x => x.2.ph != .idle) || s.drv.hold || s.partnerHold then s.fail r 4
    else if !s.partnerUp then s.fail r 5
    else
      (({ s with pair := { s.pair with handover := some r } } : State).sendEvt .handover).keep { ref := r }))

/-- PAIR_ADOPT (17 R432 step 5): the blob in force goes to the partner, and the command completes with its result. -/
def execPairAdopt (d : Desc) (s : State) : Out :=
  .next (s.command 0x71 d (d.paramLen == 0) [.X, .P, .V, .M, .O] true false (fun s r =>
    if d.imm.toNat ≠ s.sealInForce then s.fail r 2
    else match s.cfg.work with
    | none => s.fail r 2
    | some b => s.blobMirror r b d.imm))

/-- MIRROR_CHECK (17 R430): a digest exchange at once; it completes with the exchange. -/
def execMirrorCheck (d : Desc) (s : State) : Out :=
  .next (s.command 0x72 d (d.imm == 0#32 && d.paramLen == 0) [.X] false false (fun s r =>
    if !s.partnerUp then s.fail r 5
    else ({ s with pair := { s.pair with check := some r } } : State).keep { ref := r }))

/-! ## Diagnostics (R482, R483; 23 R560) -/

/-- STATE_READBACK (R483): the snapshot; sections left out for want of space mark the completion's result as cut. -/
def execStateReadback (d : Desc) (s : State) : Out :=
  .next (s.command 0x80 d (immOnly d.imm 0xFFFF#32 && d.paramLen == 0) [] false false (fun s r =>
    let x := s.readback d.imm.toNat d.resultLen
    let s := s.okay r 0 x.1
    let l := s.host.finished.map (fun c => if c.ref = r then { c with cut := x.2 } else c)
    { s with host := { s.host with finished := l } }))

/-- Elements that a self-test names (23 R560). -/
def testElements (n : Nat) : Word :=
  match n with
  | 1 | 5 => 0x1#32 | 2 => 0x3#32 | 3 => 0x1FFFF#32 | 4 => 0x1FF#32 | 6 => 0xFF#32 | 7 => 0xF#32 | _ => 0x7#32

/-- One pair of release signals is driven at an LSW, which opens unless it fails, and is re-armed unless a class A latch
stands (11 R289; 13 R341). Without VSUP no latch is changed (02 R45). -/
def State.releaseTest (s : State) (j by_ : Nat) (bad : Bool) : State :=
  if s.pwr.intr == .over then s
  else
  let s := if bad then s else s.releaseLsw j by_
  if (List.range 17).any (fun sc => s.scopeClass sc == 0) then s
  else s.onLsw j (fun l => { l with closed := true, hwOpen := false })

/-- A region of SRAM, with its place, that a free value names. -/
def regionFrom (k v : Nat) : SramRegion :=
  match k % 9 with
  | 0 => .fwSafe | 1 => .fwSvc | 2 => .live (v % 8192) | 3 => .accum (v % 8192) (v / 8192 % 6) | 4 => .table (v % 8192)
  | 5 => .frame (v % 16) (v / 16 % 2) | 6 => .mirror | 7 => .prefetch (v % 64) | _ => .staging (v % 16) (v / 16 % 65536)

/-- What a self-test does besides its result: what a scrub finds is handled as at any scrub, where the result does not tell
which word or sector it is (assumption log 10; 23 R552, R553); an engine that fails its loopback is declared failed (23 R554);
the core logic test starts the hold window and, failing, leaves the cores in reset (13 R344; 23 R557); the release path test opens
and re-arms every LSW by both pairs; the reference check leaves its elements. -/
def State.testEffect (s : State) (n : Nat) (bad : Word) : State :=
  match n with
  | 1 =>
    if bad == 0#32 then s
    else
      let (k, s) := s.draw
      let (v, s) := s.draw
      let (w, s) := s.draw
      s.uncorrectable (regionFrom k v) (w % 1048576)
  | 2 =>
    if bad == 0#32 || !s.mayWrite then s
    else
      let (v, s) := s.draw
      s.sectorRemap (v % 2048)
  | 3 => if s.drv.coresUp then ((List.range 17).filter (fun k => bad.getLsbD k)).foldl (fun s k => s.engineFail k) s else s
  | 5 =>
    let s := s.holdStart
    if bad == 0#32 then s else { s with drv := { s.drv with coresHeld := true } }
  | 6 => (List.range 4).foldl (fun s j => (s.releaseTest j 1 (bad.getLsbD j)).releaseTest j 2 (bad.getLsbD (4 + j))) s
  | 8 => { s with repair := { s.repair with refBad := bad.truncate 3 } }
  | _ => s

/-- SELF_TEST (23 R559, R560): `fails` tells which elements fail. -/
def execSelfTest (d : Desc) (fails : Word) (s : State) : Out :=
  let n := d.imm.toNat
  .next (s.command 0x81 d (1 ≤ n && n ≤ 8 && d.paramLen == 0) (if n == 5 || n == 6 then [.O] else []) false false (fun s r =>
    let bad := fails &&& testElements n
    let s := { s with host := { s.host with selfTestResult := bad } }
    let s := s.testEffect n bad
    if bad == 0#32 then s.okay r 0 [] else (s.event .repair 7).finish r 6 bad.toNat [] false))

end Sys2Proof.Machine
end

