-- ==== Sys2Proof/Machine/Meas.lean ====
section
/-! DEFINITION. The commands of the measurement family (chapter 06): pack current, Kirchhoff check, offsets, injection. -/

namespace Sys2Proof.Machine

open Sys2Proof

/-- Pack current that corresponds to full scale of the input, mA (R171). -/
def State.fullScale (s : State) : Nat := (if s.packVolt then 10 else 200) * s.packRatio.natAbs

/-- F22 of every string, which only a connected one can have (11 R287): its current differs from w × pack current by more than 20 % of it, with the pack
current above 0.1 C. -/
def State.f22Check (s : State) (i : Int) : State :=
  let on := decide (s.packCap < i.natAbs)
  s.portList.foldl (fun s p =>
    let w : Int := s.shareOf p 1 i.natAbs
    let w := if i < 0 then -w else w
    let d := ((s.str p).i.getD 0 - w).natAbs
    s.setCond 22 p ((s.str p).conn && on && decide (w.natAbs < 5 * d)) { value := (s.str p).i.getD 0 }) s

/-- The own sensor's current of a sample before the offset, mA (R172). -/
def State.packRaw (s : State) (val : Int) : Int := val * s.packRatio / 1000000

/-- The pack current of a sample, mA: the own sensor's, or the sum of the strings while it is substituted (R183). -/
def State.packI (s : State) (val : Int) : Int :=
  if s.pack.subst then (s.portList.map (fun p => (s.str p).i.getD 0)).sum else s.packRaw val - s.pack.off

/-- A pack current sample enters live state, its filter and its accumulators (R141, R171, R177). -/
def State.packTaken (s : State) (S : Nat) (val : Int) : State :=
  let sat := decide ((if s.packVolt then 9800000 else 196000000) < val.natAbs)
  let sum := (s.portList.map (fun p => (s.str p).i.getD 0)).sum
  let satT := if sat && decide (10 * sum.natAbs < 9 * s.fullScale) then some (s.pack.satT.getD S) else none
  let x := s.pack
  let i := s.packI val
  let (fl, y) := filtStep x.fMin 4000 x.filt i
  { s with pack := { s.pack with
    i := some i, iT := S, sat := sat, satT := satT, satLastT := if sat then S else x.satLastT, filt := fl
    filtY := (S, y) :: x.filtY.filter (fun z => decide (S < z.1 + ms 50)), accPos := x.accPos + (max 0 i).toNat, accNeg := x.accNeg + (max 0 (-i)).toNat
    accN := x.accN + 1, lowWin := if decide (i.natAbs < (s.connList.map (fun q => s.cRate q s.gen.lowC)).sum) then some (x.lowWin.getD S) else none
    iHist := (S, i) :: x.iHist.filter (fun y => decide (S < y.1 + sec 1))
    rawHist := (S, s.packRaw val) :: x.rawHist.filter (fun y => decide (S < y.1 + sec 1)) } }

/-- What rests on a pack current sample acts: F20 for saturation, F17, the end of F16, F22, the openings that wait for the
current of the pack, and the standby's report. -/
def State.packActs (s : State) (S : Nat) (dt : Nat) (own : Int) : State :=
  let i := s.pack.i.getD 0
  let s := match s.pack.satT with
    | some t => if t + ms 200 ≤ S then s.f20 0 true i else s
    | none => if s.pack.f20.getLsbD 0 then s.f20 0 false i else s
  let s := s.f17Step i dt
  let s := if s.stands 16 16 && decide (i.natAbs < 1000 * s.fuse.set.packOc) then s.cease 16 16 else s
  let s := s.f22Check i
  let s := if s.partnerUp && s.pair.role == .standby then s.sendMirror (.packCurrent S own) else s
  ((s.othList.map othKey).foldl (fun s k => s.discSample k i) s).seqKick

/-- PACK_CURRENT_SAMPLE (R141, R172, R174, R177): the input at grid instant `S`, in nA or µV. Under substitution the pack
current is the sum of the string currents. -/
def execPackCurrentSample (S : Nat) (val : Int) (s : State) : Out :=
  .next (
    if !s.gen.packUsed || s.pwr.st == .peat || S % 250000 ≠ 0 || S ≤ s.pack.iT then s
    else
      let own := s.packRaw val - s.pack.off
      ((s.at S).packTaken S val).packActs S (S - s.pack.iT) own)

/-- FAST_OVERCURRENT_TRIP (R173): the hardware release path acts, and F16 latches; in no state that has its comparator
off. -/
def execFastOvercurrentTrip (s : State) : Out :=
  .next (
    if !s.gen.packUsed || !s.drvUp then s
    else
      let on := s.scopeOn 16
      let s := (List.range 4).foldl (fun s j => s.releaseLsw j 3) s
      let s := s.onFault 16 (fun f => { f with standing := f.standing ||| (1#17 <<< 16) })
      let s := if s.drv.coresUp then s.openModule 3 else s
      let s := s.latch 16 16 { hw := true, value := s.pack.i.getD 0 }
      if on && s.drv.coresUp then s.openedRec 16 false else s)

/-! ## The Kirchhoff check (R178–R183) -/

/-- The check runs (R180): the input in use, a string node on every string, no substitution. -/
def State.kirchRuns (s : State) : Bool :=
  s.gen.packUsed && s.portList.all (fun p => (s.portCfg p).strNode.isSome) && !s.pack.subst &&
    !s.portList.any (fun p => (s.str p).subst)

/-- A filtered current at grid instant `S`. -/
def filtAt (l : List (Nat × Int)) (S : Nat) : Option Int := (l.find? (fun x => x.1 == S)).map (·.2)

/-- The pack's filtered samples at `S` and on either side of it (R178). -/
def State.packY (s : State) (S : Nat) : Option (Int × Int × Int) :=
  match filtAt s.pack.filtY S, filtAt s.pack.filtY (S - us 250), filtAt s.pack.filtY (S + us 250) with
  | some y, some a, some b => some (y, a, b)
  | _, _, _ => none

/-- An evaluation at `S` is skipped (R179). -/
def State.kirchSkip (s : State) (S : Nat) : Bool :=
  s.pwr.st != .run || s.pack.kT.any (fun t => decide (t ≤ S) && decide (S < t + sec 1)) || (s.packY S).isNone ||
    s.contrib.any (fun p => (filtAt (s.str p).filtY S).isNone) ||
    (s.pack.satLastT ≠ 0 && decide (S < s.pack.satLastT + 2000000000 / max (cornerHz s.pack.fMin) 1))

/-- Sum of a string's cell voltages at `S`, when all of them are valid. -/
def State.vSumNow (s : State) (p S : Nat) : Option Int :=
  let l := s.cellsOfStr p
  if l.all (fun g => (s.cell g).validT == some S) then some ((l.map (fun g => (s.cell g).v)).sum : Nat) else none

/-- One step of the ohmic witness of a string (R181) from the evaluation instant before `S`, between voltage sums and filtered
currents: none unless it qualifies, else whether its sensor agrees. -/
def State.witness (s : State) (p S : Nat) (v i : Int) : Option Bool :=
  match (s.str p).evAt with
  | some (t, v0, i0) =>
    let r := ((s.cellsOfStr p).map (fun g => (s.fitNow g).r0)).sum
    let dw : Int := if r = 0 then 0 else (v - v0) * 10000 / r
    if t + ms 40 ≠ S || 2 * 10 * dw.natAbs < (s.portCfg p).nameplate * 10 then none
    else some (decide (100 * (i - i0 - dw).natAbs ≤ 15 * dw.natAbs + 200 * offB (s.portCfg p)))
  | none => none

/-- The witness of a string at an evaluation instant: its last four qualifying steps. -/
def State.witnessStr (s : State) (p S : Nat) : State :=
  match s.vSumNow p S, filtAt (s.str p).filtY S with
  | some v, some i =>
    let w := s.witness p S v i
    s.onStr p (fun x => { x with
      failW := match w with | some b => (b :: x.failW).take 4 | none => x.failW
      evAt := some (S, v, i) })
  | _, _ => s

/-- The witnesses of every string at an evaluation instant. -/
def State.witnesses (s : State) (S : Nat) : State := s.portList.foldl (fun s p => s.witnessStr p S) s

/-- Attribution of a standing F19 (R182): a string whose witness fails on at least 3 of its last 4 steps while every other passes on
at least 3; the pack sensor when every string has passed its last 3, or the partner's sensor says so. -/
def State.attribute_ (s : State) (packBad : Bool) : State :=
  let fails (p : Nat) : Bool := 3 ≤ ((s.str p).failW.filter (fun b => !b)).length
  let passes (p : Nat) : Bool := 3 ≤ ((s.str p).failW.filter id).length
  let run (p : Nat) : Bool := (s.str p).failW.take 3 == [true, true, true]
  match s.portList.find? (fun p => fails p && (s.portList.filter (· != p)).all passes) with
  | some p => s.f21 p 1 true ((s.str p).i.getD 0)
  | none => if s.portList.all run || packBad then s.f20 3 true (s.pack.i.getD 0) else s

/-- Attribution is a finding: its cause of F20 or F21 is over at the next evaluation instant, and the substitution goes on until
the fault is cleared (R183; assumption log 23). -/
def State.attributeEnd (s : State) : State :=
  let s := if s.pack.f20.getLsbD 3 then s.f20 3 false (s.pack.i.getD 0) else s
  s.portList.foldl (fun s p => if (s.str p).f21.getLsbD 1 then s.f21 p 1 false ((s.str p).i.getD 0) else s) s

/-- The own sensor's and the partner's current at `S`, mA. -/
def State.bothAt (s : State) (S : Nat) : Option (Int × Int) :=
  match filtAt s.pack.rawHist S, filtAt s.pack.partH S with
  | some a, some b => some (a - s.pack.off, b)
  | _, _ => none

/-- Mismatch and tolerance of an evaluation, mA and µA (R178): `y` the filtered pack current, `a` and `b` those on either side. -/
def State.mismatch (s : State) (S : Nat) (y : Int) : Int := (s.contrib.map (fun p => (filtAt (s.str p).filtY S).getD 0)).sum - y
def State.kirchTol (s : State) (y a b : Int) : Nat :=
  5 * y.natAbs + 1000 * (s.gen.oP + (s.contrib.map (fun p => offB (s.portCfg p))).sum) + (b - a).natAbs

/-- At `S` the sum of the string currents violates the tolerance against the own sensor, and agrees with the partner's (R182). The
partner's sample is compared as it is mirrored, unfiltered (DESIGN CHOICE, assumption log 118). -/
def State.ownOff (s : State) (S : Nat) : Bool :=
  match s.packY S, filtAt s.pack.partH S with
  | some (y, a, b), some q =>
    let d := s.mismatch S y
    let tol := s.kirchTol y a b
    decide (tol < 1000 * d.natAbs) && decide (1000 * (d + y - q).natAbs ≤ tol)
  | _, _ => false

/-- The comparison with the partner's sensor at an evaluation instant (R174): six misses in a row, which span 200 ms, raise F20. The sensor at
fault is then identified (R182; assumption log 118): the own one, for which the sum of the strings is substituted, when that sum
differs from it and agrees with the partner's; otherwise F20 stands alone. -/
def State.partnerCheck (s : State) (S : Nat) : State :=
  match s.bothAt S with
  | some (a, b) =>
    if !(s.partnerUp && s.pair.role == .primary) then s
    else
      let bad := decide (5 * (max a.natAbs b.natAbs) + 2000 * s.gen.oP < 1000 * (a - b).natAbs)
      let n := if bad then min (s.pack.partBad + 1) 255 else 0
      let s := { s with pack := { s.pack with partBad := n } }
      if 6 ≤ n then
        let s := s.f20 1 true a
        if s.ownOff S then { s with pack := { s.pack with subst := true } } else s
      else if n = 0 && s.pack.f20.getLsbD 1 then s.f20 1 false a else s
  | none => s

/-- The sum of the string currents is compared with the pack current (R178–R183): six misses in a row raise F19. -/
def State.kirchCheck (s : State) (S : Nat) : State :=
  match s.packY S with
  | none => s
  | some (y, a, b) =>
    let d := s.mismatch S y
    let tol := s.kirchTol y a b
    let bad := decide (tol < 1000 * d.natAbs)
    let n := if bad then min (s.pack.kBad + 1) 255 else 0
    let s := { s with pack := { s.pack with kBad := n } }
    let s := if 6 ≤ n then s.stand 19 16 { value := d } else if bad then s else s.cease 19 16
    if s.stands 19 16 then s.attribute_ (s.ownOff S) else s

/-- KIRCHHOFF_EVALUATION (R174, R178–R183): at a multiple of 40 ms. Six consecutive violations, which span 200 ms, raise F19; while
F19 stands it is attributed. While the check does not run F19 stays as it is (assumption log 23). -/
def execKirchhoffEvaluation (S : Nat) (s : State) : Out :=
  .next (
    if S % ms 40 ≠ 0 then s
    else
      let s := ((s.at S).attributeEnd).partnerCheck S
      if !s.kirchRuns then s
      else
        let s := s.witnesses S
        if s.kirchSkip S then { s with pack := { s.pack with kSkip := s.pack.kSkip + 1 } } else s.kirchCheck S)

/-! ## Offsets and injection -/

/-- Every contactor of a string, or of every string, is open; one that is welded is not. A string without contactors is never open. -/
def State.ctrsOpen (s : State) (sensor : Nat) : Bool :=
  (s.portList.filter (fun p => sensor == 16 || sensor == p)).all (fun p =>
    !(s.ctrsOf p).isEmpty && (s.ctrsOf p).all (fun i => (s.ctr i).st == .isOpen))

/-- Raw samples of a sensor in the last 1 s. -/
def State.rawOf (s : State) (sensor : Nat) : List Int :=
  ((if sensor < 16 then (s.str sensor).rawHist else s.pack.rawHist).filter (fun x => s.now < x.1 + sec 1)).map (·.2)

/-- A sensor must read zero: its contactors have been open for 10 s. -/
def State.mustBeZero (s : State) (sensor : Nat) : Bool :=
  if sensor < 16 then s.declared sensor && s.ctrsOpen sensor && decide ((s.str sensor).openT + sec 10 ≤ s.now)
  else s.gen.packUsed && s.ctrsOpen 16 && decide (s.pack.openT + sec 10 ≤ s.now)

/-- A sensor's offset is judged on the mean of its raw samples: within the bound it is stored, in MRAM too; beyond it F20 or F21
stands. -/
def State.offsetTake (s : State) (sensor : Nat) (mean : Int) : State :=
  let bound := if sensor < 16 then offB (s.portCfg sensor) else s.gen.oP
  if bound < mean.natAbs then (if sensor < 16 then s.f21 sensor 0 true mean else s.f20 2 true mean)
  else
    let s := if sensor < 16 then s.onStr sensor (fun x => { x with off := mean, offT := some s.now })
      else { s with pack := { s.pack with off := mean, offT := some s.now } }
    let s := s.mirrorDue { kind := 0x0A, key := min sensor 16, body := leI 4 mean } none
    if sensor < 16 then (if (s.str sensor).f21.getLsbD 0 then s.f21 sensor 0 false mean else s)
    else if s.pack.f20.getLsbD 2 then s.f20 2 false mean else s

/-- OFFSET_LEARNING (R176): the mean over the 1 s up to `t` of a sensor that must read zero, a string's (0–15) or the pack's
(16). A standby learns that of its own pack sensor (R174), and the offsets of the strings from the primary. -/
def execOffsetLearning (sensor : Nat) (t : Nat) (s : State) : Out :=
  .next (
    let s := s.at t
    if !s.mustBeZero sensor || (s.rawOf sensor).isEmpty || !(s.actsPrimary || 16 ≤ sensor) then s
    else s.offsetTake sensor (mean (s.rawOf sensor)))

/-- BACKUP_HAND_OVER (R169): the designated node's port has not been READY for 10 s. -/
def execBackupHandOver (s : State) : Out :=
  .next (
    match s.pack.isoOutT, s.gen.isoBackup with
    | some t, some _ => (s.at (t + sec 10)).isoNext
    | _, _ => s)

end Sys2Proof.Machine
end

