-- ==== Sys2Proof/Machine/SafetyIn.lean ====
section
/-! DEFINITION. The safety inputs (14 R350–R358): HVIL loops, isolate request, box lid, safe standstill. -/

namespace Sys2Proof.Machine

open Sys2Proof

/-- The code of an HVIL loop, most significant bit first (14 R350). -/
def hvilCode (n : Nat) : BitVec 8 := if n = 0 then 0xB4#8 else 0x4B#8

/-- A chip of an HVIL loop judged (14 R351): an on-chip leaks where the return current differs from the source's by more than 1 mA, and is
open below 8 mA where none leaves elsewhere; an off-chip is fed from outside above 1 mA or 2 V. -/
def hvilChip (on : Bool) (c : HvilChip) : HvilKind :=
  if on then
    if 100 < (c.src - c.rtn) + (c.rtn - c.src) then .leak else if c.rtn < 800 then .isOpen else .pass
  else if 100 < c.rtn || 2000 < c.v then .shortToSupply else .pass

/-- A code period judged (14 R351): it fails when any of its chips fails, with the kind of the last one that does. -/
def hvilJudge (n : Nat) (chips : List HvilChip) : HvilKind :=
  ((List.range 8).map (fun i => hvilChip ((hvilCode n).getMsbD i) (chips.getD i default))).foldl (fun k x => if x = .pass then k else x) .pass

/-- HVIL_CODE_PERIOD (R351–R353): a period passes or fails; two consecutive failures latch F40 or F41, 100 passes end the
condition and prove the loop. `cur` is the return current, 0.01 mA. In Peat the loops are not evaluated. -/
def execHvilCodePeriod (n : Nat) (chips : List HvilChip) (cur : Nat) (s : State) : Out :=
  let kind := hvilJudge n chips
  .next (
    if s.pwr.st == .peat then s
    else if kind == .pass then
      let s := s.onLoop n (fun l =>
        let k := min 100 (l.oks + 1)
        { l with passed := true, fails := 0, oks := k, cur := cur, proven := l.proven || k == 100 })
      if (s.loop n).oks = 100 then s.cease (40 + n) 16 else s
    else
      let s := s.onLoop n (fun l =>
        { l with passed := false, fails := min 2 (l.fails + 1), oks := 0, cur := cur, kind := kind.ctorIdx })
      let s := s.event .safein n
      if (s.loop n).fails = 2 then
        (if s.pwr.st == .moss then s.wakeBy 9 else s).stand (40 + n) 16 { value := kind.ctorIdx }
      else s)

/-- The isolate request or the lid. -/
def State.dual (s : State) (isLid : Bool) : DualIn := if isLid then s.lid else s.iso

/-- One dual input changed. -/
def State.onDual (s : State) (isLid : Bool) (g : DualIn → DualIn) : State :=
  if isLid then { s with lid := g s.lid } else { s with iso := g s.iso }

/-- Source of both channels open: F42 or F44. -/
def bothSrc (isLid : Bool) : Nat := if isLid then 44 else 42

/-- Source of the discrepancy: F43 or F45. -/
def discSrc (isLid : Bool) : Nat := if isLid then 45 else 43

/-- A pair of channels is evaluated (R355), once each has passed or failed its pulse check since power-on or wake from Peat (R357), so that one fed from any other
source than its own reads as a discrepancy (02 R54): both open
stand F42 or F44 at once; F42 and F44 cease after both have been closed for 1 s, the discrepancy after 1 s of
agreement. -/
def State.dualEval (s : State) (isLid : Bool) (before : DualIn) : State :=
  let d := s.dual isLid
  if !d.judged then s
  else
    let a := d.closed0
    let b := d.closed1
    let s := s.onDual isLid (fun d => { d with
      agreeT := if a == b && before.closed0 != before.closed1 then s.now else d.agreeT
      diffT := if a != b && (before.closed0 == before.closed1 || !before.judged) then s.now else d.diffT
      closedT := if a && b && !(before.closed0 && before.closed1) then s.now else d.closedT })
    let d := s.dual isLid
    let s := if !a && !b then s.stand (bothSrc isLid) 16 {} else s
    let s := if a && b && d.closedT + sec 1 ≤ s.now then s.cease (bothSrc isLid) 16 else s
    if a == b && d.agreeT + sec 1 ≤ s.now then s.cease (discSrc isLid) 16 else s

/-- One channel's pulse check (R354, R357): two failures make a pulse error, ten passes clear it, two passes prove it. -/
def pulseStep (ok pe prov : Bool) (bad oks : Nat) : Bool × Bool × Nat × Nat :=
  if ok then
    let k := min 10 (oks + 1)
    (pe && k < 10, prov || 2 ≤ k, 0, k)
  else
    let k := min 2 (bad + 1)
    (pe || 2 ≤ k, prov, k, 0)

/-- PULSE_CHECK_PERIOD (R354): the check of both channels' pulse windows in a 100 ms period; suspended in Moss, off in
Peat (R357). -/
def execPulseCheckPeriod (isLid : Bool) (ok0 : Bool) (ok1 : Bool) (s : State) : Out :=
  .next (
    if s.pwr.st != .run then s
    else
      let d := s.dual isLid
      let (pe0, pv0, b0, k0) := pulseStep ok0 d.pe0 d.prov0 d.bad0 d.ok0
      let (pe1, pv1, b1, k1) := pulseStep ok1 d.pe1 d.prov1 d.bad1 d.ok1
      let s := s.onDual isLid (fun d => { d with
        pe0 := pe0, pe1 := pe1, prov0 := pv0, prov1 := pv1, bad0 := b0, bad1 := b1, ok0 := k0, ok1 := k1 })
      let s := if (pe0 && !d.pe0) || (pe1 && !d.pe1) then s.event .safein 4 else s
      s.dualEval isLid d)

/-- DEBOUNCE_EXPIRY (R355): a new reading has held for the debounce time, and the channel's state changes. In Moss the inputs are
read by MOSS_INPUT_READ instead, and in Peat the sources are off (R357). -/
def execDebounceExpiry (isLid : Bool) (ch : Bool) (closed : Bool) (s : State) : Out :=
  .next (
    if s.pwr.st != .run then s
    else
      let d := s.dual isLid
      let s := s.onDual isLid (fun d => if ch then { d with c1 := closed } else { d with c0 := closed })
      let s := if (if ch then d.c1 else d.c0) != closed then s.event .safein (if isLid then 3 else 2) else s
      s.dualEval isLid d)

/-- The discrepancy time in force, ns. -/
def State.discNs (s : State) (isLid : Bool) : Nat := ms (if isLid then s.gen.discLid else s.gen.discIso)

/-- DISCREPANCY_TIME_EXPIRY (R355): one channel has been open for longer than the discrepancy time. -/
def execDiscrepancyTimeExpiry (isLid : Bool) (s : State) : Out :=
  .next (
    let d := s.dual isLid
    if !d.judged || d.closed0 == d.closed1 then s
    else ((s.at (d.diffT + s.discNs isLid)).event .safein 5).stand (discSrc isLid) 16 {})

/-- MOSS_INPUT_READ (R357): a state changes on two consecutive equal readings, and any change wakes the module. -/
def execMossInputRead (isLid : Bool) (c0 : Bool) (c1 : Bool) (s : State) : Out :=
  .next (
    if s.pwr.st != .moss then s
    else
      let d := s.dual isLid
      let n0 := if d.moss0 == some c0 then c0 else d.c0
      let n1 := if d.moss1 == some c1 then c1 else d.c1
      let s := s.onDual isLid (fun d => { d with c0 := n0, c1 := n1, moss0 := some c0, moss1 := some c1 })
      if n0 == d.c0 && n1 == d.c1 then s
      else (((s.event .safein (if isLid then 3 else 2)).wakeBy 9).dualEval isLid d))

/-- The conditions of safe standstill (R358): both channels report STILL, and an invalid one never does (15 R382). -/
def State.stillOk (s : State) : Bool :=
  [0, 1].all (fun n => s.axleValid n && (s.axle n).still) && !s.stands 47 16

/-- Since when both conditions of safe standstill have held. -/
def State.stillSince (s : State) : Nat := max (max (s.axle 0).stillT (s.axle 1).stillT) (s.mark 47 16).ceased

/-- STANDSTILL_DECLARED (R358): both channels have been STILL for 1 s. A pending class C whose current is below every
break rating has its low-current window (11 R291). -/
def execStandstillDeclared (s : State) : Out :=
  .next (
    if !s.stillOk || s.safe.standstill then s
    else
      let s := s.at (s.stillSince + sec 1)
      let s := ({ s with safe := { s.safe with standstill := true } } : State).event .safein 6
      (List.range 17).foldl (fun s p =>
        if (s.disc p).kind == .classC && s.drv.coresUp then
          match s.scopeCur p with
          | some i => if (i.natAbs : Int) < s.breakOf p then s.startWindow p else s
          | none => s
        else s) s)

end Sys2Proof.Machine
end

