-- ==== Sys2Proof/Machine/Dispatch.lean ====
section
/-! DEFINITION. One arm per command, in the order of spec/opcode_table.json. -/

namespace Sys2Proof.Machine

open Sys2Proof

def exec (i : Instr) (s : State) : Host.Outcome State Fault Refusal :=
  match i with
  | .identify d => Sys2Proof.Machine.execIdentify d s
  | .echo d => Sys2Proof.Machine.execEcho d s
  | .timeGet d => Sys2Proof.Machine.execTimeGet d s
  | .powerStateMoss d => Sys2Proof.Machine.execPowerStateMoss d s
  | .powerStatePeat d => Sys2Proof.Machine.execPowerStatePeat d s
  | .portStatus d => Sys2Proof.Machine.execPortStatus d s
  | .rosterAccept d => Sys2Proof.Machine.execRosterAccept d s
  | .openTapClear d => Sys2Proof.Machine.execOpenTapClear d s
  | .balance d ents => Sys2Proof.Machine.execBalance d ents s
  | .passportRead d => Sys2Proof.Machine.execPassportRead d s
  | .portRestart d => Sys2Proof.Machine.execPortRestart d s
  | .openWireNow d => Sys2Proof.Machine.execOpenWireNow d s
  | .emergencySupply d => Sys2Proof.Machine.execEmergencySupply d s
  | .vehicleMass d => Sys2Proof.Machine.execVehicleMass d s
  | .cellRead d => Sys2Proof.Machine.execCellRead d s
  | .capacitySet d pos cap sigma => Sys2Proof.Machine.execCapacitySet d pos cap sigma s
  | .groupClose d => Sys2Proof.Machine.execGroupClose d s
  | .groupOpen d => Sys2Proof.Machine.execGroupOpen d s
  | .disconnect d => Sys2Proof.Machine.execDisconnect d s
  | .outputSet d => Sys2Proof.Machine.execOutputSet d s
  | .outputClear d => Sys2Proof.Machine.execOutputClear d s
  | .faultClear d => Sys2Proof.Machine.execFaultClear d s
  | .cfgLoad d blob => Sys2Proof.Machine.execCfgLoad d blob s
  | .cfgRead d => Sys2Proof.Machine.execCfgRead d s
  | .sealConfirm d => Sys2Proof.Machine.execSealConfirm d s
  | .maintOpen d => Sys2Proof.Machine.execMaintOpen d s
  | .maintClose d => Sys2Proof.Machine.execMaintClose d s
  | .fuseProgram d image progOk => Sys2Proof.Machine.execFuseProgram d image progOk s
  | .tableRead d first count => Sys2Proof.Machine.execTableRead d first count s
  | .tableWrite d recs => Sys2Proof.Machine.execTableWrite d recs s
  | .bbRead d => Sys2Proof.Machine.execBbRead d s
  | .bbClear d => Sys2Proof.Machine.execBbClear d s
  | .fwLoad d chunk => Sys2Proof.Machine.execFwLoad d chunk s
  | .fwActivate d => Sys2Proof.Machine.execFwActivate d s
  | .canTx d frame => Sys2Proof.Machine.execCanTx d frame s
  | .canCancel d => Sys2Proof.Machine.execCanCancel d s
  | .canFilter d param => Sys2Proof.Machine.execCanFilter d param s
  | .canMode d => Sys2Proof.Machine.execCanMode d s
  | .roleHandover d => Sys2Proof.Machine.execRoleHandover d s
  | .pairAdopt d => Sys2Proof.Machine.execPairAdopt d s
  | .mirrorCheck d => Sys2Proof.Machine.execMirrorCheck d s
  | .stateReadback d => Sys2Proof.Machine.execStateReadback d s
  | .selfTest d fails => Sys2Proof.Machine.execSelfTest d fails s
  | .nodeStatus d => Sys2Proof.Machine.execNodeStatus d s
  | .doorbell ring v => Sys2Proof.Machine.execDoorbell ring v s
  | .descriptorFetch ring opcode d => Sys2Proof.Machine.execDescriptorFetch ring opcode d s
  | .completionWrite cq => Sys2Proof.Machine.execCompletionWrite cq s
  | .streamRecordWrite fn post => Sys2Proof.Machine.execStreamRecordWrite fn post s
  | .interruptModerationTimeout ring => Sys2Proof.Machine.execInterruptModerationTimeout ring s
  | .msixTableWrite vec entry => Sys2Proof.Machine.execMsixTableWrite vec entry s
  | .ringEnable ring ctrl => Sys2Proof.Machine.execRingEnable ring ctrl s
  | .ringDisable ring ctrl => Sys2Proof.Machine.execRingDisable ring ctrl s
  | .ringReset ring ctrl => Sys2Proof.Machine.execRingReset ring ctrl s
  | .ringStatusClear ring v => Sys2Proof.Machine.execRingStatusClear ring v s
  | .dmaError ring => Sys2Proof.Machine.execDmaError ring s
  | .pcieConfigRequest q => Sys2Proof.Machine.execPcieConfigRequest q s
  | .hostInterfaceReady => Sys2Proof.Machine.execHostInterfaceReady s
  | .perstNAssert => Sys2Proof.Machine.execPerstNAssert s
  | .linkReset => Sys2Proof.Machine.execLinkReset s
  | .d3hotEntry => Sys2Proof.Machine.execD3hotEntry s
  | .d0Return => Sys2Proof.Machine.execD0Return s
  | .softwareResetSvc => Sys2Proof.Machine.execSoftwareResetSvc s
  | .softwareResetSafe => Sys2Proof.Machine.execSoftwareResetSafe s
  | .softwareResetBoth => Sys2Proof.Machine.execSoftwareResetBoth s
  | .irqStatusAck v => Sys2Proof.Machine.execIrqStatusAck v s
  | .ringPendAck hi v => Sys2Proof.Machine.execRingPendAck hi v s
  | .eventRegisterClear reg v => Sys2Proof.Machine.execEventRegisterClear reg v s
  | .eventCounterClear reg => Sys2Proof.Machine.execEventCounterClear reg s
  | .loHalfRead off => Sys2Proof.Machine.execLoHalfRead off s
  | .spdCaptureRead ch isIndex => Sys2Proof.Machine.execSpdCaptureRead ch isIndex s
  | .collCntRead c => Sys2Proof.Machine.execCollCntRead c s
  | .hpWindowRead c off => Sys2Proof.Machine.execHpWindowRead c off s
  | .hpStatRead c => Sys2Proof.Machine.execHpStatRead c s
  | .hpLockTimeout c => Sys2Proof.Machine.execHpLockTimeout c s
  | .registerWrite off v => Sys2Proof.Machine.execRegisterWrite off v s
  | .powerOnReset vsup => Sys2Proof.Machine.execPowerOnReset vsup s
  | .rstNReset lowUs => Sys2Proof.Machine.execRstNReset lowUs s
  | .rstNDeassert => Sys2Proof.Machine.execRstNDeassert s
  | .domainPowerGood dom => Sys2Proof.Machine.execDomainPowerGood dom s
  | .builtInRepair finds unmappable => Sys2Proof.Machine.execBuiltInRepair finds unmappable s
  | .mramMount => Sys2Proof.Machine.execMramMount s
  | .readyToClose => Sys2Proof.Machine.execReadyToClose s
  | .readyTimeout => Sys2Proof.Machine.execReadyTimeout s
  | .supplyInterruptionBegin vsup => Sys2Proof.Machine.execSupplyInterruptionBegin vsup s
  | .saveWindowEntry => Sys2Proof.Machine.execSaveWindowEntry s
  | .saveWindowExpiry => Sys2Proof.Machine.execSaveWindowExpiry s
  | .interruptionEnd => Sys2Proof.Machine.execInterruptionEnd s
  | .wakePackCurrent v => Sys2Proof.Machine.execWakePackCurrent v s
  | .canWake c => Sys2Proof.Machine.execCanWake c s
  | .wakeTimerExpiry => Sys2Proof.Machine.execWakeTimerExpiry s
  | .chgPresHigh => Sys2Proof.Machine.execChgPresHigh s
  | .svcWakeHigh => Sys2Proof.Machine.execSvcWakeHigh s
  | .heartbeatSweepCycle => Sys2Proof.Machine.execHeartbeatSweepCycle s
  | .mossLimitExpiry => Sys2Proof.Machine.execMossLimitExpiry s
  | .selfCheckAlarm => Sys2Proof.Machine.execSelfCheckAlarm s
  | .wakeToneDetected p e => Sys2Proof.Machine.execWakeToneDetected p e s
  | .symbolLock p e => Sys2Proof.Machine.execSymbolLock p e s
  | .loopClosure p => Sys2Proof.Machine.execLoopClosure p s
  | .hopTimeout p => Sys2Proof.Machine.execHopTimeout p s
  | .rspFrameReceived p e f => Sys2Proof.Machine.execRspFrameReceived p e f s
  | .cmdResponseTimeout p addr => Sys2Proof.Machine.execCmdResponseTimeout p addr s
  | .probeReply p e addr rtt => Sys2Proof.Machine.execProbeReply p e addr rtt s
  | .delayProbeCycle p => Sys2Proof.Machine.execDelayProbeCycle p s
  | .idleOrderedSet p e isFault => Sys2Proof.Machine.execIdleOrderedSet p e isFault s
  | .lossOfSymbolLock p e => Sys2Proof.Machine.execLossOfSymbolLock p e s
  | .idleSetTimeout p e => Sys2Proof.Machine.execIdleSetTimeout p e s
  | .alarmToneDetected p e => Sys2Proof.Machine.execAlarmToneDetected p e s
  | .reedIssue p S => Sys2Proof.Machine.execReedIssue p S s
  | .reedFrameObserved p e f t => Sys2Proof.Machine.execReedFrameObserved p e f t s
  | .reedPulseMissing p e => Sys2Proof.Machine.execReedPulseMissing p e s
  | .collectLaunch p e => Sys2Proof.Machine.execCollectLaunch p e s
  | .collectFrameReceived p e f => Sys2Proof.Machine.execCollectFrameReceived p e f s
  | .breakEvent p e f => Sys2Proof.Machine.execBreakEvent p e f s
  | .restoredEvent p e f => Sys2Proof.Machine.execRestoredEvent p e f s
  | .toneOriginEvent p e bytes lineErr t => Sys2Proof.Machine.execToneOriginEvent p e bytes lineErr t s
  | .selfTestFailEvent p e f => Sys2Proof.Machine.execSelfTestFailEvent p e f s
  | .nvFailEvent pe f => Sys2Proof.Machine.execNvFailEvent pe f s
  | .splitModeEntry p => Sys2Proof.Machine.execSplitModeEntry p s
  | .splitModeEnd p => Sys2Proof.Machine.execSplitModeEnd p s
  | .engineLoopbackTest eng ok => Sys2Proof.Machine.execEngineLoopbackTest eng ok s
  | .engineSubstitution p => Sys2Proof.Machine.execEngineSubstitution p s
  | .modeChange p mode => Sys2Proof.Machine.execModeChange p mode s
  | .m3BurstStart p => Sys2Proof.Machine.execM3BurstStart p s
  | .m3BurstEnd p => Sys2Proof.Machine.execM3BurstEnd p s
  | .quietModeEntry p => Sys2Proof.Machine.execQuietModeEntry p s
  | .quietModeExit p => Sys2Proof.Machine.execQuietModeExit p s
  | .openWireGroupDue p => Sys2Proof.Machine.execOpenWireGroupDue p s
  | .sedgeSessionStart p => Sys2Proof.Machine.execSedgeSessionStart p s
  | .sedgeSequenceEnd p seq => Sys2Proof.Machine.execSedgeSequenceEnd p seq s
  | .balanceDurationEnd p addr => Sys2Proof.Machine.execBalanceDurationEnd p addr s
  | .packCurrentSample S val => Sys2Proof.Machine.execPackCurrentSample S val s
  | .fastOvercurrentTrip => Sys2Proof.Machine.execFastOvercurrentTrip s
  | .kirchhoffEvaluation S => Sys2Proof.Machine.execKirchhoffEvaluation S s
  | .offsetLearning sensor t => Sys2Proof.Machine.execOffsetLearning sensor t s
  | .kalmanUpdate S => Sys2Proof.Machine.execKalmanUpdate S s
  | .estimatorResultTimeout => Sys2Proof.Machine.execEstimatorResultTimeout s
  | .limitsPublication S => Sys2Proof.Machine.execLimitsPublication S s
  | .estimatorRecord S => Sys2Proof.Machine.execEstimatorRecord S s
  | .trueRestPoint p => Sys2Proof.Machine.execTrueRestPoint p s
  | .wispPointEvaluation p => Sys2Proof.Machine.execWispPointEvaluation p s
  | .divergenceCease g => Sys2Proof.Machine.execDivergenceCease g s
  | .energyRecompute => Sys2Proof.Machine.execEnergyRecompute s
  | .segmentClose p band => Sys2Proof.Machine.execSegmentClose p band s
  | .windowEnd p band => Sys2Proof.Machine.execWindowEnd p band s
  | .circuitFit g slot t => Sys2Proof.Machine.execCircuitFit g slot t s
  | .fitRecord p => Sys2Proof.Machine.execFitRecord p s
  | .tableWriteback g => Sys2Proof.Machine.execTableWriteback g s
  | .tableAgeAdvance => Sys2Proof.Machine.execTableAgeAdvance s
  | .ntcSample ohms => Sys2Proof.Machine.execNtcSample ohms s
  | .temperatureEvaluation => Sys2Proof.Machine.execTemperatureEvaluation s
  | .temperatureDemandFall p => Sys2Proof.Machine.execTemperatureDemandFall p s
  | .riseConfirmationTimeout sensor => Sys2Proof.Machine.execRiseConfirmationTimeout sensor s
  | .thermalOutputSwitch ch => Sys2Proof.Machine.execThermalOutputSwitch ch s
  | .junctionRead t0 t1 t2 t3 => Sys2Proof.Machine.execJunctionRead t0 t1 t2 t3 s
  | .junctionShutdown => Sys2Proof.Machine.execJunctionShutdown s
  | .junctionRecovery => Sys2Proof.Machine.execJunctionRecovery s
  | .faultMatrixEvaluation => Sys2Proof.Machine.execFaultMatrixEvaluation s
  | .persistenceExpiry src scope => Sys2Proof.Machine.execPersistenceExpiry src scope s
  | .classBWaitExpiry scope => Sys2Proof.Machine.execClassBWaitExpiry scope s
  | .lowCurrentWindow scope => Sys2Proof.Machine.execLowCurrentWindow scope s
  | .classCDeadline scope => Sys2Proof.Machine.execClassCDeadline scope s
  | .classDRelease src scope => Sys2Proof.Machine.execClassDRelease src scope s
  | .wadeTimerExpiry => Sys2Proof.Machine.execWadeTimerExpiry s
  | .precloseTestEnd => Sys2Proof.Machine.execPrecloseTestEnd s
  | .firstFitDue => Sys2Proof.Machine.execFirstFitDue s
  | .prechargeTimeout => Sys2Proof.Machine.execPrechargeTimeout s
  | .closeTimeElapsed => Sys2Proof.Machine.execCloseTimeElapsed s
  | .closeVerifyTimeout => Sys2Proof.Machine.execCloseVerifyTimeout s
  | .preOpenVerify => Sys2Proof.Machine.execPreOpenVerify s
  | .windowWaitExpiry => Sys2Proof.Machine.execWindowWaitExpiry s
  | .checkAtOpen p => Sys2Proof.Machine.execCheckAtOpen p s
  | .checkAtOpenNoData p => Sys2Proof.Machine.execCheckAtOpenNoData p s
  | .secondContactorCheck p => Sys2Proof.Machine.execSecondContactorCheck p s
  | .busDischargeTimeout p => Sys2Proof.Machine.execBusDischargeTimeout p s
  | .prechargeLockoutEnd p => Sys2Proof.Machine.execPrechargeLockoutEnd p s
  | .coilEchoTimeout ch => Sys2Proof.Machine.execCoilEchoTimeout ch s
  | .channelTrip ch cause cur => Sys2Proof.Machine.execChannelTrip ch cause cur s
  | .automaticRestart ch temp => Sys2Proof.Machine.execAutomaticRestart ch temp s
  | .retryRestore ch => Sys2Proof.Machine.execRetryRestore ch s
  | .openLoad ch cur => Sys2Proof.Machine.execOpenLoad ch cur s
  | .lswFault j read => Sys2Proof.Machine.execLswFault j read s
  | .safetyWatchdog => Sys2Proof.Machine.execSafetyWatchdog s
  | .serviceWatchdog => Sys2Proof.Machine.execServiceWatchdog s
  | .lockstepMismatch => Sys2Proof.Machine.execLockstepMismatch s
  | .supervisionResumed => Sys2Proof.Machine.execSupervisionResumed s
  | .holdWindowExpiry => Sys2Proof.Machine.execHoldWindowExpiry s
  | .holdSwitchOff => Sys2Proof.Machine.execHoldSwitchOff s
  | .limpNLow => Sys2Proof.Machine.execLimpNLow s
  | .limpNHigh => Sys2Proof.Machine.execLimpNHigh s
  | .dinEdge n high => Sys2Proof.Machine.execDinEdge n high s
  | .hvilCodePeriod n chips cur => Sys2Proof.Machine.execHvilCodePeriod n chips cur s
  | .pulseCheckPeriod isLid ok0 ok1 => Sys2Proof.Machine.execPulseCheckPeriod isLid ok0 ok1 s
  | .debounceExpiry isLid ch closed => Sys2Proof.Machine.execDebounceExpiry isLid ch closed s
  | .discrepancyTimeExpiry isLid => Sys2Proof.Machine.execDiscrepancyTimeExpiry isLid s
  | .mossInputRead isLid c0 c1 => Sys2Proof.Machine.execMossInputRead isLid c0 c1 s
  | .standstillDeclared => Sys2Proof.Machine.execStandstillDeclared s
  | .axleEdge ch a b t => Sys2Proof.Machine.execAxleEdge ch a b t s
  | .edgeReread ch a b t => Sys2Proof.Machine.execEdgeReread ch a b t s
  | .axleStandstill ch => Sys2Proof.Machine.execAxleStandstill ch s
  | .wireDisagreement ch phaseB => Sys2Proof.Machine.execWireDisagreement ch phaseB s
  | .spdSupplyFault ch => Sys2Proof.Machine.execSpdSupplyFault ch s
  | .axleRecord S => Sys2Proof.Machine.execAxleRecord S s
  | .canFrameReceived c frame tSof => Sys2Proof.Machine.execCanFrameReceived c frame tSof s
  | .skewWindowExpiry m => Sys2Proof.Machine.execSkewWindowExpiry m s
  | .safeMessageTimeout m => Sys2Proof.Machine.execSafeMessageTimeout m s
  | .statusMessageSend => Sys2Proof.Machine.execStatusMessageSend s
  | .referenceMessageSend => Sys2Proof.Machine.execReferenceMessageSend s
  | .networkTimeInvalid => Sys2Proof.Machine.execNetworkTimeInvalid s
  | .transmitAttemptEnd c e tSof => Sys2Proof.Machine.execTransmitAttemptEnd c e tSof s
  | .busOffRecovery c => Sys2Proof.Machine.execBusOffRecovery c s
  | .causewayTraining partner rtt => Sys2Proof.Machine.execCausewayTraining partner rtt s
  | .heartbeatSend => Sys2Proof.Machine.execHeartbeatSend s
  | .heartbeatReceived hb => Sys2Proof.Machine.execHeartbeatReceived hb s
  | .partnerLost => Sys2Proof.Machine.execPartnerLost s
  | .proofWindowEnd => Sys2Proof.Machine.execProofWindowEnd s
  | .trainingDeadline => Sys2Proof.Machine.execTrainingDeadline s
  | .coilFrameReceived f => Sys2Proof.Machine.execCoilFrameReceived f s
  | .pairEvtFrameReceived ev => Sys2Proof.Machine.execPairEvtFrameReceived ev s
  | .mirrorFrameReceived item => Sys2Proof.Machine.execMirrorFrameReceived item s
  | .nvwFrameReceived fr => Sys2Proof.Machine.execNvwFrameReceived fr s
  | .nvwResultTimeout => Sys2Proof.Machine.execNvwResultTimeout s
  | .digestExchange partner => Sys2Proof.Machine.execDigestExchange partner s
  | .resyncComplete => Sys2Proof.Machine.execResyncComplete s
  | .pairOffsetFault => Sys2Proof.Machine.execPairOffsetFault s
  | .mramRecordWrite rec fail1 fail2 => Sys2Proof.Machine.execMramRecordWrite rec fail1 fail2 s
  | .recordDeferralRetry => Sys2Proof.Machine.execRecordDeferralRetry s
  | .deferredRecordTimeout => Sys2Proof.Machine.execDeferredRecordTimeout s
  | .journalStringCounters => Sys2Proof.Machine.execJournalStringCounters s
  | .estimatorStateSave => Sys2Proof.Machine.execEstimatorStateSave s
  | .ageingRecordDaily => Sys2Proof.Machine.execAgeingRecordDaily s
  | .passportRewrite => Sys2Proof.Machine.execPassportRewrite s
  | .snapshotSweepCommit p => Sys2Proof.Machine.execSnapshotSweepCommit p s
  | .sramScrub bad => Sys2Proof.Machine.execSramScrub bad s
  | .mramScrub badSectors copyBad1 copyBad2 => Sys2Proof.Machine.execMramScrub badSectors copyBad1 copyBad2 s
  | .sramCorrectedError w => Sys2Proof.Machine.execSramCorrectedError w s
  | .sramUncorrectableError region w => Sys2Proof.Machine.execSramUncorrectableError region w s
  | .laneCrossCheck bad => Sys2Proof.Machine.execLaneCrossCheck bad s
  | .referenceCheck bad => Sys2Proof.Machine.execReferenceCheck bad s
  | .firmwareTrialConfirm => Sys2Proof.Machine.execFirmwareTrialConfirm s
  | .pendingBlobDiscard => Sys2Proof.Machine.execPendingBlobDiscard s
  | .maintSessionTimeout => Sys2Proof.Machine.execMaintSessionTimeout s
  | .massLapse => Sys2Proof.Machine.execMassLapse s
  | .emergencySupplyLapse => Sys2Proof.Machine.execEmergencySupplyLapse s
  | .serviceCoresResumed => Sys2Proof.Machine.execServiceCoresResumed s
  | .vsupOutOfRange v => Sys2Proof.Machine.execVsupOutOfRange v s
  | .coilSupplyLow a b => Sys2Proof.Machine.execCoilSupplyLow a b s
  | .canReceiveError c inFlag => Sys2Proof.Machine.execCanReceiveError c inFlag s
  | .pllLoss => Sys2Proof.Machine.execPllLoss s
  | .interpolatorPhaseReached p => Sys2Proof.Machine.execInterpolatorPhaseReached p s
  | .chgPresLow => Sys2Proof.Machine.execChgPresLow s
  | .svcWakeLow => Sys2Proof.Machine.execSvcWakeLow s
  | .backupHandOver => Sys2Proof.Machine.execBackupHandOver s

end Sys2Proof.Machine
end

