-- ==== Sys2Proof/Machine/Step.lean ====
section
/-! DEFINITION. One step of the block: the command at the front of its queue, or, with none waiting, a tick of its time
base; and how a command is put in front. -/

namespace Sys2Proof.Machine

open Sys2Proof

/-- A step (assumption log 15): the command at the front of the queue, on the state with the queue's rest; with an empty
queue one tick of the time base. -/
def step (s : State) : Host.Outcome State Fault Refusal :=
  match s.pending with
  | c :: r => exec c { s with pending := r }
  | [] => .next s.tick

/-- The command that a word spells, put at the front of the queue; the table gives no row bits, so no word spells one. -/
def State.withFetchWord (s : State) (nbits w : Nat) : State :=
  match decodeTableWord nbits w with
  | some c => { s with pending := c :: s.pending }
  | none => s

end Sys2Proof.Machine
end

