-- ==== Sys2Proof/Safety.lean ====
section
/-! DEFINITION. The terms that statements use: when a host command is accepted and what it then finds (19 R464, R465), the
permission codes of each opcode as chapter 19 tables them, and when the fuse bank is sound (11 R301; 22 R541). -/

namespace Sys2Proof.Machine

open Sys2Proof

/-- The permissions of a command hold, and no command of its opcode runs. -/
def State.admits (s : State) (op : Nat) (perms : List Perm) (bars : Bool) : Bool :=
  perms.all (fun p => s.permits bars p) && !s.busy op

/-- The state an accepted command acts on: the command stands in the log, and an open session counts from it. -/
def State.took (s : State) (op : Nat) (d : Desc) : State := s.accept (s.refOf op d)

/-- A host command: its opcode, its descriptor, the permissions of its row in the order of R464, and whether a provisional
primary is refused it (17 R424). -/
structure HostCmd where
  op : Nat
  d : Desc
  perms : List Perm
  bars : Bool
  deriving DecidableEq, Repr, Inhabited

end Sys2Proof.Machine

namespace Sys2Proof

open Machine

/-- The host commands, with the Permitted column of R470–R482; none for every other command. -/
def Instr.host? (c : Instr) : Option HostCmd :=
  match c with
  | .identify d => some ⟨0x01, d, [], false⟩
  | .echo d => some ⟨0x02, d, [], false⟩
  | .timeGet d => some ⟨0x03, d, [], false⟩
  | .powerStateMoss d => some ⟨0x04, d, [.P, .S, .C], false⟩
  | .powerStatePeat d => some ⟨0x04, d, [.P, .S, .O, .C], false⟩
  | .portStatus d => some ⟨0x10, d, [], false⟩
  | .rosterAccept d => some ⟨0x11, d, [.P, .S, .M, .O], true⟩
  | .openTapClear d => some ⟨0x12, d, [.P, .S, .M], true⟩
  | .balance d _ => some ⟨0x13, d, [.P, .S, .C], false⟩
  | .passportRead d => some ⟨0x14, d, [], false⟩
  | .portRestart d => some ⟨0x15, d, [.P, .S, .C], false⟩
  | .openWireNow d => some ⟨0x16, d, [.P, .S, .C], false⟩
  | .emergencySupply d => some ⟨0x20, d, [.P, .S], false⟩
  | .vehicleMass d => some ⟨0x21, d, [.P, .S], false⟩
  | .cellRead d => some ⟨0x22, d, [], false⟩
  | .capacitySet d _ _ _ => some ⟨0x23, d, [.P, .S, .M], true⟩
  | .groupClose d => some ⟨0x30, d, [.P, .S, .C], true⟩
  | .groupOpen d => some ⟨0x31, d, [.P, .C], false⟩
  | .disconnect d => some ⟨0x32, d, [.P, .C], false⟩
  | .outputSet d => some ⟨0x33, d, [.P, .S, .C], false⟩
  | .outputClear d => some ⟨0x34, d, [.C], false⟩
  | .faultClear d => some ⟨0x40, d, [.C], false⟩
  | .cfgLoad d _ => some ⟨0x41, d, [.P, .m], false⟩
  | .cfgRead d => some ⟨0x42, d, [], false⟩
  | .sealConfirm d => some ⟨0x43, d, [.P, .m, .O], true⟩
  | .maintOpen d => some ⟨0x44, d, [], false⟩
  | .maintClose d => some ⟨0x45, d, [], false⟩
  | .fuseProgram d _ _ => some ⟨0x46, d, [.m, .O], false⟩
  | .tableRead d _ _ => some ⟨0x50, d, [], false⟩
  | .tableWrite d _ => some ⟨0x51, d, [.P, .S, .M, .O], true⟩
  | .bbRead d => some ⟨0x52, d, [], false⟩
  | .bbClear d => some ⟨0x53, d, [.M], false⟩
  | .fwLoad d _ => some ⟨0x54, d, [.M], false⟩
  | .fwActivate d => some ⟨0x55, d, [.M, .O], false⟩
  | .canTx d _ => some ⟨0x60, d, [], false⟩
  | .canCancel d => some ⟨0x61, d, [], false⟩
  | .canFilter d _ => some ⟨0x62, d, [], false⟩
  | .canMode d => some ⟨0x63, d, [], false⟩
  | .roleHandover d => some ⟨0x70, d, [.X, .P, .S, .C], false⟩
  | .pairAdopt d => some ⟨0x71, d, [.X, .P, .V, .M, .O], true⟩
  | .mirrorCheck d => some ⟨0x72, d, [.X], false⟩
  | .stateReadback d => some ⟨0x80, d, [], false⟩
  | .selfTest d _ => some ⟨0x81, d, if d.imm = 5#32 ∨ d.imm = 6#32 then [.O] else [], false⟩
  | .nodeStatus d => some ⟨0x82, d, [], false⟩
  | .doorbell _ _ => none
  | .descriptorFetch _ _ _ => none
  | .completionWrite _ => none
  | .streamRecordWrite _ _ => none
  | .interruptModerationTimeout _ => none
  | .msixTableWrite _ _ => none
  | .ringEnable _ _ => none
  | .ringDisable _ _ => none
  | .ringReset _ _ => none
  | .ringStatusClear _ _ => none
  | .dmaError _ => none
  | .pcieConfigRequest _ => none
  | .hostInterfaceReady => none
  | .perstNAssert => none
  | .linkReset => none
  | .d3hotEntry => none
  | .d0Return => none
  | .softwareResetSvc => none
  | .softwareResetSafe => none
  | .softwareResetBoth => none
  | .irqStatusAck _ => none
  | .ringPendAck _ _ => none
  | .eventRegisterClear _ _ => none
  | .eventCounterClear _ => none
  | .loHalfRead _ => none
  | .spdCaptureRead _ _ => none
  | .collCntRead _ => none
  | .hpWindowRead _ _ => none
  | .hpStatRead _ => none
  | .hpLockTimeout _ => none
  | .registerWrite _ _ => none
  | .powerOnReset _ => none
  | .rstNReset _ => none
  | .rstNDeassert => none
  | .domainPowerGood _ => none
  | .builtInRepair _ _ => none
  | .mramMount => none
  | .readyToClose => none
  | .readyTimeout => none
  | .supplyInterruptionBegin _ => none
  | .saveWindowEntry => none
  | .saveWindowExpiry => none
  | .interruptionEnd => none
  | .wakePackCurrent _ => none
  | .canWake _ => none
  | .wakeTimerExpiry => none
  | .chgPresHigh => none
  | .svcWakeHigh => none
  | .heartbeatSweepCycle => none
  | .mossLimitExpiry => none
  | .selfCheckAlarm => none
  | .wakeToneDetected _ _ => none
  | .symbolLock _ _ => none
  | .loopClosure _ => none
  | .hopTimeout _ => none
  | .rspFrameReceived _ _ _ => none
  | .cmdResponseTimeout _ _ => none
  | .probeReply _ _ _ _ => none
  | .delayProbeCycle _ => none
  | .idleOrderedSet _ _ _ => none
  | .lossOfSymbolLock _ _ => none
  | .idleSetTimeout _ _ => none
  | .alarmToneDetected _ _ => none
  | .reedIssue _ _ => none
  | .reedFrameObserved _ _ _ _ => none
  | .reedPulseMissing _ _ => none
  | .collectLaunch _ _ => none
  | .collectFrameReceived _ _ _ => none
  | .breakEvent _ _ _ => none
  | .restoredEvent _ _ _ => none
  | .toneOriginEvent _ _ _ _ _ => none
  | .selfTestFailEvent _ _ _ => none
  | .nvFailEvent _ _ => none
  | .splitModeEntry _ => none
  | .splitModeEnd _ => none
  | .engineLoopbackTest _ _ => none
  | .engineSubstitution _ => none
  | .modeChange _ _ => none
  | .m3BurstStart _ => none
  | .m3BurstEnd _ => none
  | .quietModeEntry _ => none
  | .quietModeExit _ => none
  | .openWireGroupDue _ => none
  | .sedgeSessionStart _ => none
  | .sedgeSequenceEnd _ _ => none
  | .balanceDurationEnd _ _ => none
  | .packCurrentSample _ _ => none
  | .fastOvercurrentTrip => none
  | .kirchhoffEvaluation _ => none
  | .offsetLearning _ _ => none
  | .kalmanUpdate _ => none
  | .estimatorResultTimeout => none
  | .limitsPublication _ => none
  | .estimatorRecord _ => none
  | .trueRestPoint _ => none
  | .wispPointEvaluation _ => none
  | .divergenceCease _ => none
  | .energyRecompute => none
  | .segmentClose _ _ => none
  | .windowEnd _ _ => none
  | .circuitFit _ _ _ => none
  | .fitRecord _ => none
  | .tableWriteback _ => none
  | .tableAgeAdvance => none
  | .ntcSample _ => none
  | .temperatureEvaluation => none
  | .temperatureDemandFall _ => none
  | .riseConfirmationTimeout _ => none
  | .thermalOutputSwitch _ => none
  | .junctionRead _ _ _ _ => none
  | .junctionShutdown => none
  | .junctionRecovery => none
  | .faultMatrixEvaluation => none
  | .persistenceExpiry _ _ => none
  | .classBWaitExpiry _ => none
  | .lowCurrentWindow _ => none
  | .classCDeadline _ => none
  | .classDRelease _ _ => none
  | .wadeTimerExpiry => none
  | .precloseTestEnd => none
  | .firstFitDue => none
  | .prechargeTimeout => none
  | .closeTimeElapsed => none
  | .closeVerifyTimeout => none
  | .preOpenVerify => none
  | .windowWaitExpiry => none
  | .checkAtOpen _ => none
  | .checkAtOpenNoData _ => none
  | .secondContactorCheck _ => none
  | .busDischargeTimeout _ => none
  | .prechargeLockoutEnd _ => none
  | .coilEchoTimeout _ => none
  | .channelTrip _ _ _ => none
  | .automaticRestart _ _ => none
  | .retryRestore _ => none
  | .openLoad _ _ => none
  | .lswFault _ _ => none
  | .safetyWatchdog => none
  | .serviceWatchdog => none
  | .lockstepMismatch => none
  | .supervisionResumed => none
  | .holdWindowExpiry => none
  | .holdSwitchOff => none
  | .limpNLow => none
  | .limpNHigh => none
  | .dinEdge _ _ => none
  | .hvilCodePeriod _ _ _ => none
  | .pulseCheckPeriod _ _ _ => none
  | .debounceExpiry _ _ _ => none
  | .discrepancyTimeExpiry _ => none
  | .mossInputRead _ _ _ => none
  | .standstillDeclared => none
  | .axleEdge _ _ _ _ => none
  | .edgeReread _ _ _ _ => none
  | .axleStandstill _ => none
  | .wireDisagreement _ _ => none
  | .spdSupplyFault _ => none
  | .axleRecord _ => none
  | .canFrameReceived _ _ _ => none
  | .skewWindowExpiry _ => none
  | .safeMessageTimeout _ => none
  | .statusMessageSend => none
  | .referenceMessageSend => none
  | .networkTimeInvalid => none
  | .transmitAttemptEnd _ _ _ => none
  | .busOffRecovery _ => none
  | .causewayTraining _ _ => none
  | .heartbeatSend => none
  | .heartbeatReceived _ => none
  | .partnerLost => none
  | .proofWindowEnd => none
  | .trainingDeadline => none
  | .coilFrameReceived _ => none
  | .pairEvtFrameReceived _ => none
  | .mirrorFrameReceived _ => none
  | .nvwFrameReceived _ => none
  | .nvwResultTimeout => none
  | .digestExchange _ => none
  | .resyncComplete => none
  | .pairOffsetFault => none
  | .mramRecordWrite _ _ _ => none
  | .recordDeferralRetry => none
  | .deferredRecordTimeout => none
  | .journalStringCounters => none
  | .estimatorStateSave => none
  | .ageingRecordDaily => none
  | .passportRewrite => none
  | .snapshotSweepCommit _ => none
  | .sramScrub _ => none
  | .mramScrub _ _ _ => none
  | .sramCorrectedError _ => none
  | .sramUncorrectableError _ _ => none
  | .laneCrossCheck _ => none
  | .referenceCheck _ => none
  | .firmwareTrialConfirm => none
  | .pendingBlobDiscard => none
  | .maintSessionTimeout => none
  | .massLapse => none
  | .emergencySupplyLapse => none
  | .serviceCoresResumed => none
  | .vsupOutOfRange _ => none
  | .coilSupplyLow _ _ => none
  | .canReceiveError _ _ => none
  | .pllLoss => none
  | .interpolatorPhaseReached _ => none
  | .chgPresLow => none
  | .svcWakeLow => none
  | .backupHandOver => none

/-- The state that a command's checks find: GROUP_CLOSE ends an open maintenance session when it is fetched (14 R371). -/
def Instr.found (c : Instr) (s : State) : State :=
  match c.host? with
  | some h => if h.op = 0x30 then s.maintEnd 3 else s
  | none => s

end Sys2Proof

namespace Sys2Proof.Machine

/-- The fuse bank is sound: slots 0 to some k are programmed and no others, and slot k is in force. -/
def FuseBank.sound (f : FuseBank) : Prop :=
  f.inForce < 4 ∧ (∀ n, (Tab.find f.slots n).isSome = true ↔ n ≤ f.inForce)

end Sys2Proof.Machine
end

