-- ==== Sys2Proof/Certificates/Slice0/Obligations.lean ====
section
/-! DEFINITION. The statements for the provers. -/

open Sys2Proof Sys2Proof.Machine

/-- Lapses of what a host has given complete with their effect (R540, R368, R371, R257, R474). FIRMWARE_TRIAL_CONFIRM
confirms the running slot, PENDING_BLOB_DISCARD drops the pending blob and leaves the one in force,
MAINT_SESSION_TIMEOUT ends the session, MASS_LAPSE and EMERGENCY_SUPPLY_LAPSE withdraw what the host supplied: each
whenever it has something to end, whatever else the state holds. That module time moves to the instant of the lapse
is the model's choice (assumption log 11). -/
def Obligations.LapsesComplete : Prop :=
  ∀ s : State,
    (∀ t0, s.mram.fwTrialT = some t0 → ∃ t : State, exec .firmwareTrialConfirm s = .next t ∧ t.mram.fwTrialT = none ∧
      t.mram.fwPrev = s.mram.fwActive ∧ t.mram.fwActive = s.mram.fwActive ∧ t.now = max s.now (t0 + mins 10)) ∧
    (∀ b, s.cfg.pend = some b → ∃ t : State, exec .pendingBlobDiscard s = .next t ∧ t.cfg.pend = none ∧ t.cfg.work = s.cfg.work ∧
      t.cfg.valid = s.cfg.valid ∧ t.now = max s.now (s.cfg.pendT + mins 30)) ∧
    (s.cfg.maint = true → ∃ t : State, exec .maintSessionTimeout s = .next t ∧ t.cfg.maint = false ∧
      t.now = max s.now (s.cfg.maintT + mins 30)) ∧
    (∀ m, s.pack.mass = some m → ∃ t : State, exec .massLapse s = .next t ∧ t.pack.mass = none ∧ t.massNow = s.gen.massMax.getD 0 ∧
      t.now = max s.now (s.pack.massT + mins 10)) ∧
    (∀ t0, s.pack.emgLapse = some t0 → ∃ t : State, exec .emergencySupplyLapse s = .next t ∧ t.pack.emgHost = false ∧
      t.pack.emgLapse = none ∧ t.emergency = s.pack.emgMsg ∧ t.now = max s.now t0)

/-- Errors, scrubs and checks of the module's own memories and lanes are counted and repaired (R551, R552, R553, R556,
R559). A corrected SRAM word and a scrub of any list of words count into REPAIR_ECC_CE, saturating; an uncorrectable
error leaves its page to be mapped out; an MRAM scrub remaps each sector it names, in order, and then checks the
configuration copies; the first lane that fails is replaced by the spare; the reference check keeps its failing
elements. -/
def Obligations.RepairRowsComplete : Prop :=
  ∀ s : State,
    (∀ w, ∃ t : State, exec (.sramCorrectedError w) s = .next t ∧ t.repair.ce = min (s.repair.ce + 1) 0xFFFFFFFF) ∧
    (∀ ws, s.repair.ce ≤ 0xFFFFFFFF → ∃ t : State, exec (.sramScrub ws) s = .next t ∧
      t.repair.ce = min (s.repair.ce + ws.length) 0xFFFFFFFF ∧ t.therm.scrubSram = (scrubOf s.therm.band).1) ∧
    (∀ r w, ∃ t : State, exec (.sramUncorrectableError r w) s = .next t ∧
      t.repair.records.any (fun x => x.origin == 2 && x.kind == 3 && x.unit == w / 512) = true) ∧
    (∀ l, s.mounted = true → s.mayWrite = true → s.pwr.intr ≠ .saveWindow →
      ∃ u : State, exec (.mramScrub l false false) s = .next ((l.foldl (fun u x => u.sectorRemap x) u).copiesAtScrub) ∧
        u.therm.scrubMram = (scrubOf s.therm.band).2 ∧ u.mram = s.mram ∧ u.cfg = s.cfg) ∧
    (∀ x, s.mram.remap.length < 48 → s.pwr.intr ≠ .saveWindow → (s.sectorRemap x).mram.remap = s.mram.remap ++ [x]) ∧
    (∀ k, k < 8 → s.pwr.st = .run → s.pwr.intr ≠ .saveWindow → s.repair.laneBad.getLsbD k = false → s.repair.spareLane = none →
      ∃ t : State, exec (.laneCrossCheck (some k)) s = .next t ∧ t.repair.spareLane = some k ∧ t.repair.lanes = s.repair.lanes) ∧
    (∀ b, s.pwr.st = .run → ∃ t : State, exec (.referenceCheck b) s = .next t ∧ t.repair.refBad = b)

/-- The timers of the fault matrix complete with their action (R284, R290, R291, R294, R297, R298). A persistence that
runs out latches its source; an expired break-rating wait opens its entry regardless of current; low current turns a
pending class C disconnect into an opening; the class C deadline escalates to class B; a class D latch whose release
time has run clears; the Wade timer reaches 0 and requests class C for the sources it holds; an evaluation settles
the matrix. Each under the condition of its rule alone. That time moves to the deadline is the model's choice
(assumption log 11). -/
def Obligations.TimersOfProtection : Prop :=
  ∀ (s : State) (n q : Nat),
    (∀ u : State, s.stands n q = true → u = s.at ((s.mark n q).since + s.persistence n) → exec (.persistenceExpiry n q) s =
      .next ((u.latch n q (u.why n q)).seqKick)) ∧
    (q ≠ 16 → (s.disc q).kind = .classB → s.drv.coresUp = true → exec (.classBWaitExpiry q) s =
      .next ((((s.at (s.disc q).deadline).openScope q true).seqKick).shutStep)) ∧
    (∀ t0, (s.disc q).kind = .classC → s.windowAt q = some t0 → exec (.lowCurrentWindow q) s =
      .next ((s.at t0).startWindow q)) ∧
    ((s.disc q).kind = .classC → ∃ u : State, u = (s.at (s.disc q).deadline).escalateB q ∧
      exec (.classCDeadline q) s = .next (u.startB q u.waitW none)) ∧
    (s.isLatched n q = true → s.stands n q = false → s.effClass n q = 3 → (s.faultCfg n).latching = false →
      exec (.classDRelease n q) s = .next ((s.at ((s.mark n q).ceased + s.releaseTime n)).unlatch n q)) ∧
    (s.wade.on = true → exec .wadeTimerExpiry s = .next s.wadeOut.wadeOpens ∧ s.wadeOut.wade.left = 0 ∧
      s.wadeOut.wade.expired = true) ∧
    exec .faultMatrixEvaluation s = .next s.matrixEval

/-- The deadlines of a close sequence complete with its next step (R316, R317, R319, R322, R328). The end of the pre-
close test switches KN on and starts pre-charge with its timeout; the first fit is made when the bus rose, and the
sequence gives up otherwise; the pre-charge timeout aborts with F35; the end of a close time and of the verify times
pass the member on or give it up; the window wait fails the member. Each in the phase its rule names. That time
moves to the deadline is the model's choice (assumption log 11). -/
def Obligations.CloseSequenceTimers : Prop :=
  ∀ (s : State) (p : Nat), p = s.seqLead →
    (∀ i kn, s.ctrOf p .pre = some i → s.ctrOf p .kn = some kn → s.atPh .preOn = true →
      (s.at (s.seq.t + s.closeNs i + ms 50)).seqBarred = false → (s.at (s.seq.t + s.closeNs i + ms 50)).supplyLow kn = false →
      ∃ t : State, exec .precloseTestEnd s = .next t ∧ t.seq.ph = .kn ∧
        t.seq.tout = 9 * tauExp ((s.portCfg p).pre.getD { r := 0, c := 0, rating := 0 }) / 2 + ms s.gen.margin) ∧
    ((s.atPh .kn || s.atPh .charging) = true → s.seq.fitted = false → ∃ t u : State, exec .firstFitDue s = .next t ∧ u.seq.ph = .charging ∧
      t = if u.busRose p then u.seqFit p else u.noRise p) ∧
    ((s.atPh .kn || s.atPh .charging) = true → ∃ u : State, u = s.at (s.seq.tc + s.seq.tout) ∧
      exec .prechargeTimeout s = .next (((u.seqAbort 0x0A).finding 35 p { value := u.vBus p }).seqKick)) ∧
    (s.atPh .kn = true → ∃ t : State, exec .closeTimeElapsed s = .next t ∧ t.seq.ph = .charging ∧ t.now = max s.now s.seq.tc) ∧
    (∀ i, (s.atPh .kp || s.atPh .kpWin) = true → s.ctrOf p .kp = some i → ∃ u : State, u = s.at (s.seq.t + s.closeNs i + ms 50) ∧
      exec .closeVerifyTimeout s = .next ((if u.kpOk p then u.kpVerified p else u.seqF33 [i]).seqKick)) ∧
    (∀ i, s.atPh .preOff = true → s.ctrOf p .pre = some i → ∃ u : State, u = s.at (s.seq.t + s.openNs i + ms 20) ∧
      exec .preOpenVerify s = .next ((if u.auxClosed i then u.seqF32 [i] else (u.setCtr i .isOpen).memberDone).seqKick)) ∧
    ((s.atPh .waitSamples || s.atPh .waitWindow) = true →
      exec .windowWaitExpiry s = .next (((s.at (s.seq.t0 + ms s.gen.windowWait)).memberEnd 0x0C).seqKick))

/-- The checks after an opening complete with their judgement (R327, R328, R321, R331). The check at open runs on the
string current once it is due and there is a current to judge; without current data both contactors become UNKNOWN
by its own row; the second contactor is judged after its open time; a bus that has discharged ends its watch and one
that has not is a finding; a lockout is judged anew; a missing coil echo raises F37. An OTH contactor c is named 17
+ c, the model's choice (assumption log 28); time moves to the deadline (assumption log 11). -/
def Obligations.ChecksAtOpenComplete : Prop :=
  ∀ (s : State) (p : Nat),
    (∀ u : State, s.leadOf p < 17 → s.drv.coresUp = true → (s.opn (s.leadOf p)).ph = .first → u = s.at (s.checkDue (s.leadOf p)) →
      exec (.checkAtOpen p) s = .next (if u.checkHas (s.leadOf p) then (u.checkOpen (s.leadOf p)).seqKick
        else u.onOpn (s.leadOf p) (fun o => { o with await := true }))) ∧
    (s.drv.coresUp = true → (s.opn (s.leadOf p)).ph = .first → s.checkHas (s.leadOf p) = false →
      exec (.checkAtOpenNoData p) s = .next
        (((s.at (s.checkDue (s.leadOf p) + ms 100)).checkNoData (s.leadOf p)).seqKick)) ∧
    (s.drv.coresUp = true → ((s.opn (s.leadOf p)).ph = .second ∨ (s.opn (s.leadOf p)).ph = .suspect ∨
        (s.opn (s.leadOf p)).ph = .released ∨ (s.opn (s.leadOf p)).ph = .noData) → exec (.secondContactorCheck p) s = .next
      (((s.at (s.openDue (s.leadOf p) (s.otherOf (s.leadOf p)))).secondCheck (s.leadOf p)).seqKick)) ∧
    ((s.opn (s.leadOf p)).bus = true → 9 * s.vStr (s.leadOf p) ≤ 10 * ((s.str (s.leadOf p)).vx.getD 0).natAbs →
      ∃ t : State, exec (.busDischargeTimeout p) s = .next t ∧ (t.opn (s.leadOf p)).bus = false ∧
        t.now = max s.now (s.opn (s.leadOf p)).busT) ∧
    exec (.prechargeLockoutEnd p) s = .next (s.lockCheck p) ∧
    (∀ x, s.pair.coilWait.find? (fun y => y.1 == p) = some x → ∃ u : State, exec (.coilEchoTimeout p) s = .next (u.f37Settle p) ∧
      u.now = max s.now (x.2 + ms 2) ∧ u.pair.coilWait = s.pair.coilWait.filter (fun y => y ≠ x) ∧
        u.pair.noEcho = s.pair.noEcho ||| (1#12 <<< p))

/-- The commands of the current paths complete with their effect (R141, R173, R176, R178, R169). A pack current sample
enters live state at its instant and the sources that rest on it act; the fast comparator releases every LSW and
latches F16; an evaluation of the Kirchhoff check runs whenever the check runs and does not skip; an offset within
its bound is learned; injection is handed over. -/
def Obligations.CurrentRowsComplete : Prop :=
  ∀ (s : State) (S : Nat) (v : Int),
    (s.gen.packUsed = true → s.pwr.st ≠ .peat → S % 250000 = 0 → s.pack.iT < S →
      exec (.packCurrentSample S v) s = .next (((s.at S).packTaken S v).packActs S (S - s.pack.iT)
        (s.packRaw v - s.pack.off)) ∧
      ((s.at S).packTaken S v).pack.i = some ((s.at S).packI v) ∧ ((s.at S).packTaken S v).pack.iT = S) ∧
    (s.gen.packUsed = true → s.drvUp = true → ∃ (u v w : State), (u.fault 16).standing.getLsbD 16 = true ∧
      v = (if u.drv.coresUp then u.openModule 3 else u) ∧ w = v.latch 16 16 { hw := true, value := v.pack.i.getD 0 } ∧
      (∀ j, j < 4 → (u.lsw j).closed = false) ∧
      exec .fastOvercurrentTrip s = .next (if s.scopeOn 16 && w.drv.coresUp then w.openedRec 16 false else w)) ∧
    (∀ u : State, S % ms 40 = 0 → u = ((s.at S).attributeEnd).partnerCheck S → u.kirchRuns = true →
      exec (.kirchhoffEvaluation S) s = .next (let w := u.witnesses S
        if w.kirchSkip S then { w with pack := { w.pack with kSkip := w.pack.kSkip + 1 } } else w.kirchCheck S)) ∧
    (∀ k T (u : State), u = s.at T → u.mustBeZero k = true → u.rawOf k ≠ [] → (u.actsPrimary = true ∨ 16 ≤ k) →
      exec (.offsetLearning k T) s = .next (u.offsetTake k (mean (u.rawOf k)))) ∧
    (∀ m : Int, m.natAbs ≤ s.gen.oP → s.pack.f20.getLsbD 2 = false → ∃ u : State, u.pack.off = m ∧ u.pack.offT = some s.now ∧
      s.offsetTake 16 m = (let t := u.mirrorDue { kind := 0x0A, key := 16, body := leI 4 m } none
          if t.pack.f20.getLsbD 2 then t.f20 2 false m else t)) ∧
    (∀ t0 b, s.pack.isoOutT = some t0 → s.gen.isoBackup = some b →
      exec .backupHandOver s = .next ((s.at (t0 + sec 10)).isoNext))

/-- The commands of the sweep family complete with their effect (R139, R140, R69, R117, R22, R153, R150, R151, R152,
R161). At a grid instant a port that may send closes the sweep before and sends REED and MARK for the kind of sweep
due; an observed pulse is noted, and in a pair is judged further; a missing pulse raises F26 on a looped port; a
COLLECT frame is launched at T + D + t_conv + 2 µs; a good one is taken and a bad one is counted; mode, bursts,
quiet mode and open-wire groups follow when the service cores run and are deferred otherwise. -/
def Obligations.SweepRowsComplete : Prop :=
  ∀ (s : State) (p S : Nat),
    (∀ (u : State) k, s.mayReed p = true → S % 250000 = 0 → (s.port p).sweepS < S → s.collectLeft p = true →
      u = (s.sweepClose p).owMissed p S → u.swKind p S = some k → u.mayReed p = true → u.reedMay p S k.1 k.2.2.2 = true →
      exec (.reedIssue p S) s = .next (u.reedSend p S k)) ∧
    (∀ e f g T (u : State), s.heard p e = true → frameParse f = .ok g → g.typ = 3 → u = ((s.at T).frameCount p e 1 0).reedNoted p e (reedOf g) →
      exec (.reedFrameObserved p e f T) s = .next (if u.isPair then u.reedOther p (reedOf g) else u)) ∧
    (∀ e T, s.heard p e = true → e ≠ s.activeEnd p → s.wired p (1 - e) = true → (s.port p).split = false → s.pulseT p = some T →
      (s.port p).reedSeen.getD e 0 + s.reedLead p (s.port p).swMode (s.port p).swOw < T →
      exec (.reedPulseMissing p e) s = .next ((s.at (T + s.loopDelay p + us 2)).pulseMissed p)) ∧
    (∀ e, s.heard p e = true → (s.port p).sweepOpen = true → (s.port p).launched.getLsbD e = false → ∃ u : State,
      exec (.collectLaunch p e) s = .next (u.chainOut p e (s.port p).collectT
        (collectFrame e (u.cseq (2 * p + e)) (s.port p).seq)) ∧ u.now = max s.now (s.port p).collectT ∧
      (u.port p).launched = (s.port p).launched ||| (1#2 <<< e)) ∧
    (∀ e f, s.heard p e = true → exec (.collectFrameReceived p e f) s = .next (match frameParse f with
      | .error _ => s.collectBad p e f
      | .ok g => if g.typ = 4 then s.collectTake p e g else s.frameCount p e 1 0)) ∧
    (∀ m, exec (.modeChange p m) s = .next (if s.drv.svcUp then s.modeChange p m else s.deferPlan p 0)) ∧
    (∀ u : State, s.declared p = true → (s.portCfg p).plan.burstInt ≠ 0 → u = s.at (burstAt p (sec (s.portCfg p).plan.burstInt) s.now) →
      exec (.m3BurstStart p) s = .next (if s.drv.svcUp then u.burstDue p else u.deferPlan p 1)) ∧
    (∀ u : State, (s.port p).burst = true → u = (if (s.port p).mode = 3 then s.at ((s.port p).m3Since + ms (s.portCfg p).plan.burst) else s) →
      exec (.m3BurstEnd p) s = .next (if s.drv.svcUp then u.burstEnd p else u.deferPlan p 2)) ∧
    (∀ t0 (u : State), (s.str p).quietT = some t0 → (s.port p).quiet = false → u = s.at (t0 + sec (s.portCfg p).plan.quietDwell) →
      exec (.quietModeEntry p) s = .next (if s.drv.svcUp then u.quietOn p else u.deferPlan p 3)) ∧
    ((s.port p).quiet = true → s.actsPrimary = true →
      2 * (s.quietLevel p ((s.str p).i.getD 0)).2 ≤ (s.quietLevel p ((s.str p).i.getD 0)).1 →
      exec (.quietModeExit p) s = .next (if s.drv.svcUp then s.quietOff p else s.deferPlan p 4)) ∧
    (∀ u : State, (s.port p).st = .ready → s.actsPrimary = true → (s.port p).owStep = 0 →
      u = (if (s.port p).owSig || (s.port p).owDue || (s.port p).owTick = 0 then s
        else s.at ((s.port p).owTick + sec (s.portCfg p).plan.owInt)) →
      exec (.openWireGroupDue p) s = .next (if s.drv.svcUp then u.owDueNow p else u.deferPlan p 5))

/-- The end of a balancing duration switches its channels off and tells the node (R132, R472). BALANCE_DURATION_END
moves time to the end, clears the duration of every channel of the node that has run out and of no other, and drives
the node with what remains. -/
def Obligations.BalancingRuns : Prop :=
  ∀ (s : State) (p a : Nat), (s.node (nk p a)).balance ≠ 0 → s.actsPrimary = true →
    ∃ u : State, exec (.balanceDurationEnd p a) s = .next (u.balDrive p a none) ∧ u.now = max s.now (s.node (nk p a)).balT ∧
      ∀ ch, ch < 16 → (u.cell (gi p (16 * (monOrder (s.portCfg p) a).getD 0 + ch))).bal =
        if (s.cell (gi p (16 * (monOrder (s.portCfg p) a).getD 0 + ch))).bal ≤ u.now then 0
        else (s.cell (gi p (16 * (monOrder (s.portCfg p) a).getD 0 + ch))).bal

/-- The commands of enumeration, responses and idle sets complete with their effect (R74, R75, R77, R113, R83, R86,
R140, R104, R105, R107). A wake tone from beyond the open end closes the loop; a lock starts the address of its hop;
a loop that closes is checked; a hop that times out is retried once and then fails; a response answers its request;
a silent node is asked again at most twice more; probe replies count for a calibration in progress; idle sets count
towards the fault tone; a lost lock or missing idle sets raise F24 on their end; an alarm tone trips. -/
def Obligations.ChainRowsComplete : Prop :=
  ∀ (s : State) (p e : Nat), s.live p e = true → s.heard p e = true → s.declared p = true →
    (e = s.oppEnd p → exec (.wakeToneDetected p e) s = .next (s.onPort p (fun q => { q with answered := true }))) ∧
    (s.actsPrimary = true → e = s.activeEnd p → ((s.port p).st = .wake ∨ (s.port p).st = .retry ∨ (s.port p).st = .extend) → (s.port p).hop ≠ 1 →
      exec (.symbolLock p e) s = .next ((s.onPort p (fun q => { q with st := .assign })).hopLock p e (s.port p).hop)) ∧
    (((s.port p).st = .extend ∨ (s.port p).st = .close) → exec (.loopClosure p) s =
      .next (((if (s.ownEnds p).contains (s.oppEnd p) then s.setLock p (s.oppEnd p) true else s).portSt p .close).loopDone p)) ∧
    (s.actsPrimary = true → (s.port p).st = .extend → (s.port p).retried = false → (s.port p).hop ≠ 1 →
      ∃ t : State, exec (.hopTimeout p) s = .next t ∧ (t.port p).st = .retry ∧ (t.port p).retried = true) ∧
    (∀ f g, frameParse f = .ok g → g.typ = 2 → exec (.rspFrameReceived p e f) s =
      .next ((s.frameCount p e 1 0).nodeFrame p g (fun u => u.rspTake p (rspOf g)))) ∧
    (∀ a r, (s.req p).find? (fun x => x.addr == a && !x.relay) = some r → r.tries < 3 → exec (.cmdResponseTimeout p a) s =
      .next ((s.at (r.t + 2 * (s.port p).dW + procTime r.tag + us 20)).cmdAgain p r)) ∧
    (∀ a r, (s.req p).find? (fun x => x.addr == a && !x.relay) = some r → 3 ≤ r.tries → ∃ u : State,
      exec (.cmdResponseTimeout p a) s = .next (u.silent p r) ∧ u.req p = (s.req p).filter (fun x => decide (x ≠ r)) ∧
      u.now = max s.now (r.t + 2 * (s.port p).dW + procTime r.tag + us 20)) ∧
    (∀ a d, (s.node (nk p a)).missing = false → (s.node (nk p a)).st = .addressed → (s.port p).st = .calibrate →
      (s.node (nk p a)).probes e < 16 → exec (.probeReply p e a d) s = .next (s.probeTaken p e a d)) ∧
    (∀ a d, (s.node (nk p a)).missing = false → (s.node (nk p a)).st = .ready → (s.port p).st = .ready → (s.port p).recalOn = false →
      exec (.probeReply p e a d) s = .next (s.probeCompare p e a d)) ∧
    (s.locked p e = true → ∃ u : State, exec (.idleSetTimeout p e) s = .next (u.f24On p e) ∧
      u = s.toneOver p e ∧ (u.port p).tone.getD e 0 = 0) ∧
    (∃ u : State, exec (.lossOfSymbolLock p e) s = .next (u.f24On p e) ∧ u = (s.setLock p e false).toneOver p e ∧
      u.locked p e = false ∧ (u.port p).tone.getD e 0 = 0) ∧
    (s.locked p e = true → ((s.f24Off p e).port p).tone.getD e 0 = 2 → ∃ u : State, exec (.idleOrderedSet p e true) s =
      .next (u.toneTrip p e) ∧ (u.port p).tone.getD e 0 = 3) ∧
    ((s.ownEnds p).contains e = true → s.pwr.st ≠ .peat → ∃ u : State, exec (.alarmToneDetected p e) s = .next (u.toneTrip p e) ∧
      (u.port p).okIdleT.getD e none = none)

/-- The delay probe cycle and the end of a recalibration complete (R86, R140). In READY the acting module probes every
node found on the port, once per cycle, unless a recalibration runs; when the interpolator has reached its new
phase, every node is written its delays. -/
def Obligations.CalibrationCycleComplete : Prop :=
  ∀ (s : State) (p : Nat),
    ((s.port p).st = .ready → s.actsPrimary = true → (s.port p).recalOn = false → ∃ u : State,
      exec (.delayProbeCycle p) s = .next (((u.found p).filter (fun a => (u.ownEnds p).contains (u.endTo p a))).foldl
        (fun s a => s.probeSend p (s.endTo p a) a) u) ∧ u.found p = s.found p ∧ u.ownEnds p = s.ownEnds p) ∧
    ((s.port p).recalOn = true → s.actsPrimary = true → (s.port p).dNew ≠ 0 → ∃ u : State,
      exec (.interpolatorPhaseReached p) s = .next ((u.found p).foldl (fun s a => s.writeDelays p a) u) ∧
      (u.port p).phase = phaseOf (s.port p).dNew)

/-- Breaks, split mode, node events and port engines complete with their effect (R88, R89, R95, R126, R96, R289). A
BREAK event is located by the node and side it names; a restored hop of the present break starts its 10 s; split
mode begins at the sweep boundary and ends 10 s after the restoration, with F26; TONE_ORIGIN latches what its masks
name; a self-test failure and a failed passport write are kept on their node; a failed port engine is taken out of
use and replaced by PE16 where that is free. -/
def Obligations.BreaksAndEnginesComplete : Prop :=
  ∀ (s : State) (p a : Nat), s.declared p = true →
    (∀ e f g (u : State), s.heard p e = true → frameParse f = .ok g → g.typ = 5 → 1 ≤ g.src → g.src ≤ 33 → u = s.frameCount p e 1 0 →
      (g.tag = 1 → exec (.breakEvent p e f) s = .next (u.nodeFrame p g (fun v =>
        let w := v.breakAt p (hopOf g.src (field g.payload 0 1))
        if w.partnerUp then w.sendEvt (.chainBreak p (hopOf g.src (field g.payload 0 1))) else w))) ∧
      (g.tag = 2 → exec (.restoredEvent p e f) s = .next (u.nodeFrame p g (fun v => v.hopRestored p (hopOf g.src (field g.payload 0 1))))) ∧
      (∀ T, g.tag = 3 → exec (.toneOriginEvent p e f.bytes f.lineErr T) s = .next (((s.at T).frameCount p e 1 0).nodeFrame p g (fun v =>
        v.toneOrigin p g.src (field g.payload 0 2) (field g.payload 2 2) (field g.payload 4 1)))) ∧
      (g.tag = 4 → exec (.selfTestFailEvent p e f) s = .next (u.nodeFrame p g (fun v => if field g.payload 0 4 = 0 then v
        else (v.onNode (nk p g.src) (fun n => { n with selftest := true })).f31Settle p))) ∧
      (g.tag = 5 → exec (.nvFailEvent (2 * p + e) f) s = .next (u.nodeFrame p g (fun v => v.onNode (nk p g.src) (fun n => { n with nvFail := true }))))) ∧
    (∀ b, (s.port p).split = true → (s.port p).brkNode = b → (s.port p).brkFar = b → (s.port p).restoredT = none → ∃ u : State,
      (u.port p).restoredT = some u.now ∧ u.now = s.now ∧
      s.hopRestored p b = (let far := if u.activeEnd p = 0 then b + 1 else b
        if (u.found p).contains far && (u.ownEnds p).contains (u.activeEnd p) then u.probeSend p (u.activeEnd p) far else u)) ∧
    (∀ ov, ov ≠ 0 → ∃ u : State, (u.node (nk p a)).tone = true ∧
      s.toneOrigin p a ov 0 0 = if u.stands 0 p then u.stand 0 p { pos := u.maskPos p a ov 16 16 }
        else u.finding 0 p { pos := u.maskPos p a ov 16 16 }) ∧
    ((s.port p).splitReq = true → ∃ t : State, exec (.splitModeEntry p) s = .next t ∧ (t.port p).split = true ∧ (t.port p).splitReq = false) ∧
    (∀ t0, (s.port p).restoredT = some t0 → ((s.port p).split = true ∨ (s.port p).splitReq = true) → (s.port p).recal = false → (s.port p).recalOn = false →
      ∃ u : State, exec (.splitModeEnd p) s = .next (u.cease 26 p) ∧ (u.port p).split = false ∧ (u.port p).restoredT = none ∧
        u.now = max s.now (t0 + sec 10)) ∧
    (∀ g, g < 16 → s.drv.coresUp = true → (s.port g).engineBad = false → (s.repair.pe16Bad = true ∨ s.repair.pe16Port.isSome = true) →
      ∃ u : State, exec (.engineLoopbackTest g false) s = .next (u.noEngine g) ∧ (u.port g).engineBad = true ∧ u.repair.engBad.getLsbD g = true) ∧
    (∀ g, g < 16 → s.drv.coresUp = true → (s.port g).engineBad = false → s.repair.pe16Bad = false → s.repair.pe16Port = none →
      ∃ t : State, exec (.engineLoopbackTest g false) s = .next t ∧ (t.port g).engineBad = true ∧ (t.port g).engine = false ∧
        (t.port g).sweepOpen = (s.port g).sweepOpen ∧ t.repair.engBad.getLsbD g = true) ∧
    (s.drv.coresUp = true → (s.port p).engineBad = true → s.repair.pe16Bad = false → s.repair.pe16Port = none →
      s.pwr.intr ≠ .saveWindow → ∃ u : State,
      exec (.engineSubstitution p) s = .next (u.repaired 5 p 16 4) ∧ (u.port p).engine = true ∧ u.repair.pe16Port = some p)

/-- The commands of the impedance engine complete with their effect (R189, R193, R203, R207, R210, R199, R197). A
segment closes at its span; a window of eight segments is evaluated; a Sedge session starts when the service cores
run and its results are taken by the acting module; an accepted fit becomes the parameters of its slot and is noted
for the record; the fit record takes what is noted; a table with unwritten changes is saved; every slot age moves on
by the hour. -/
def Obligations.ImpedanceRowsComplete : Prop :=
  ∀ (s : State) (p : Nat),
    (∀ b t0, Tab.find (s.str p).segOpen b = some t0 → (s.str p).segs.getD b 0 < 8 →
      exec (.segmentClose p b) s = .next (
        if (s.port p).sweepOpen && decide ((s.port p).sweepS < t0 + segSpan b ((s.str p).line.getD b 0)) then
          s.at (t0 + segSpan b ((s.str p).line.getD b 0))
        else (s.at (t0 + segSpan b ((s.str p).line.getD b 0))).segClose p b)) ∧
    (∀ b t0, Tab.find (s.str p).segOpen b = some t0 → 8 ≤ (s.str p).segs.getD b 0 →
      exec (.windowEnd p b) s = .next (s.winClose p b t0)) ∧
    (s.drv.svcUp = true → exec (.sedgeSessionStart p) s = .next (s.sedgeStart p)) ∧
    (∀ t0, (s.port p).sedge = true → (s.port p).sedgeS = some t0 → s.actsPrimary = true → exec (.sedgeSequenceEnd p (s.port p).sedgeSeq) s =
      .next ((s.at (t0 + s.gen.sedgeP * us 127750)).sedgeTake p)) ∧
    (∀ g k T, (s.est g).fitDue.contains k = true → ∃ u : State, exec (.circuitFit g k T) s =
      .next (if u.fitEntries g k < 4 then u else u.fitSlot g k) ∧ (u.est g).fitDue = (s.est g).fitDue.filter (· ≠ k)) ∧
    (∀ g k f, circuitFit (s.fitPoints g k) = some f → fitResidual (s.fitPoints g k) f ≤ s.gen.fitLim → ∃ u : State,
      u = s.fitTake g k f ∧ s.fitSlot g k = u.onStr (g / 512) (fun x => { x with
        fitsDone := x.fitsDone ++ [(g % 512, k, min (fitResidual (s.fitPoints g k) f) 254, u.fitOf g k)] })) ∧
    ((s.str p).fitsDone ≠ [] → ∃ t : State, exec (.fitRecord p) s = .next t ∧ (t.str p).fitsDone = []) ∧
    (∀ g t0, (s.est g).unwrT = some t0 → exec (.tableWriteback g) s =
      .next ((if (s.est g).unwritten < 16 then s.at (t0 + sec 3600) else s).tableSave g)) ∧
    (∃ t : State, exec .tableAgeAdvance s = .next t ∧ t.ests = s.ests.map (fun x => (x.1, x.2.older 1)) ∧
      t.now = max s.now ((s.now / sec 3600 + 1) * sec 3600))

/-- The commands of the estimator and the limit functions complete with their effect (R218, R26, R245, R247, R241, R221,
R222, R238, R228). In Run a filter update runs, and so do the records of a 100 ms instant; limits are computed once
estimates since the start allow it; the loss of the estimator cuts them to the emergency profile; a rest point is
taken after the relaxation time and a Wisp point at the end of its interval, cell by cell; F49 ceases when its
filter has settled; energies are recomputed. -/
def Obligations.EstimatorRowsComplete : Prop :=
  ∀ (s : State) (p S : Nat), s.pwr.st = .run → s.actsPrimary = true →
    (S % ms 10 = 0 → exec (.kalmanUpdate S) s = .next (s.kalmanStep S)) ∧
    (S % ms 50 = 0 → s.pack.limT < S → s.limitsMay = true → exec (.limitsPublication S) s = .next ((s.at S).limitsNow S)) ∧
    (s.pack.r26 = false → s.pwr.firstLimits = true → ∃ u : State, u.pack.r26 = true ∧ u.now = max s.now (s.pack.lastEstT + ms 500) ∧
      exec .estimatorResultTimeout s = .next (u.r26Cut).publishExtra) ∧
    (S % ms 100 = 0 → s.pack.tick100 < s.interval S → exec (.estimatorRecord S) s = .next (s.estRecords S)) ∧
    (∀ t0, (s.str p).lowT = some t0 → (s.str p).restNextT < t0 → ∃ u : State, (u.str p).trueRest = true ∧
      u.now = max s.now (t0 + mins s.gen.relax) ∧ exec (.trueRestPoint p) s =
        .next (((u.cellsOfStr p).filter (fun g => (u.est g).seeded && u.hasV g)).foldl (fun s g => s.trueRest g) u)) ∧
    ((s.str p).trueRest = false → ∃ u : State, u.now = max s.now ((s.now + sec 60 - 1) / sec 60 * sec 60) ∧
      exec (.wispPointEvaluation p) s = .next ((u.cellsOfStr p).foldl (fun s g => s.wisp g) u)) ∧
    (∀ g t0 (u : State), (s.est g).f49 = true → (s.est g).f49T = some t0 → u = s.at (t0 + sec 60) → u.diverges g = false →
      (u.est g).sigma ≤ 100000 → ∃ (t : State) (v : _), v = u.onEst g (fun e => { e with f49 := false, f49T := none }) ∧
        exec (.divergenceCease g) s = .next t ∧ t = (let w := v.estPoint g 6 (v.est g).soc (v.est g).sigma
          if (w.cellsOfStr (g / 512)).any (fun k => (w.est k).f49) then w else w.cease 49 (g / 512))) ∧
    exec .energyRecompute s = .next s.energies

/-- The commands of temperature supervision complete with their effect (R266, R275, R278, R279, R281). In Run the eight
NTC inputs are taken in order; outside Peat every sensor and zone is evaluated and the junction is read; a fallen
demand lowers the port's rate; the neighbour window and the unconfirmed hold of a rise end; an output whose hold
time has run switches. -/
def Obligations.ThermalRowsComplete : Prop :=
  ∀ (s : State),
    (∀ l, s.pwr.st = .run → exec (.ntcSample l) s = .next ((List.range 8).foldl (fun s n => s.ntcIn n (l.getD n 0)) s)) ∧
    (s.pwr.st = .run → exec .temperatureEvaluation s = .next s.tempEval) ∧
    (s.pwr.st ≠ .peat → s.pwr.restartDue = false → ∀ a b c d, exec (.junctionRead a b c d) s = .next (s.junctionIn a b c d)) ∧
    (∀ p, s.portDemand p < (s.port p).rateHi → ∃ u : State, exec (.temperatureDemandFall p) s = .next (u.planKick p) ∧
      (u.port p).rateHi = (s.at ((s.port p).rateFallT + sec 60)).demandFall p u.now ∧
      u.now = max s.now ((s.port p).rateFallT + sec 60)) ∧
    (∀ k t0 z a, (s.sensor k).riseT = some t0 → s.zoneOf k = some z → (s.sensor k).riseUnc = false → (s.sensor k).aboveT = some a →
      exec (.riseConfirmationTimeout k) s = .next ((s.at (t0 + sec 10)).riseFlag k true)) ∧
    (∀ k t0 z a, (s.sensor k).riseT = some t0 → s.zoneOf k = some z → (s.sensor k).riseUnc = true → (s.sensor k).aboveT = some a →
      ∃ u : State, (u.sensor k).riseT = none ∧ u.now = max s.now (a + sec 20) ∧ exec (.riseConfirmationTimeout k) s = .next ((u.f11Raise z k true).riseFlag k false)) ∧
    (∀ ch, s.thermWant ch ≠ (s.outc ch).cmd →
      exec (.thermalOutputSwitch ch) s = .next ((s.at ((s.outc ch).changeT + sec s.gen.minHold)).thermSwitch ch))

/-- The commands of the output channels, the watchdogs and limp-home complete with their effect (R336, R337, R339, R342,
R344, R345, R346, R347, R518, R557). A trip switches a thermal channel off and takes a retry; an automatic restart,
when its conditions hold, switches it on again; 60 s on restores the retries; an open load is flagged; an LSW fault
raises F38 where its readings show one, and is recorded; watchdogs and lockstep reset the cores and start the hold
window; supervision resumes; an expired window declares the cores dead; the switch-off ends in limp-home; LIMP_N and
DIN are followed. -/
def Obligations.OutputRowsComplete : Prop :=
  ∀ (s : State) (ch : Nat),
    (∀ c i, (s.outc ch).on = true → s.isCoil ch = false → ∃ t : State, exec (.channelTrip ch c i) s = .next t ∧ (t.outc ch).on = false ∧ (t.outc ch).tripped = true ∧
      (t.outc ch).retries = (s.outc ch).retries - 1 ∧ (t.outc ch).cur = i) ∧
    (∀ v : Int, (s.outc ch).tripped = true → (s.outc ch).cmd = true → v < 15000 → s.isCoil ch = false → s.drv.hold = false →
      s.drv.limp = false → (s.outc ch).cleared = true → (s.outc ch).restart = true → s.outUp = true → s.fed ch = true → ∃ t : State, exec (.automaticRestart ch v) s = .next t ∧ (t.outc ch).on = true ∧
        (t.outc ch).tripped = false ∧ t.now = max s.now ((s.outc ch).tripT + ms 100)) ∧
    ((s.outc ch).on = true → (s.outc ch).tripped = false → ∃ t : State, exec (.retryRestore ch) s = .next t ∧
      (t.outc ch).retries = s.retriesOf ch ∧ t.now = max s.now ((s.outc ch).onT + sec 60)) ∧
    (∀ v : Int, (s.outc ch).on = true → s.isCoil ch = false → (s.outCfg ch).use = .thermal → ∃ t : State, exec (.openLoad ch v) s = .next t ∧
      (t.outc ch).openLoad = decide (v.natAbs < 20)) ∧
    (∀ j (x : LswRead), s.gen.lswUsed.getD j false = true → lswFails (s.lsw j).closed x = true → ∃ u : State,
      exec (.lswFault j x) s = .next (u.stand 38 16 { value := ((16 * x.kind.ctorIdx + j : Nat) : Int) }) ∧ (u.lsw j).f38 = true ∧
      (u.lsw j).cur = x.cur ∧ (u.lsw j).vds = x.vds ∧ (u.lsw j).temp = x.temp) ∧
    (∀ j (x : LswRead), lswFails (s.lsw j).closed x = false → ∃ t : State, exec (.lswFault j x) s = .next t ∧
      t.faults = s.faults ∧ (t.lsw j).f38 = (s.lsw j).f38 ∧ (t.lsw j).temp = x.temp) ∧
    exec .safetyWatchdog s = .next (s.watchReset 7) ∧
    exec .serviceWatchdog s = .next (s.svcReset 6) ∧
    (∃ u : State, u.repair.lockstep = true ∧ exec .lockstepMismatch s = .next (u.watchReset 8)) ∧
    (∀ u : State, s.coresMay = true → u = s.coresResume → exec .supervisionResumed s =
      .next (if u.isPair && u.pair.trained && u.pwr.st == .run then u.hbSend else u)) ∧
    (s.drv.hold = true → ∃ u : State, exec .holdWindowExpiry s = .next (u.stand 63 16 {}) ∧ u.drv.dead = true ∧
      u.drv.hold = false ∧ u.drv.switchOffT = max s.now s.drv.holdEnd + ms s.fuse.set.wait ∧ u.lsws = s.lsws) ∧
    (s.drv.switchOff = true → ∃ u : State, exec .holdSwitchOff s = .next (u.limpEnter 2)) ∧
    (s.drvUp = true → ∃ u : State, u.drv.limpN = false ∧ exec .limpNLow s = .next (u.limpEnter 1).seqKick) ∧
    (s.drv.coresUp = true → ∃ u : State, u.drv.limpN = true ∧ exec .limpNHigh s = .next u.limpExit) ∧
    (∀ n, n < 4 → s.drv.limp = false → ∃ t : State, exec (.dinEdge n true) s = .next t ∧ t.drv.din.getLsbD n = true ∧ t.outs = s.outs)

/-- The commands of the safety inputs complete with their effect (R351, R354, R355, R357, R358). A passing HVIL code
period proves the loop after a hundred in a row and a failing one is counted, the second raising F40 or F41; a pulse
check, a debounced reading and a Moss reading are taken by their channel and judged; the discrepancy time raises its
source; safe standstill is declared once both axles stand still. -/
def Obligations.SafetyInputRowsComplete : Prop :=
  ∀ (s : State) (n : Nat),
    (∀ l i, s.pwr.st ≠ .peat → hvilJudge n l = .pass → ∃ u : State, (u.loop n).passed = true ∧ (u.loop n).fails = 0 ∧
      (u.loop n).oks = min 100 ((s.loop n).oks + 1) ∧ exec (.hvilCodePeriod n l i) s =
        .next (if (u.loop n).oks = 100 then u.cease (40 + n) 16 else u)) ∧
    (∀ l i, hvilJudge n l ≠ .pass → s.pwr.st = .run → (s.loop n).fails = 1 → ∃ u : State, (u.loop n).passed = false ∧ (u.loop n).fails = 2 ∧
      exec (.hvilCodePeriod n l i) s = .next (u.stand (40 + n) 16 { value := (hvilJudge n l).ctorIdx })) ∧
    (∀ x a b, s.pwr.st = .run → ∃ u : State, exec (.pulseCheckPeriod x a b) s = .next (u.dualEval x (s.dual x))) ∧
    (∀ x b, s.pwr.st = .run → ∃ u : State, exec (.debounceExpiry x false b) s = .next (u.dualEval x (s.dual x)) ∧ (u.dual x).c0 = b ∧
      (u.dual x).c1 = (s.dual x).c1) ∧
    (∀ x, (s.dual x).judged = true → (s.dual x).closed0 ≠ (s.dual x).closed1 →
      exec (.discrepancyTimeExpiry x) s = .next (((s.at ((s.dual x).diffT + s.discNs x)).event .safein 5).stand (discSrc x) 16 {})) ∧
    (∀ x a b, s.pwr.st = .moss → (s.dual x).moss0 ≠ some a → (s.dual x).moss1 ≠ some b → ∃ t : State,
      exec (.mossInputRead x a b) s = .next t ∧ (t.dual x).moss0 = some a ∧ (t.dual x).moss1 = some b ∧
        (t.dual x).c0 = (s.dual x).c0 ∧ (t.dual x).c1 = (s.dual x).c1) ∧
    (s.stillOk = true → s.safe.standstill = false → ∃ u : State, u.safe.standstill = true ∧
      u.now = max s.now (s.stillSince + sec 1) ∧ exec .standstillDeclared s =
      .next ((List.range 17).foldl (fun s p => if (s.disc p).kind == .classC && s.drv.coresUp then
          match s.scopeCur p with
          | some i => if (i.natAbs : Int) < s.breakOf p then s.startWindow p else s
          | none => s
        else s) u))

/-- The commands of the axle inputs complete with their effect (R374, R381, R373, R385). A single edge that comes no
sooner than t_min after the last one of its phase is accepted and decoded, and one that comes sooner is a glitch; a
re-read at t_min accepts a level that stayed; no edge for T_still sets STILL; a wire disagreement and a supply fault
are flagged; the periodic record is written. -/
def Obligations.AxleRowsComplete : Prop :=
  ∀ (s : State) (ch : Nat) (c : AxleCfg), s.axleCfg ch = some c →
    (∀ a b t0 (u : State), u = (s.at t0).stillBy ch c t0 → a = (u.axle ch).a → b ≠ (u.axle ch).b →
      (∀ l, (u.axle ch).last true = some l → l + us c.tMin ≤ t0) →
      exec (.axleEdge ch a b t0) s = .next ((u.wireEnd ch a b).axleAccept ch c true a b t0)) ∧
    (∀ a b t0 l (u : State), u = (s.at t0).stillBy ch c t0 → (u.axle ch).tA = some l → l + us c.tMin = t0 → (u.axle ch).wireA = false →
      a ≠ (u.axle ch).a → exec (.edgeReread ch a b t0) s = .next (u.axleAccept ch c false a (u.axle ch).b t0)) ∧
    ((s.axle ch).still = false → ∃ t : State, exec (.axleStandstill ch) s = .next t ∧ (t.axle ch).still = true ∧ (t.axle ch).speed = 0 ∧
      (t.axle ch).stillT = (s.axle ch).tEdge + ms c.tStill ∧
      (t.axle ch).count = (s.axle ch).count ∧ t.now = max s.now ((s.axle ch).tEdge + ms c.tStill)) ∧
    (∀ b, (if b then (s.axle ch).wireB else (s.axle ch).wireA) = false → (s.axle ch).wireT = [] → ∃ t : State, exec (.wireDisagreement ch b) s = .next t ∧
      (if b then (t.axle ch).wireB else (t.axle ch).wireA) = true ∧ (t.axle ch).wireT = [s.now]) ∧
    (∃ u : State, (u.axle ch).supply = true ∧ exec (.spdSupplyFault ch) s = .next (u.axleBad ch)) ∧
    (∀ S, S % ms 10 = 0 → s.safe.recT < S → ∃ u : State, exec (.axleRecord S) s = .next (u.axleRecs S) ∧ u.safe.recT = S ∧ u.now = max s.now S)

/-- The commands of the CAN family complete with their effect (R392, R398, R393, R405, R365, R403). An attempt of the
contending frame ends as it was; bus-off recovery resets both counters; a receive error counts 1 or 8, saturating at
255; a frame is taken in normal mode and in listen-only; STATUS and the reference message are sent in Run; network
time becomes invalid and keeps its offset; a missing second copy and a timeout of a safe message are counted against
their buses. -/
def Obligations.CanRowsComplete : Prop :=
  ∀ (s : State) (c : Nat),
    (∀ e b f t0, s.pwr.st = .run → (s.can c).mode = 0 → (s.can c).errSt ≠ 2 → (s.can c).started = none → (s.can c).next = some b →
      (s.can c).frameOf b = some f → exec (.transmitAttemptEnd c e t0) s = .next ((s.at t0).attemptEnd c b f e t0)) ∧
    ((s.can c).errSt = 2 → ∃ t : State, exec (.busOffRecovery c) s = .next t ∧ (t.can c).errSt = 0 ∧ (t.can c).tec = 0 ∧
      (t.can c).recCnt = 0) ∧
    (∀ b, s.pwr.st = .run → (s.can c).mode = 0 → (s.can c).errSt ≠ 2 → ∃ t : State, exec (.canReceiveError c b) s = .next t ∧
      (t.can c).recCnt = min ((s.can c).recCnt + (if b then 8 else 1)) 255) ∧
    (∀ f t0, s.pwr.st = .run → (s.can c).mode ≠ 2 → (s.can c).errSt ≠ 2 →
      exec (.canFrameReceived c f t0) s = .next (s.frameTake c f t0)) ∧
    (s.pwr.st = .run → ∃ (u : State) (l : _), l.length = 16 ∧ u.now = max s.now (s.safe.statT + ms 10) ∧ u.safe.statT = u.now ∧
      exec .statusMessageSend s = .next (u.sendSafe s.gen.idStatus 2 24 l)) ∧
    (s.pwr.st = .run → s.actsPrimary = true → s.conf.net.role = 1 → ∃ u : State, exec .referenceMessageSend s =
      .next ((netBuses s.conf.net).foldl (fun u c => u.originate c
        { id := s.conf.net.id, ide := s.conf.net.ide, dlc := 8, data := le 8 u.now }) u) ∧
      u.now = max s.now (s.time.netSentT + ms s.conf.net.period) ∧ u.time.netSentT = u.now) ∧
    (s.conf.net.role = 2 → s.time.netValid = true → ∃ t : State, exec .networkTimeInvalid s = .next t ∧ t.time.netValid = false ∧
      t.now = max s.now (s.time.netLastRef + 3 * ms s.conf.net.period) ∧
      t.netHeld = (s.at (s.time.netLastRef + 3 * ms s.conf.net.period)).netHeld) ∧
    (∀ m g k r, s.msgCfg m = some g → (s.msg m).first = k :: r → ∃ u : State, (u.msg m).first = r ∧ (u.msg m).okRun = 0 ∧
      u.now = max s.now (k.t + ms g.skew) ∧ exec (.skewWindowExpiry m) s = .next (u.badCopy m (1 - k.bus))) ∧
    (∀ m g, m < 8 → s.msgCfg m = some g → (s.msg m).single = true →
      ((s.msg m).f46 && (s.msg m).lastSeq.isNone) = false → ∃ u : State, (u.msg m).f46 = true ∧
      u.now = max s.now ((s.msg m).lastT + msgTimeout g) ∧ (u.msg m).lastSeq = none ∧
      exec (.safeMessageTimeout m) s = .next ((u.event .safein 8).f46Settle m))

/-- Training, heartbeats and the loss of the partner complete with their effect (R408, R412, R414, R415, R416, R418,
R420). In a pair a trained module in Run sends its heartbeat and takes the partner's, a bad one only being counted;
training is taken, or missed once; a lost partner opens the proof window, and its end leaves the module alone. Each
under the condition of its rule alone. -/
def Obligations.PairMembersComplete : Prop :=
  ∀ s : State, s.isPair = true →
    (s.pair.trained = true → s.drv.coresUp = true → s.pwr.st = .run → ∃ u t : State, u = s.at (s.pair.hbT + us 50) ∧
      exec .heartbeatSend s = .next t ∧ t.sent = Output.heartbeat (hbFrame u.hbNow) :: s.sent ∧ t.pair.hbSeq = u.hbNow.seq ∧
      t.pair.hbSent = hbBytes u.hbNow ∧ t.pair.hbT = u.now) ∧
    (∀ f : RawFrame, s.pair.trained = true → s.pwr.st = .run →
      (causeOk f = false → exec (.heartbeatReceived f) s = .next (s.pairFrame true).pairChanged) ∧
      (∀ hb, causeOk f = true → hbParse f = some hb → exec (.heartbeatReceived f) s = .next ((s.pairFrame false).hbIn hb).pairChanged)) ∧
    (∀ x rtt, s.pwr.st = .run → exec (.causewayTraining x rtt) s = .next (s.trainDone x rtt)) ∧
    (s.pair.trained = false → s.pair.role = .none → exec .trainingDeadline s = .next s.trainMissed) ∧
    (s.partnerUp = true → s.drv.coresUp = true → s.pwr.st = .run → exec .partnerLost s = .next s.partnerLose) ∧
    (s.pair.proof = true → exec .proofWindowEnd s = .next s.proofOver)

/-- Frames of the Causeway and digest exchanges complete with their effect (R417, R428, R429, R430, R432, R409, R415,
R329). A trained member of a pair takes every coil frame and echoes it, takes echoes, PAIR_EVT frames, mirrored
items and the frames of a mirrored write, and gives up a mirrored write after 100 ms; a digest exchange ends a
MIRROR_CHECK with OK or MIRROR_DIVERGED; a resync ends; an offset that stays out of bounds raises F57. -/
def Obligations.PairFramesComplete : Prop :=
  ∀ s : State, s.isPair = true → s.pair.trained = true →
    (∀ w, w = s.pairFrame false →
      (∀ f : CoilFrame, f.echo = false → w.pairMay f.ch f.on = true → ∃ u : State, u = (let v := w.channel f.ch f.on
          let v := (v.ctrsOn f.ch).foldl (fun v i => v.onCtr i (fun k => { k with coil := f.on, t := v.now })) v
          if f.on then (v.ctrsOn f.ch).foldl (fun v i => match v.ctrCfg i with
            | some c => v.rearm c.lsw
            | none => v) v else v) ∧
        exec (.coilFrameReceived f) s = .next (u.sendCoil { f with echo := true })) ∧
      (∀ f : CoilFrame, f.echo = false → w.pairMay f.ch f.on = false → exec (.coilFrameReceived f) s = .next w) ∧
      (∀ f : CoilFrame, f.echo = true → f.on = true → exec (.coilFrameReceived f) s = .next w) ∧
      (∀ f : CoilFrame, f.echo = true → f.on = false → ∃ u : State, u.pair.coilWait = w.pair.coilWait.filter (fun x => decide (x.1 ≠ f.ch)) ∧
        u.pair.noEcho = w.pair.noEcho &&& ~~~(1#12 <<< f.ch) ∧ ({ u with pair := w.pair } : State) = w ∧
        exec (.coilFrameReceived f) s = .next (if u.pair.coilWait.isEmpty && !u.f37Cond then u.cease 37 16 else u)) ∧
      (∀ ev, exec (.pairEvtFrameReceived ev) s = .next (w.evtTake ev).pairChanged) ∧
      (∀ item, s.drv.svcUp = true → exec (.mirrorFrameReceived item) s = .next (w.mirrorTake item).pairChanged) ∧
      (∀ fr, exec (.nvwFrameReceived fr) s = .next (w.nvwIn fr).pairChanged)) ∧
    (∀ x r, s.pair.nvw = x :: r → exec .nvwResultTimeout s = .next ((s.at (x.t + ms 100)).nvwTake (fun y => y == x) 5)) ∧
    (∀ l x mask (u : State), s.partnerUp = true → s.drv.svcUp = true →
      x = (if s.pair.check.isSome then s else s.at (s.pair.digT + sec 60)) →
      mask = s.digestBegin.digestMask l → u = s.digestBegin.digests mask →
      s.digestBegin = (let y : State := { x with pair := { x.pair with digT := x.now } }
        y.sendMirror (.digest y.ownDigests)) ∧
      (∀ r, r < 7 → mask.getLsbD r = (l[r]? != some (crc32c (s.digestBegin.regionData r)))) ∧
      (u.pair.check = none → exec (.digestExchange l) s = .next u) ∧
      (∀ r, u.pair.check = some r → exec (.digestExchange l) s = .next
        (let v : State := { u with pair := { u.pair with check := none } }
         if mask = 0#7 then v.okay r 0 [] else v.finish r 9 mask.toNat [] false))) ∧
    (s.partnerUp = true → s.pair.diverged ≠ 0#7 → exec .resyncComplete s = .next s.resyncDone) ∧
    (∀ t0, s.pair.ofsBadT = some t0 →
      exec .pairOffsetFault s = .next ((s.at (t0 + ms 10)).stand 57 16 { value := s.pairOfs }).pairChanged)

/-- Ring set-up, doorbells and descriptors complete, and change no other part of the module (R440, R442, R443, R445,
R446, R447, R448, R453, R457). Enabling a ring whose checks pass sets run, clears both indices and counts the
generation, and one whose checks fail sets cfg_err; disabling, resetting and clearing the status act on that ring; a
doorbell within the permitted advance moves the host index, and any other stops the ring with db_err; a DMA error
stops it with dma_err; a descriptor of an admitted opcode is fetched and counted. Beside the rings and what goes
out, nothing changes. -/
def Obligations.RingRowsComplete : Prop :=
  ∀ (s : State) (n : Nat), s.host.ready = true →
    (∀ v (u : State), (s.ring n).en = false → (s.ring n).stopped = false → u = s.onRing n (fun r => r.fields ((v &&& ~~~2#32) ||| 1#32).toNat) →
      (u.enableOk n = true → ∃ t : State, exec (.ringEnable n v) s = .next t ∧ (t.ring n).en = true ∧ (t.ring n).run = true ∧
        (t.ring n).devIdx = 0 ∧ (t.ring n).hostIdx = 0 ∧ (t.ring n).gen = ((s.ring n).gen + 1) % 65536 ∧
        ({ t with rings := s.rings, sent := s.sent, time := s.time } : State) = s) ∧
      (u.enableOk n = false → exec (.ringEnable n v) s = .next (u.ringErr n 4))) ∧
    (∀ v, ∃ t : State, exec (.ringDisable n v) s = .next t ∧ (t.ring n).en = false ∧ (t.ring n).run = false ∧
      (t.ring n).devIdx = (s.ring n).devIdx ∧ ({ t with rings := s.rings } : State) = s) ∧
    (∀ v, ∃ t : State, exec (.ringReset n v) s = .next t ∧ (t.ring n).en = false ∧ (t.ring n).run = false ∧ (t.ring n).devIdx = 0 ∧
      (t.ring n).hostIdx = 0 ∧ (t.ring n).ovf = 0 ∧ ({ t with rings := s.rings } : State) = s) ∧
    (∀ v : Word, ∃ t : State, exec (.ringStatusClear n v) s = .next t ∧ (t.ring n).err = (s.ring n).err &&& ~~~((v >>> 1).setWidth 5) ∧
      ({ t with rings := s.rings } : State) = s) ∧
    ((s.ring n).en = true → ∃ t : State, exec (.dmaError n) s = .next t ∧ (t.ring n).run = false ∧ (t.ring n).stopped = true ∧
      (t.ring n).err.getLsbD 1 = true ∧
      ({ t with rings := s.rings } : State) = s) ∧
    (∀ v : Word, (s.ring n).en = true → (s.ring n).run = true → (s.ring n).typ = .submission → v.toNat < (s.ring n).size →
      (v.toNat + (s.ring n).size - (s.ring n).hostIdx % (s.ring n).size) % (s.ring n).size ≤ (s.ring n).size - 1 -
        ((s.ring n).hostIdx + (s.ring n).size - (s.ring n).devIdx % (s.ring n).size) % (s.ring n).size →
      ∃ t : State, exec (.doorbell n v) s = .next t ∧ (t.ring n).hostIdx = v.toNat ∧ (t.ring n).run = true ∧
        ({ t with rings := s.rings } : State) = s) ∧
    (∀ v : Word, (s.ring n).en = false ∨ ((s.ring n).run = true ∧ (s.ring n).size ≤ v.toNat) → ∃ t : State,
      exec (.doorbell n v) s = .next t ∧ (t.ring n).err.getLsbD 0 = true ∧
        (t.ring n).hostIdx = (s.ring n).hostIdx ∧ ({ t with rings := s.rings } : State) = s) ∧
    (∀ op d, s.fetchable n = true → s.fetchTurn n = true → (d.fence = false ∨ (s.ring n).outst = 0) → descRefused (s.ring n) op d.imm = false → definedOp op = true → ∃ t : State,
        exec (.descriptorFetch n op d) s = .next t ∧ (t.ring n).devIdx = ((s.ring n).devIdx + 1) % (s.ring n).size ∧
        (t.ring n).outst = (s.ring n).outst + 1 ∧ 
        (∃ k, ({ t with rings := s.rings, sent := s.sent, time := s.time } : State) = { s with host := { s.host with lastSq := k } }))

/-- Completions, stream records and interrupt messages complete with their effect (R450, R451, R452, R453, R454, R456,
R457, R466). The first completion due on a serviced ring with a free entry is written there, leaves the list and
inverts the phase on a wrap; the first record due for a function fills the posted buffer, advances the ring and
takes the next sequence number; a moderation time that runs out sends the message; an MSI-X entry and its mask bit
take what is written. -/
def Obligations.CompletionsAndRecordsComplete : Prop :=
  ∀ (s : State) (n : Nat),
    (∀ c l, s.host.finished = c :: l → (s.ring c.ref.d.sq).cq = n → (s.ring n).en = true → (s.ring n).run = true →
      (s.ring n).typ = .completion → s.works n = true → s.drv.svcUp = true → (s.ring n).free = true → ∃ t : State,
        exec (.completionWrite n) s = .next t ∧ t.host.finished = l ∧ (t.ring n).devIdx = ((s.ring n).devIdx + 1) % (s.ring n).size ∧
        (t.ring n).phase = ((s.ring n).phase != (((s.ring n).devIdx + 1) % (s.ring n).size == 0))) ∧
    (∀ fn b l x, s.host.streamQ = x :: l → x.fn = fn → s.streamRing fn = some n → s.works n = true →
      (s.ring n).devIdx ≠ (s.ring n).hostIdx → 32 + x.body.length ≤ b.len → ∃ u : State, u.host.streamQ = l ∧
        (u.ring n).devIdx = ((s.ring n).devIdx + 1) % (s.ring n).size ∧ (u.ring n).seq = ((s.ring n).seq + 1) % 2 ^ 32 ∧
        (u.ring n).dropped = 0 ∧ exec (.streamRecordWrite fn (some b)) s = .next u.streamsDone) ∧
    (∀ fn l x, s.host.streamQ = x :: l → x.fn = fn → s.streamRing fn = some n → s.works n = true → fn ≠ 0x25 → fn ≠ 0x26 →
      ∃ u : State, u.host.streamQ = l ∧ (u.ring n).ovf = min ((s.ring n).ovf + 1) 0xFFFFFFFF ∧ (u.ring n).err.getLsbD 3 = true ∧
        (u.ring n).seq = ((s.ring n).seq + 1) % 2 ^ 32 ∧ exec (.streamRecordWrite fn none) s = .next u.streamsDone) ∧
    ((s.ring n).ie = true → (s.ring n).unsig ≠ 0 → (s.ring n).modTime ≠ 0 →
      exec (.interruptModerationTimeout n) s = .next ((s.at ((s.ring n).unsigT + us (s.ring n).modTime)).ringMessage n)) ∧
    (∀ x : MsixEntry, n < 64 → s.host.ready = true → ∃ t : State, exec (.msixTableWrite n x) s = .next t ∧ t.host.msixTab = s.host.msixTab.set n x ∧
      t.host.msixMask.getLsbD n = x.masked ∧ t.rings = s.rings)

/-- The commands of the host link and the software resets complete with their effect (R437, R438, R459, R460, R494,
R507). A configuration request is answered with retry status until the host interface is ready, and then takes the
MSI-X enable; the interface becomes ready with its domain powered; PERST_N and a link reset put every ring to its
default, disable MSI-X and drop the completions due; D3hot and D0 are taken; the software resets reach the cores
they name. -/
def Obligations.HostLinkRowsComplete : Prop :=
  ∀ s : State,
    (∀ q, s.host.ready = false → ∃ t : State, exec (.pcieConfigRequest q) s = .next t ∧ t.host.cfgRetry = true ∧
      t.host.msixEn = s.host.msixEn ∧ ({ t with host := s.host } : State) = s) ∧
    (∀ u : State, s.host.ready = true → u = ({ s with host := { s.host with cfgRetry := false } } : State) →
      (∀ i, exec (.pcieConfigRequest (.read i)) s = .next { u with host := { u.host with readData := BitVec.ofNat 64 (u.cfgItem i) } }) ∧
      (∀ b, exec (.pcieConfigRequest (.msix b)) s = .next ({ u with host := { u.host with msixEn := b } } : State).driveIrq)) ∧
    (s.pwr.domains.getLsbD 6 = true → ∃ t : State, exec .hostInterfaceReady s = .next t ∧ t.host.ready = true ∧ t.host.perstLow = false ∧
      ({ t with host := s.host } : State) = s) ∧
    (∃ u : State, u.host.perstLow = true ∧ ({ u with host := s.host } : State) = s ∧
      exec .perstNAssert s = .next (u.hostReset.resetCause 2)) ∧
    exec .linkReset s = .next (s.hostReset.resetCause 3) ∧
    s.hostReset.rings = [] ∧ s.hostReset.host.msixEn = false ∧ s.hostReset.host.ready = false ∧ s.hostReset.host.finished = [] ∧
    s.hostReset.host.epoch = s.host.epoch + 1 ∧
    (s.host.ready = true → ∃ t : State, exec .d3hotEntry s = .next t ∧ t.host.d3hot = true ∧ t.rings = s.rings) ∧
    (s.host.ready = true → ∃ t : State, exec .d0Return s = .next t ∧ t.host.d3hot = false ∧ t.rings = s.rings) ∧
    (s.host.ready = true → exec .softwareResetSvc s = .next (s.svcReset 4) ∧ exec .softwareResetSafe s = .next s.softSafe ∧
    exec .softwareResetBoth s = .next ((s.svcReset 4).softSafe))

/-- A write to an event register clears the bits it names and no other; a write to its counter clears the counter (R492,
R493, R458, R490). W1C: exactly the bits written as 1 are cleared in the register named, every other event register
and every counter keeps its value, and nothing but IRQ_N changes beside; in GLB_IRQ_STATUS bit 16 and above take no
write. A write of an event counter clears that counter alone. -/
def Obligations.EventRegistersClear : Prop :=
  ∀ (s : State) (v : Word), s.host.ready = true →
    (∃ t : State, exec (.irqStatusAck v) s = .next t ∧ (t.evr .irqStatus).bits = (s.evr .irqStatus).bits &&& ~~~(v &&& 0x0000FFFF#32) ∧
      (t.evr .irqStatus).cnt = (s.evr .irqStatus).cnt ∧ (∀ r, r ≠ .irqStatus → t.evr r = s.evr r) ∧
      ({ t with ev := s.ev, host := s.host } : State) = s) ∧
    (∀ hi : Bool, ∃ t : State, exec (.ringPendAck hi v) s = .next t ∧
      (t.evr (if hi then .ringPendHi else .ringPendLo)).bits = (s.evr (if hi then .ringPendHi else .ringPendLo)).bits &&& ~~~v ∧
      (∀ r, r ≠ .irqStatus → r ≠ (if hi then .ringPendHi else .ringPendLo) → t.evr r = s.evr r) ∧
      ({ t with ev := s.ev, host := s.host } : State) = s) ∧
    (∀ r, r ≠ .irqStatus → ∃ t : State, exec (.eventRegisterClear r v) s = .next t ∧ (t.evr r).bits = (s.evr r).bits &&& ~~~v ∧
      (t.evr r).cnt = (s.evr r).cnt ∧ (∀ q, q ≠ r → q ≠ .irqStatus → t.evr q = s.evr q) ∧
      ({ t with ev := s.ev, host := s.host } : State) = s) ∧
    (∀ r, ∃ t : State, exec (.eventCounterClear r) s = .next t ∧ (t.evr r).cnt = 0 ∧ (t.evr r).bits = (s.evr r).bits ∧
      (∀ q, q ≠ r → t.evr q = s.evr q) ∧ ({ t with ev := s.ev } : State) = s)

/-- Register reads with an effect return the value and have exactly that effect (R490, R395, R396, R502, R503, R375). A
read of a low half returns it and captures the high half; a read of an axle count or index captures its time stamp;
a read of COLL_CNT returns and clears it; a read in the high-priority window returns its word and locks the buffer;
a read of HP_STAT returns it and releases the lock, as the lock timeout does. -/
def Obligations.RegisterReadsComplete : Prop :=
  ∀ (s : State) (c : Nat), s.host.ready = true →
    (∀ off, isLo off = true → off ≠ 0x9100 → off ≠ 0xA100 → Tab.find s.host.hiCap off = none → ∃ t : State,
      exec (.loHalfRead off) s = .next t ∧ t.host.readData = BitVec.ofNat 64 (s.reg off) ∧
      Tab.find t.host.hiCap (off + 4) = some (BitVec.ofNat 32 (s.reg (off + 4))) ∧
      ({ t with host := s.host, time := s.time } : State) = s) ∧
    (∀ b, ∃ t : State, exec (.spdCaptureRead c b) s = .next t ∧
      t.host.readData = BitVec.ofNat 64 (s32 (if b then (s.axle c).idx else (s.axle c).count)) ∧
      Tab.find t.host.hiCap (0xB000 + 0x40 * c + (if b then 0x18 else 0x0C)) =
        some (BitVec.ofNat 32 (if b then (s.axle c).tIdx else (s.axle c).tEdge)) ∧ ({ t with host := s.host } : State) = s) ∧
    (∃ t : State, exec (.collCntRead c) s = .next t ∧ t.host.readData = BitVec.ofNat 64 (s.can c).collCnt ∧ (t.can c).collCnt = 0 ∧
      ({ t with host := s.host, cans := s.cans } : State) = s) ∧
    (∀ off, 0x100 ≤ off → off ≤ 0x14C → ∃ t : State, exec (.hpWindowRead c off) s = .next t ∧
      t.host.readData = BitVec.ofNat 64 (hpWord (s.can c) off) ∧ (t.can c).hpLock = true ∧
      ({ t with host := s.host, cans := s.cans } : State) = s) ∧
    ((s.can c).hpHold = none → ∃ t : State, exec (.hpStatRead c) s = .next t ∧ t.host.readData = BitVec.ofNat 64 (hpStat (s.can c)) ∧
      (t.can c).hpLock = false ∧ (t.can c).hpNew = false ∧ (t.can c).hpTimed = false ∧
      ({ t with host := s.host, cans := s.cans } : State) = s) ∧
    ((s.can c).hpLock = true → (s.can c).hpHold = none → ∃ t : State, exec (.hpLockTimeout c) s = .next t ∧ (t.can c).hpLock = false ∧
      (t.can c).hpTimed = true ∧ (t.can c).hpNew = (s.can c).hpNew ∧ t.now = max s.now ((s.can c).hpLockT + ms 1) ∧
      ({ t with time := s.time, cans := s.cans } : State) = s)

/-- A write to BAR0 goes to the register at its offset (R489, R490, R494, R441, R445, R503, R493). An event register is
cleared by its W1C bits and its counter by any write; interrupt set-up takes its fields; GLB_CORE_RESET takes its
three keys; the wake timer, the axle interrupt enables, ring blocks and doorbells take the word; an unaligned offset
and a read-only register take none. -/
def Obligations.RegisterWritesComplete : Prop :=
  ∀ (s : State) (v : Word), s.host.ready = true →
    (∀ off r, off % 4 = 0 → evAt off = some r → exec (.registerWrite off v) s = .next (s.evClear r v)) ∧
    (∀ off r, off % 4 = 0 → 4 ≤ off → evAt off = none → evAt (off - 4) = some r → exec (.registerWrite off v) s = .next (s.cntClear r)) ∧
    (∀ off b two, off % 4 = 0 → evAt off = none → (off < 4 ∨ evAt (off - 4) = none) → irqAt off = some (b, two) → exec (.registerWrite off v) s =
      .next ((s.onIrqc b (fun _ => v &&& (if two then 0x013F013F#32 else 0x0000013F#32))).driveIrq)) ∧
    exec (.registerWrite 0x50 0xC0DE0001#32) s = .next (s.svcReset 4) ∧
    exec (.registerWrite 0x50 0xC0DE0002#32) s = .next s.softSafe ∧
    exec (.registerWrite 0x50 0xC0DE0003#32) s = .next ((s.svcReset 4).softSafe) ∧
    (∃ t : State, exec (.registerWrite 0x100C v) s = .next t ∧ t.pwr.wakeTimer = v ∧ ({ t with pwr := s.pwr } : State) = s) ∧
    exec (.registerWrite 0xB030 v) s = .next (s.onAxle 0 (fun x => { x with irqEn := v.setWidth 8 })) ∧
    exec (.registerWrite 0xB070 v) s = .next (s.onAxle 1 (fun x => { x with irqEn := v.setWidth 8 })) ∧
    (∀ n o, n < 64 → o < 16 → exec (.registerWrite (0x2000 + 64 * n + 4 * o) v) s = .next (s.ringWrite n (4 * o) v)) ∧
    (∀ n, n < 64 → exec (.registerWrite (0x8000 + 8 * n) v) s = .next (s.doorbell n v)) ∧
    (∀ off, off % 4 ≠ 0 → exec (.registerWrite off v) s = .next s) ∧
    exec (.registerWrite 0x0000 v) s = .next s

/-- The resets and the steps of a start-up complete with their effect (R517, R518, R519, R520, R522, R523, R524, R551).
Power-on reset at a supply in range, a reset by RST_N of at least 10 µs and its end; a domain whose predecessors are
up is powered; the built-in repair runs, F59 latching for what it cannot map; the MRAM is mounted and the ports
start, in a pair once it is trained; readiness, its timeout and the return of the service cores. -/
def Obligations.ResetRowsComplete : Prop :=
  ∀ s : State,
    (∀ v, 16800 ≤ v → exec (.powerOnReset v) s = .next (s.powerOn v)) ∧
    (∀ n, 10 ≤ n → s.pwr.st = .run → exec (.rstNReset n) s = .next s.rstReset) ∧
    (∀ n, 10 ≤ n → s.pwr.st = .moss → exec (.rstNReset n) s = .next (s.powerState .run 0 s.pwr.wakeSrc).rstReset) ∧
    (∀ n, 10 ≤ n → s.pwr.st = .peat → ∃ t : State, exec (.rstNReset n) s = .next t ∧ (t.evr .resetCause).bits.getLsbD 1 = true ∧ t.pwr = s.pwr ∧
      t.drv = s.drv ∧ t.cfg = s.cfg) ∧
    (s.pwr.rstLow = true → exec .rstNDeassert s = .next ((s.startUp false).trialStart)) ∧
    (∀ n, n < 12 → n ≠ 7 → n ≠ 8 → s.pwr.st ≠ .peat → s.pwr.rstLow = false → s.pwr.restartDue = false → s.pwr.intr ≠ .over →
      (domBefore n).all (fun d => s.pwr.domains.getLsbD d) = true → s.pwr.selfCheck = false → ∃ t : State,
        exec (.domainPowerGood n) s = .next t ∧ t.pwr.domains = s.pwr.domains ||| (1#12 <<< n) ∧ ({ t with pwr := s.pwr } : State) = s) ∧
    (∀ n (u : State), (n = 7 ∨ n = 8) → s.pwr.st = .run → s.pwr.rstLow = false → s.pwr.restartDue = false → s.pwr.intr ≠ .over →
      (domBefore n).all (fun d => s.pwr.domains.getLsbD d) = true →
      u = ({ s with pwr := { s.pwr with domains := s.pwr.domains ||| (1#12 <<< n) } } : State) →
      exec (.domainPowerGood n) s = .next (if s.mounted && !(s.isPair && !s.pair.trained) then u.portsStart else u)) ∧
    (∀ l n, s.pwr.starting = true → s.pwr.rstLow = false → s.pwr.startStep < 4 → exec (.builtInRepair l n) s = .next (if n = 0 then s.bootRepair l else (s.bootRepair l).stand 59 16 {})) ∧
    (s.mounted = false → s.pwr.rstLow = false → exec .mramMount s =
      .next (if s.mount.isPair && !s.mount.pair.trained then s.mount else s.mount.portsStart)) ∧
    (s.readyNow = true → ∃ u : State, u.pwr.ready = true ∧ u.pwr.starting = false ∧ ({ u with pwr := s.pwr } : State) = s ∧
      exec .readyToClose s = .next u.seqKick) ∧
    (s.pwr.ready = false → exec .readyTimeout s = .next s.readyOut) ∧
    (s.drv.svcUp = false → s.pwr.st = .run → s.mounted = true →
      exec .serviceCoresResumed s = .next (s.portList.foldl (fun s p => s.planResume p) s.svcResume.flushHeld))

/-- The commands of the supplies, the clock and the protective shutdown complete with their effect (R525, R526, R527,
R537, R283, R27, R287, R565). A supply interruption begins ride-through and refuses new records; the save window and
its end; the supply's return, during ride-through and after the end; a supply out of range raises F62 and one in
range ends it; a low coil supply is F39's condition; the loss of the PLL keeps time on the oscillator; the
protective shutdown and its recovery. No command tells the supply at its return: it is a free value in range
(assumption log 10), which the statement leaves open, as is what PWR_HOLDUP reports at the save window. -/
def Obligations.SupplyRowsComplete : Prop :=
  ∀ s : State,
    (∀ v h, s.pwr.intr = .none → v < 15000 → ∃ t : State, exec (.supplyInterruptionBegin ⟨v, h⟩) s = .next t ∧ t.mram.refuse = true ∧
      t.pwr.intr = .rideThrough ∧ t.pwr.intrT = s.now ∧ t.pwr.vsup = v) ∧
    (s.pwr.intr = .rideThrough → ∃ h, exec .saveWindowEntry s = .next (s.draw.2.holdupNow h).saveWindow) ∧
    (s.pwr.intr = .rideThrough ∨ s.pwr.intr = .saveWindow → exec .saveWindowExpiry s = .next s.saveOver) ∧
    (s.pwr.intr = .over → ∃ v, 16800 ≤ v ∧ v ≤ 154000 ∧ exec .interruptionEnd s = .next (s.draw.2.powerOn v)) ∧
    (s.pwr.intr = .rideThrough → s.mounted = true → s.pwr.st ≠ .peat → ∃ u : State, u.pwr.intr = .none ∧ u.mram.refuse = false ∧ 16800 ≤ u.pwr.vsup ∧
      u.pwr.st = s.pwr.st ∧
      exec .interruptionEnd s = .next (if (u.flushHeld.event .pwr 1).pwr.st == .peat then u.flushHeld.event .pwr 1 else (u.flushHeld.event .pwr 1).bbEvent 4 0 255 ((s.now - s.pwr.intrT) / 1000) 0 0)) ∧
    (s.pwr.intr = .saveWindow → s.mounted = true → ∃ u : State, u.pwr.intr = .none ∧ u.mram.refuse = false ∧ 16800 ≤ u.pwr.vsup ∧
      exec .interruptionEnd s = .next u.flushHeld) ∧
    (∀ v, ∃ u : State, u.pwr.vsup = v ∧ ({ u with pwr := s.pwr } : State) = s ∧ exec (.vsupOutOfRange v) s =
      .next (if 16800 ≤ v ∧ v ≤ 154000 then u.cease 62 16 else (u.event .pwr 4).stand 62 16 { value := v })) ∧
    (∀ a b : Nat, ∃ u : State, u.pwr.vcoilA = a ∧ u.pwr.vcoilB = b ∧ ({ u with pwr := s.pwr } : State) = s ∧
      exec (.coilSupplyLow a b) s = .next ((List.range 12).foldl State.supplyTurn u.f39Settle)) ∧
    (∀ ch, s.fed ch = false → s.drv.limp = false → ((s.supplyTurn ch).outc ch).on = false) ∧
    exec .pllLoss s = .next s.keeperOn.tick.keeperOff ∧
    (s.stands 14 16 = false → ∃ u : State, u.therm.shut = true ∧ u.therm.shutT = s.now ∧ u.therm.tj = s.therm.tj ∧ exec .junctionShutdown s =
      .next ((u.stand 14 16 { value := u.therm.tj }).shutStep)) ∧
    (s.stands 14 16 = true → ∃ u : State, u.therm.shut = false ∧
      exec .junctionRecovery s = .next (((u.cease 14 16).startUp false).resetCause 9))

/-- The wakes and the timers of Moss and Peat complete with their effect (R512, R513, R514, R515, R516, R155, R279,
R505). In Moss an enabled pack current, CAN or timer source wakes the module to Run with its own code; the pins are
followed in every state and wake where they may; a heartbeat sweep wakes every napping port; at the Moss limit a
module with every contactor OPEN passes to Peat; the self-check alarm wakes from Peat. -/
def Obligations.WakeRowsComplete : Prop :=
  ∀ s : State,
    (∀ i : Int, s.pwr.st = .moss → s.wakeOn 1 = true → s.gen.wakeI < i.natAbs → exec (.wakePackCurrent i) s = .next (s.wakeRun 1)) ∧
    (∀ c, s.pwr.st = .moss → s.wakeOn (2 + c) = true → (s.can c).mode ≠ 2 → exec (.canWake c) s = .next (s.wakeRun (2 + c))) ∧
    (s.pwr.st = .moss → s.pwr.wakeTimerTaken ≠ 0 → s.pwr.wakeTimer ≠ 0 → s.wakeOn 4 = true →
      exec .wakeTimerExpiry s = .next ((s.at (s.pwr.mossT + sec s.pwr.wakeTimerTaken)).wakeRun 4)) ∧
    (s.pwr.chgPres = false → ∃ u : State, u.pwr.chgPres = true ∧ ({ u with pwr := s.pwr } : State) = s ∧
      exec .chgPresHigh s = .next ((u.event .safein 9).wakePin 5).thermOuts) ∧
    (s.pwr.chgPres = true → ∃ u : State, u.pwr.chgPres = false ∧ ({ u with pwr := s.pwr } : State) = s ∧
      exec .chgPresLow s = .next (u.event .safein 9).thermOuts) ∧
    (s.pwr.svcWake = false → ∃ u : State, u.pwr.svcWake = true ∧ ({ u with pwr := s.pwr } : State) = s ∧
      exec .svcWakeHigh s = .next ((u.event .safein 10).wakePin 6)) ∧
    (s.pwr.svcWake = true → ∃ u : State, u.pwr.svcWake = false ∧ ({ u with pwr := s.pwr } : State) = s ∧
      exec .svcWakeLow s = .next (u.event .safein 10)) ∧
    (s.pwr.st = .moss → s.portList.any (fun p => (s.port p).sweepOpen) = true → exec .heartbeatSweepCycle s =
      .next (s.portList.foldl (fun s p =>
        if (s.port p).sweepOpen then (s.at ((s.port p).sweepS + ms 20)).sweepClose p else s) s)) ∧
    (s.pwr.st = .moss → s.portList.any (fun p => (s.port p).sweepOpen) = false → s.portList.any (fun p => (s.port p).nap) = true →
      exec .heartbeatSweepCycle s = .next s.mossWake) ∧
    (∀ u : State, s.pwr.st = .moss → s.gen.mossLim ≠ 0 → s.pwr.mossOver = false → s.pwr.peatDue = false → u = s.at (s.pwr.mossT + sec (3600 * s.gen.mossLim)) →
      exec .mossLimitExpiry s = .next (if u.allOpen then u.mossToPeat
        else ({ u with pwr := { u.pwr with mossOver := true } } : State).bbEvent 0x0F 0 255 0 0 0)) ∧
    (s.pwr.st = .peat → exec .selfCheckAlarm s = .next ((s.at (s.pwr.peatT + sec (86400 * s.gen.selfChk))).peatWake 7 true))

/-- The commands of the record family complete with their effect (R530, R535, R536, R537, R538, R545, R235, R134, R553).
A record that may start is committed at once, on a spare sector when its own fails, and deferred when it may not;
deferred records are retried with whatever PWR_HOLDUP then reports (a free value, assumption log 10), and one that
stays unwritten for 60 s raises F58; the periodic saves run in Run; passports are rewritten when the chain is
complete and stay due otherwise; a snapshot's next sweep is committed with the next sequence number. -/
def Obligations.NvRowsComplete : Prop :=
  ∀ s : State,
    (∀ h v, v = s.holdupNow h →
      (∀ r b, v.mayWrite = true → exec (.mramRecordWrite ⟨r, h⟩ false b) s = .next (v.nvCommit r)) ∧
      (∀ r a b, v.mayWrite = false → exec (.mramRecordWrite ⟨r, h⟩ a b) s = .next (v.nvDue r)) ∧
      (∀ r b off (u : State), v.mayWrite = true → (off, u) = v.nvPlace r → exec (.mramRecordWrite ⟨r, h⟩ true b) s = .next
        (if 48 ≤ u.mram.remap.length then (u.nvSpoil r).nvFault r off
         else if b then ((u.sectorRemap (off / 4096)).nvSpoil r).nvFault r off else (u.sectorRemap (off / 4096)).nvCommit r)) ∧
      (s.mram.held ≠ [] → ∃ k, exec .recordDeferralRetry s = .next (s.draw.2.holdupNow k).flushHeld)) ∧
    (∀ h, s.mayWrite = false → s.mram.refuse = false → s.pwr.holdup < 100 → s.mram.held.find? (fun h => !h.late) = some h → ∃ (u : State) (v : _),
      u.mram.held = s.mram.held.map (fun x => if x = h then { x with late := true } else x) ∧ u.now = max s.now (h.due + sec 60) ∧
      v = u.nvPlace h.req ∧ exec .deferredRecordTimeout s = .next (v.2.nvFault h.req v.1)) ∧
    (s.pwr.st = .run → exec .journalStringCounters s = .next s.counterSave ∧ exec .estimatorStateSave s = .next s.estSave ∧
      exec .ageingRecordDaily s = .next s.agesSave) ∧
    (s.actsPrimary = true → s.pwr.st = .run → s.fullPrimary = true → s.drv.svcUp = true → ∃ t u : State,
      u = (s.portList.filter (fun p => (s.port p).st == .ready)).foldl (fun s p => s.passWrite p) s ∧
      exec .passportRewrite s = .next t ∧ t.mram.passDue = false ∧ ({ t with mram := u.mram } : State) = u) ∧
    (s.actsPrimary = true → s.pwr.st = .run → s.fullPrimary = false → ∃ t : State, exec .passportRewrite s = .next t ∧
      t.mram.passDue = true ∧ ({ t with mram := s.mram } : State) = s) ∧
    (∀ p n x r y, s.mram.collecting.getD p 0 ≠ 0 → s.mayWrite = true → s.mram.snaps.find? (fun n => n.port == p) = some n →
      n.todo = x :: y :: r → ∃ t : State, exec (.snapshotSweepCommit p) s = .next t ∧ t.mram.bbSeq = nextCommit s.mram.bbSeq ∧
        t.mram.snaps = s.mram.snaps.map (fun m => if m = n then
          { n with todo := y :: r, sweeps := (nextCommit s.mram.bbSeq, x) :: n.sweeps } else m) ∧
        t.mram.collecting = s.mram.collecting.set p (s.mram.collecting.getD p 0 + 1) ∧ t.mram.events = s.mram.events)

/-- Commands that read answer OK with what they read, and change nothing but the host's side (R470, R471, R473, R477,
R483, R486, R242). IDENTIFY, ECHO, TIME_GET, PORT_STATUS, CELL_READ, CFG_READ, BB_READ and STATE_READBACK with good
parameters complete with OK; ECHO returns imm, the others their entry, each computed on the state the command finds;
beside the host interface, the rings and the maintenance session's idle time nothing changes. -/
def Obligations.ReadingCommandsComplete : Prop :=
  ∀ (s : State) (d : Desc), d.paramLen = 0 →
    (d.imm = 0#32 → s.busy 0x01 = false →
      exec (.identify d) s = .next ((s.took 0x01 d).okay (s.refOf 0x01 d) 0 (s.took 0x01 d).moduleEntry)) ∧
    (s.busy 0x02 = false → exec (.echo d) s = .next ((s.took 0x02 d).okay (s.refOf 0x02 d) d.imm.toNat [])) ∧
    (d.imm = 0#32 → s.busy 0x03 = false →
      exec (.timeGet d) s = .next ((s.took 0x03 d).okay (s.refOf 0x03 d) 0 (s.took 0x03 d).timeBytes)) ∧
    (d.imm &&& ~~~0xF#32 = 0#32 → s.busy 0x10 = false → exec (.portStatus d) s =
      .next ((s.took 0x10 d).okay (s.refOf 0x10 d) 0 ((s.took 0x10 d).portEntry (immF d.imm 3 0)))) ∧
    (d.imm &&& ~~~0x03FF1FFF#32 = 0#32 → 1 ≤ immF d.imm 25 16 → immF d.imm 12 0 % 512 + immF d.imm 25 16 ≤ 512 →
      s.busy 0x22 = false → exec (.cellRead d) s = .next ((s.took 0x22 d).okay (s.refOf 0x22 d) 0
        ((List.range (immF d.imm 25 16)).map (fun i => (s.took 0x22 d).cellEntry ((immF d.imm 12 0 + i) / 512)
          ((immF d.imm 12 0 + i) % 512) s.now)).flatten)) ∧
    (∀ b, d.imm &&& ~~~1#32 = 0#32 → s.busy 0x42 = false → s.blobOf (d.imm.getLsbD 0) = some b →
      exec (.cfgRead d) s = .next ((s.took 0x42 d).okay (s.refOf 0x42 d) (crc32c b.bytes).toNat b.bytes)) ∧
    (∀ l, s.busy 0x52 = false → l = (s.took 0x52 d).bbRecords.filter (fun x => decide (d.imm.toNat ≤ x.1)) →
      exec (.bbRead d) s = .next (l.foldl (fun s x => s.record fnBlackBox x.2)
        ((s.took 0x52 d).keep { ref := s.refOf 0x52 d, todo := [0] })).streamsDone) ∧
    (d.imm &&& ~~~0xFFFF#32 = 0#32 → s.busy 0x80 = false → ∃ (t : State) (x : _), x = (s.took 0x80 d).readback d.imm.toNat d.resultLen ∧
      exec (.stateReadback d) s = .next t ∧ (∃ u : State, u = (s.took 0x80 d).okay (s.refOf 0x80 d) 0 x.1 ∧
        ({ t with host := u.host } : State) = u ∧ t.host.finished =
          u.host.finished.map (fun c => if c.ref = s.refOf 0x80 d then { c with cut := x.2 } else c))) ∧
    (∀ op r st v l, ∃ h q c, (s.took op d).finish r st v l false = { s with host := h, rings := q, cfg := { s.cfg with maintT := c } })

/-- The accepted chain commands act on the port they name (R471, R472, R482, R81, R82, R161, R154, R164, R132). With
good parameters and its permissions met, ROSTER_ACCEPT accepts the roster of a HELD port and refuses another port;
OPEN_TAP_CLEAR clears a pair that is intact; BALANCE drives each node named; PASSPORT_READ and NODE_STATUS are sent
to a node that answers; PORT_RESTART wakes each port whose contactors are OPEN; OPEN_WIRE_NOW requests a group on a
READY port. -/
def Obligations.ChainCommandsComplete : Prop :=
  ∀ (s : State) (d : Desc),
    (∀ u : State, u = s.took 0x11 d → d.paramLen = 0 → d.imm &&& ~~~0xF#32 = 0#32 → s.admits 0x11 [.P, .S, .M, .O] true = true →
      exec (.rosterAccept d) s = .next (if (s.port (immF d.imm 3 0)).st = .held then
        (let t := u.chainCheck (immF d.imm 3 0) true
         t.mirrored u.pair.nvw (s.refOf 0x11 d) ((t.port (immF d.imm 3 0)).st != .held)) else u.fail (s.refOf 0x11 d) 4)) ∧
    (∀ (u : State) g p, g = gi p (immF d.imm 24 16) → p = immF d.imm 3 0 → d.paramLen = 0 → d.imm &&& ~~~0x01FF000F#32 = 0#32 →
      s.mram.taps.contains g = true → s.admits 0x12 [.P, .S, .M] true = true → (s.cell g).intact = true →
      (s.cell (g + 1)).intact = true → u = (s.took 0x12 d).onCell g (fun c => { c with openTap := false, maskBad := false }) →
      exec (.openTapClear d) s = .next (let v := (u.mirrorDue (tapReq p
          ((u.mram.taps.filter (fun x => x / 512 == p)).filter (fun x => x ≠ g))) none).f05Settle p
        (if (v.port p).st == .ready then v.configStart p else v).mirrored u.pair.nvw (s.refOf 0x12 d) true)) ∧
    (∀ (u : State) l r b, u.pair.nvw.any (fun x => !l.contains x) = false → (b && u.isPair && !u.partnerUp) = false →
      u.mirrored l r b = u.okay r 0 []) ∧
    (∀ l (u : State), s.balanceOk d (immF d.imm 3 0) l = true → s.admits 0x13 [.P, .S, .C] false = true →
      u = (s.took 0x13 d).keep { ref := s.refOf 0x13 d, todo := (l.map (fun e => nodeOf (s.portCfg (immF d.imm 3 0)) e.1)).dedup } →
      exec (.balance d l) s = .next (((l.map (fun e => nodeOf (s.portCfg (immF d.imm 3 0)) e.1)).dedup).foldl
        (fun v a => v.balanceNode (s.refOf 0x13 d) (immF d.imm 3 0) a l) u)) ∧
    (∀ p a, p = immF d.imm 3 0 → a = immF d.imm 13 8 → d.paramLen = 0 → d.imm &&& ~~~0x3F0F#32 = 0#32 → s.nodeUp p a = true →
      (s.busy 0x14 = false → exec (.passportRead d) s = .next
        (((s.took 0x14 d).keep { ref := s.refOf 0x14 d, todo := [a] }).sendTo p a 0x0B [] (some (s.refOf 0x14 d)))) ∧
      (s.busy 0x82 = false → exec (.nodeStatus d) s = .next
        (((s.took 0x82 d).keep { ref := s.refOf 0x82 d, todo := [a] }).sendTo p a 0x10 [] (some (s.refOf 0x82 d))))) ∧
    (∀ l ok, d.paramLen = 0 → d.imm &&& ~~~0xFFFF#32 = 0#32 → s.admits 0x15 [.P, .S, .C] false = true →
      l = (List.range 16).filter (fun p => d.imm.getLsbD p) → l ≠ [] →
      ok = (fun p => s.declared p && (s.ctrsOf p).all (fun i => (s.ctr i).st == .isOpen)) →
      exec (.portRestart d) s = .next ((l.filter (fun p => !ok p)).foldl (fun v p => v.memberIn (s.refOf 0x15 d) 3 p 4)
        ((l.filter ok).foldl (fun v p => ((v.portSt p .wake).wakePort p true false).onPort p
          (fun q => { q with restartCmd := some (s.refOf 0x15 d) })) ((s.took 0x15 d).keep { ref := s.refOf 0x15 d, todo := l })))) ∧
    (d.paramLen = 0 → d.imm &&& ~~~0xF#32 = 0#32 → s.admits 0x16 [.P, .S, .C] false = true → (s.port (immF d.imm 3 0)).st = .ready →
      exec (.openWireNow d) s = .next ((((s.took 0x16 d).keep { ref := s.refOf 0x16 d }).onPort (immF d.imm 3 0)
        (fun q => { q with owDue := true, owCmd := some (s.refOf 0x16 d) })).owTry (immF d.imm 3 0)))

/-- The accepted estimation commands take what the host supplies (R473, R474, R232, R257, R366, R226, R235, R428).
EMERGENCY_SUPPLY sets or releases the host's command with its lapse, restarting it, and returns whether the command
is in force; VEHICLE_MASS within the configured range takes the mass and returns it; CAPACITY_SET writes capacity
and sigma of the cells it names as mirrored ageing records. -/
def Obligations.EstimationCommandsComplete : Prop :=
  ∀ (s : State) (d : Desc),
    (∀ t1, d.paramLen = 0 → d.imm &&& ~~~0xFFFF00FF#32 = 0#32 → immF d.imm 7 0 = 0x5A → immF d.imm 31 16 ≤ 1440 →
      s.admits 0x20 [.P, .S] false = true → t1 = (if immF d.imm 31 16 = 0 then none else some (s.now + mins (immF d.imm 31 16))) →
      ∃ u : State, u.pack.emgHost = true ∧ u.pack.emgLapse = t1 ∧ ({ u with pack := s.pack } : State) = s.took 0x20 d ∧
        exec (.emergencySupply d) s = .next (u.okay (s.refOf 0x20 d) 1 [])) ∧
    (d.paramLen = 0 → d.imm &&& ~~~0xFFFF00FF#32 = 0#32 → immF d.imm 7 0 = 0xA5 → immF d.imm 31 16 ≤ 1440 →
      s.admits 0x20 [.P, .S] false = true → ∃ u : State, u.pack.emgHost = false ∧ u.pack.emgLapse = none ∧
        ({ u with pack := s.pack } : State) = s.took 0x20 d ∧
        exec (.emergencySupply d) s = .next (u.okay (s.refOf 0x20 d) s.pack.emgMsg.toNat [])) ∧
    (d.paramLen = 0 → s.massIn d.imm.toNat = true → s.admits 0x21 [.P, .S] false = true →
      ∃ u : State, u.pack.mass = some d.imm.toNat ∧ u.pack.massT = s.now ∧ ({ u with pack := s.pack } : State) = s.took 0x21 d ∧
        exec (.vehicleMass d) s = .next (u.okay (s.refOf 0x21 d) d.imm.toNat [])) ∧
    (∀ pos cap sg p, p = immF d.imm 3 0 → d.imm &&& ~~~0xF#32 = 0#32 → d.paramLen = 12 → s.declared p = true →
      (pos = 0xFFFF ∨ occupied (s.portCfg p) pos = true) → s.admits 0x23 [.P, .S, .M] true = true → ∃ (u : State) (l : _), l = s.capCells p pos ∧
        u = (l.foldl (fun s g => s.onEst g (fun e => { e with cap := cap, capSigma := sg, learned := true, fromName := false }))
          (s.took 0x23 d)).ageFaults p ∧ exec (.capacitySet d pos cap sg) s =
            .next (u.mirrorCmd (s.refOf 0x23 d) (l.map (fun g => { kind := 2, key := g, body := u.ageBody g })) 0))

/-- The accepted contactor, output and fault commands act (R475, R476, R478, R313, R323, R291, R339, R294, R371).
GROUP_CLOSE ends the maintenance session and starts its sequence, or is done when every member is closed; GROUP_OPEN
and DISCONNECT open what they name; OUTPUT_SET notes the request for a channel that may be switched, switches one
that is not thermal at once, and returns its state; OUTPUT_CLEAR restores each channel named; FAULT_CLEAR tries each
latch named and returns how many were cleared and refused. -/
def Obligations.DriveCommandsComplete : Prop :=
  ∀ (s : State) (d : Desc),
    (∀ w (u : State) l, d.paramLen = 0 → d.imm &&& ~~~0xF#32 = 0#32 → w = s.maintEnd 3 → w.admits 0x30 [.P, .S, .C] true = true →
      w.seq.active = false → s.contends d [0x31, 0x32] (s.groupCtrs (immF d.imm 3 0)) = false → u = w.took 0x30 d → l = (u.groupCfg (immF d.imm 3 0)).members → u.closeRefused = false → l ≠ [] →
      exec (.groupClose d) s = .next (if u.groupClosed l then u.okay (w.refOf 0x30 d) 0 []
        else u.seqBegin (w.refOf 0x30 d) (immF d.imm 3 0))) ∧
    (∀ (u : State) l x, d.paramLen = 0 → d.imm &&& ~~~0xF#32 = 0#32 → s.admits 0x31 [.P, .C] false = true →
      s.contends d [0x32] (s.groupCtrs (immF d.imm 3 0)) = false → u = s.took 0x31 d →
      l = (u.groupCfg (immF d.imm 3 0)).members → l ≠ [] →
      x = (l.zipIdx.filter (fun y => !(u.openMembers l).contains y.2)).map (·.1) → exec (.groupOpen d) s =
        .next (((((u.keep { ref := s.refOf 0x31 d, todo := x.flatMap u.memberCtrs, members := (u.openMembers l).map (fun i => (i, 0x11)) }
          ).abortFor (x.flatMap u.memberKeys)).commandOpen x (some (s.refOf 0x31 d))).settleCmds).seqKick)) ∧
    (∀ (u : State) q, d.paramLen = 0 → d.imm &&& ~~~0xFF#32 = 0#32 → (immF d.imm 7 0 < 16 ∨ immF d.imm 7 0 = 0xFF) →
      s.admits 0x32 [.P, .C] false = true →
      s.contends d [0x31] (s.ctrsOf (if immF d.imm 7 0 < 16 then immF d.imm 7 0 else 16)) = false → q = (if immF d.imm 7 0 < 16 then immF d.imm 7 0 else 16) →
      u = (s.took 0x32 d).keep { ref := s.refOf 0x32 d, todo := (s.took 0x32 d).ctrsOf q } →
      exec (.disconnect d) s = .next (let v := u.abortFor (u.discKeys q)
        ((v.startB q v.waitW (some (s.refOf 0x32 d))).settleCmds).seqKick)) ∧
    (∀ ch, d.paramLen = 0 → d.imm &&& ~~~0x10F#32 = 0#32 → ch = immF d.imm 3 0 → s.switchable ch = true →
      s.admits 0x33 [.P, .S, .C] false = true → (s.drv.limp && s.limpSel ch) = false → d.imm.getLsbD 8 = false → ∃ u : State,
        u = (s.took 0x33 d).hostSwitch ch false ∧ (u.outc ch).hostReq = false ∧
        ((s.outCfg ch).use ≠ .thermal → (u.outc ch).on = false ∧ (u.outc ch).cmd = false) ∧
        exec (.outputSet d) s = .next (u.okay (s.refOf 0x33 d) (u.outc ch).on.toNat [])) ∧
    (∀ ch, d.paramLen = 0 → d.imm &&& ~~~0x10F#32 = 0#32 → ch = immF d.imm 3 0 → s.switchable ch = true →
      s.admits 0x33 [.P, .S, .C] false = true → (s.drv.limp && s.limpSel ch) = false → d.imm.getLsbD 8 = true →
      (s.took 0x33 d).forcedOff ch = false → ∃ u : State, u = (s.took 0x33 d).hostSwitch ch true ∧ (u.outc ch).hostReq = true ∧
        ((s.outCfg ch).use ≠ .thermal → (u.outc ch).cmd = s.outUp ∧
          (u.outc ch).on = (!(s.outc ch).tripped && s.outUp && s.fed ch)) ∧
        exec (.outputSet d) s = .next (u.okay (s.refOf 0x33 d) (u.outc ch).on.toNat [])) ∧
    (d.paramLen = 0 → d.imm &&& ~~~0xFFF#32 = 0#32 → s.admits 0x34 [.C] false = true → exec (.outputClear d) s =
      .next ((((List.range 12).filter (fun ch => d.imm.getLsbD ch)).foldl (fun s ch => s.outClear ch) (s.took 0x34 d)).okay
        (s.refOf 0x34 d) 0 [])) ∧
    (∀ (u : State) x, d.paramLen = 0 → d.imm &&& ~~~0xFFFF#32 = 0#32 → (immF d.imm 7 0 < 64 ∨ immF d.imm 7 0 = 0xFF) →
      (immF d.imm 15 8 < 16 ∨ immF d.imm 15 8 = 0xFF) → s.admits 0x40 [.C] false = true → u = s.took 0x40 d →
      x = (u.retest (u.latchesNamed (immF d.imm 7 0) (immF d.imm 15 8))).clearAll (u.latchesNamed (immF d.imm 7 0) (immF d.imm 15 8)) → exec (.faultClear d) s =
        .next (x.1.settle.seqKick.finish (s.refOf 0x40 d) (if immF d.imm 7 0 ≠ 0xFF ∧ x.2.2 ≠ 0 then 4 else 0)
          (x.2.1 + 65536 * x.2.2) [] false))

/-- The accepted safety and seal commands act (R367, R368, R371, R372, R477, R541, R542, R301). CFG_LOAD of a blob that
keeps every rule makes it pending and returns its CRC-32C; SEAL_CONFIRM with that value brings it into force where
its hard limits fit the fuses in force, answers BAD_PARAM and drops it where they do not (assumption log 116), and
with another answers SEAL_INVALID and at the third discards it; MAINT_OPEN with the seal in force opens a session
and MAINT_CLOSE ends it; FUSE_PROGRAM of an image that passes programs the lowest free slot. -/
def Obligations.SealCommandsComplete : Prop :=
  ∀ (s : State) (d : Desc),
    (∀ b, d.imm = 0#32 → d.paramLen = b.bytes.length → 1 ≤ b.bytes.length → b.bytes.length ≤ 262144 →
      s.admits 0x41 [.P, .m] false = true → (s.took 0x41 d).cfgOk b.cfg = true → exec (.cfgLoad d b) s =
        .next (((s.took 0x41 d).pendTake b).okay (s.refOf 0x41 d) (crc32c b.bytes).toNat [])) ∧
    (∀ b (u : State), d.paramLen = 0 → s.admits 0x43 [.P, .m, .O] true = true → s.cfg.pend = some b → u = s.took 0x43 d →
      (crc32c b.bytes = d.imm → u.limitsFit b.cfg = true →
        exec (.sealConfirm d) s = .next (u.sealConfirmed (s.refOf 0x43 d) b d.imm)) ∧
      (crc32c b.bytes = d.imm → u.limitsFit b.cfg = false →
        exec (.sealConfirm d) s = .next (u.pendDrop.fail (s.refOf 0x43 d) 7)) ∧
      (crc32c b.bytes ≠ d.imm → s.cfg.mism + 1 ≠ 3 → ∃ v : State, v.cfg.mism = s.cfg.mism + 1 ∧ v.cfg.pend = some b ∧
        exec (.sealConfirm d) s = .next (v.fail (s.refOf 0x43 d) 2)) ∧
      (crc32c b.bytes ≠ d.imm → s.cfg.mism + 1 = 3 → ∃ v : State, v.pendDrop.cfg.pend = none ∧
        exec (.sealConfirm d) s = .next (v.pendDrop.fail (s.refOf 0x43 d) 2))) ∧
    (d.paramLen = 0 → s.busy 0x44 = false → s.maintAllowed = true → s.cfg.valid = true → d.imm.toNat = s.sealInForce →
      ∃ u : State, u.cfg.maint = true ∧ u.cfg.maintT = s.now ∧
        exec (.maintOpen d) s = .next ((u.eventRec 6 3 0 255 1 0 0).okay (s.refOf 0x44 d) 0 [])) ∧
    (d.imm = 0#32 → d.paramLen = 0 → s.busy 0x45 = false →
      exec (.maintClose d) s = .next (((s.took 0x45 d).maintEnd 1).okay (s.refOf 0x45 d) 0 [])) ∧
    (∀ l b v h w (u : State), w = ({ s with pwr := { s.pwr with vprog := v } } : State).holdupNow h → d.imm = 0#32 → d.paramLen = 128 →
      l.length = 128 → w.admits 0x46 [.m, .O] false = true → s.fuse.free < 4 → 200 ≤ h → 2375 ≤ v → v ≤ 2625 →
      imageOk s.fuse.free l = true → (s.cfg.valid && !s.conf.ports.all (fun x => limitsOk (fuseParse l) x.2)) = false →
      noLooser (fuseParse l) s.fuse.set = true → u = w.took 0x46 d → exec (.fuseProgram d l ⟨b, v, h⟩) s =
        .next (if b then (u.fuseTaken s.fuse.free l).okay (w.refOf 0x46 d) s.fuse.free []
          else (u.fuseFailed s.fuse.free).fail (w.refOf 0x46 d) 6))

/-- The accepted non-volatile commands act (R479, R466, R539, R540, R546, R547, R428). TABLE_READ sends its records to
the ring of its function and waits for them; TABLE_WRITE takes every record once all pass their check; BB_CLEAR
empties the black box and records it; FW_LOAD takes a chunk that follows on, and judges the image after the last
one; FW_ACTIVATE marks a valid slot for trial. -/
def Obligations.RecordCommandsComplete : Prop :=
  ∀ (s : State) (d : Desc),
    (∀ k n c l, k = immF d.imm 7 0 → d.imm &&& ~~~0xFF#32 = 0#32 → d.paramLen = 8 → 1 ≤ k → k ≤ 6 →
      (k ≤ 2 → 1 ≤ c ∧ n + c ≤ 8192) → (2 < k → n = 0 ∧ c = 0) → s.busy 0x50 = false → l = (s.took 0x50 d).tableRecs k n c →
      exec (.tableRead d n c) s = .next (l.foldl (fun s x => s.record fnNvOut (tableRec k x))
        ((s.took 0x50 d).keep { ref := s.refOf 0x50 d, todo := [l.length] })).streamsDone) ∧
    (∀ k l, k = immF d.imm 7 0 → d.imm &&& ~~~0xFF#32 = 0#32 → (k = 1 ∨ k = 2) →
      d.paramLen = 8 + (if k = 1 then 320 else 64) * l.length → s.admits 0x51 [.P, .S, .M, .O] true = true →
      l.all (tableRecOk k) = true → exec (.tableWrite d l) s = .next ((l.foldl (fun s q => s.tableTake q) (s.took 0x51 d)).mirrorCmd
        (s.refOf 0x51 d) (l.map (fun q => { q with body := if k = 1 then q.body else q.body.take 0x3C })) 0)) ∧
    (d.imm = 0#32 → d.paramLen = 0 → s.admits 0x53 [.M] false = true → (∀ p, p < 16 → s.mram.collecting.getD p 0 = 0) → ∃ u : State,
      u.mram.events = [] ∧ u.mram.snaps = [] ∧ u.mram.bbSeq = s.mram.bbSeq ∧
        exec (.bbClear d) s = .next ((u.bbEvent 9 0 255 0 0 0).okay (s.refOf 0x53 d) 0 [])) ∧
    (∀ k (c : FwChunk), k = immF d.imm 0 0 → d.imm &&& ~~~1#32 = 0#32 → d.paramLen = 16 + c.data.length →
      s.admits 0x54 [.M] false = true → k ≠ s.mram.fwActive → (s.mram.fw.getD k {}).takes c = true →
      (c.last = false → ∃ (u : State) (img : _), img = (if c.first then [] else s.mram.images.getD k []) ++ c.data ∧ exec (.fwLoad d c) s =
        .next ((u.fwSet k { total := c.total, crc := c.crc, next := c.offset + c.data.length } img).okay (s.refOf 0x54 d) c.crc.toNat []) ∧
        ({ u with mram := s.mram } : State) = s.took 0x54 d) ∧
      (∀ img, c.last = true → img = (if c.first then [] else s.mram.images.getD k []) ++ c.data → imagePasses c.crc img = true →
        ∃ (u : State) (v : _), v = (Config.fwHeader (img.take 64)).2.1 ∧ exec (.fwLoad d c) s =
            .next ((u.fwSet k { valid := true, version := v, total := c.total, crc := c.crc, next := c.offset + c.data.length } img).okay
                (s.refOf 0x54 d) c.crc.toNat []) ∧ ({ u with mram := s.mram } : State) = s.took 0x54 d) ∧
      (∀ img, c.last = true → img = (if c.first then [] else s.mram.images.getD k []) ++ c.data → imagePasses c.crc img = false →
        ∃ u : State, exec (.fwLoad d c) s = .next ((u.fwSet k {} []).fail (s.refOf 0x54 d) 7) ∧
          ({ u with mram := s.mram } : State) = s.took 0x54 d)) ∧
    (d.imm &&& ~~~1#32 = 0#32 → d.paramLen = 0 → s.admits 0x55 [.M, .O] false = true →
      (s.mram.fw.getD (immF d.imm 0 0) {}).valid = true → ∃ u : State, u.mram.fwTrial = some (immF d.imm 0 0) ∧
        ({ u with mram := s.mram } : State) = s.took 0x55 d ∧ exec (.fwActivate d) s = .next (u.okay (s.refOf 0x55 d) 0 []))

/-- The accepted CAN commands act on the controller they name (R480, R390, R391, R392, R393, R397, R400). CAN_TX adds a
well-formed frame to the submissions of a controller in normal mode; CAN_CANCEL withdraws a submission of its own
ring, and returns 1 for one already completed; CAN_FILTER writes a filter or the default action; CAN_MODE takes the
mode, stopping what waits when it leaves normal mode. -/
def Obligations.CanCommandsComplete : Prop :=
  ∀ (s : State) (d : Desc) (c : Nat),
    (∀ f, c = immF d.imm 0 0 → d.imm &&& ~~~1#32 = 0#32 → d.paramLen = 80 → s.ownCan d.sq c = true → frameMalformed f = false →
      s.busy 0x60 = false → (s.can c).mode = 0 → exec (.canTx d f) s = .next
        (((s.took 0x60 d).onCan c (fun k => { k with txq := k.txq ++ [{ frame := f, ref := s.refOf 0x60 d }] })).loadTx c)) ∧
    (∀ (u : State) id, c = immF d.imm 16 16 → id = BitVec.ofNat 16 (immF d.imm 15 0) → d.imm &&& ~~~0x1FFFF#32 = 0#32 → d.paramLen = 0 →
      s.ownCan d.sq c = true → s.busy 0x61 = false → u = s.took 0x61 d →
      (∀ b, (s.can c).tb1 = some b → b.tagged d.sq id = true →
        exec (.canCancel d) s = .next ((u.cancelBuf c 1).okay (s.refOf 0x61 d) 0 [])) ∧
      (∀ b, (∀ a, (s.can c).tb1 = some a → a.tagged d.sq id = false) → (s.can c).tb2 = some b → b.tagged d.sq id = true →
        exec (.canCancel d) s = .next ((u.cancelBuf c 2).okay (s.refOf 0x61 d) 0 [])) ∧
      (∀ x, (∀ a, (s.can c).tb1 = some a ∨ (s.can c).tb2 = some a → a.tagged d.sq id = false) →
        (s.can c).txq.find? (fun x => x.tagged d.sq id) = some x →
        exec (.canCancel d) s = .next (((u.onCan c (fun k => { k with txq := k.txq.erase x })).txResult x 1 0).okay
          (s.refOf 0x61 d) 0 [])) ∧
      ((∀ a, (s.can c).tb1 = some a ∨ (s.can c).tb2 = some a ∨ a ∈ (s.can c).txq → a.tagged d.sq id = false) →
        s.host.finished.any (fun x => x.ref.opcode == 0x60 && x.ref.d.sq == d.sq && x.ref.d.cmdId == id) = true →
        exec (.canCancel d) s = .next (u.okay (s.refOf 0x61 d) 1 []))) ∧
    (∀ x, c = immF d.imm 0 0 → d.imm &&& ~~~0x3F01#32 = 0#32 → d.paramLen = 16 → filterOk (d.imm.getLsbD 13) x = true →
      s.busy 0x62 = false → exec (.canFilter d x) s = .next (((s.took 0x62 d).onCan c (fun k =>
        if d.imm.getLsbD 13 then { k with defRing := x.action == 1 }
        else { k with filters := k.filters.set (immF d.imm 12 8) x })).okay (s.refOf 0x62 d) 0 [])) ∧
    (∀ m (u : State), c = immF d.imm 0 0 → m = immF d.imm 9 8 → d.imm &&& ~~~0x1301#32 = 0#32 → d.paramLen = 0 → m ≤ 2 →
      s.busy 0x63 = false → (m = 0 ∨ s.usesSafe = false ∨ s.cfg.maint = true) →
      u = (s.took 0x63 d).onCan c (fun k => { k with mode := m, single := d.imm.getLsbD 12 }) →
      exec (.canMode d) s = .next ((if m = 0 then u else u.canStop c).okay (s.refOf 0x63 d) 0 []))

/-- The accepted pair, power state and self-test commands act (R409, R430, R432, R481, R510, R511, R515, R559, R560).
ROLE_HANDOVER and MIRROR_CHECK go to a partner that is up and wait for it; PAIR_ADOPT with the seal in force sends
the blob; POWER_STATE writes its completion, tells the partner and enters Moss or Peat; SELF_TEST reports the
elements of its test that fail. -/
def Obligations.PairAndTestCommandsComplete : Prop :=
  ∀ (s : State) (d : Desc), d.paramLen = 0 →
    (d.imm = 0#32 → s.admits 0x70 [.X, .P, .S, .C] false = true → s.pair.diverged = 0#7 → s.seq.active = false →
      s.opens.any (fun x => x.2.ph != .idle) = false → s.drv.hold = false →
      s.partnerHold = false → s.partnerUp = true → ∃ u : State, u.pair.handover = some (s.refOf 0x70 d) ∧
        ({ u with pair := s.pair } : State) = s.took 0x70 d ∧
        exec (.roleHandover d) s = .next ((u.sendEvt .handover).keep { ref := s.refOf 0x70 d })) ∧
    (∀ b, s.admits 0x71 [.X, .P, .V, .M, .O] true = true → d.imm.toNat = s.sealInForce → s.cfg.work = some b →
      exec (.pairAdopt d) s = .next ((s.took 0x71 d).blobMirror (s.refOf 0x71 d) b d.imm)) ∧
    (d.imm = 0#32 → s.admits 0x72 [.X] false = true → s.partnerUp = true → ∃ u : State, u.pair.check = some (s.refOf 0x72 d) ∧
      ({ u with pair := s.pair } : State) = s.took 0x72 d ∧
      exec (.mirrorCheck d) s = .next (u.keep { ref := s.refOf 0x72 d })) ∧
    (∀ u : State, d.imm = 1#32 → s.admits 0x04 [.P, .S, .C] false = true → (s.took 0x04 d).mossRefused = false →
      u = ((s.took 0x04 d).okay (s.refOf 0x04 d) 0 []).completeAll d.sq →
      exec (.powerStateMoss d) s = .next (if u.partnerUp then u.sendEvt (.powerState 1) else u).mossEnter) ∧
    (∀ u : State, d.imm = 2#32 → s.admits 0x04 [.P, .S, .O, .C] false = true →
      u = ((s.took 0x04 d).okay (s.refOf 0x04 d) 0 []).completeAll d.sq →
      exec (.powerStatePeat d) s = .next (if u.partnerUp then u.sendEvt (.powerState 2) else u).peatEnter) ∧
    (∀ w n bad, n = d.imm.toNat → 1 ≤ n → n ≤ 8 → bad = w &&& testElements n → s.busy 0x81 = false →
      (n = 5 ∨ n = 6 → s.allOpen = true) → ∃ u : State, u.host.selfTestResult = bad ∧
        (∃ h, ({ u with host := h } : State) = s.took 0x81 d) ∧ exec (.selfTest d w) s = .next (if bad = 0#32 then
          (u.testEffect n bad).okay (s.refOf 0x81 d) 0 []
          else ((u.testEffect n bad).event .repair 7).finish (s.refOf 0x81 d) 6 bad.toNat [] false))

/-- A step runs the command at the front of the queue (R463, R464). For every command c and state s, a step of s with c
at the front of its queue is exec of c on s with the queue's rest; with an empty queue the step is one tick of the
time base (assumption log 15: the model's choice). -/
def Obligations.StepRunsTheFrontCommand : Prop :=
  ∀ (c : Instr) (r : List Instr) (s : State),
    step { s with pending := c :: r } = exec c { s with pending := r } ∧
    step { s with pending := [] } = .next ({ s with pending := [] } : State).tick

/-- No command changes what waits behind it (R463, R464, R2). Whatever command runs, in whatever state, the queue it
leaves is the queue it found; so a step takes the command at the front and nothing else. That commands wait in one
queue is the model's form (assumption log 15). -/
def Obligations.QueueIsOnlyTakenFrom : Prop :=
  ∀ (c : Instr) (s t : State), exec c s = .next t → t.pending = s.pending

/-- A programmed fuse slot never changes (R300, R301, R541, R542, R496). Whatever step is taken, in whatever state,
every fuse slot that is programmed holds the same image afterwards, through every reset and power state; no slot is
programmed but by FUSE_PROGRAM. -/
def Obligations.ProgrammedSlotsStay : Prop :=
  ∀ (s t : State), step s = .next t →
    (∀ n b, Tab.find s.fuse.slots n = some b → Tab.find t.fuse.slots n = some b) ∧
    (∀ c r, s.pending = c :: r → (∀ d l k, c ≠ .fuseProgram d l k) → t.fuse.slots = s.fuse.slots)

/-- The slot in force is the highest-numbered programmed one, and slots are programmed in order (R301, R302, R541,
R542). The invariant FuseBank.sound (the programmed slots are 0 to some k, and slot k is in force) is kept by every
step from every state that has it. -/
def Obligations.FuseBankSound : Prop :=
  ∀ (s t : State), s.fuse.sound → step s = .next t → t.fuse.sound

/-- The fuse bank is sound at reset (R300, R301, R541). At reset slot 0 alone is programmed and in force, as shipped. -/
def Obligations.ResetFuseBankSound : Prop :=
  State.reset.fuse.sound ∧ State.reset.fuse.inForce = 0 ∧ Tab.find State.reset.fuse.slots 1 = none

/-- No close sequence starts but by GROUP_CLOSE (R295, R313, R314, R322). A command that leaves a close sequence running
where none ran is GROUP_CLOSE: no reset, wake, frame of the partner, timer or cleared latch starts one. -/
def Obligations.OnlyGroupCloseStartsASequence : Prop :=
  ∀ (c : Instr) (s t : State), exec c s = .next t → s.seq.active = false → t.seq.active = true → ∃ d, c = .groupClose d

/-- No maintenance session opens but by MAINT_OPEN (R371, R477). A command that leaves a maintenance session open where
none was open is MAINT_OPEN, with every contactor OPEN and the seal in force as its value. -/
def Obligations.OnlyMaintOpenOpensASession : Prop :=
  ∀ (c : Instr) (s t : State), exec c s = .next t → s.cfg.maint = false → t.cfg.maint = true →
    ∃ d, c = .maintOpen d ∧ s.allOpen = true ∧ s.cfg.valid = true ∧ d.imm.toNat = s.sealInForce

/-- A host's emergency-supply command stays in force until released, lapsed or power-on reset (R474). A command after
which a host's emergency-supply command is no longer in force is EMERGENCY_SUPPLY itself, its lapse, power-on reset,
or the return of a supply that had gone; PERST_N and link resets keep it. Setting it again restarts its lapse. -/
def Obligations.EmergencyCommandStaysInForce : Prop :=
  (∀ (c : Instr) (s t : State), exec c s = .next t → s.pack.emgHost = true → t.pack.emgHost = false →
      (∃ d, c = .emergencySupply d ∧ immF d.imm 7 0 = 0xA5) ∨ (c = .emergencySupplyLapse ∧ s.pack.emgLapse.isSome = true) ∨
      (∃ v, c = .powerOnReset v) ∨ (c = .interruptionEnd ∧ (s.pwr.intr = .over ∨ s.mounted = false))) ∧
    (∀ (s t : State), exec .perstNAssert s = .next t ∨ exec .linkReset s = .next t →
      t.pack.emgHost = s.pack.emgHost ∧ t.pack.emgLapse = s.pack.emgLapse) ∧
    (∀ (s : State) (d : Desc), d.paramLen = 0 → d.imm &&& ~~~0xFFFF00FF#32 = 0#32 → immF d.imm 7 0 = 0x5A →
      1 ≤ immF d.imm 31 16 → immF d.imm 31 16 ≤ 1440 → s.admits 0x20 [.P, .S] false = true → s.pack.emgHost = true →
      ∃ t : State, exec (.emergencySupply d) s = .next t ∧ t.pack.emgHost = true ∧
        t.pack.emgLapse = some (s.now + mins (immF d.imm 31 16)))

/-- A command that lacks a permission completes with its status and has no further effect (R464, R465, R371, R477). For
every host command: where a permission of its row does not hold, it completes with BAD_PARAM for its parameters or
else with the status of the first permission that fails (SEAL_INVALID for S, otherwise STATE_NOT_PERMITTED), value 0
and no result, on the state it found; GROUP_CLOSE has then ended the maintenance session all the same. PAIR_ADOPT's
S is met by the seal in force alone (assumption log 25: the model's choice). -/
def Obligations.RefusedCommandHasNoEffect : Prop :=
  ∀ (c : Instr) (s : State) (h : HostCmd), c.host? = some h → h.perms.any (fun p => !(c.found s).permits h.bars p) = true →
    ∃ st, (st = 7 ∨ ((h.perms.find? (fun p => !(c.found s).permits h.bars p)).map permStatus = some st)) ∧
      exec c s = .next ((c.found s).finish ((c.found s).refOf h.op h.d) st 0 [] false)

/-- A command of an opcode that is running completes with BUSY (R464, R466, R314). For every host command whose
permissions hold while a command of its opcode runs: it completes with BAD_PARAM for its parameters or else with
BUSY, on the state it found. -/
def Obligations.SecondCommandIsBusy : Prop :=
  ∀ (c : Instr) (s : State) (h : HostCmd), c.host? = some h → h.perms.all (fun p => (c.found s).permits h.bars p) = true →
    (c.found s).busy h.op = true → ∃ st, (st = 7 ∨ st = 3) ∧
      exec c s = .next ((c.found s).finish ((c.found s).refOf h.op h.d) st 0 [] false)

/-- A finished command leaves the running ones and falls due with its status, value and result (R450, R460, R466, R487).
A command of the present host session that finishes leaves the running commands and its completion is due last; one
that asked for none and is OK only counts its ring down; one started before a reset of the host interface leaves no
completion. Nothing changes but the host interface and, in the second case, its ring. -/
def Obligations.FinishingACommand : Prop :=
  ∀ (s : State) (r : CmdRef) (st v : Nat) (l : List Byte) (b : Bool), ∃ t : State, t = s.finish r st v l b ∧
    t.host.running = s.host.running.filter (fun c => decide (c.ref ≠ r)) ∧
    (r.epoch = s.host.epoch → (r.d.noCpl = false ∨ st ≠ 0) → t.rings = s.rings ∧
      t.host.finished = s.host.finished ++ [{ ref := r, status := st, value := v, result := l, isPartial := b }]) ∧
    (r.epoch = s.host.epoch → r.d.noCpl = true → st = 0 → t.host.finished = s.host.finished ∧ t = { s with host := t.host, rings := t.rings }) ∧
    (r.epoch ≠ s.host.epoch → t.host.finished = s.host.finished ∧ t.rings = s.rings) ∧
    ({ t with host := s.host, rings := s.rings } : State) = s

/-- The effective class of a source is the stricter of its configured and its fused minimum class (R286). Classes are
codes 0 (A) to 4 (E), a lower code stricter. For a source with no escalation on the scope (R291, R297) and, for F24,
an end still supervised (R287), the effective class is the lower of the two codes, fused codes 5 to 7 counting as A;
F00, F01, F08, F16, F40, F41, F42 and F60 are class A always. -/
def Obligations.EffectiveClassOfASource : Prop :=
  ∀ (s : State) (n q : Nat),
    (n ∈ [0, 1, 8, 16, 40, 41, 42, 60] → s.effClass n q = 0) ∧
    (n ∉ [0, 1, 8, 16, 40, 41, 42, 60] → (s.fault n).escB.getLsbD q = false → (s.fault n).escC.getLsbD q = false →
      (n = 24 → s.supervised q = true) →
      ∀ cfgd fused, cfgd = (s.faultCfg n).cls.getD (defClass.getD n 4) → fused = s.fuse.set.minCls.getD n 4 →
        s.effClass n q = min cfgd (if 5 ≤ fused then 0 else fused))

/-- A write of a record kept as A/B copies goes to the older copy (R532). For the ageing records and the saved estimator
state: with no valid copy the write takes copy A; otherwise it takes the copy that does not hold the highest
sequence, so the copy the reader took before the write is still there after it, and the other holds the new body.
The reader takes the copy with the highest valid sequence. -/
def Obligations.NewestCopyIsNeverOverwritten : Prop :=
  ∀ (s : State) (r : NvReq) (a b : Option NvRec) (t : State), t = s.nvCommit r →
    (∀ x y : NvRec, newest (some x) (some y) = (if x.commit < y.commit then some y else some x) ∧
      newest (some x) none = some x ∧ newest none (some y) = some y) ∧
    (r.kind = 4 → a = s.mram.estA → b = s.mram.estB →
      (a = none → b = none → (t.mram.estA.map (·.body)) = some r.body ∧ t.mram.estB = none) ∧
      (newest a b = a → a.isSome = true → t.mram.estA = a ∧ (t.mram.estB.map (·.body)) = some r.body) ∧
      (newest a b = b → newest a b ≠ a → t.mram.estB = b ∧ (t.mram.estA.map (·.body)) = some r.body)) ∧
    (r.kind = 2 → a = Tab.find s.mram.ageA r.key → b = Tab.find s.mram.ageB r.key →
      (a = none → b = none → ((Tab.find t.mram.ageA r.key).map (·.body)) = some r.body ∧ Tab.find t.mram.ageB r.key = none) ∧
      (newest a b = a → a.isSome = true → Tab.find t.mram.ageA r.key = a ∧ ((Tab.find t.mram.ageB r.key).map (·.body)) = some r.body) ∧
      (newest a b = b → newest a b ≠ a → Tab.find t.mram.ageB r.key = b ∧ ((Tab.find t.mram.ageA r.key).map (·.body)) = some r.body))

/-- At the Moss limit the module passes to Peat, or goes on in Moss with a contactor closed (R513). The limit is 96 h
unless configured, a configuration that is accepted gives 1 to 240 h or 0 for none, and it counts from Moss entry:
at its expiry every contactor OPEN takes the module to Peat, any other writes the black-box record and leaves the
power state Moss; with 0 nothing happens. That time moves to the expiry is the model's choice (assumption log 11). -/
def Obligations.MossLimit : Prop :=
  (({} : GenCfg).mossLim = 96) ∧
    (∀ (s : State) (c : Cfg), s.cfgOk c = true → c.gen.mossLim ≤ 240) ∧
    (∀ s : State, s.mossEnter.pwr.mossT = s.mossEnter.now ∧ s.mossEnter.pwr.st = .moss) ∧
    (∀ s : State, s.pwr.st = .moss → s.gen.mossLim = 0 → exec .mossLimitExpiry s = .next s) ∧
    (∀ s u : State, s.pwr.st = .moss → s.gen.mossLim ≠ 0 → s.pwr.mossOver = false → s.pwr.peatDue = false →
      u = s.at (s.pwr.mossT + sec (3600 * s.gen.mossLim)) →
      (u.allOpen = true → exec .mossLimitExpiry s = .next u.mossToPeat ∧ (u.mram.passDue = false → u.mossToPeat = u.peatEnter) ∧
        (u.mossToPeat = u.peatEnter ∨ ∃ w : State, w.pwr.peatDue = true ∧ u.mossToPeat = w.mossWake) ∧
        (u.mossToPeat.pwr.domains.getLsbD 6 = true → u.pwr.domains.getLsbD 6 = true) ∧
        u.peatEnter.pwr.st = .peat ∧ u.peatEnter.host.ready = false) ∧
      (u.allOpen = false → ∃ t w : State, exec .mossLimitExpiry s = .next t ∧ w.pwr.mossOver = true ∧
        ({ w with pwr := u.pwr } : State) = u ∧ t = w.bbEvent 0x0F 0 255 0 0 0 ∧ t.pwr.st = .moss))

/-- A slot programmed with OK is no looser than the set in force (R301, R541, R542). When FUSE_PROGRAM completes with a
slot in force, its hard limits, over-current threshold, minimum classes and maximum times are at least as strict as
before, it selects no further channel for limp-home, and it is slot 0's successor: the lowest slot that was free. -/
def Obligations.FuseProgramNeverLoosens : Prop :=
  ∀ (s t : State) (d : Desc) (l : List Byte) (v h : Nat), exec (.fuseProgram d l ⟨true, v, h⟩) s = .next t → t.fuse ≠ s.fuse →
    t.fuse.set.hardOv ≤ s.fuse.set.hardOv ∧ s.fuse.set.hardUv ≤ t.fuse.set.hardUv ∧ t.fuse.set.hardOt ≤ s.fuse.set.hardOt ∧
    t.fuse.set.packOc ≤ s.fuse.set.packOc ∧ t.fuse.set.wait ≤ s.fuse.set.wait ∧ t.fuse.set.deadC ≤ s.fuse.set.deadC ∧
    t.fuse.set.wade ≤ s.fuse.set.wade ∧ t.fuse.set.limpSel &&& ~~~s.fuse.set.limpSel = 0#12 ∧
    (∀ n, n < 64 → fusedClass (t.fuse.set.minCls.getD n 4) ≤ fusedClass (s.fuse.set.minCls.getD n 4)) ∧
    t.fuse.inForce = s.fuse.free ∧ Tab.find s.fuse.slots s.fuse.free = none

/-- The state right after reset is what the spec gives for it (R27, R29, R300, R311, R441, R492, R496, R508, R522). The
module starts in Run with its start-up at the fuse check, AON powered, no port started, every contactor OPEN, no
latch, no ring enabled, MSI-X disabled and IRQ_N high, and no command waiting. Where the spec gives no reset value
the model's own is named in assumption log 1. -/
def Obligations.ResetState : Prop :=
  State.reset.pending = [] ∧ State.reset.pwr.st = .run ∧ State.reset.allOpen = true ∧
    (∀ n, n < 64 → (State.reset.fault n).latched = 0#17) ∧ (∀ n, n < 64 → (State.reset.ring n).en = false) ∧
    State.reset.host.msixEn = false ∧ State.reset.host.irqN = true ∧ (∀ p, p < 16 → (State.reset.port p).st = .off) ∧
    State.reset.host.finished = [] ∧ State.reset.host.running = [] ∧ State.reset.cfg.maint = false

/-- CRC-32C gives its value over the string 123456789 (R110). CRC-32C gives 0xE3069283 over the bytes of 123456789, as
the rule prints it. -/
def Obligations.Crc32cCheckValue : Prop :=
  crc32c [0x31#8, 0x32#8, 0x33#8, 0x34#8, 0x35#8, 0x36#8, 0x37#8, 0x38#8, 0x39#8] = 0xE3069283#32

/-- Every command on the rings answers a next state with its effect (R440, R442, R443, R445, R446, R448, R450, R453,
R454, R456, R457). With the host interface ready: RING_ENABLE starts a ring that was neither enabled nor stopped, or
records the failed check; RING_DISABLE and RING_RESET leave it disabled; RING_STATUS_CLEAR clears the bits written;
a doorbell within its advance moves the host index alone, and one beyond stops the ring with db_err;
DESCRIPTOR_FETCH consumes the entry; COMPLETION_WRITE writes the first completion due on its ring; a record is taken
from its queue, with a buffer posted and without; the moderation time sends the message; an MSI-X entry is stored,
its pending message sent once it is unmasked; a DMA error stops the ring. -/
def Obligations.RingCommandsAnswer : Prop :=
  ∀ (s : State) (n : Nat), s.host.ready = true →
    (∀ (v : Word) (r : Ring), r = s.ring n → r.en = true → r.run = true → r.typ = .submission → v.toNat < r.size →
      (v.toNat + r.size - r.hostIdx % r.size) % r.size ≤ r.size - 1 - (r.hostIdx + r.size - r.devIdx % r.size) % r.size →
      exec (.doorbell n v) s = .next (s.onRing n (fun q => { q with hostIdx := v.toNat }))) ∧
    (∀ (v : Word) (r : Ring), r = s.ring n → r.en = true → r.run = true → r.typ = .submission →
      r.size - 1 - (r.hostIdx + r.size - r.devIdx % r.size) % r.size < (v.toNat + r.size - r.hostIdx % r.size) % r.size →
      exec (.doorbell n v) s = .next ((s.ringErr n 0).ringHalt n)) ∧
    (∀ v : Word, (s.ring n).en = false → (s.ring n).stopped = false →
      exec (.ringEnable n v) s = .next ((s.onRing n (fun r => r.fields ((v &&& ~~~2#32) ||| 1#32).toNat)).ringStart n)) ∧
    (∀ v : Word, (s.ring n).en = true → exec (.ringDisable n v) s =
      .next (s.onRing n (fun r => { r with en := false, run := false }))) ∧
    (∀ v : Word, (s.ring n).en = true → exec (.ringReset n v) s = .next (s.onRing n (fun r =>
      { r with en := false, run := false, devIdx := 0, hostIdx := 0, ovf := 0, stopped := false }))) ∧
    (∀ v : Word, exec (.ringStatusClear n v) s = .next (s.onRing n (fun r => { r with err := r.err &&& ~~~((v >>> 1).setWidth 5) }))) ∧
    ((s.ring n).en = true → exec (.dmaError n) s = .next ((s.ringErr n 1).ringHalt n)) ∧
    (∀ op d (u : State), s.fetchable n = true → s.fetchTurn n = true → d.fence = false → descRefused (s.ring n) op d.imm = false →
      definedOp op = true → u = (if s.fetchFirst n then s else { s with host := { s.host with lastSq := n } }) →
      exec (.descriptorFetch n op d) s = .next
        ((u.onRing n (fun r => { r with devIdx := (r.devIdx + 1) % r.size, outst := r.outst + 1 })).shadow n)) ∧
    (∀ c l, s.host.finished = c :: l → (s.ring c.ref.d.sq).cq = n → (s.ring n).en = true → (s.ring n).run = true →
      (s.ring n).typ = .completion → s.works n = true → s.drv.svcUp = true → (s.ring n).free = true → ∃ t : State,
        exec (.completionWrite n) s = .next t ∧ t.host.finished = l ∧
        (t.ring n).devIdx = ((s.ring n).devIdx + 1) % (s.ring n).size) ∧
    (∀ fn b l x, s.host.streamQ = x :: l → x.fn = fn → s.streamRing fn = some n → s.works n = true →
      (s.ring n).devIdx ≠ (s.ring n).hostIdx → 32 + x.body.length ≤ b.len → ∃ t : State,
        exec (.streamRecordWrite fn (some b)) s = .next t ∧ t.host.streamQ = l ∧
        (t.ring n).devIdx = ((s.ring n).devIdx + 1) % (s.ring n).size ∧ (t.ring n).seq = ((s.ring n).seq + 1) % 2 ^ 32) ∧
    ((s.ring n).ie = true → (s.ring n).unsig ≠ 0 → (s.ring n).modTime ≠ 0 → exec (.interruptModerationTimeout n) s =
      .next ((s.at ((s.ring n).unsigT + us (s.ring n).modTime)).ringMessage n)) ∧
    (∀ x : MsixEntry, n < 64 → ∃ t : State, exec (.msixTableWrite n x) s = .next t ∧ t.host.msixTab = s.host.msixTab.set n x ∧
      t.host.msixMask.getLsbD n = x.masked ∧ t.rings = s.rings ∧
      (x.masked = false → s.host.d3hot = false → t.host.msixPend.getLsbD n = false))

/-- Every command of the host link and every register access answers a next state with its effect (R437, R438, R445,
R459, R460, R490, R492, R494, R395, R396, R375, R507). PCIE_CONFIG_REQUEST answers its item or takes the MSI-X
enable; HOST_INTERFACE_READY makes the interface ready once its domain is powered; PERST_N_ASSERT and LINK_RESET
reset the host side; D3hot and D0 are taken; the software resets reset the cores they name; W1C writes clear what
they name; reads return their value, with the capture, the clearing or the lock of their register; the lock ends at
its timeout; a word written at a register's offset is taken there. -/
def Obligations.HostLinkAndRegistersAnswer : Prop :=
  ∀ s : State,
    exec .perstNAssert s = .next (({ s with host := { s.host with perstLow := true } } : State).hostReset.resetCause 2) ∧
    exec .linkReset s = .next (s.hostReset.resetCause 3) ∧
    (s.pwr.domains.getLsbD 6 = true → exec .hostInterfaceReady s =
      .next { s with host := { s.host with perstLow := false, ready := true, cfgRetry := false } }) ∧
    (∀ c, (s.can c).hpLock = true → exec (.hpLockTimeout c) s = .next
      (((s.at ((s.can c).hpLockT + ms 1)).onCan c (fun k => { k with hpTimed := true })).hpRelease c)) ∧
    (s.host.ready = true →
      (∀ q, ∃ t : State, exec (.pcieConfigRequest q) s = .next t ∧ t.host.cfgRetry = false ∧ t.rings = s.rings) ∧
      exec .d3hotEntry s = .next ({ s with host := { s.host with d3hot := true } } : State).driveIrq ∧
      (∃ t : State, exec .d0Return s = .next t ∧ t.host.d3hot = false ∧
        (∀ n, n < 64 → t.host.msixPend.getLsbD n = (s.host.msixPend.getLsbD n && s.host.msixMask.getLsbD n))) ∧
      exec .softwareResetSvc s = .next (s.svcReset 4) ∧ exec .softwareResetSafe s = .next s.softSafe ∧
      exec .softwareResetBoth s = .next ((s.svcReset 4).softSafe) ∧
      (∀ v : Word, exec (.irqStatusAck v) s =
        .next ((s.onEvr .irqStatus (fun e => { e with bits := e.bits &&& ~~~(v &&& 0x0000FFFF#32) })).driveIrq)) ∧
      (∀ (hi : Bool) (v : Word), exec (.ringPendAck hi v) s =
        .next ((s.onEvr (if hi then .ringPendHi else .ringPendLo) (fun e => { e with bits := e.bits &&& ~~~v })).ringAck)) ∧
      (∀ (r : EvReg) (v : Word), r ≠ .irqStatus → r ≠ .ringPendLo → r ≠ .ringPendHi →
        exec (.eventRegisterClear r v) s = .next (s.onEvr r (fun e => { e with bits := e.bits &&& ~~~v }))) ∧
      (∀ r : EvReg, exec (.eventCounterClear r) s = .next (s.onEvr r (fun e => { e with cnt := 0 }))) ∧
      (∀ off, isLo off = true → off ≠ 0x9100 → off ≠ 0xA100 → Tab.find s.host.hiCap off = none → ∃ t : State,
        exec (.loHalfRead off) s = .next t ∧ t.host.readData = BitVec.ofNat 64 (s.reg off) ∧
        Tab.find t.host.hiCap (off + 4) = some (BitVec.ofNat 32 (s.reg (off + 4)))) ∧
      (∀ c b, ∃ t : State, exec (.spdCaptureRead c b) s = .next t ∧
        t.host.readData = BitVec.ofNat 64 (s32 (if b then (s.axle c).idx else (s.axle c).count)) ∧
        Tab.find t.host.hiCap (0xB000 + 0x40 * c + (if b then 0x1C else 0x10)) =
          some (BitVec.ofNat 32 ((if b then (s.axle c).tIdx else (s.axle c).tEdge) / 2 ^ 32))) ∧
      (∀ c, exec (.collCntRead c) s = .next ((s.readOut (s.can c).collCnt).onCan c (fun k => { k with collCnt := 0 }))) ∧
      (∀ c off, 0x100 ≤ off → off ≤ 0x14C → exec (.hpWindowRead c off) s = .next ((s.readOut (hpWord (s.can c) off)).onCan c
        (fun k => { k with hpLock := true, hpLockT := if k.hpLock then k.hpLockT else s.now }))) ∧
      (∀ c, exec (.hpStatRead c) s = .next (((s.readOut (hpStat (s.can c))).onCan c
        (fun k => { k with hpNew := false, hpTimed := false })).hpRelease c)) ∧
      (∀ n o (v : Word), n < 64 → o < 16 → exec (.registerWrite (0x2000 + 64 * n + 4 * o) v) s = .next (s.ringWrite n (4 * o) v)) ∧
      (∀ n (v : Word), n < 64 → exec (.registerWrite (0x8000 + 8 * n) v) s = .next (s.doorbell n v)))

/-- Every reset and every step of a start-up answers a next state with its effect (R517, R518, R519, R520, R522, R523,
R524, R551, R25, R508). POWER_ON_RESET with the supply in range, RST_N held low long enough and let go, a domain
whose predecessors are powered, the built-in repair before the mount, the mount, readiness once all of it holds, its
timeout, and the return of the service cores. -/
def Obligations.ResetsAndStartUpAnswer : Prop :=
  ∀ s : State,
    (∀ v, 16800 ≤ v → ∃ t : State, exec (.powerOnReset v) s = .next t ∧ t = s.powerOn v ∧ t.pending = s.pending) ∧
    (∀ n, 10 ≤ n → s.pwr.st = .run → ∃ t : State, exec (.rstNReset n) s = .next t ∧ t = s.rstReset ∧ t.pwr.rstLow = true) ∧
    (s.pwr.rstLow = true → ∃ t : State, exec .rstNDeassert s = .next t ∧ t = (s.startUp false).trialStart ∧ t.pwr.rstLow = false ∧
      t.pwr.starting = true) ∧
    (∀ n (u : State), n < 12 → s.pwr.st = .run → s.pwr.rstLow = false → s.pwr.restartDue = false → s.pwr.intr ≠ .over →
      (domBefore n).all (fun d => s.pwr.domains.getLsbD d) = true → s.pwr.selfCheck = false →
      u = ({ s with pwr := { s.pwr with domains := s.pwr.domains ||| (1#12 <<< n) } } : State) →
      exec (.domainPowerGood n) s = .next (if (n = 7 ∨ n = 8) ∧ s.mounted = true ∧ (s.isPair = false ∨ s.pair.trained = true)
        then u.portsStart else u)) ∧
    (∀ l, s.pwr.starting = true → s.pwr.rstLow = false → s.pwr.startStep < 4 →
      exec (.builtInRepair l 0) s = .next (s.bootRepair l) ∧
      (∀ n, n ≠ 0 → exec (.builtInRepair l n) s = .next ((s.bootRepair l).stand 59 16 {}))) ∧
    (s.mounted = false → s.pwr.rstLow = false →
      exec .mramMount s = .next (if s.mount.isPair && !s.mount.pair.trained then s.mount else s.mount.portsStart)) ∧
    (s.readyNow = true → exec .readyToClose s =
      .next ({ s with pwr := { s.pwr with ready := true, starting := false, startStep := 12 } } : State).seqKick) ∧
    (s.pwr.ready = false → exec .readyTimeout s = .next s.readyOut) ∧
    (s.drv.svcUp = false → s.pwr.st = .run → s.mounted = true →
      exec .serviceCoresResumed s = .next (s.portList.foldl (fun s p => s.planResume p) s.svcResume.flushHeld))

/-- Every command of the supplies, the clock and the protective shutdown answers a next state with its effect (R525,
R526, R527, R537, R283, R27, R287, R565). A supply below the ride-through threshold begins an interruption; the save
window begins in ride-through and expires; the supply returns in each phase of an interruption; VSUP and the coil
supplies are judged; PLL loss runs the module on the oscillator; the protective shutdown stands F14 and its recovery
starts the module anew. -/
def Obligations.SuppliesAndShutdownAnswer : Prop :=
  ∀ s : State,
    (∀ v h, s.pwr.intr = .none → v < 15000 → ∃ t : State, exec (.supplyInterruptionBegin ⟨v, h⟩) s = .next t ∧ t.mram.refuse = true ∧
      t.pwr.intr = .rideThrough ∧ t.pwr.vsup = v ∧ t.pwr.holdup = h) ∧
    (s.pwr.intr = .rideThrough → ∃ h, exec .saveWindowEntry s =
      .next (({ s with pwr := { s.pwr with holdup := h }, free := s.free + 1 } : State).saveWindow)) ∧
    (s.pwr.intr = .rideThrough ∨ s.pwr.intr = .saveWindow → exec .saveWindowExpiry s = .next s.saveOver ∧
      s.saveOver.pwr.intr = .over) ∧
    (s.pwr.intr = .over → ∃ v, 16800 ≤ v ∧ v ≤ 154000 ∧ exec .interruptionEnd s = .next (s.draw.2.powerOn v)) ∧
    (s.pwr.intr = .rideThrough ∨ s.pwr.intr = .saveWindow → s.mounted = true → ∃ u t : State, u.pwr.intr = .none ∧ u.mram.refuse = false ∧
      ({ u with pwr := s.pwr, mram := s.mram, free := s.free } : State) = s ∧ exec .interruptionEnd s = .next t ∧
      (s.pwr.intr = .saveWindow → t = u.flushHeld)) ∧
    (∀ v, v < 16800 ∨ 154000 < v → exec (.vsupOutOfRange v) s =
      .next ((({ s with pwr := { s.pwr with vsup := v } } : State).event .pwr 4).stand 62 16 { value := v })) ∧
    (∀ v, 16800 ≤ v → v ≤ 154000 → exec (.vsupOutOfRange v) s =
      .next (({ s with pwr := { s.pwr with vsup := v } } : State).cease 62 16)) ∧
    (∀ a b, exec (.coilSupplyLow a b) s = .next ((List.range 12).foldl State.supplyTurn
      ({ s with pwr := { s.pwr with vcoilA := a, vcoilB := b } } : State).f39Settle)) ∧
    exec .pllLoss s = .next s.keeperOn.tick.keeperOff ∧
    (s.stands 14 16 = false → ∃ u : State, u.therm.shut = true ∧ u.therm.shutT = s.now ∧
      exec .junctionShutdown s = .next ((u.stand 14 16 { value := u.therm.tj }).shutStep)) ∧
    (s.stands 14 16 = true → ∃ u : State, u.therm.shut = false ∧
      exec .junctionRecovery s = .next (((u.cease 14 16).startUp false).resetCause 9))

/-- Every wake and every timer of Moss and Peat answers a next state with its effect (R512, R513, R514, R515, R516,
R155, R279, R505). In Moss the enabled pack current, CAN and timer sources start the module with their code, and
CHG_PRES and SVC_WAKE do as pins; a heartbeat sweep wakes the ports that nap; the limit takes the module to Peat or
is recorded; in Peat the pins and the self-check alarm wake it. -/
def Obligations.WakesAnswer : Prop :=
  ∀ s : State,
    (∀ i : Int, s.pwr.st = .moss → s.wakeOn 1 = true → s.gen.wakeI < i.natAbs → exec (.wakePackCurrent i) s = .next (s.wakeRun 1)) ∧
    (∀ c, s.pwr.st = .moss → s.wakeOn (2 + c) = true → (s.can c).mode ≠ 2 → exec (.canWake c) s = .next (s.wakeRun (2 + c))) ∧
    (∀ u : State, s.pwr.st = .moss → s.pwr.wakeTimerTaken ≠ 0 → s.pwr.wakeTimer ≠ 0 → s.wakeOn 4 = true →
      u = s.at (s.pwr.mossT + sec s.pwr.wakeTimerTaken) → exec .wakeTimerExpiry s = .next (u.wakeRun 4)) ∧
    (s.pwr.chgPres = false → exec .chgPresHigh s =
      .next (((({ s with pwr := { s.pwr with chgPres := true } } : State).event .safein 9).wakePin 5).thermOuts)) ∧
    (s.pwr.chgPres = true → exec .chgPresLow s =
      .next ((({ s with pwr := { s.pwr with chgPres := false } } : State).event .safein 9).thermOuts)) ∧
    (s.pwr.svcWake = false → exec .svcWakeHigh s =
      .next ((({ s with pwr := { s.pwr with svcWake := true } } : State).event .safein 10).wakePin 6)) ∧
    (s.pwr.svcWake = true → exec .svcWakeLow s =
      .next (({ s with pwr := { s.pwr with svcWake := false } } : State).event .safein 10)) ∧
    (∀ k, s.pwr.st = .peat → s.wakePin k = s.peatWake k false) ∧
    (s.pwr.st = .moss → s.portList.any (fun p => (s.port p).nap) = true → s.portList.all (fun p => !(s.port p).sweepOpen) = true →
      exec .heartbeatSweepCycle s = .next s.mossWake) ∧
    (∀ u : State, s.pwr.st = .moss → s.gen.mossLim ≠ 0 → s.pwr.mossOver = false → s.pwr.peatDue = false →
      u = s.at (s.pwr.mossT + sec (3600 * s.gen.mossLim)) →
      (u.allOpen = true → exec .mossLimitExpiry s = .next u.mossToPeat) ∧
      (u.allOpen = false → exec .mossLimitExpiry s =
        .next (({ u with pwr := { u.pwr with mossOver := true } } : State).bbEvent 0x0F 0 255 0 0 0))) ∧
    (∀ u : State, s.pwr.st = .peat → u = s.at (s.pwr.peatT + sec (86400 * s.gen.selfChk)) →
      exec .selfCheckAlarm s = .next (u.peatWake 7 true))
end

