-- ==== Sys2Proof/Laws/Tab.lean ====
section
/-! SUPPORT. The laws of the keyed tables: a read after a write, at the key and at any other, and the keys a table lists. -/

namespace Sys2Proof

/-- A read at the key just written. -/
@[simp] theorem Tab.getD_set_same {κ α : Type} [DecidableEq κ] (t : Tab κ α) (k : κ) (v d : α) :
    (t.set k v).getD k d = v := by
  induction t with
  | nil => simp [Tab.set, Tab.getD]
  | cons x t ih =>
    obtain ⟨k', v'⟩ := x
    by_cases h : k' = k <;> simp [Tab.set, Tab.getD, h, ih]

/-- A read at another key. -/
theorem Tab.getD_set_other {κ α : Type} [DecidableEq κ] (t : Tab κ α) {k j : κ} (v d : α) (h : j ≠ k) :
    (t.set k v).getD j d = t.getD j d := by
  induction t with
  | nil => simp [Tab.set, Tab.getD, Ne.symm h]
  | cons x t ih =>
    obtain ⟨k', v'⟩ := x
    by_cases e : k' = k
    · subst e
      simp [Tab.set, Tab.getD, Ne.symm h]
    · have ih' : Tab.getD (Tab.set t k v) j d = Tab.getD t j d := ih
      simp [Tab.set, Tab.getD, e, ih']

/-- A write lists its key and no other new one. -/
theorem Tab.mem_keys_set {κ α : Type} [DecidableEq κ] (t : Tab κ α) (k j : κ) (v : α) :
    j ∈ (t.set k v).keys ↔ j = k ∨ j ∈ t.keys := by
  induction t with
  | nil => simp [Tab.set, Tab.keys]
  | cons x t ih =>
    obtain ⟨k', v'⟩ := x
    by_cases h : k' = k
    · subst h
      simp [Tab.set, Tab.keys]
    · have ih' : j ∈ List.map Prod.fst (Tab.set t k v) ↔ j = k ∨ j ∈ List.map Prod.fst t := ih
      simp only [Tab.set, h, if_false, Tab.keys, List.map_cons, List.mem_cons, ih']
      tauto

/-- A write keeps the keys free of repeats. -/
theorem Tab.nodup_set {κ α : Type} [DecidableEq κ] (t : Tab κ α) (k : κ) (v : α) (h : t.keys.Nodup) :
    (t.set k v).keys.Nodup := by
  induction t with
  | nil => simp [Tab.set, Tab.keys]
  | cons x t ih =>
    obtain ⟨k', v'⟩ := x
    have h' : k' ∉ Tab.keys t ∧ (Tab.keys t).Nodup := List.nodup_cons.1 h
    by_cases e : k' = k
    · subst e
      simpa [Tab.set, Tab.keys] using h
    · have m := (Tab.mem_keys_set t k k' v).not.2 (not_or.2 ⟨e, h'.1⟩)
      have r : (k' :: (Tab.set t k v).keys).Nodup := List.nodup_cons.2 ⟨m, ih h'.2⟩
      simpa [Tab.set, Tab.keys, e] using r

end Sys2Proof
end

