-- ==== Sys2Proof/Laws/State.lean ====
section
/-! SUPPORT. One lemma per field per update of a state: a keyed update (`onRing`, `onPort`, …) changes its own table at its
own key and nothing else. -/

namespace Sys2Proof.Machine

open Sys2Proof

/-! ## `onRing` -/

@[simp] theorem State.onRing_rings (s : State) (k : Nat) (g : Ring → Ring) :
    (s.onRing k g).rings = s.rings.set k (g (s.ring k)) := rfl
@[simp] theorem State.onRing_pending (s : State) (k : Nat) (g : Ring → Ring) : (s.onRing k g).pending = s.pending := rfl
@[simp] theorem State.onRing_time (s : State) (k : Nat) (g : Ring → Ring) : (s.onRing k g).time = s.time := rfl
@[simp] theorem State.onRing_pwr (s : State) (k : Nat) (g : Ring → Ring) : (s.onRing k g).pwr = s.pwr := rfl
@[simp] theorem State.onRing_host (s : State) (k : Nat) (g : Ring → Ring) : (s.onRing k g).host = s.host := rfl
@[simp] theorem State.onRing_ev (s : State) (k : Nat) (g : Ring → Ring) : (s.onRing k g).ev = s.ev := rfl
@[simp] theorem State.onRing_irqCfg (s : State) (k : Nat) (g : Ring → Ring) : (s.onRing k g).irqCfg = s.irqCfg := rfl
@[simp] theorem State.onRing_fuse (s : State) (k : Nat) (g : Ring → Ring) : (s.onRing k g).fuse = s.fuse := rfl
@[simp] theorem State.onRing_cfg (s : State) (k : Nat) (g : Ring → Ring) : (s.onRing k g).cfg = s.cfg := rfl
@[simp] theorem State.onRing_faults (s : State) (k : Nat) (g : Ring → Ring) : (s.onRing k g).faults = s.faults := rfl
@[simp] theorem State.onRing_wade (s : State) (k : Nat) (g : Ring → Ring) : (s.onRing k g).wade = s.wade := rfl
@[simp] theorem State.onRing_discs (s : State) (k : Nat) (g : Ring → Ring) : (s.onRing k g).discs = s.discs := rfl
@[simp] theorem State.onRing_ctrs (s : State) (k : Nat) (g : Ring → Ring) : (s.onRing k g).ctrs = s.ctrs := rfl
@[simp] theorem State.onRing_opens (s : State) (k : Nat) (g : Ring → Ring) : (s.onRing k g).opens = s.opens := rfl
@[simp] theorem State.onRing_pres (s : State) (k : Nat) (g : Ring → Ring) : (s.onRing k g).pres = s.pres := rfl
@[simp] theorem State.onRing_seq (s : State) (k : Nat) (g : Ring → Ring) : (s.onRing k g).seq = s.seq := rfl
@[simp] theorem State.onRing_outs (s : State) (k : Nat) (g : Ring → Ring) : (s.onRing k g).outs = s.outs := rfl
@[simp] theorem State.onRing_lsws (s : State) (k : Nat) (g : Ring → Ring) : (s.onRing k g).lsws = s.lsws := rfl
@[simp] theorem State.onRing_drv (s : State) (k : Nat) (g : Ring → Ring) : (s.onRing k g).drv = s.drv := rfl
@[simp] theorem State.onRing_ports (s : State) (k : Nat) (g : Ring → Ring) : (s.onRing k g).ports = s.ports := rfl
@[simp] theorem State.onRing_nodes (s : State) (k : Nat) (g : Ring → Ring) : (s.onRing k g).nodes = s.nodes := rfl
@[simp] theorem State.onRing_reqs (s : State) (k : Nat) (g : Ring → Ring) : (s.onRing k g).reqs = s.reqs := rfl
@[simp] theorem State.onRing_chainSeq (s : State) (k : Nat) (g : Ring → Ring) : (s.onRing k g).chainSeq = s.chainSeq := rfl
@[simp] theorem State.onRing_cells (s : State) (k : Nat) (g : Ring → Ring) : (s.onRing k g).cells = s.cells := rfl
@[simp] theorem State.onRing_ests (s : State) (k : Nat) (g : Ring → Ring) : (s.onRing k g).ests = s.ests := rfl
@[simp] theorem State.onRing_sens (s : State) (k : Nat) (g : Ring → Ring) : (s.onRing k g).sens = s.sens := rfl
@[simp] theorem State.onRing_zones (s : State) (k : Nat) (g : Ring → Ring) : (s.onRing k g).zones = s.zones := rfl
@[simp] theorem State.onRing_therm (s : State) (k : Nat) (g : Ring → Ring) : (s.onRing k g).therm = s.therm := rfl
@[simp] theorem State.onRing_strs (s : State) (k : Nat) (g : Ring → Ring) : (s.onRing k g).strs = s.strs := rfl
@[simp] theorem State.onRing_pack (s : State) (k : Nat) (g : Ring → Ring) : (s.onRing k g).pack = s.pack := rfl
@[simp] theorem State.onRing_hvil (s : State) (k : Nat) (g : Ring → Ring) : (s.onRing k g).hvil = s.hvil := rfl
@[simp] theorem State.onRing_iso (s : State) (k : Nat) (g : Ring → Ring) : (s.onRing k g).iso = s.iso := rfl
@[simp] theorem State.onRing_lid (s : State) (k : Nat) (g : Ring → Ring) : (s.onRing k g).lid = s.lid := rfl
@[simp] theorem State.onRing_safe (s : State) (k : Nat) (g : Ring → Ring) : (s.onRing k g).safe = s.safe := rfl
@[simp] theorem State.onRing_msgs (s : State) (k : Nat) (g : Ring → Ring) : (s.onRing k g).msgs = s.msgs := rfl
@[simp] theorem State.onRing_axles (s : State) (k : Nat) (g : Ring → Ring) : (s.onRing k g).axles = s.axles := rfl
@[simp] theorem State.onRing_cans (s : State) (k : Nat) (g : Ring → Ring) : (s.onRing k g).cans = s.cans := rfl
@[simp] theorem State.onRing_pair (s : State) (k : Nat) (g : Ring → Ring) : (s.onRing k g).pair = s.pair := rfl
@[simp] theorem State.onRing_mram (s : State) (k : Nat) (g : Ring → Ring) : (s.onRing k g).mram = s.mram := rfl
@[simp] theorem State.onRing_repair (s : State) (k : Nat) (g : Ring → Ring) : (s.onRing k g).repair = s.repair := rfl
@[simp] theorem State.onRing_sent (s : State) (k : Nat) (g : Ring → Ring) : (s.onRing k g).sent = s.sent := rfl
@[simp] theorem State.onRing_free (s : State) (k : Nat) (g : Ring → Ring) : (s.onRing k g).free = s.free := rfl
@[simp] theorem State.onRing_ring (s : State) (k : Nat) (g : Ring → Ring) : (s.onRing k g).ring k = g (s.ring k) :=
  Tab.getD_set_same _ _ _ _
theorem State.onRing_ring_other (s : State) {k j : Nat} (g : Ring → Ring) (h : j ≠ k) : (s.onRing k g).ring j = s.ring j :=
  Tab.getD_set_other _ _ _ h
@[simp] theorem State.onRing_evr (s : State) (k : Nat) (g : Ring → Ring) (j : EvReg) : (s.onRing k g).evr j = s.evr j := rfl
@[simp] theorem State.onRing_irqc (s : State) (k : Nat) (g : Ring → Ring) (j : IrqBlk) : (s.onRing k g).irqc j = s.irqc j := rfl
@[simp] theorem State.onRing_fault (s : State) (k : Nat) (g : Ring → Ring) (j : Nat) : (s.onRing k g).fault j = s.fault j := rfl
@[simp] theorem State.onRing_disc (s : State) (k : Nat) (g : Ring → Ring) (j : Nat) : (s.onRing k g).disc j = s.disc j := rfl
@[simp] theorem State.onRing_ctr (s : State) (k : Nat) (g : Ring → Ring) (j : Nat) : (s.onRing k g).ctr j = s.ctr j := rfl
@[simp] theorem State.onRing_opn (s : State) (k : Nat) (g : Ring → Ring) (j : Nat) : (s.onRing k g).opn j = s.opn j := rfl
@[simp] theorem State.onRing_pre (s : State) (k : Nat) (g : Ring → Ring) (j : Nat) : (s.onRing k g).pre j = s.pre j := rfl
@[simp] theorem State.onRing_outc (s : State) (k : Nat) (g : Ring → Ring) (j : Nat) : (s.onRing k g).outc j = s.outc j := rfl
@[simp] theorem State.onRing_lsw (s : State) (k : Nat) (g : Ring → Ring) (j : Nat) : (s.onRing k g).lsw j = s.lsw j := rfl
@[simp] theorem State.onRing_port (s : State) (k : Nat) (g : Ring → Ring) (j : Nat) : (s.onRing k g).port j = s.port j := rfl
@[simp] theorem State.onRing_node (s : State) (k : Nat) (g : Ring → Ring) (j : Nat) : (s.onRing k g).node j = s.node j := rfl
@[simp] theorem State.onRing_req (s : State) (k : Nat) (g : Ring → Ring) (j : Nat) : (s.onRing k g).req j = s.req j := rfl
@[simp] theorem State.onRing_cseq (s : State) (k : Nat) (g : Ring → Ring) (j : Nat) : (s.onRing k g).cseq j = s.cseq j := rfl
@[simp] theorem State.onRing_cell (s : State) (k : Nat) (g : Ring → Ring) (j : Nat) : (s.onRing k g).cell j = s.cell j := rfl
@[simp] theorem State.onRing_est (s : State) (k : Nat) (g : Ring → Ring) (j : Nat) : (s.onRing k g).est j = s.est j := rfl
@[simp] theorem State.onRing_sensor (s : State) (k : Nat) (g : Ring → Ring) (j : Nat) : (s.onRing k g).sensor j = s.sensor j := rfl
@[simp] theorem State.onRing_zone (s : State) (k : Nat) (g : Ring → Ring) (j : Nat) : (s.onRing k g).zone j = s.zone j := rfl
@[simp] theorem State.onRing_str (s : State) (k : Nat) (g : Ring → Ring) (j : Nat) : (s.onRing k g).str j = s.str j := rfl
@[simp] theorem State.onRing_loop (s : State) (k : Nat) (g : Ring → Ring) (j : Nat) : (s.onRing k g).loop j = s.loop j := rfl
@[simp] theorem State.onRing_msg (s : State) (k : Nat) (g : Ring → Ring) (j : Nat) : (s.onRing k g).msg j = s.msg j := rfl
@[simp] theorem State.onRing_axle (s : State) (k : Nat) (g : Ring → Ring) (j : Nat) : (s.onRing k g).axle j = s.axle j := rfl
@[simp] theorem State.onRing_can (s : State) (k : Nat) (g : Ring → Ring) (j : Nat) : (s.onRing k g).can j = s.can j := rfl

/-! ## `onEvr` -/

@[simp] theorem State.onEvr_ev (s : State) (k : EvReg) (g : EvSt → EvSt) :
    (s.onEvr k g).ev = s.ev.set k (g (s.evr k)) := rfl
@[simp] theorem State.onEvr_pending (s : State) (k : EvReg) (g : EvSt → EvSt) : (s.onEvr k g).pending = s.pending := rfl
@[simp] theorem State.onEvr_time (s : State) (k : EvReg) (g : EvSt → EvSt) : (s.onEvr k g).time = s.time := rfl
@[simp] theorem State.onEvr_pwr (s : State) (k : EvReg) (g : EvSt → EvSt) : (s.onEvr k g).pwr = s.pwr := rfl
@[simp] theorem State.onEvr_host (s : State) (k : EvReg) (g : EvSt → EvSt) : (s.onEvr k g).host = s.host := rfl
@[simp] theorem State.onEvr_rings (s : State) (k : EvReg) (g : EvSt → EvSt) : (s.onEvr k g).rings = s.rings := rfl
@[simp] theorem State.onEvr_irqCfg (s : State) (k : EvReg) (g : EvSt → EvSt) : (s.onEvr k g).irqCfg = s.irqCfg := rfl
@[simp] theorem State.onEvr_fuse (s : State) (k : EvReg) (g : EvSt → EvSt) : (s.onEvr k g).fuse = s.fuse := rfl
@[simp] theorem State.onEvr_cfg (s : State) (k : EvReg) (g : EvSt → EvSt) : (s.onEvr k g).cfg = s.cfg := rfl
@[simp] theorem State.onEvr_faults (s : State) (k : EvReg) (g : EvSt → EvSt) : (s.onEvr k g).faults = s.faults := rfl
@[simp] theorem State.onEvr_wade (s : State) (k : EvReg) (g : EvSt → EvSt) : (s.onEvr k g).wade = s.wade := rfl
@[simp] theorem State.onEvr_discs (s : State) (k : EvReg) (g : EvSt → EvSt) : (s.onEvr k g).discs = s.discs := rfl
@[simp] theorem State.onEvr_ctrs (s : State) (k : EvReg) (g : EvSt → EvSt) : (s.onEvr k g).ctrs = s.ctrs := rfl
@[simp] theorem State.onEvr_opens (s : State) (k : EvReg) (g : EvSt → EvSt) : (s.onEvr k g).opens = s.opens := rfl
@[simp] theorem State.onEvr_pres (s : State) (k : EvReg) (g : EvSt → EvSt) : (s.onEvr k g).pres = s.pres := rfl
@[simp] theorem State.onEvr_seq (s : State) (k : EvReg) (g : EvSt → EvSt) : (s.onEvr k g).seq = s.seq := rfl
@[simp] theorem State.onEvr_outs (s : State) (k : EvReg) (g : EvSt → EvSt) : (s.onEvr k g).outs = s.outs := rfl
@[simp] theorem State.onEvr_lsws (s : State) (k : EvReg) (g : EvSt → EvSt) : (s.onEvr k g).lsws = s.lsws := rfl
@[simp] theorem State.onEvr_drv (s : State) (k : EvReg) (g : EvSt → EvSt) : (s.onEvr k g).drv = s.drv := rfl
@[simp] theorem State.onEvr_ports (s : State) (k : EvReg) (g : EvSt → EvSt) : (s.onEvr k g).ports = s.ports := rfl
@[simp] theorem State.onEvr_nodes (s : State) (k : EvReg) (g : EvSt → EvSt) : (s.onEvr k g).nodes = s.nodes := rfl
@[simp] theorem State.onEvr_reqs (s : State) (k : EvReg) (g : EvSt → EvSt) : (s.onEvr k g).reqs = s.reqs := rfl
@[simp] theorem State.onEvr_chainSeq (s : State) (k : EvReg) (g : EvSt → EvSt) : (s.onEvr k g).chainSeq = s.chainSeq := rfl
@[simp] theorem State.onEvr_cells (s : State) (k : EvReg) (g : EvSt → EvSt) : (s.onEvr k g).cells = s.cells := rfl
@[simp] theorem State.onEvr_ests (s : State) (k : EvReg) (g : EvSt → EvSt) : (s.onEvr k g).ests = s.ests := rfl
@[simp] theorem State.onEvr_sens (s : State) (k : EvReg) (g : EvSt → EvSt) : (s.onEvr k g).sens = s.sens := rfl
@[simp] theorem State.onEvr_zones (s : State) (k : EvReg) (g : EvSt → EvSt) : (s.onEvr k g).zones = s.zones := rfl
@[simp] theorem State.onEvr_therm (s : State) (k : EvReg) (g : EvSt → EvSt) : (s.onEvr k g).therm = s.therm := rfl
@[simp] theorem State.onEvr_strs (s : State) (k : EvReg) (g : EvSt → EvSt) : (s.onEvr k g).strs = s.strs := rfl
@[simp] theorem State.onEvr_pack (s : State) (k : EvReg) (g : EvSt → EvSt) : (s.onEvr k g).pack = s.pack := rfl
@[simp] theorem State.onEvr_hvil (s : State) (k : EvReg) (g : EvSt → EvSt) : (s.onEvr k g).hvil = s.hvil := rfl
@[simp] theorem State.onEvr_iso (s : State) (k : EvReg) (g : EvSt → EvSt) : (s.onEvr k g).iso = s.iso := rfl
@[simp] theorem State.onEvr_lid (s : State) (k : EvReg) (g : EvSt → EvSt) : (s.onEvr k g).lid = s.lid := rfl
@[simp] theorem State.onEvr_safe (s : State) (k : EvReg) (g : EvSt → EvSt) : (s.onEvr k g).safe = s.safe := rfl
@[simp] theorem State.onEvr_msgs (s : State) (k : EvReg) (g : EvSt → EvSt) : (s.onEvr k g).msgs = s.msgs := rfl
@[simp] theorem State.onEvr_axles (s : State) (k : EvReg) (g : EvSt → EvSt) : (s.onEvr k g).axles = s.axles := rfl
@[simp] theorem State.onEvr_cans (s : State) (k : EvReg) (g : EvSt → EvSt) : (s.onEvr k g).cans = s.cans := rfl
@[simp] theorem State.onEvr_pair (s : State) (k : EvReg) (g : EvSt → EvSt) : (s.onEvr k g).pair = s.pair := rfl
@[simp] theorem State.onEvr_mram (s : State) (k : EvReg) (g : EvSt → EvSt) : (s.onEvr k g).mram = s.mram := rfl
@[simp] theorem State.onEvr_repair (s : State) (k : EvReg) (g : EvSt → EvSt) : (s.onEvr k g).repair = s.repair := rfl
@[simp] theorem State.onEvr_sent (s : State) (k : EvReg) (g : EvSt → EvSt) : (s.onEvr k g).sent = s.sent := rfl
@[simp] theorem State.onEvr_free (s : State) (k : EvReg) (g : EvSt → EvSt) : (s.onEvr k g).free = s.free := rfl
@[simp] theorem State.onEvr_evr (s : State) (k : EvReg) (g : EvSt → EvSt) : (s.onEvr k g).evr k = g (s.evr k) :=
  Tab.getD_set_same _ _ _ _
theorem State.onEvr_evr_other (s : State) {k j : EvReg} (g : EvSt → EvSt) (h : j ≠ k) : (s.onEvr k g).evr j = s.evr j :=
  Tab.getD_set_other _ _ _ h
@[simp] theorem State.onEvr_ring (s : State) (k : EvReg) (g : EvSt → EvSt) (j : Nat) : (s.onEvr k g).ring j = s.ring j := rfl
@[simp] theorem State.onEvr_irqc (s : State) (k : EvReg) (g : EvSt → EvSt) (j : IrqBlk) : (s.onEvr k g).irqc j = s.irqc j := rfl
@[simp] theorem State.onEvr_fault (s : State) (k : EvReg) (g : EvSt → EvSt) (j : Nat) : (s.onEvr k g).fault j = s.fault j := rfl
@[simp] theorem State.onEvr_disc (s : State) (k : EvReg) (g : EvSt → EvSt) (j : Nat) : (s.onEvr k g).disc j = s.disc j := rfl
@[simp] theorem State.onEvr_ctr (s : State) (k : EvReg) (g : EvSt → EvSt) (j : Nat) : (s.onEvr k g).ctr j = s.ctr j := rfl
@[simp] theorem State.onEvr_opn (s : State) (k : EvReg) (g : EvSt → EvSt) (j : Nat) : (s.onEvr k g).opn j = s.opn j := rfl
@[simp] theorem State.onEvr_pre (s : State) (k : EvReg) (g : EvSt → EvSt) (j : Nat) : (s.onEvr k g).pre j = s.pre j := rfl
@[simp] theorem State.onEvr_outc (s : State) (k : EvReg) (g : EvSt → EvSt) (j : Nat) : (s.onEvr k g).outc j = s.outc j := rfl
@[simp] theorem State.onEvr_lsw (s : State) (k : EvReg) (g : EvSt → EvSt) (j : Nat) : (s.onEvr k g).lsw j = s.lsw j := rfl
@[simp] theorem State.onEvr_port (s : State) (k : EvReg) (g : EvSt → EvSt) (j : Nat) : (s.onEvr k g).port j = s.port j := rfl
@[simp] theorem State.onEvr_node (s : State) (k : EvReg) (g : EvSt → EvSt) (j : Nat) : (s.onEvr k g).node j = s.node j := rfl
@[simp] theorem State.onEvr_req (s : State) (k : EvReg) (g : EvSt → EvSt) (j : Nat) : (s.onEvr k g).req j = s.req j := rfl
@[simp] theorem State.onEvr_cseq (s : State) (k : EvReg) (g : EvSt → EvSt) (j : Nat) : (s.onEvr k g).cseq j = s.cseq j := rfl
@[simp] theorem State.onEvr_cell (s : State) (k : EvReg) (g : EvSt → EvSt) (j : Nat) : (s.onEvr k g).cell j = s.cell j := rfl
@[simp] theorem State.onEvr_est (s : State) (k : EvReg) (g : EvSt → EvSt) (j : Nat) : (s.onEvr k g).est j = s.est j := rfl
@[simp] theorem State.onEvr_sensor (s : State) (k : EvReg) (g : EvSt → EvSt) (j : Nat) : (s.onEvr k g).sensor j = s.sensor j := rfl
@[simp] theorem State.onEvr_zone (s : State) (k : EvReg) (g : EvSt → EvSt) (j : Nat) : (s.onEvr k g).zone j = s.zone j := rfl
@[simp] theorem State.onEvr_str (s : State) (k : EvReg) (g : EvSt → EvSt) (j : Nat) : (s.onEvr k g).str j = s.str j := rfl
@[simp] theorem State.onEvr_loop (s : State) (k : EvReg) (g : EvSt → EvSt) (j : Nat) : (s.onEvr k g).loop j = s.loop j := rfl
@[simp] theorem State.onEvr_msg (s : State) (k : EvReg) (g : EvSt → EvSt) (j : Nat) : (s.onEvr k g).msg j = s.msg j := rfl
@[simp] theorem State.onEvr_axle (s : State) (k : EvReg) (g : EvSt → EvSt) (j : Nat) : (s.onEvr k g).axle j = s.axle j := rfl
@[simp] theorem State.onEvr_can (s : State) (k : EvReg) (g : EvSt → EvSt) (j : Nat) : (s.onEvr k g).can j = s.can j := rfl

/-! ## `onIrqc` -/

@[simp] theorem State.onIrqc_irqCfg (s : State) (k : IrqBlk) (g : Word → Word) :
    (s.onIrqc k g).irqCfg = s.irqCfg.set k (g (s.irqc k)) := rfl
@[simp] theorem State.onIrqc_pending (s : State) (k : IrqBlk) (g : Word → Word) : (s.onIrqc k g).pending = s.pending := rfl
@[simp] theorem State.onIrqc_time (s : State) (k : IrqBlk) (g : Word → Word) : (s.onIrqc k g).time = s.time := rfl
@[simp] theorem State.onIrqc_pwr (s : State) (k : IrqBlk) (g : Word → Word) : (s.onIrqc k g).pwr = s.pwr := rfl
@[simp] theorem State.onIrqc_host (s : State) (k : IrqBlk) (g : Word → Word) : (s.onIrqc k g).host = s.host := rfl
@[simp] theorem State.onIrqc_rings (s : State) (k : IrqBlk) (g : Word → Word) : (s.onIrqc k g).rings = s.rings := rfl
@[simp] theorem State.onIrqc_ev (s : State) (k : IrqBlk) (g : Word → Word) : (s.onIrqc k g).ev = s.ev := rfl
@[simp] theorem State.onIrqc_fuse (s : State) (k : IrqBlk) (g : Word → Word) : (s.onIrqc k g).fuse = s.fuse := rfl
@[simp] theorem State.onIrqc_cfg (s : State) (k : IrqBlk) (g : Word → Word) : (s.onIrqc k g).cfg = s.cfg := rfl
@[simp] theorem State.onIrqc_faults (s : State) (k : IrqBlk) (g : Word → Word) : (s.onIrqc k g).faults = s.faults := rfl
@[simp] theorem State.onIrqc_wade (s : State) (k : IrqBlk) (g : Word → Word) : (s.onIrqc k g).wade = s.wade := rfl
@[simp] theorem State.onIrqc_discs (s : State) (k : IrqBlk) (g : Word → Word) : (s.onIrqc k g).discs = s.discs := rfl
@[simp] theorem State.onIrqc_ctrs (s : State) (k : IrqBlk) (g : Word → Word) : (s.onIrqc k g).ctrs = s.ctrs := rfl
@[simp] theorem State.onIrqc_opens (s : State) (k : IrqBlk) (g : Word → Word) : (s.onIrqc k g).opens = s.opens := rfl
@[simp] theorem State.onIrqc_pres (s : State) (k : IrqBlk) (g : Word → Word) : (s.onIrqc k g).pres = s.pres := rfl
@[simp] theorem State.onIrqc_seq (s : State) (k : IrqBlk) (g : Word → Word) : (s.onIrqc k g).seq = s.seq := rfl
@[simp] theorem State.onIrqc_outs (s : State) (k : IrqBlk) (g : Word → Word) : (s.onIrqc k g).outs = s.outs := rfl
@[simp] theorem State.onIrqc_lsws (s : State) (k : IrqBlk) (g : Word → Word) : (s.onIrqc k g).lsws = s.lsws := rfl
@[simp] theorem State.onIrqc_drv (s : State) (k : IrqBlk) (g : Word → Word) : (s.onIrqc k g).drv = s.drv := rfl
@[simp] theorem State.onIrqc_ports (s : State) (k : IrqBlk) (g : Word → Word) : (s.onIrqc k g).ports = s.ports := rfl
@[simp] theorem State.onIrqc_nodes (s : State) (k : IrqBlk) (g : Word → Word) : (s.onIrqc k g).nodes = s.nodes := rfl
@[simp] theorem State.onIrqc_reqs (s : State) (k : IrqBlk) (g : Word → Word) : (s.onIrqc k g).reqs = s.reqs := rfl
@[simp] theorem State.onIrqc_chainSeq (s : State) (k : IrqBlk) (g : Word → Word) : (s.onIrqc k g).chainSeq = s.chainSeq := rfl
@[simp] theorem State.onIrqc_cells (s : State) (k : IrqBlk) (g : Word → Word) : (s.onIrqc k g).cells = s.cells := rfl
@[simp] theorem State.onIrqc_ests (s : State) (k : IrqBlk) (g : Word → Word) : (s.onIrqc k g).ests = s.ests := rfl
@[simp] theorem State.onIrqc_sens (s : State) (k : IrqBlk) (g : Word → Word) : (s.onIrqc k g).sens = s.sens := rfl
@[simp] theorem State.onIrqc_zones (s : State) (k : IrqBlk) (g : Word → Word) : (s.onIrqc k g).zones = s.zones := rfl
@[simp] theorem State.onIrqc_therm (s : State) (k : IrqBlk) (g : Word → Word) : (s.onIrqc k g).therm = s.therm := rfl
@[simp] theorem State.onIrqc_strs (s : State) (k : IrqBlk) (g : Word → Word) : (s.onIrqc k g).strs = s.strs := rfl
@[simp] theorem State.onIrqc_pack (s : State) (k : IrqBlk) (g : Word → Word) : (s.onIrqc k g).pack = s.pack := rfl
@[simp] theorem State.onIrqc_hvil (s : State) (k : IrqBlk) (g : Word → Word) : (s.onIrqc k g).hvil = s.hvil := rfl
@[simp] theorem State.onIrqc_iso (s : State) (k : IrqBlk) (g : Word → Word) : (s.onIrqc k g).iso = s.iso := rfl
@[simp] theorem State.onIrqc_lid (s : State) (k : IrqBlk) (g : Word → Word) : (s.onIrqc k g).lid = s.lid := rfl
@[simp] theorem State.onIrqc_safe (s : State) (k : IrqBlk) (g : Word → Word) : (s.onIrqc k g).safe = s.safe := rfl
@[simp] theorem State.onIrqc_msgs (s : State) (k : IrqBlk) (g : Word → Word) : (s.onIrqc k g).msgs = s.msgs := rfl
@[simp] theorem State.onIrqc_axles (s : State) (k : IrqBlk) (g : Word → Word) : (s.onIrqc k g).axles = s.axles := rfl
@[simp] theorem State.onIrqc_cans (s : State) (k : IrqBlk) (g : Word → Word) : (s.onIrqc k g).cans = s.cans := rfl
@[simp] theorem State.onIrqc_pair (s : State) (k : IrqBlk) (g : Word → Word) : (s.onIrqc k g).pair = s.pair := rfl
@[simp] theorem State.onIrqc_mram (s : State) (k : IrqBlk) (g : Word → Word) : (s.onIrqc k g).mram = s.mram := rfl
@[simp] theorem State.onIrqc_repair (s : State) (k : IrqBlk) (g : Word → Word) : (s.onIrqc k g).repair = s.repair := rfl
@[simp] theorem State.onIrqc_sent (s : State) (k : IrqBlk) (g : Word → Word) : (s.onIrqc k g).sent = s.sent := rfl
@[simp] theorem State.onIrqc_free (s : State) (k : IrqBlk) (g : Word → Word) : (s.onIrqc k g).free = s.free := rfl
@[simp] theorem State.onIrqc_irqc (s : State) (k : IrqBlk) (g : Word → Word) : (s.onIrqc k g).irqc k = g (s.irqc k) :=
  Tab.getD_set_same _ _ _ _
theorem State.onIrqc_irqc_other (s : State) {k j : IrqBlk} (g : Word → Word) (h : j ≠ k) : (s.onIrqc k g).irqc j = s.irqc j :=
  Tab.getD_set_other _ _ _ h
@[simp] theorem State.onIrqc_ring (s : State) (k : IrqBlk) (g : Word → Word) (j : Nat) : (s.onIrqc k g).ring j = s.ring j := rfl
@[simp] theorem State.onIrqc_evr (s : State) (k : IrqBlk) (g : Word → Word) (j : EvReg) : (s.onIrqc k g).evr j = s.evr j := rfl
@[simp] theorem State.onIrqc_fault (s : State) (k : IrqBlk) (g : Word → Word) (j : Nat) : (s.onIrqc k g).fault j = s.fault j := rfl
@[simp] theorem State.onIrqc_disc (s : State) (k : IrqBlk) (g : Word → Word) (j : Nat) : (s.onIrqc k g).disc j = s.disc j := rfl
@[simp] theorem State.onIrqc_ctr (s : State) (k : IrqBlk) (g : Word → Word) (j : Nat) : (s.onIrqc k g).ctr j = s.ctr j := rfl
@[simp] theorem State.onIrqc_opn (s : State) (k : IrqBlk) (g : Word → Word) (j : Nat) : (s.onIrqc k g).opn j = s.opn j := rfl
@[simp] theorem State.onIrqc_pre (s : State) (k : IrqBlk) (g : Word → Word) (j : Nat) : (s.onIrqc k g).pre j = s.pre j := rfl
@[simp] theorem State.onIrqc_outc (s : State) (k : IrqBlk) (g : Word → Word) (j : Nat) : (s.onIrqc k g).outc j = s.outc j := rfl
@[simp] theorem State.onIrqc_lsw (s : State) (k : IrqBlk) (g : Word → Word) (j : Nat) : (s.onIrqc k g).lsw j = s.lsw j := rfl
@[simp] theorem State.onIrqc_port (s : State) (k : IrqBlk) (g : Word → Word) (j : Nat) : (s.onIrqc k g).port j = s.port j := rfl
@[simp] theorem State.onIrqc_node (s : State) (k : IrqBlk) (g : Word → Word) (j : Nat) : (s.onIrqc k g).node j = s.node j := rfl
@[simp] theorem State.onIrqc_req (s : State) (k : IrqBlk) (g : Word → Word) (j : Nat) : (s.onIrqc k g).req j = s.req j := rfl
@[simp] theorem State.onIrqc_cseq (s : State) (k : IrqBlk) (g : Word → Word) (j : Nat) : (s.onIrqc k g).cseq j = s.cseq j := rfl
@[simp] theorem State.onIrqc_cell (s : State) (k : IrqBlk) (g : Word → Word) (j : Nat) : (s.onIrqc k g).cell j = s.cell j := rfl
@[simp] theorem State.onIrqc_est (s : State) (k : IrqBlk) (g : Word → Word) (j : Nat) : (s.onIrqc k g).est j = s.est j := rfl
@[simp] theorem State.onIrqc_sensor (s : State) (k : IrqBlk) (g : Word → Word) (j : Nat) : (s.onIrqc k g).sensor j = s.sensor j := rfl
@[simp] theorem State.onIrqc_zone (s : State) (k : IrqBlk) (g : Word → Word) (j : Nat) : (s.onIrqc k g).zone j = s.zone j := rfl
@[simp] theorem State.onIrqc_str (s : State) (k : IrqBlk) (g : Word → Word) (j : Nat) : (s.onIrqc k g).str j = s.str j := rfl
@[simp] theorem State.onIrqc_loop (s : State) (k : IrqBlk) (g : Word → Word) (j : Nat) : (s.onIrqc k g).loop j = s.loop j := rfl
@[simp] theorem State.onIrqc_msg (s : State) (k : IrqBlk) (g : Word → Word) (j : Nat) : (s.onIrqc k g).msg j = s.msg j := rfl
@[simp] theorem State.onIrqc_axle (s : State) (k : IrqBlk) (g : Word → Word) (j : Nat) : (s.onIrqc k g).axle j = s.axle j := rfl
@[simp] theorem State.onIrqc_can (s : State) (k : IrqBlk) (g : Word → Word) (j : Nat) : (s.onIrqc k g).can j = s.can j := rfl

/-! ## `onFault` -/

@[simp] theorem State.onFault_faults (s : State) (k : Nat) (g : LatchSt → LatchSt) :
    (s.onFault k g).faults = s.faults.set k (g (s.fault k)) := rfl
@[simp] theorem State.onFault_pending (s : State) (k : Nat) (g : LatchSt → LatchSt) : (s.onFault k g).pending = s.pending := rfl
@[simp] theorem State.onFault_time (s : State) (k : Nat) (g : LatchSt → LatchSt) : (s.onFault k g).time = s.time := rfl
@[simp] theorem State.onFault_pwr (s : State) (k : Nat) (g : LatchSt → LatchSt) : (s.onFault k g).pwr = s.pwr := rfl
@[simp] theorem State.onFault_host (s : State) (k : Nat) (g : LatchSt → LatchSt) : (s.onFault k g).host = s.host := rfl
@[simp] theorem State.onFault_rings (s : State) (k : Nat) (g : LatchSt → LatchSt) : (s.onFault k g).rings = s.rings := rfl
@[simp] theorem State.onFault_ev (s : State) (k : Nat) (g : LatchSt → LatchSt) : (s.onFault k g).ev = s.ev := rfl
@[simp] theorem State.onFault_irqCfg (s : State) (k : Nat) (g : LatchSt → LatchSt) : (s.onFault k g).irqCfg = s.irqCfg := rfl
@[simp] theorem State.onFault_fuse (s : State) (k : Nat) (g : LatchSt → LatchSt) : (s.onFault k g).fuse = s.fuse := rfl
@[simp] theorem State.onFault_cfg (s : State) (k : Nat) (g : LatchSt → LatchSt) : (s.onFault k g).cfg = s.cfg := rfl
@[simp] theorem State.onFault_wade (s : State) (k : Nat) (g : LatchSt → LatchSt) : (s.onFault k g).wade = s.wade := rfl
@[simp] theorem State.onFault_discs (s : State) (k : Nat) (g : LatchSt → LatchSt) : (s.onFault k g).discs = s.discs := rfl
@[simp] theorem State.onFault_ctrs (s : State) (k : Nat) (g : LatchSt → LatchSt) : (s.onFault k g).ctrs = s.ctrs := rfl
@[simp] theorem State.onFault_opens (s : State) (k : Nat) (g : LatchSt → LatchSt) : (s.onFault k g).opens = s.opens := rfl
@[simp] theorem State.onFault_pres (s : State) (k : Nat) (g : LatchSt → LatchSt) : (s.onFault k g).pres = s.pres := rfl
@[simp] theorem State.onFault_seq (s : State) (k : Nat) (g : LatchSt → LatchSt) : (s.onFault k g).seq = s.seq := rfl
@[simp] theorem State.onFault_outs (s : State) (k : Nat) (g : LatchSt → LatchSt) : (s.onFault k g).outs = s.outs := rfl
@[simp] theorem State.onFault_lsws (s : State) (k : Nat) (g : LatchSt → LatchSt) : (s.onFault k g).lsws = s.lsws := rfl
@[simp] theorem State.onFault_drv (s : State) (k : Nat) (g : LatchSt → LatchSt) : (s.onFault k g).drv = s.drv := rfl
@[simp] theorem State.onFault_ports (s : State) (k : Nat) (g : LatchSt → LatchSt) : (s.onFault k g).ports = s.ports := rfl
@[simp] theorem State.onFault_nodes (s : State) (k : Nat) (g : LatchSt → LatchSt) : (s.onFault k g).nodes = s.nodes := rfl
@[simp] theorem State.onFault_reqs (s : State) (k : Nat) (g : LatchSt → LatchSt) : (s.onFault k g).reqs = s.reqs := rfl
@[simp] theorem State.onFault_chainSeq (s : State) (k : Nat) (g : LatchSt → LatchSt) : (s.onFault k g).chainSeq = s.chainSeq := rfl
@[simp] theorem State.onFault_cells (s : State) (k : Nat) (g : LatchSt → LatchSt) : (s.onFault k g).cells = s.cells := rfl
@[simp] theorem State.onFault_ests (s : State) (k : Nat) (g : LatchSt → LatchSt) : (s.onFault k g).ests = s.ests := rfl
@[simp] theorem State.onFault_sens (s : State) (k : Nat) (g : LatchSt → LatchSt) : (s.onFault k g).sens = s.sens := rfl
@[simp] theorem State.onFault_zones (s : State) (k : Nat) (g : LatchSt → LatchSt) : (s.onFault k g).zones = s.zones := rfl
@[simp] theorem State.onFault_therm (s : State) (k : Nat) (g : LatchSt → LatchSt) : (s.onFault k g).therm = s.therm := rfl
@[simp] theorem State.onFault_strs (s : State) (k : Nat) (g : LatchSt → LatchSt) : (s.onFault k g).strs = s.strs := rfl
@[simp] theorem State.onFault_pack (s : State) (k : Nat) (g : LatchSt → LatchSt) : (s.onFault k g).pack = s.pack := rfl
@[simp] theorem State.onFault_hvil (s : State) (k : Nat) (g : LatchSt → LatchSt) : (s.onFault k g).hvil = s.hvil := rfl
@[simp] theorem State.onFault_iso (s : State) (k : Nat) (g : LatchSt → LatchSt) : (s.onFault k g).iso = s.iso := rfl
@[simp] theorem State.onFault_lid (s : State) (k : Nat) (g : LatchSt → LatchSt) : (s.onFault k g).lid = s.lid := rfl
@[simp] theorem State.onFault_safe (s : State) (k : Nat) (g : LatchSt → LatchSt) : (s.onFault k g).safe = s.safe := rfl
@[simp] theorem State.onFault_msgs (s : State) (k : Nat) (g : LatchSt → LatchSt) : (s.onFault k g).msgs = s.msgs := rfl
@[simp] theorem State.onFault_axles (s : State) (k : Nat) (g : LatchSt → LatchSt) : (s.onFault k g).axles = s.axles := rfl
@[simp] theorem State.onFault_cans (s : State) (k : Nat) (g : LatchSt → LatchSt) : (s.onFault k g).cans = s.cans := rfl
@[simp] theorem State.onFault_pair (s : State) (k : Nat) (g : LatchSt → LatchSt) : (s.onFault k g).pair = s.pair := rfl
@[simp] theorem State.onFault_mram (s : State) (k : Nat) (g : LatchSt → LatchSt) : (s.onFault k g).mram = s.mram := rfl
@[simp] theorem State.onFault_repair (s : State) (k : Nat) (g : LatchSt → LatchSt) : (s.onFault k g).repair = s.repair := rfl
@[simp] theorem State.onFault_sent (s : State) (k : Nat) (g : LatchSt → LatchSt) : (s.onFault k g).sent = s.sent := rfl
@[simp] theorem State.onFault_free (s : State) (k : Nat) (g : LatchSt → LatchSt) : (s.onFault k g).free = s.free := rfl
@[simp] theorem State.onFault_fault (s : State) (k : Nat) (g : LatchSt → LatchSt) : (s.onFault k g).fault k = g (s.fault k) :=
  Tab.getD_set_same _ _ _ _
theorem State.onFault_fault_other (s : State) {k j : Nat} (g : LatchSt → LatchSt) (h : j ≠ k) : (s.onFault k g).fault j = s.fault j :=
  Tab.getD_set_other _ _ _ h
@[simp] theorem State.onFault_ring (s : State) (k : Nat) (g : LatchSt → LatchSt) (j : Nat) : (s.onFault k g).ring j = s.ring j := rfl
@[simp] theorem State.onFault_evr (s : State) (k : Nat) (g : LatchSt → LatchSt) (j : EvReg) : (s.onFault k g).evr j = s.evr j := rfl
@[simp] theorem State.onFault_irqc (s : State) (k : Nat) (g : LatchSt → LatchSt) (j : IrqBlk) : (s.onFault k g).irqc j = s.irqc j := rfl
@[simp] theorem State.onFault_disc (s : State) (k : Nat) (g : LatchSt → LatchSt) (j : Nat) : (s.onFault k g).disc j = s.disc j := rfl
@[simp] theorem State.onFault_ctr (s : State) (k : Nat) (g : LatchSt → LatchSt) (j : Nat) : (s.onFault k g).ctr j = s.ctr j := rfl
@[simp] theorem State.onFault_opn (s : State) (k : Nat) (g : LatchSt → LatchSt) (j : Nat) : (s.onFault k g).opn j = s.opn j := rfl
@[simp] theorem State.onFault_pre (s : State) (k : Nat) (g : LatchSt → LatchSt) (j : Nat) : (s.onFault k g).pre j = s.pre j := rfl
@[simp] theorem State.onFault_outc (s : State) (k : Nat) (g : LatchSt → LatchSt) (j : Nat) : (s.onFault k g).outc j = s.outc j := rfl
@[simp] theorem State.onFault_lsw (s : State) (k : Nat) (g : LatchSt → LatchSt) (j : Nat) : (s.onFault k g).lsw j = s.lsw j := rfl
@[simp] theorem State.onFault_port (s : State) (k : Nat) (g : LatchSt → LatchSt) (j : Nat) : (s.onFault k g).port j = s.port j := rfl
@[simp] theorem State.onFault_node (s : State) (k : Nat) (g : LatchSt → LatchSt) (j : Nat) : (s.onFault k g).node j = s.node j := rfl
@[simp] theorem State.onFault_req (s : State) (k : Nat) (g : LatchSt → LatchSt) (j : Nat) : (s.onFault k g).req j = s.req j := rfl
@[simp] theorem State.onFault_cseq (s : State) (k : Nat) (g : LatchSt → LatchSt) (j : Nat) : (s.onFault k g).cseq j = s.cseq j := rfl
@[simp] theorem State.onFault_cell (s : State) (k : Nat) (g : LatchSt → LatchSt) (j : Nat) : (s.onFault k g).cell j = s.cell j := rfl
@[simp] theorem State.onFault_est (s : State) (k : Nat) (g : LatchSt → LatchSt) (j : Nat) : (s.onFault k g).est j = s.est j := rfl
@[simp] theorem State.onFault_sensor (s : State) (k : Nat) (g : LatchSt → LatchSt) (j : Nat) : (s.onFault k g).sensor j = s.sensor j := rfl
@[simp] theorem State.onFault_zone (s : State) (k : Nat) (g : LatchSt → LatchSt) (j : Nat) : (s.onFault k g).zone j = s.zone j := rfl
@[simp] theorem State.onFault_str (s : State) (k : Nat) (g : LatchSt → LatchSt) (j : Nat) : (s.onFault k g).str j = s.str j := rfl
@[simp] theorem State.onFault_loop (s : State) (k : Nat) (g : LatchSt → LatchSt) (j : Nat) : (s.onFault k g).loop j = s.loop j := rfl
@[simp] theorem State.onFault_msg (s : State) (k : Nat) (g : LatchSt → LatchSt) (j : Nat) : (s.onFault k g).msg j = s.msg j := rfl
@[simp] theorem State.onFault_axle (s : State) (k : Nat) (g : LatchSt → LatchSt) (j : Nat) : (s.onFault k g).axle j = s.axle j := rfl
@[simp] theorem State.onFault_can (s : State) (k : Nat) (g : LatchSt → LatchSt) (j : Nat) : (s.onFault k g).can j = s.can j := rfl

/-! ## `onDisc` -/

@[simp] theorem State.onDisc_discs (s : State) (k : Nat) (g : Disc → Disc) :
    (s.onDisc k g).discs = s.discs.set k (g (s.disc k)) := rfl
@[simp] theorem State.onDisc_pending (s : State) (k : Nat) (g : Disc → Disc) : (s.onDisc k g).pending = s.pending := rfl
@[simp] theorem State.onDisc_time (s : State) (k : Nat) (g : Disc → Disc) : (s.onDisc k g).time = s.time := rfl
@[simp] theorem State.onDisc_pwr (s : State) (k : Nat) (g : Disc → Disc) : (s.onDisc k g).pwr = s.pwr := rfl
@[simp] theorem State.onDisc_host (s : State) (k : Nat) (g : Disc → Disc) : (s.onDisc k g).host = s.host := rfl
@[simp] theorem State.onDisc_rings (s : State) (k : Nat) (g : Disc → Disc) : (s.onDisc k g).rings = s.rings := rfl
@[simp] theorem State.onDisc_ev (s : State) (k : Nat) (g : Disc → Disc) : (s.onDisc k g).ev = s.ev := rfl
@[simp] theorem State.onDisc_irqCfg (s : State) (k : Nat) (g : Disc → Disc) : (s.onDisc k g).irqCfg = s.irqCfg := rfl
@[simp] theorem State.onDisc_fuse (s : State) (k : Nat) (g : Disc → Disc) : (s.onDisc k g).fuse = s.fuse := rfl
@[simp] theorem State.onDisc_cfg (s : State) (k : Nat) (g : Disc → Disc) : (s.onDisc k g).cfg = s.cfg := rfl
@[simp] theorem State.onDisc_faults (s : State) (k : Nat) (g : Disc → Disc) : (s.onDisc k g).faults = s.faults := rfl
@[simp] theorem State.onDisc_wade (s : State) (k : Nat) (g : Disc → Disc) : (s.onDisc k g).wade = s.wade := rfl
@[simp] theorem State.onDisc_ctrs (s : State) (k : Nat) (g : Disc → Disc) : (s.onDisc k g).ctrs = s.ctrs := rfl
@[simp] theorem State.onDisc_opens (s : State) (k : Nat) (g : Disc → Disc) : (s.onDisc k g).opens = s.opens := rfl
@[simp] theorem State.onDisc_pres (s : State) (k : Nat) (g : Disc → Disc) : (s.onDisc k g).pres = s.pres := rfl
@[simp] theorem State.onDisc_seq (s : State) (k : Nat) (g : Disc → Disc) : (s.onDisc k g).seq = s.seq := rfl
@[simp] theorem State.onDisc_outs (s : State) (k : Nat) (g : Disc → Disc) : (s.onDisc k g).outs = s.outs := rfl
@[simp] theorem State.onDisc_lsws (s : State) (k : Nat) (g : Disc → Disc) : (s.onDisc k g).lsws = s.lsws := rfl
@[simp] theorem State.onDisc_drv (s : State) (k : Nat) (g : Disc → Disc) : (s.onDisc k g).drv = s.drv := rfl
@[simp] theorem State.onDisc_ports (s : State) (k : Nat) (g : Disc → Disc) : (s.onDisc k g).ports = s.ports := rfl
@[simp] theorem State.onDisc_nodes (s : State) (k : Nat) (g : Disc → Disc) : (s.onDisc k g).nodes = s.nodes := rfl
@[simp] theorem State.onDisc_reqs (s : State) (k : Nat) (g : Disc → Disc) : (s.onDisc k g).reqs = s.reqs := rfl
@[simp] theorem State.onDisc_chainSeq (s : State) (k : Nat) (g : Disc → Disc) : (s.onDisc k g).chainSeq = s.chainSeq := rfl
@[simp] theorem State.onDisc_cells (s : State) (k : Nat) (g : Disc → Disc) : (s.onDisc k g).cells = s.cells := rfl
@[simp] theorem State.onDisc_ests (s : State) (k : Nat) (g : Disc → Disc) : (s.onDisc k g).ests = s.ests := rfl
@[simp] theorem State.onDisc_sens (s : State) (k : Nat) (g : Disc → Disc) : (s.onDisc k g).sens = s.sens := rfl
@[simp] theorem State.onDisc_zones (s : State) (k : Nat) (g : Disc → Disc) : (s.onDisc k g).zones = s.zones := rfl
@[simp] theorem State.onDisc_therm (s : State) (k : Nat) (g : Disc → Disc) : (s.onDisc k g).therm = s.therm := rfl
@[simp] theorem State.onDisc_strs (s : State) (k : Nat) (g : Disc → Disc) : (s.onDisc k g).strs = s.strs := rfl
@[simp] theorem State.onDisc_pack (s : State) (k : Nat) (g : Disc → Disc) : (s.onDisc k g).pack = s.pack := rfl
@[simp] theorem State.onDisc_hvil (s : State) (k : Nat) (g : Disc → Disc) : (s.onDisc k g).hvil = s.hvil := rfl
@[simp] theorem State.onDisc_iso (s : State) (k : Nat) (g : Disc → Disc) : (s.onDisc k g).iso = s.iso := rfl
@[simp] theorem State.onDisc_lid (s : State) (k : Nat) (g : Disc → Disc) : (s.onDisc k g).lid = s.lid := rfl
@[simp] theorem State.onDisc_safe (s : State) (k : Nat) (g : Disc → Disc) : (s.onDisc k g).safe = s.safe := rfl
@[simp] theorem State.onDisc_msgs (s : State) (k : Nat) (g : Disc → Disc) : (s.onDisc k g).msgs = s.msgs := rfl
@[simp] theorem State.onDisc_axles (s : State) (k : Nat) (g : Disc → Disc) : (s.onDisc k g).axles = s.axles := rfl
@[simp] theorem State.onDisc_cans (s : State) (k : Nat) (g : Disc → Disc) : (s.onDisc k g).cans = s.cans := rfl
@[simp] theorem State.onDisc_pair (s : State) (k : Nat) (g : Disc → Disc) : (s.onDisc k g).pair = s.pair := rfl
@[simp] theorem State.onDisc_mram (s : State) (k : Nat) (g : Disc → Disc) : (s.onDisc k g).mram = s.mram := rfl
@[simp] theorem State.onDisc_repair (s : State) (k : Nat) (g : Disc → Disc) : (s.onDisc k g).repair = s.repair := rfl
@[simp] theorem State.onDisc_sent (s : State) (k : Nat) (g : Disc → Disc) : (s.onDisc k g).sent = s.sent := rfl
@[simp] theorem State.onDisc_free (s : State) (k : Nat) (g : Disc → Disc) : (s.onDisc k g).free = s.free := rfl
@[simp] theorem State.onDisc_disc (s : State) (k : Nat) (g : Disc → Disc) : (s.onDisc k g).disc k = g (s.disc k) :=
  Tab.getD_set_same _ _ _ _
theorem State.onDisc_disc_other (s : State) {k j : Nat} (g : Disc → Disc) (h : j ≠ k) : (s.onDisc k g).disc j = s.disc j :=
  Tab.getD_set_other _ _ _ h
@[simp] theorem State.onDisc_ring (s : State) (k : Nat) (g : Disc → Disc) (j : Nat) : (s.onDisc k g).ring j = s.ring j := rfl
@[simp] theorem State.onDisc_evr (s : State) (k : Nat) (g : Disc → Disc) (j : EvReg) : (s.onDisc k g).evr j = s.evr j := rfl
@[simp] theorem State.onDisc_irqc (s : State) (k : Nat) (g : Disc → Disc) (j : IrqBlk) : (s.onDisc k g).irqc j = s.irqc j := rfl
@[simp] theorem State.onDisc_fault (s : State) (k : Nat) (g : Disc → Disc) (j : Nat) : (s.onDisc k g).fault j = s.fault j := rfl
@[simp] theorem State.onDisc_ctr (s : State) (k : Nat) (g : Disc → Disc) (j : Nat) : (s.onDisc k g).ctr j = s.ctr j := rfl
@[simp] theorem State.onDisc_opn (s : State) (k : Nat) (g : Disc → Disc) (j : Nat) : (s.onDisc k g).opn j = s.opn j := rfl
@[simp] theorem State.onDisc_pre (s : State) (k : Nat) (g : Disc → Disc) (j : Nat) : (s.onDisc k g).pre j = s.pre j := rfl
@[simp] theorem State.onDisc_outc (s : State) (k : Nat) (g : Disc → Disc) (j : Nat) : (s.onDisc k g).outc j = s.outc j := rfl
@[simp] theorem State.onDisc_lsw (s : State) (k : Nat) (g : Disc → Disc) (j : Nat) : (s.onDisc k g).lsw j = s.lsw j := rfl
@[simp] theorem State.onDisc_port (s : State) (k : Nat) (g : Disc → Disc) (j : Nat) : (s.onDisc k g).port j = s.port j := rfl
@[simp] theorem State.onDisc_node (s : State) (k : Nat) (g : Disc → Disc) (j : Nat) : (s.onDisc k g).node j = s.node j := rfl
@[simp] theorem State.onDisc_req (s : State) (k : Nat) (g : Disc → Disc) (j : Nat) : (s.onDisc k g).req j = s.req j := rfl
@[simp] theorem State.onDisc_cseq (s : State) (k : Nat) (g : Disc → Disc) (j : Nat) : (s.onDisc k g).cseq j = s.cseq j := rfl
@[simp] theorem State.onDisc_cell (s : State) (k : Nat) (g : Disc → Disc) (j : Nat) : (s.onDisc k g).cell j = s.cell j := rfl
@[simp] theorem State.onDisc_est (s : State) (k : Nat) (g : Disc → Disc) (j : Nat) : (s.onDisc k g).est j = s.est j := rfl
@[simp] theorem State.onDisc_sensor (s : State) (k : Nat) (g : Disc → Disc) (j : Nat) : (s.onDisc k g).sensor j = s.sensor j := rfl
@[simp] theorem State.onDisc_zone (s : State) (k : Nat) (g : Disc → Disc) (j : Nat) : (s.onDisc k g).zone j = s.zone j := rfl
@[simp] theorem State.onDisc_str (s : State) (k : Nat) (g : Disc → Disc) (j : Nat) : (s.onDisc k g).str j = s.str j := rfl
@[simp] theorem State.onDisc_loop (s : State) (k : Nat) (g : Disc → Disc) (j : Nat) : (s.onDisc k g).loop j = s.loop j := rfl
@[simp] theorem State.onDisc_msg (s : State) (k : Nat) (g : Disc → Disc) (j : Nat) : (s.onDisc k g).msg j = s.msg j := rfl
@[simp] theorem State.onDisc_axle (s : State) (k : Nat) (g : Disc → Disc) (j : Nat) : (s.onDisc k g).axle j = s.axle j := rfl
@[simp] theorem State.onDisc_can (s : State) (k : Nat) (g : Disc → Disc) (j : Nat) : (s.onDisc k g).can j = s.can j := rfl

/-! ## `onCtr` -/

@[simp] theorem State.onCtr_ctrs (s : State) (k : Nat) (g : Ctr → Ctr) :
    (s.onCtr k g).ctrs = s.ctrs.set k (g (s.ctr k)) := rfl
@[simp] theorem State.onCtr_pending (s : State) (k : Nat) (g : Ctr → Ctr) : (s.onCtr k g).pending = s.pending := rfl
@[simp] theorem State.onCtr_time (s : State) (k : Nat) (g : Ctr → Ctr) : (s.onCtr k g).time = s.time := rfl
@[simp] theorem State.onCtr_pwr (s : State) (k : Nat) (g : Ctr → Ctr) : (s.onCtr k g).pwr = s.pwr := rfl
@[simp] theorem State.onCtr_host (s : State) (k : Nat) (g : Ctr → Ctr) : (s.onCtr k g).host = s.host := rfl
@[simp] theorem State.onCtr_rings (s : State) (k : Nat) (g : Ctr → Ctr) : (s.onCtr k g).rings = s.rings := rfl
@[simp] theorem State.onCtr_ev (s : State) (k : Nat) (g : Ctr → Ctr) : (s.onCtr k g).ev = s.ev := rfl
@[simp] theorem State.onCtr_irqCfg (s : State) (k : Nat) (g : Ctr → Ctr) : (s.onCtr k g).irqCfg = s.irqCfg := rfl
@[simp] theorem State.onCtr_fuse (s : State) (k : Nat) (g : Ctr → Ctr) : (s.onCtr k g).fuse = s.fuse := rfl
@[simp] theorem State.onCtr_cfg (s : State) (k : Nat) (g : Ctr → Ctr) : (s.onCtr k g).cfg = s.cfg := rfl
@[simp] theorem State.onCtr_faults (s : State) (k : Nat) (g : Ctr → Ctr) : (s.onCtr k g).faults = s.faults := rfl
@[simp] theorem State.onCtr_wade (s : State) (k : Nat) (g : Ctr → Ctr) : (s.onCtr k g).wade = s.wade := rfl
@[simp] theorem State.onCtr_discs (s : State) (k : Nat) (g : Ctr → Ctr) : (s.onCtr k g).discs = s.discs := rfl
@[simp] theorem State.onCtr_opens (s : State) (k : Nat) (g : Ctr → Ctr) : (s.onCtr k g).opens = s.opens := rfl
@[simp] theorem State.onCtr_pres (s : State) (k : Nat) (g : Ctr → Ctr) : (s.onCtr k g).pres = s.pres := rfl
@[simp] theorem State.onCtr_seq (s : State) (k : Nat) (g : Ctr → Ctr) : (s.onCtr k g).seq = s.seq := rfl
@[simp] theorem State.onCtr_outs (s : State) (k : Nat) (g : Ctr → Ctr) : (s.onCtr k g).outs = s.outs := rfl
@[simp] theorem State.onCtr_lsws (s : State) (k : Nat) (g : Ctr → Ctr) : (s.onCtr k g).lsws = s.lsws := rfl
@[simp] theorem State.onCtr_drv (s : State) (k : Nat) (g : Ctr → Ctr) : (s.onCtr k g).drv = s.drv := rfl
@[simp] theorem State.onCtr_ports (s : State) (k : Nat) (g : Ctr → Ctr) : (s.onCtr k g).ports = s.ports := rfl
@[simp] theorem State.onCtr_nodes (s : State) (k : Nat) (g : Ctr → Ctr) : (s.onCtr k g).nodes = s.nodes := rfl
@[simp] theorem State.onCtr_reqs (s : State) (k : Nat) (g : Ctr → Ctr) : (s.onCtr k g).reqs = s.reqs := rfl
@[simp] theorem State.onCtr_chainSeq (s : State) (k : Nat) (g : Ctr → Ctr) : (s.onCtr k g).chainSeq = s.chainSeq := rfl
@[simp] theorem State.onCtr_cells (s : State) (k : Nat) (g : Ctr → Ctr) : (s.onCtr k g).cells = s.cells := rfl
@[simp] theorem State.onCtr_ests (s : State) (k : Nat) (g : Ctr → Ctr) : (s.onCtr k g).ests = s.ests := rfl
@[simp] theorem State.onCtr_sens (s : State) (k : Nat) (g : Ctr → Ctr) : (s.onCtr k g).sens = s.sens := rfl
@[simp] theorem State.onCtr_zones (s : State) (k : Nat) (g : Ctr → Ctr) : (s.onCtr k g).zones = s.zones := rfl
@[simp] theorem State.onCtr_therm (s : State) (k : Nat) (g : Ctr → Ctr) : (s.onCtr k g).therm = s.therm := rfl
@[simp] theorem State.onCtr_strs (s : State) (k : Nat) (g : Ctr → Ctr) : (s.onCtr k g).strs = s.strs := rfl
@[simp] theorem State.onCtr_pack (s : State) (k : Nat) (g : Ctr → Ctr) : (s.onCtr k g).pack = s.pack := rfl
@[simp] theorem State.onCtr_hvil (s : State) (k : Nat) (g : Ctr → Ctr) : (s.onCtr k g).hvil = s.hvil := rfl
@[simp] theorem State.onCtr_iso (s : State) (k : Nat) (g : Ctr → Ctr) : (s.onCtr k g).iso = s.iso := rfl
@[simp] theorem State.onCtr_lid (s : State) (k : Nat) (g : Ctr → Ctr) : (s.onCtr k g).lid = s.lid := rfl
@[simp] theorem State.onCtr_safe (s : State) (k : Nat) (g : Ctr → Ctr) : (s.onCtr k g).safe = s.safe := rfl
@[simp] theorem State.onCtr_msgs (s : State) (k : Nat) (g : Ctr → Ctr) : (s.onCtr k g).msgs = s.msgs := rfl
@[simp] theorem State.onCtr_axles (s : State) (k : Nat) (g : Ctr → Ctr) : (s.onCtr k g).axles = s.axles := rfl
@[simp] theorem State.onCtr_cans (s : State) (k : Nat) (g : Ctr → Ctr) : (s.onCtr k g).cans = s.cans := rfl
@[simp] theorem State.onCtr_pair (s : State) (k : Nat) (g : Ctr → Ctr) : (s.onCtr k g).pair = s.pair := rfl
@[simp] theorem State.onCtr_mram (s : State) (k : Nat) (g : Ctr → Ctr) : (s.onCtr k g).mram = s.mram := rfl
@[simp] theorem State.onCtr_repair (s : State) (k : Nat) (g : Ctr → Ctr) : (s.onCtr k g).repair = s.repair := rfl
@[simp] theorem State.onCtr_sent (s : State) (k : Nat) (g : Ctr → Ctr) : (s.onCtr k g).sent = s.sent := rfl
@[simp] theorem State.onCtr_free (s : State) (k : Nat) (g : Ctr → Ctr) : (s.onCtr k g).free = s.free := rfl
@[simp] theorem State.onCtr_ctr (s : State) (k : Nat) (g : Ctr → Ctr) : (s.onCtr k g).ctr k = g (s.ctr k) :=
  Tab.getD_set_same _ _ _ _
theorem State.onCtr_ctr_other (s : State) {k j : Nat} (g : Ctr → Ctr) (h : j ≠ k) : (s.onCtr k g).ctr j = s.ctr j :=
  Tab.getD_set_other _ _ _ h
@[simp] theorem State.onCtr_ring (s : State) (k : Nat) (g : Ctr → Ctr) (j : Nat) : (s.onCtr k g).ring j = s.ring j := rfl
@[simp] theorem State.onCtr_evr (s : State) (k : Nat) (g : Ctr → Ctr) (j : EvReg) : (s.onCtr k g).evr j = s.evr j := rfl
@[simp] theorem State.onCtr_irqc (s : State) (k : Nat) (g : Ctr → Ctr) (j : IrqBlk) : (s.onCtr k g).irqc j = s.irqc j := rfl
@[simp] theorem State.onCtr_fault (s : State) (k : Nat) (g : Ctr → Ctr) (j : Nat) : (s.onCtr k g).fault j = s.fault j := rfl
@[simp] theorem State.onCtr_disc (s : State) (k : Nat) (g : Ctr → Ctr) (j : Nat) : (s.onCtr k g).disc j = s.disc j := rfl
@[simp] theorem State.onCtr_opn (s : State) (k : Nat) (g : Ctr → Ctr) (j : Nat) : (s.onCtr k g).opn j = s.opn j := rfl
@[simp] theorem State.onCtr_pre (s : State) (k : Nat) (g : Ctr → Ctr) (j : Nat) : (s.onCtr k g).pre j = s.pre j := rfl
@[simp] theorem State.onCtr_outc (s : State) (k : Nat) (g : Ctr → Ctr) (j : Nat) : (s.onCtr k g).outc j = s.outc j := rfl
@[simp] theorem State.onCtr_lsw (s : State) (k : Nat) (g : Ctr → Ctr) (j : Nat) : (s.onCtr k g).lsw j = s.lsw j := rfl
@[simp] theorem State.onCtr_port (s : State) (k : Nat) (g : Ctr → Ctr) (j : Nat) : (s.onCtr k g).port j = s.port j := rfl
@[simp] theorem State.onCtr_node (s : State) (k : Nat) (g : Ctr → Ctr) (j : Nat) : (s.onCtr k g).node j = s.node j := rfl
@[simp] theorem State.onCtr_req (s : State) (k : Nat) (g : Ctr → Ctr) (j : Nat) : (s.onCtr k g).req j = s.req j := rfl
@[simp] theorem State.onCtr_cseq (s : State) (k : Nat) (g : Ctr → Ctr) (j : Nat) : (s.onCtr k g).cseq j = s.cseq j := rfl
@[simp] theorem State.onCtr_cell (s : State) (k : Nat) (g : Ctr → Ctr) (j : Nat) : (s.onCtr k g).cell j = s.cell j := rfl
@[simp] theorem State.onCtr_est (s : State) (k : Nat) (g : Ctr → Ctr) (j : Nat) : (s.onCtr k g).est j = s.est j := rfl
@[simp] theorem State.onCtr_sensor (s : State) (k : Nat) (g : Ctr → Ctr) (j : Nat) : (s.onCtr k g).sensor j = s.sensor j := rfl
@[simp] theorem State.onCtr_zone (s : State) (k : Nat) (g : Ctr → Ctr) (j : Nat) : (s.onCtr k g).zone j = s.zone j := rfl
@[simp] theorem State.onCtr_str (s : State) (k : Nat) (g : Ctr → Ctr) (j : Nat) : (s.onCtr k g).str j = s.str j := rfl
@[simp] theorem State.onCtr_loop (s : State) (k : Nat) (g : Ctr → Ctr) (j : Nat) : (s.onCtr k g).loop j = s.loop j := rfl
@[simp] theorem State.onCtr_msg (s : State) (k : Nat) (g : Ctr → Ctr) (j : Nat) : (s.onCtr k g).msg j = s.msg j := rfl
@[simp] theorem State.onCtr_axle (s : State) (k : Nat) (g : Ctr → Ctr) (j : Nat) : (s.onCtr k g).axle j = s.axle j := rfl
@[simp] theorem State.onCtr_can (s : State) (k : Nat) (g : Ctr → Ctr) (j : Nat) : (s.onCtr k g).can j = s.can j := rfl

/-! ## `onOpn` -/

@[simp] theorem State.onOpn_opens (s : State) (k : Nat) (g : StrOpen → StrOpen) :
    (s.onOpn k g).opens = s.opens.set k (g (s.opn k)) := rfl
@[simp] theorem State.onOpn_pending (s : State) (k : Nat) (g : StrOpen → StrOpen) : (s.onOpn k g).pending = s.pending := rfl
@[simp] theorem State.onOpn_time (s : State) (k : Nat) (g : StrOpen → StrOpen) : (s.onOpn k g).time = s.time := rfl
@[simp] theorem State.onOpn_pwr (s : State) (k : Nat) (g : StrOpen → StrOpen) : (s.onOpn k g).pwr = s.pwr := rfl
@[simp] theorem State.onOpn_host (s : State) (k : Nat) (g : StrOpen → StrOpen) : (s.onOpn k g).host = s.host := rfl
@[simp] theorem State.onOpn_rings (s : State) (k : Nat) (g : StrOpen → StrOpen) : (s.onOpn k g).rings = s.rings := rfl
@[simp] theorem State.onOpn_ev (s : State) (k : Nat) (g : StrOpen → StrOpen) : (s.onOpn k g).ev = s.ev := rfl
@[simp] theorem State.onOpn_irqCfg (s : State) (k : Nat) (g : StrOpen → StrOpen) : (s.onOpn k g).irqCfg = s.irqCfg := rfl
@[simp] theorem State.onOpn_fuse (s : State) (k : Nat) (g : StrOpen → StrOpen) : (s.onOpn k g).fuse = s.fuse := rfl
@[simp] theorem State.onOpn_cfg (s : State) (k : Nat) (g : StrOpen → StrOpen) : (s.onOpn k g).cfg = s.cfg := rfl
@[simp] theorem State.onOpn_faults (s : State) (k : Nat) (g : StrOpen → StrOpen) : (s.onOpn k g).faults = s.faults := rfl
@[simp] theorem State.onOpn_wade (s : State) (k : Nat) (g : StrOpen → StrOpen) : (s.onOpn k g).wade = s.wade := rfl
@[simp] theorem State.onOpn_discs (s : State) (k : Nat) (g : StrOpen → StrOpen) : (s.onOpn k g).discs = s.discs := rfl
@[simp] theorem State.onOpn_ctrs (s : State) (k : Nat) (g : StrOpen → StrOpen) : (s.onOpn k g).ctrs = s.ctrs := rfl
@[simp] theorem State.onOpn_pres (s : State) (k : Nat) (g : StrOpen → StrOpen) : (s.onOpn k g).pres = s.pres := rfl
@[simp] theorem State.onOpn_seq (s : State) (k : Nat) (g : StrOpen → StrOpen) : (s.onOpn k g).seq = s.seq := rfl
@[simp] theorem State.onOpn_outs (s : State) (k : Nat) (g : StrOpen → StrOpen) : (s.onOpn k g).outs = s.outs := rfl
@[simp] theorem State.onOpn_lsws (s : State) (k : Nat) (g : StrOpen → StrOpen) : (s.onOpn k g).lsws = s.lsws := rfl
@[simp] theorem State.onOpn_drv (s : State) (k : Nat) (g : StrOpen → StrOpen) : (s.onOpn k g).drv = s.drv := rfl
@[simp] theorem State.onOpn_ports (s : State) (k : Nat) (g : StrOpen → StrOpen) : (s.onOpn k g).ports = s.ports := rfl
@[simp] theorem State.onOpn_nodes (s : State) (k : Nat) (g : StrOpen → StrOpen) : (s.onOpn k g).nodes = s.nodes := rfl
@[simp] theorem State.onOpn_reqs (s : State) (k : Nat) (g : StrOpen → StrOpen) : (s.onOpn k g).reqs = s.reqs := rfl
@[simp] theorem State.onOpn_chainSeq (s : State) (k : Nat) (g : StrOpen → StrOpen) : (s.onOpn k g).chainSeq = s.chainSeq := rfl
@[simp] theorem State.onOpn_cells (s : State) (k : Nat) (g : StrOpen → StrOpen) : (s.onOpn k g).cells = s.cells := rfl
@[simp] theorem State.onOpn_ests (s : State) (k : Nat) (g : StrOpen → StrOpen) : (s.onOpn k g).ests = s.ests := rfl
@[simp] theorem State.onOpn_sens (s : State) (k : Nat) (g : StrOpen → StrOpen) : (s.onOpn k g).sens = s.sens := rfl
@[simp] theorem State.onOpn_zones (s : State) (k : Nat) (g : StrOpen → StrOpen) : (s.onOpn k g).zones = s.zones := rfl
@[simp] theorem State.onOpn_therm (s : State) (k : Nat) (g : StrOpen → StrOpen) : (s.onOpn k g).therm = s.therm := rfl
@[simp] theorem State.onOpn_strs (s : State) (k : Nat) (g : StrOpen → StrOpen) : (s.onOpn k g).strs = s.strs := rfl
@[simp] theorem State.onOpn_pack (s : State) (k : Nat) (g : StrOpen → StrOpen) : (s.onOpn k g).pack = s.pack := rfl
@[simp] theorem State.onOpn_hvil (s : State) (k : Nat) (g : StrOpen → StrOpen) : (s.onOpn k g).hvil = s.hvil := rfl
@[simp] theorem State.onOpn_iso (s : State) (k : Nat) (g : StrOpen → StrOpen) : (s.onOpn k g).iso = s.iso := rfl
@[simp] theorem State.onOpn_lid (s : State) (k : Nat) (g : StrOpen → StrOpen) : (s.onOpn k g).lid = s.lid := rfl
@[simp] theorem State.onOpn_safe (s : State) (k : Nat) (g : StrOpen → StrOpen) : (s.onOpn k g).safe = s.safe := rfl
@[simp] theorem State.onOpn_msgs (s : State) (k : Nat) (g : StrOpen → StrOpen) : (s.onOpn k g).msgs = s.msgs := rfl
@[simp] theorem State.onOpn_axles (s : State) (k : Nat) (g : StrOpen → StrOpen) : (s.onOpn k g).axles = s.axles := rfl
@[simp] theorem State.onOpn_cans (s : State) (k : Nat) (g : StrOpen → StrOpen) : (s.onOpn k g).cans = s.cans := rfl
@[simp] theorem State.onOpn_pair (s : State) (k : Nat) (g : StrOpen → StrOpen) : (s.onOpn k g).pair = s.pair := rfl
@[simp] theorem State.onOpn_mram (s : State) (k : Nat) (g : StrOpen → StrOpen) : (s.onOpn k g).mram = s.mram := rfl
@[simp] theorem State.onOpn_repair (s : State) (k : Nat) (g : StrOpen → StrOpen) : (s.onOpn k g).repair = s.repair := rfl
@[simp] theorem State.onOpn_sent (s : State) (k : Nat) (g : StrOpen → StrOpen) : (s.onOpn k g).sent = s.sent := rfl
@[simp] theorem State.onOpn_free (s : State) (k : Nat) (g : StrOpen → StrOpen) : (s.onOpn k g).free = s.free := rfl
@[simp] theorem State.onOpn_opn (s : State) (k : Nat) (g : StrOpen → StrOpen) : (s.onOpn k g).opn k = g (s.opn k) :=
  Tab.getD_set_same _ _ _ _
theorem State.onOpn_opn_other (s : State) {k j : Nat} (g : StrOpen → StrOpen) (h : j ≠ k) : (s.onOpn k g).opn j = s.opn j :=
  Tab.getD_set_other _ _ _ h
@[simp] theorem State.onOpn_ring (s : State) (k : Nat) (g : StrOpen → StrOpen) (j : Nat) : (s.onOpn k g).ring j = s.ring j := rfl
@[simp] theorem State.onOpn_evr (s : State) (k : Nat) (g : StrOpen → StrOpen) (j : EvReg) : (s.onOpn k g).evr j = s.evr j := rfl
@[simp] theorem State.onOpn_irqc (s : State) (k : Nat) (g : StrOpen → StrOpen) (j : IrqBlk) : (s.onOpn k g).irqc j = s.irqc j := rfl
@[simp] theorem State.onOpn_fault (s : State) (k : Nat) (g : StrOpen → StrOpen) (j : Nat) : (s.onOpn k g).fault j = s.fault j := rfl
@[simp] theorem State.onOpn_disc (s : State) (k : Nat) (g : StrOpen → StrOpen) (j : Nat) : (s.onOpn k g).disc j = s.disc j := rfl
@[simp] theorem State.onOpn_ctr (s : State) (k : Nat) (g : StrOpen → StrOpen) (j : Nat) : (s.onOpn k g).ctr j = s.ctr j := rfl
@[simp] theorem State.onOpn_pre (s : State) (k : Nat) (g : StrOpen → StrOpen) (j : Nat) : (s.onOpn k g).pre j = s.pre j := rfl
@[simp] theorem State.onOpn_outc (s : State) (k : Nat) (g : StrOpen → StrOpen) (j : Nat) : (s.onOpn k g).outc j = s.outc j := rfl
@[simp] theorem State.onOpn_lsw (s : State) (k : Nat) (g : StrOpen → StrOpen) (j : Nat) : (s.onOpn k g).lsw j = s.lsw j := rfl
@[simp] theorem State.onOpn_port (s : State) (k : Nat) (g : StrOpen → StrOpen) (j : Nat) : (s.onOpn k g).port j = s.port j := rfl
@[simp] theorem State.onOpn_node (s : State) (k : Nat) (g : StrOpen → StrOpen) (j : Nat) : (s.onOpn k g).node j = s.node j := rfl
@[simp] theorem State.onOpn_req (s : State) (k : Nat) (g : StrOpen → StrOpen) (j : Nat) : (s.onOpn k g).req j = s.req j := rfl
@[simp] theorem State.onOpn_cseq (s : State) (k : Nat) (g : StrOpen → StrOpen) (j : Nat) : (s.onOpn k g).cseq j = s.cseq j := rfl
@[simp] theorem State.onOpn_cell (s : State) (k : Nat) (g : StrOpen → StrOpen) (j : Nat) : (s.onOpn k g).cell j = s.cell j := rfl
@[simp] theorem State.onOpn_est (s : State) (k : Nat) (g : StrOpen → StrOpen) (j : Nat) : (s.onOpn k g).est j = s.est j := rfl
@[simp] theorem State.onOpn_sensor (s : State) (k : Nat) (g : StrOpen → StrOpen) (j : Nat) : (s.onOpn k g).sensor j = s.sensor j := rfl
@[simp] theorem State.onOpn_zone (s : State) (k : Nat) (g : StrOpen → StrOpen) (j : Nat) : (s.onOpn k g).zone j = s.zone j := rfl
@[simp] theorem State.onOpn_str (s : State) (k : Nat) (g : StrOpen → StrOpen) (j : Nat) : (s.onOpn k g).str j = s.str j := rfl
@[simp] theorem State.onOpn_loop (s : State) (k : Nat) (g : StrOpen → StrOpen) (j : Nat) : (s.onOpn k g).loop j = s.loop j := rfl
@[simp] theorem State.onOpn_msg (s : State) (k : Nat) (g : StrOpen → StrOpen) (j : Nat) : (s.onOpn k g).msg j = s.msg j := rfl
@[simp] theorem State.onOpn_axle (s : State) (k : Nat) (g : StrOpen → StrOpen) (j : Nat) : (s.onOpn k g).axle j = s.axle j := rfl
@[simp] theorem State.onOpn_can (s : State) (k : Nat) (g : StrOpen → StrOpen) (j : Nat) : (s.onOpn k g).can j = s.can j := rfl

/-! ## `onPre` -/

@[simp] theorem State.onPre_pres (s : State) (k : Nat) (g : Pre → Pre) :
    (s.onPre k g).pres = s.pres.set k (g (s.pre k)) := rfl
@[simp] theorem State.onPre_pending (s : State) (k : Nat) (g : Pre → Pre) : (s.onPre k g).pending = s.pending := rfl
@[simp] theorem State.onPre_time (s : State) (k : Nat) (g : Pre → Pre) : (s.onPre k g).time = s.time := rfl
@[simp] theorem State.onPre_pwr (s : State) (k : Nat) (g : Pre → Pre) : (s.onPre k g).pwr = s.pwr := rfl
@[simp] theorem State.onPre_host (s : State) (k : Nat) (g : Pre → Pre) : (s.onPre k g).host = s.host := rfl
@[simp] theorem State.onPre_rings (s : State) (k : Nat) (g : Pre → Pre) : (s.onPre k g).rings = s.rings := rfl
@[simp] theorem State.onPre_ev (s : State) (k : Nat) (g : Pre → Pre) : (s.onPre k g).ev = s.ev := rfl
@[simp] theorem State.onPre_irqCfg (s : State) (k : Nat) (g : Pre → Pre) : (s.onPre k g).irqCfg = s.irqCfg := rfl
@[simp] theorem State.onPre_fuse (s : State) (k : Nat) (g : Pre → Pre) : (s.onPre k g).fuse = s.fuse := rfl
@[simp] theorem State.onPre_cfg (s : State) (k : Nat) (g : Pre → Pre) : (s.onPre k g).cfg = s.cfg := rfl
@[simp] theorem State.onPre_faults (s : State) (k : Nat) (g : Pre → Pre) : (s.onPre k g).faults = s.faults := rfl
@[simp] theorem State.onPre_wade (s : State) (k : Nat) (g : Pre → Pre) : (s.onPre k g).wade = s.wade := rfl
@[simp] theorem State.onPre_discs (s : State) (k : Nat) (g : Pre → Pre) : (s.onPre k g).discs = s.discs := rfl
@[simp] theorem State.onPre_ctrs (s : State) (k : Nat) (g : Pre → Pre) : (s.onPre k g).ctrs = s.ctrs := rfl
@[simp] theorem State.onPre_opens (s : State) (k : Nat) (g : Pre → Pre) : (s.onPre k g).opens = s.opens := rfl
@[simp] theorem State.onPre_seq (s : State) (k : Nat) (g : Pre → Pre) : (s.onPre k g).seq = s.seq := rfl
@[simp] theorem State.onPre_outs (s : State) (k : Nat) (g : Pre → Pre) : (s.onPre k g).outs = s.outs := rfl
@[simp] theorem State.onPre_lsws (s : State) (k : Nat) (g : Pre → Pre) : (s.onPre k g).lsws = s.lsws := rfl
@[simp] theorem State.onPre_drv (s : State) (k : Nat) (g : Pre → Pre) : (s.onPre k g).drv = s.drv := rfl
@[simp] theorem State.onPre_ports (s : State) (k : Nat) (g : Pre → Pre) : (s.onPre k g).ports = s.ports := rfl
@[simp] theorem State.onPre_nodes (s : State) (k : Nat) (g : Pre → Pre) : (s.onPre k g).nodes = s.nodes := rfl
@[simp] theorem State.onPre_reqs (s : State) (k : Nat) (g : Pre → Pre) : (s.onPre k g).reqs = s.reqs := rfl
@[simp] theorem State.onPre_chainSeq (s : State) (k : Nat) (g : Pre → Pre) : (s.onPre k g).chainSeq = s.chainSeq := rfl
@[simp] theorem State.onPre_cells (s : State) (k : Nat) (g : Pre → Pre) : (s.onPre k g).cells = s.cells := rfl
@[simp] theorem State.onPre_ests (s : State) (k : Nat) (g : Pre → Pre) : (s.onPre k g).ests = s.ests := rfl
@[simp] theorem State.onPre_sens (s : State) (k : Nat) (g : Pre → Pre) : (s.onPre k g).sens = s.sens := rfl
@[simp] theorem State.onPre_zones (s : State) (k : Nat) (g : Pre → Pre) : (s.onPre k g).zones = s.zones := rfl
@[simp] theorem State.onPre_therm (s : State) (k : Nat) (g : Pre → Pre) : (s.onPre k g).therm = s.therm := rfl
@[simp] theorem State.onPre_strs (s : State) (k : Nat) (g : Pre → Pre) : (s.onPre k g).strs = s.strs := rfl
@[simp] theorem State.onPre_pack (s : State) (k : Nat) (g : Pre → Pre) : (s.onPre k g).pack = s.pack := rfl
@[simp] theorem State.onPre_hvil (s : State) (k : Nat) (g : Pre → Pre) : (s.onPre k g).hvil = s.hvil := rfl
@[simp] theorem State.onPre_iso (s : State) (k : Nat) (g : Pre → Pre) : (s.onPre k g).iso = s.iso := rfl
@[simp] theorem State.onPre_lid (s : State) (k : Nat) (g : Pre → Pre) : (s.onPre k g).lid = s.lid := rfl
@[simp] theorem State.onPre_safe (s : State) (k : Nat) (g : Pre → Pre) : (s.onPre k g).safe = s.safe := rfl
@[simp] theorem State.onPre_msgs (s : State) (k : Nat) (g : Pre → Pre) : (s.onPre k g).msgs = s.msgs := rfl
@[simp] theorem State.onPre_axles (s : State) (k : Nat) (g : Pre → Pre) : (s.onPre k g).axles = s.axles := rfl
@[simp] theorem State.onPre_cans (s : State) (k : Nat) (g : Pre → Pre) : (s.onPre k g).cans = s.cans := rfl
@[simp] theorem State.onPre_pair (s : State) (k : Nat) (g : Pre → Pre) : (s.onPre k g).pair = s.pair := rfl
@[simp] theorem State.onPre_mram (s : State) (k : Nat) (g : Pre → Pre) : (s.onPre k g).mram = s.mram := rfl
@[simp] theorem State.onPre_repair (s : State) (k : Nat) (g : Pre → Pre) : (s.onPre k g).repair = s.repair := rfl
@[simp] theorem State.onPre_sent (s : State) (k : Nat) (g : Pre → Pre) : (s.onPre k g).sent = s.sent := rfl
@[simp] theorem State.onPre_free (s : State) (k : Nat) (g : Pre → Pre) : (s.onPre k g).free = s.free := rfl
@[simp] theorem State.onPre_pre (s : State) (k : Nat) (g : Pre → Pre) : (s.onPre k g).pre k = g (s.pre k) :=
  Tab.getD_set_same _ _ _ _
theorem State.onPre_pre_other (s : State) {k j : Nat} (g : Pre → Pre) (h : j ≠ k) : (s.onPre k g).pre j = s.pre j :=
  Tab.getD_set_other _ _ _ h
@[simp] theorem State.onPre_ring (s : State) (k : Nat) (g : Pre → Pre) (j : Nat) : (s.onPre k g).ring j = s.ring j := rfl
@[simp] theorem State.onPre_evr (s : State) (k : Nat) (g : Pre → Pre) (j : EvReg) : (s.onPre k g).evr j = s.evr j := rfl
@[simp] theorem State.onPre_irqc (s : State) (k : Nat) (g : Pre → Pre) (j : IrqBlk) : (s.onPre k g).irqc j = s.irqc j := rfl
@[simp] theorem State.onPre_fault (s : State) (k : Nat) (g : Pre → Pre) (j : Nat) : (s.onPre k g).fault j = s.fault j := rfl
@[simp] theorem State.onPre_disc (s : State) (k : Nat) (g : Pre → Pre) (j : Nat) : (s.onPre k g).disc j = s.disc j := rfl
@[simp] theorem State.onPre_ctr (s : State) (k : Nat) (g : Pre → Pre) (j : Nat) : (s.onPre k g).ctr j = s.ctr j := rfl
@[simp] theorem State.onPre_opn (s : State) (k : Nat) (g : Pre → Pre) (j : Nat) : (s.onPre k g).opn j = s.opn j := rfl
@[simp] theorem State.onPre_outc (s : State) (k : Nat) (g : Pre → Pre) (j : Nat) : (s.onPre k g).outc j = s.outc j := rfl
@[simp] theorem State.onPre_lsw (s : State) (k : Nat) (g : Pre → Pre) (j : Nat) : (s.onPre k g).lsw j = s.lsw j := rfl
@[simp] theorem State.onPre_port (s : State) (k : Nat) (g : Pre → Pre) (j : Nat) : (s.onPre k g).port j = s.port j := rfl
@[simp] theorem State.onPre_node (s : State) (k : Nat) (g : Pre → Pre) (j : Nat) : (s.onPre k g).node j = s.node j := rfl
@[simp] theorem State.onPre_req (s : State) (k : Nat) (g : Pre → Pre) (j : Nat) : (s.onPre k g).req j = s.req j := rfl
@[simp] theorem State.onPre_cseq (s : State) (k : Nat) (g : Pre → Pre) (j : Nat) : (s.onPre k g).cseq j = s.cseq j := rfl
@[simp] theorem State.onPre_cell (s : State) (k : Nat) (g : Pre → Pre) (j : Nat) : (s.onPre k g).cell j = s.cell j := rfl
@[simp] theorem State.onPre_est (s : State) (k : Nat) (g : Pre → Pre) (j : Nat) : (s.onPre k g).est j = s.est j := rfl
@[simp] theorem State.onPre_sensor (s : State) (k : Nat) (g : Pre → Pre) (j : Nat) : (s.onPre k g).sensor j = s.sensor j := rfl
@[simp] theorem State.onPre_zone (s : State) (k : Nat) (g : Pre → Pre) (j : Nat) : (s.onPre k g).zone j = s.zone j := rfl
@[simp] theorem State.onPre_str (s : State) (k : Nat) (g : Pre → Pre) (j : Nat) : (s.onPre k g).str j = s.str j := rfl
@[simp] theorem State.onPre_loop (s : State) (k : Nat) (g : Pre → Pre) (j : Nat) : (s.onPre k g).loop j = s.loop j := rfl
@[simp] theorem State.onPre_msg (s : State) (k : Nat) (g : Pre → Pre) (j : Nat) : (s.onPre k g).msg j = s.msg j := rfl
@[simp] theorem State.onPre_axle (s : State) (k : Nat) (g : Pre → Pre) (j : Nat) : (s.onPre k g).axle j = s.axle j := rfl
@[simp] theorem State.onPre_can (s : State) (k : Nat) (g : Pre → Pre) (j : Nat) : (s.onPre k g).can j = s.can j := rfl

/-! ## `onOutc` -/

@[simp] theorem State.onOutc_outs (s : State) (k : Nat) (g : OutCh → OutCh) :
    (s.onOutc k g).outs = s.outs.set k (g (s.outc k)) := rfl
@[simp] theorem State.onOutc_pending (s : State) (k : Nat) (g : OutCh → OutCh) : (s.onOutc k g).pending = s.pending := rfl
@[simp] theorem State.onOutc_time (s : State) (k : Nat) (g : OutCh → OutCh) : (s.onOutc k g).time = s.time := rfl
@[simp] theorem State.onOutc_pwr (s : State) (k : Nat) (g : OutCh → OutCh) : (s.onOutc k g).pwr = s.pwr := rfl
@[simp] theorem State.onOutc_host (s : State) (k : Nat) (g : OutCh → OutCh) : (s.onOutc k g).host = s.host := rfl
@[simp] theorem State.onOutc_rings (s : State) (k : Nat) (g : OutCh → OutCh) : (s.onOutc k g).rings = s.rings := rfl
@[simp] theorem State.onOutc_ev (s : State) (k : Nat) (g : OutCh → OutCh) : (s.onOutc k g).ev = s.ev := rfl
@[simp] theorem State.onOutc_irqCfg (s : State) (k : Nat) (g : OutCh → OutCh) : (s.onOutc k g).irqCfg = s.irqCfg := rfl
@[simp] theorem State.onOutc_fuse (s : State) (k : Nat) (g : OutCh → OutCh) : (s.onOutc k g).fuse = s.fuse := rfl
@[simp] theorem State.onOutc_cfg (s : State) (k : Nat) (g : OutCh → OutCh) : (s.onOutc k g).cfg = s.cfg := rfl
@[simp] theorem State.onOutc_faults (s : State) (k : Nat) (g : OutCh → OutCh) : (s.onOutc k g).faults = s.faults := rfl
@[simp] theorem State.onOutc_wade (s : State) (k : Nat) (g : OutCh → OutCh) : (s.onOutc k g).wade = s.wade := rfl
@[simp] theorem State.onOutc_discs (s : State) (k : Nat) (g : OutCh → OutCh) : (s.onOutc k g).discs = s.discs := rfl
@[simp] theorem State.onOutc_ctrs (s : State) (k : Nat) (g : OutCh → OutCh) : (s.onOutc k g).ctrs = s.ctrs := rfl
@[simp] theorem State.onOutc_opens (s : State) (k : Nat) (g : OutCh → OutCh) : (s.onOutc k g).opens = s.opens := rfl
@[simp] theorem State.onOutc_pres (s : State) (k : Nat) (g : OutCh → OutCh) : (s.onOutc k g).pres = s.pres := rfl
@[simp] theorem State.onOutc_seq (s : State) (k : Nat) (g : OutCh → OutCh) : (s.onOutc k g).seq = s.seq := rfl
@[simp] theorem State.onOutc_lsws (s : State) (k : Nat) (g : OutCh → OutCh) : (s.onOutc k g).lsws = s.lsws := rfl
@[simp] theorem State.onOutc_drv (s : State) (k : Nat) (g : OutCh → OutCh) : (s.onOutc k g).drv = s.drv := rfl
@[simp] theorem State.onOutc_ports (s : State) (k : Nat) (g : OutCh → OutCh) : (s.onOutc k g).ports = s.ports := rfl
@[simp] theorem State.onOutc_nodes (s : State) (k : Nat) (g : OutCh → OutCh) : (s.onOutc k g).nodes = s.nodes := rfl
@[simp] theorem State.onOutc_reqs (s : State) (k : Nat) (g : OutCh → OutCh) : (s.onOutc k g).reqs = s.reqs := rfl
@[simp] theorem State.onOutc_chainSeq (s : State) (k : Nat) (g : OutCh → OutCh) : (s.onOutc k g).chainSeq = s.chainSeq := rfl
@[simp] theorem State.onOutc_cells (s : State) (k : Nat) (g : OutCh → OutCh) : (s.onOutc k g).cells = s.cells := rfl
@[simp] theorem State.onOutc_ests (s : State) (k : Nat) (g : OutCh → OutCh) : (s.onOutc k g).ests = s.ests := rfl
@[simp] theorem State.onOutc_sens (s : State) (k : Nat) (g : OutCh → OutCh) : (s.onOutc k g).sens = s.sens := rfl
@[simp] theorem State.onOutc_zones (s : State) (k : Nat) (g : OutCh → OutCh) : (s.onOutc k g).zones = s.zones := rfl
@[simp] theorem State.onOutc_therm (s : State) (k : Nat) (g : OutCh → OutCh) : (s.onOutc k g).therm = s.therm := rfl
@[simp] theorem State.onOutc_strs (s : State) (k : Nat) (g : OutCh → OutCh) : (s.onOutc k g).strs = s.strs := rfl
@[simp] theorem State.onOutc_pack (s : State) (k : Nat) (g : OutCh → OutCh) : (s.onOutc k g).pack = s.pack := rfl
@[simp] theorem State.onOutc_hvil (s : State) (k : Nat) (g : OutCh → OutCh) : (s.onOutc k g).hvil = s.hvil := rfl
@[simp] theorem State.onOutc_iso (s : State) (k : Nat) (g : OutCh → OutCh) : (s.onOutc k g).iso = s.iso := rfl
@[simp] theorem State.onOutc_lid (s : State) (k : Nat) (g : OutCh → OutCh) : (s.onOutc k g).lid = s.lid := rfl
@[simp] theorem State.onOutc_safe (s : State) (k : Nat) (g : OutCh → OutCh) : (s.onOutc k g).safe = s.safe := rfl
@[simp] theorem State.onOutc_msgs (s : State) (k : Nat) (g : OutCh → OutCh) : (s.onOutc k g).msgs = s.msgs := rfl
@[simp] theorem State.onOutc_axles (s : State) (k : Nat) (g : OutCh → OutCh) : (s.onOutc k g).axles = s.axles := rfl
@[simp] theorem State.onOutc_cans (s : State) (k : Nat) (g : OutCh → OutCh) : (s.onOutc k g).cans = s.cans := rfl
@[simp] theorem State.onOutc_pair (s : State) (k : Nat) (g : OutCh → OutCh) : (s.onOutc k g).pair = s.pair := rfl
@[simp] theorem State.onOutc_mram (s : State) (k : Nat) (g : OutCh → OutCh) : (s.onOutc k g).mram = s.mram := rfl
@[simp] theorem State.onOutc_repair (s : State) (k : Nat) (g : OutCh → OutCh) : (s.onOutc k g).repair = s.repair := rfl
@[simp] theorem State.onOutc_sent (s : State) (k : Nat) (g : OutCh → OutCh) : (s.onOutc k g).sent = s.sent := rfl
@[simp] theorem State.onOutc_free (s : State) (k : Nat) (g : OutCh → OutCh) : (s.onOutc k g).free = s.free := rfl
@[simp] theorem State.onOutc_outc (s : State) (k : Nat) (g : OutCh → OutCh) : (s.onOutc k g).outc k = g (s.outc k) :=
  Tab.getD_set_same _ _ _ _
theorem State.onOutc_outc_other (s : State) {k j : Nat} (g : OutCh → OutCh) (h : j ≠ k) : (s.onOutc k g).outc j = s.outc j :=
  Tab.getD_set_other _ _ _ h
@[simp] theorem State.onOutc_ring (s : State) (k : Nat) (g : OutCh → OutCh) (j : Nat) : (s.onOutc k g).ring j = s.ring j := rfl
@[simp] theorem State.onOutc_evr (s : State) (k : Nat) (g : OutCh → OutCh) (j : EvReg) : (s.onOutc k g).evr j = s.evr j := rfl
@[simp] theorem State.onOutc_irqc (s : State) (k : Nat) (g : OutCh → OutCh) (j : IrqBlk) : (s.onOutc k g).irqc j = s.irqc j := rfl
@[simp] theorem State.onOutc_fault (s : State) (k : Nat) (g : OutCh → OutCh) (j : Nat) : (s.onOutc k g).fault j = s.fault j := rfl
@[simp] theorem State.onOutc_disc (s : State) (k : Nat) (g : OutCh → OutCh) (j : Nat) : (s.onOutc k g).disc j = s.disc j := rfl
@[simp] theorem State.onOutc_ctr (s : State) (k : Nat) (g : OutCh → OutCh) (j : Nat) : (s.onOutc k g).ctr j = s.ctr j := rfl
@[simp] theorem State.onOutc_opn (s : State) (k : Nat) (g : OutCh → OutCh) (j : Nat) : (s.onOutc k g).opn j = s.opn j := rfl
@[simp] theorem State.onOutc_pre (s : State) (k : Nat) (g : OutCh → OutCh) (j : Nat) : (s.onOutc k g).pre j = s.pre j := rfl
@[simp] theorem State.onOutc_lsw (s : State) (k : Nat) (g : OutCh → OutCh) (j : Nat) : (s.onOutc k g).lsw j = s.lsw j := rfl
@[simp] theorem State.onOutc_port (s : State) (k : Nat) (g : OutCh → OutCh) (j : Nat) : (s.onOutc k g).port j = s.port j := rfl
@[simp] theorem State.onOutc_node (s : State) (k : Nat) (g : OutCh → OutCh) (j : Nat) : (s.onOutc k g).node j = s.node j := rfl
@[simp] theorem State.onOutc_req (s : State) (k : Nat) (g : OutCh → OutCh) (j : Nat) : (s.onOutc k g).req j = s.req j := rfl
@[simp] theorem State.onOutc_cseq (s : State) (k : Nat) (g : OutCh → OutCh) (j : Nat) : (s.onOutc k g).cseq j = s.cseq j := rfl
@[simp] theorem State.onOutc_cell (s : State) (k : Nat) (g : OutCh → OutCh) (j : Nat) : (s.onOutc k g).cell j = s.cell j := rfl
@[simp] theorem State.onOutc_est (s : State) (k : Nat) (g : OutCh → OutCh) (j : Nat) : (s.onOutc k g).est j = s.est j := rfl
@[simp] theorem State.onOutc_sensor (s : State) (k : Nat) (g : OutCh → OutCh) (j : Nat) : (s.onOutc k g).sensor j = s.sensor j := rfl
@[simp] theorem State.onOutc_zone (s : State) (k : Nat) (g : OutCh → OutCh) (j : Nat) : (s.onOutc k g).zone j = s.zone j := rfl
@[simp] theorem State.onOutc_str (s : State) (k : Nat) (g : OutCh → OutCh) (j : Nat) : (s.onOutc k g).str j = s.str j := rfl
@[simp] theorem State.onOutc_loop (s : State) (k : Nat) (g : OutCh → OutCh) (j : Nat) : (s.onOutc k g).loop j = s.loop j := rfl
@[simp] theorem State.onOutc_msg (s : State) (k : Nat) (g : OutCh → OutCh) (j : Nat) : (s.onOutc k g).msg j = s.msg j := rfl
@[simp] theorem State.onOutc_axle (s : State) (k : Nat) (g : OutCh → OutCh) (j : Nat) : (s.onOutc k g).axle j = s.axle j := rfl
@[simp] theorem State.onOutc_can (s : State) (k : Nat) (g : OutCh → OutCh) (j : Nat) : (s.onOutc k g).can j = s.can j := rfl

/-! ## `onLsw` -/

@[simp] theorem State.onLsw_lsws (s : State) (k : Nat) (g : Lsw → Lsw) :
    (s.onLsw k g).lsws = s.lsws.set k (g (s.lsw k)) := rfl
@[simp] theorem State.onLsw_pending (s : State) (k : Nat) (g : Lsw → Lsw) : (s.onLsw k g).pending = s.pending := rfl
@[simp] theorem State.onLsw_time (s : State) (k : Nat) (g : Lsw → Lsw) : (s.onLsw k g).time = s.time := rfl
@[simp] theorem State.onLsw_pwr (s : State) (k : Nat) (g : Lsw → Lsw) : (s.onLsw k g).pwr = s.pwr := rfl
@[simp] theorem State.onLsw_host (s : State) (k : Nat) (g : Lsw → Lsw) : (s.onLsw k g).host = s.host := rfl
@[simp] theorem State.onLsw_rings (s : State) (k : Nat) (g : Lsw → Lsw) : (s.onLsw k g).rings = s.rings := rfl
@[simp] theorem State.onLsw_ev (s : State) (k : Nat) (g : Lsw → Lsw) : (s.onLsw k g).ev = s.ev := rfl
@[simp] theorem State.onLsw_irqCfg (s : State) (k : Nat) (g : Lsw → Lsw) : (s.onLsw k g).irqCfg = s.irqCfg := rfl
@[simp] theorem State.onLsw_fuse (s : State) (k : Nat) (g : Lsw → Lsw) : (s.onLsw k g).fuse = s.fuse := rfl
@[simp] theorem State.onLsw_cfg (s : State) (k : Nat) (g : Lsw → Lsw) : (s.onLsw k g).cfg = s.cfg := rfl
@[simp] theorem State.onLsw_faults (s : State) (k : Nat) (g : Lsw → Lsw) : (s.onLsw k g).faults = s.faults := rfl
@[simp] theorem State.onLsw_wade (s : State) (k : Nat) (g : Lsw → Lsw) : (s.onLsw k g).wade = s.wade := rfl
@[simp] theorem State.onLsw_discs (s : State) (k : Nat) (g : Lsw → Lsw) : (s.onLsw k g).discs = s.discs := rfl
@[simp] theorem State.onLsw_ctrs (s : State) (k : Nat) (g : Lsw → Lsw) : (s.onLsw k g).ctrs = s.ctrs := rfl
@[simp] theorem State.onLsw_opens (s : State) (k : Nat) (g : Lsw → Lsw) : (s.onLsw k g).opens = s.opens := rfl
@[simp] theorem State.onLsw_pres (s : State) (k : Nat) (g : Lsw → Lsw) : (s.onLsw k g).pres = s.pres := rfl
@[simp] theorem State.onLsw_seq (s : State) (k : Nat) (g : Lsw → Lsw) : (s.onLsw k g).seq = s.seq := rfl
@[simp] theorem State.onLsw_outs (s : State) (k : Nat) (g : Lsw → Lsw) : (s.onLsw k g).outs = s.outs := rfl
@[simp] theorem State.onLsw_drv (s : State) (k : Nat) (g : Lsw → Lsw) : (s.onLsw k g).drv = s.drv := rfl
@[simp] theorem State.onLsw_ports (s : State) (k : Nat) (g : Lsw → Lsw) : (s.onLsw k g).ports = s.ports := rfl
@[simp] theorem State.onLsw_nodes (s : State) (k : Nat) (g : Lsw → Lsw) : (s.onLsw k g).nodes = s.nodes := rfl
@[simp] theorem State.onLsw_reqs (s : State) (k : Nat) (g : Lsw → Lsw) : (s.onLsw k g).reqs = s.reqs := rfl
@[simp] theorem State.onLsw_chainSeq (s : State) (k : Nat) (g : Lsw → Lsw) : (s.onLsw k g).chainSeq = s.chainSeq := rfl
@[simp] theorem State.onLsw_cells (s : State) (k : Nat) (g : Lsw → Lsw) : (s.onLsw k g).cells = s.cells := rfl
@[simp] theorem State.onLsw_ests (s : State) (k : Nat) (g : Lsw → Lsw) : (s.onLsw k g).ests = s.ests := rfl
@[simp] theorem State.onLsw_sens (s : State) (k : Nat) (g : Lsw → Lsw) : (s.onLsw k g).sens = s.sens := rfl
@[simp] theorem State.onLsw_zones (s : State) (k : Nat) (g : Lsw → Lsw) : (s.onLsw k g).zones = s.zones := rfl
@[simp] theorem State.onLsw_therm (s : State) (k : Nat) (g : Lsw → Lsw) : (s.onLsw k g).therm = s.therm := rfl
@[simp] theorem State.onLsw_strs (s : State) (k : Nat) (g : Lsw → Lsw) : (s.onLsw k g).strs = s.strs := rfl
@[simp] theorem State.onLsw_pack (s : State) (k : Nat) (g : Lsw → Lsw) : (s.onLsw k g).pack = s.pack := rfl
@[simp] theorem State.onLsw_hvil (s : State) (k : Nat) (g : Lsw → Lsw) : (s.onLsw k g).hvil = s.hvil := rfl
@[simp] theorem State.onLsw_iso (s : State) (k : Nat) (g : Lsw → Lsw) : (s.onLsw k g).iso = s.iso := rfl
@[simp] theorem State.onLsw_lid (s : State) (k : Nat) (g : Lsw → Lsw) : (s.onLsw k g).lid = s.lid := rfl
@[simp] theorem State.onLsw_safe (s : State) (k : Nat) (g : Lsw → Lsw) : (s.onLsw k g).safe = s.safe := rfl
@[simp] theorem State.onLsw_msgs (s : State) (k : Nat) (g : Lsw → Lsw) : (s.onLsw k g).msgs = s.msgs := rfl
@[simp] theorem State.onLsw_axles (s : State) (k : Nat) (g : Lsw → Lsw) : (s.onLsw k g).axles = s.axles := rfl
@[simp] theorem State.onLsw_cans (s : State) (k : Nat) (g : Lsw → Lsw) : (s.onLsw k g).cans = s.cans := rfl
@[simp] theorem State.onLsw_pair (s : State) (k : Nat) (g : Lsw → Lsw) : (s.onLsw k g).pair = s.pair := rfl
@[simp] theorem State.onLsw_mram (s : State) (k : Nat) (g : Lsw → Lsw) : (s.onLsw k g).mram = s.mram := rfl
@[simp] theorem State.onLsw_repair (s : State) (k : Nat) (g : Lsw → Lsw) : (s.onLsw k g).repair = s.repair := rfl
@[simp] theorem State.onLsw_sent (s : State) (k : Nat) (g : Lsw → Lsw) : (s.onLsw k g).sent = s.sent := rfl
@[simp] theorem State.onLsw_free (s : State) (k : Nat) (g : Lsw → Lsw) : (s.onLsw k g).free = s.free := rfl
@[simp] theorem State.onLsw_lsw (s : State) (k : Nat) (g : Lsw → Lsw) : (s.onLsw k g).lsw k = g (s.lsw k) :=
  Tab.getD_set_same _ _ _ _
theorem State.onLsw_lsw_other (s : State) {k j : Nat} (g : Lsw → Lsw) (h : j ≠ k) : (s.onLsw k g).lsw j = s.lsw j :=
  Tab.getD_set_other _ _ _ h
@[simp] theorem State.onLsw_ring (s : State) (k : Nat) (g : Lsw → Lsw) (j : Nat) : (s.onLsw k g).ring j = s.ring j := rfl
@[simp] theorem State.onLsw_evr (s : State) (k : Nat) (g : Lsw → Lsw) (j : EvReg) : (s.onLsw k g).evr j = s.evr j := rfl
@[simp] theorem State.onLsw_irqc (s : State) (k : Nat) (g : Lsw → Lsw) (j : IrqBlk) : (s.onLsw k g).irqc j = s.irqc j := rfl
@[simp] theorem State.onLsw_fault (s : State) (k : Nat) (g : Lsw → Lsw) (j : Nat) : (s.onLsw k g).fault j = s.fault j := rfl
@[simp] theorem State.onLsw_disc (s : State) (k : Nat) (g : Lsw → Lsw) (j : Nat) : (s.onLsw k g).disc j = s.disc j := rfl
@[simp] theorem State.onLsw_ctr (s : State) (k : Nat) (g : Lsw → Lsw) (j : Nat) : (s.onLsw k g).ctr j = s.ctr j := rfl
@[simp] theorem State.onLsw_opn (s : State) (k : Nat) (g : Lsw → Lsw) (j : Nat) : (s.onLsw k g).opn j = s.opn j := rfl
@[simp] theorem State.onLsw_pre (s : State) (k : Nat) (g : Lsw → Lsw) (j : Nat) : (s.onLsw k g).pre j = s.pre j := rfl
@[simp] theorem State.onLsw_outc (s : State) (k : Nat) (g : Lsw → Lsw) (j : Nat) : (s.onLsw k g).outc j = s.outc j := rfl
@[simp] theorem State.onLsw_port (s : State) (k : Nat) (g : Lsw → Lsw) (j : Nat) : (s.onLsw k g).port j = s.port j := rfl
@[simp] theorem State.onLsw_node (s : State) (k : Nat) (g : Lsw → Lsw) (j : Nat) : (s.onLsw k g).node j = s.node j := rfl
@[simp] theorem State.onLsw_req (s : State) (k : Nat) (g : Lsw → Lsw) (j : Nat) : (s.onLsw k g).req j = s.req j := rfl
@[simp] theorem State.onLsw_cseq (s : State) (k : Nat) (g : Lsw → Lsw) (j : Nat) : (s.onLsw k g).cseq j = s.cseq j := rfl
@[simp] theorem State.onLsw_cell (s : State) (k : Nat) (g : Lsw → Lsw) (j : Nat) : (s.onLsw k g).cell j = s.cell j := rfl
@[simp] theorem State.onLsw_est (s : State) (k : Nat) (g : Lsw → Lsw) (j : Nat) : (s.onLsw k g).est j = s.est j := rfl
@[simp] theorem State.onLsw_sensor (s : State) (k : Nat) (g : Lsw → Lsw) (j : Nat) : (s.onLsw k g).sensor j = s.sensor j := rfl
@[simp] theorem State.onLsw_zone (s : State) (k : Nat) (g : Lsw → Lsw) (j : Nat) : (s.onLsw k g).zone j = s.zone j := rfl
@[simp] theorem State.onLsw_str (s : State) (k : Nat) (g : Lsw → Lsw) (j : Nat) : (s.onLsw k g).str j = s.str j := rfl
@[simp] theorem State.onLsw_loop (s : State) (k : Nat) (g : Lsw → Lsw) (j : Nat) : (s.onLsw k g).loop j = s.loop j := rfl
@[simp] theorem State.onLsw_msg (s : State) (k : Nat) (g : Lsw → Lsw) (j : Nat) : (s.onLsw k g).msg j = s.msg j := rfl
@[simp] theorem State.onLsw_axle (s : State) (k : Nat) (g : Lsw → Lsw) (j : Nat) : (s.onLsw k g).axle j = s.axle j := rfl
@[simp] theorem State.onLsw_can (s : State) (k : Nat) (g : Lsw → Lsw) (j : Nat) : (s.onLsw k g).can j = s.can j := rfl

/-! ## `onPort` -/

@[simp] theorem State.onPort_ports (s : State) (k : Nat) (g : Port → Port) :
    (s.onPort k g).ports = s.ports.set k (g (s.port k)) := rfl
@[simp] theorem State.onPort_pending (s : State) (k : Nat) (g : Port → Port) : (s.onPort k g).pending = s.pending := rfl
@[simp] theorem State.onPort_time (s : State) (k : Nat) (g : Port → Port) : (s.onPort k g).time = s.time := rfl
@[simp] theorem State.onPort_pwr (s : State) (k : Nat) (g : Port → Port) : (s.onPort k g).pwr = s.pwr := rfl
@[simp] theorem State.onPort_host (s : State) (k : Nat) (g : Port → Port) : (s.onPort k g).host = s.host := rfl
@[simp] theorem State.onPort_rings (s : State) (k : Nat) (g : Port → Port) : (s.onPort k g).rings = s.rings := rfl
@[simp] theorem State.onPort_ev (s : State) (k : Nat) (g : Port → Port) : (s.onPort k g).ev = s.ev := rfl
@[simp] theorem State.onPort_irqCfg (s : State) (k : Nat) (g : Port → Port) : (s.onPort k g).irqCfg = s.irqCfg := rfl
@[simp] theorem State.onPort_fuse (s : State) (k : Nat) (g : Port → Port) : (s.onPort k g).fuse = s.fuse := rfl
@[simp] theorem State.onPort_cfg (s : State) (k : Nat) (g : Port → Port) : (s.onPort k g).cfg = s.cfg := rfl
@[simp] theorem State.onPort_faults (s : State) (k : Nat) (g : Port → Port) : (s.onPort k g).faults = s.faults := rfl
@[simp] theorem State.onPort_wade (s : State) (k : Nat) (g : Port → Port) : (s.onPort k g).wade = s.wade := rfl
@[simp] theorem State.onPort_discs (s : State) (k : Nat) (g : Port → Port) : (s.onPort k g).discs = s.discs := rfl
@[simp] theorem State.onPort_ctrs (s : State) (k : Nat) (g : Port → Port) : (s.onPort k g).ctrs = s.ctrs := rfl
@[simp] theorem State.onPort_opens (s : State) (k : Nat) (g : Port → Port) : (s.onPort k g).opens = s.opens := rfl
@[simp] theorem State.onPort_pres (s : State) (k : Nat) (g : Port → Port) : (s.onPort k g).pres = s.pres := rfl
@[simp] theorem State.onPort_seq (s : State) (k : Nat) (g : Port → Port) : (s.onPort k g).seq = s.seq := rfl
@[simp] theorem State.onPort_outs (s : State) (k : Nat) (g : Port → Port) : (s.onPort k g).outs = s.outs := rfl
@[simp] theorem State.onPort_lsws (s : State) (k : Nat) (g : Port → Port) : (s.onPort k g).lsws = s.lsws := rfl
@[simp] theorem State.onPort_drv (s : State) (k : Nat) (g : Port → Port) : (s.onPort k g).drv = s.drv := rfl
@[simp] theorem State.onPort_nodes (s : State) (k : Nat) (g : Port → Port) : (s.onPort k g).nodes = s.nodes := rfl
@[simp] theorem State.onPort_reqs (s : State) (k : Nat) (g : Port → Port) : (s.onPort k g).reqs = s.reqs := rfl
@[simp] theorem State.onPort_chainSeq (s : State) (k : Nat) (g : Port → Port) : (s.onPort k g).chainSeq = s.chainSeq := rfl
@[simp] theorem State.onPort_cells (s : State) (k : Nat) (g : Port → Port) : (s.onPort k g).cells = s.cells := rfl
@[simp] theorem State.onPort_ests (s : State) (k : Nat) (g : Port → Port) : (s.onPort k g).ests = s.ests := rfl
@[simp] theorem State.onPort_sens (s : State) (k : Nat) (g : Port → Port) : (s.onPort k g).sens = s.sens := rfl
@[simp] theorem State.onPort_zones (s : State) (k : Nat) (g : Port → Port) : (s.onPort k g).zones = s.zones := rfl
@[simp] theorem State.onPort_therm (s : State) (k : Nat) (g : Port → Port) : (s.onPort k g).therm = s.therm := rfl
@[simp] theorem State.onPort_strs (s : State) (k : Nat) (g : Port → Port) : (s.onPort k g).strs = s.strs := rfl
@[simp] theorem State.onPort_pack (s : State) (k : Nat) (g : Port → Port) : (s.onPort k g).pack = s.pack := rfl
@[simp] theorem State.onPort_hvil (s : State) (k : Nat) (g : Port → Port) : (s.onPort k g).hvil = s.hvil := rfl
@[simp] theorem State.onPort_iso (s : State) (k : Nat) (g : Port → Port) : (s.onPort k g).iso = s.iso := rfl
@[simp] theorem State.onPort_lid (s : State) (k : Nat) (g : Port → Port) : (s.onPort k g).lid = s.lid := rfl
@[simp] theorem State.onPort_safe (s : State) (k : Nat) (g : Port → Port) : (s.onPort k g).safe = s.safe := rfl
@[simp] theorem State.onPort_msgs (s : State) (k : Nat) (g : Port → Port) : (s.onPort k g).msgs = s.msgs := rfl
@[simp] theorem State.onPort_axles (s : State) (k : Nat) (g : Port → Port) : (s.onPort k g).axles = s.axles := rfl
@[simp] theorem State.onPort_cans (s : State) (k : Nat) (g : Port → Port) : (s.onPort k g).cans = s.cans := rfl
@[simp] theorem State.onPort_pair (s : State) (k : Nat) (g : Port → Port) : (s.onPort k g).pair = s.pair := rfl
@[simp] theorem State.onPort_mram (s : State) (k : Nat) (g : Port → Port) : (s.onPort k g).mram = s.mram := rfl
@[simp] theorem State.onPort_repair (s : State) (k : Nat) (g : Port → Port) : (s.onPort k g).repair = s.repair := rfl
@[simp] theorem State.onPort_sent (s : State) (k : Nat) (g : Port → Port) : (s.onPort k g).sent = s.sent := rfl
@[simp] theorem State.onPort_free (s : State) (k : Nat) (g : Port → Port) : (s.onPort k g).free = s.free := rfl
@[simp] theorem State.onPort_port (s : State) (k : Nat) (g : Port → Port) : (s.onPort k g).port k = g (s.port k) :=
  Tab.getD_set_same _ _ _ _
theorem State.onPort_port_other (s : State) {k j : Nat} (g : Port → Port) (h : j ≠ k) : (s.onPort k g).port j = s.port j :=
  Tab.getD_set_other _ _ _ h
@[simp] theorem State.onPort_ring (s : State) (k : Nat) (g : Port → Port) (j : Nat) : (s.onPort k g).ring j = s.ring j := rfl
@[simp] theorem State.onPort_evr (s : State) (k : Nat) (g : Port → Port) (j : EvReg) : (s.onPort k g).evr j = s.evr j := rfl
@[simp] theorem State.onPort_irqc (s : State) (k : Nat) (g : Port → Port) (j : IrqBlk) : (s.onPort k g).irqc j = s.irqc j := rfl
@[simp] theorem State.onPort_fault (s : State) (k : Nat) (g : Port → Port) (j : Nat) : (s.onPort k g).fault j = s.fault j := rfl
@[simp] theorem State.onPort_disc (s : State) (k : Nat) (g : Port → Port) (j : Nat) : (s.onPort k g).disc j = s.disc j := rfl
@[simp] theorem State.onPort_ctr (s : State) (k : Nat) (g : Port → Port) (j : Nat) : (s.onPort k g).ctr j = s.ctr j := rfl
@[simp] theorem State.onPort_opn (s : State) (k : Nat) (g : Port → Port) (j : Nat) : (s.onPort k g).opn j = s.opn j := rfl
@[simp] theorem State.onPort_pre (s : State) (k : Nat) (g : Port → Port) (j : Nat) : (s.onPort k g).pre j = s.pre j := rfl
@[simp] theorem State.onPort_outc (s : State) (k : Nat) (g : Port → Port) (j : Nat) : (s.onPort k g).outc j = s.outc j := rfl
@[simp] theorem State.onPort_lsw (s : State) (k : Nat) (g : Port → Port) (j : Nat) : (s.onPort k g).lsw j = s.lsw j := rfl
@[simp] theorem State.onPort_node (s : State) (k : Nat) (g : Port → Port) (j : Nat) : (s.onPort k g).node j = s.node j := rfl
@[simp] theorem State.onPort_req (s : State) (k : Nat) (g : Port → Port) (j : Nat) : (s.onPort k g).req j = s.req j := rfl
@[simp] theorem State.onPort_cseq (s : State) (k : Nat) (g : Port → Port) (j : Nat) : (s.onPort k g).cseq j = s.cseq j := rfl
@[simp] theorem State.onPort_cell (s : State) (k : Nat) (g : Port → Port) (j : Nat) : (s.onPort k g).cell j = s.cell j := rfl
@[simp] theorem State.onPort_est (s : State) (k : Nat) (g : Port → Port) (j : Nat) : (s.onPort k g).est j = s.est j := rfl
@[simp] theorem State.onPort_sensor (s : State) (k : Nat) (g : Port → Port) (j : Nat) : (s.onPort k g).sensor j = s.sensor j := rfl
@[simp] theorem State.onPort_zone (s : State) (k : Nat) (g : Port → Port) (j : Nat) : (s.onPort k g).zone j = s.zone j := rfl
@[simp] theorem State.onPort_str (s : State) (k : Nat) (g : Port → Port) (j : Nat) : (s.onPort k g).str j = s.str j := rfl
@[simp] theorem State.onPort_loop (s : State) (k : Nat) (g : Port → Port) (j : Nat) : (s.onPort k g).loop j = s.loop j := rfl
@[simp] theorem State.onPort_msg (s : State) (k : Nat) (g : Port → Port) (j : Nat) : (s.onPort k g).msg j = s.msg j := rfl
@[simp] theorem State.onPort_axle (s : State) (k : Nat) (g : Port → Port) (j : Nat) : (s.onPort k g).axle j = s.axle j := rfl
@[simp] theorem State.onPort_can (s : State) (k : Nat) (g : Port → Port) (j : Nat) : (s.onPort k g).can j = s.can j := rfl

/-! ## `onNode` -/

@[simp] theorem State.onNode_nodes (s : State) (k : Nat) (g : Node → Node) :
    (s.onNode k g).nodes = s.nodes.set k (g (s.node k)) := rfl
@[simp] theorem State.onNode_pending (s : State) (k : Nat) (g : Node → Node) : (s.onNode k g).pending = s.pending := rfl
@[simp] theorem State.onNode_time (s : State) (k : Nat) (g : Node → Node) : (s.onNode k g).time = s.time := rfl
@[simp] theorem State.onNode_pwr (s : State) (k : Nat) (g : Node → Node) : (s.onNode k g).pwr = s.pwr := rfl
@[simp] theorem State.onNode_host (s : State) (k : Nat) (g : Node → Node) : (s.onNode k g).host = s.host := rfl
@[simp] theorem State.onNode_rings (s : State) (k : Nat) (g : Node → Node) : (s.onNode k g).rings = s.rings := rfl
@[simp] theorem State.onNode_ev (s : State) (k : Nat) (g : Node → Node) : (s.onNode k g).ev = s.ev := rfl
@[simp] theorem State.onNode_irqCfg (s : State) (k : Nat) (g : Node → Node) : (s.onNode k g).irqCfg = s.irqCfg := rfl
@[simp] theorem State.onNode_fuse (s : State) (k : Nat) (g : Node → Node) : (s.onNode k g).fuse = s.fuse := rfl
@[simp] theorem State.onNode_cfg (s : State) (k : Nat) (g : Node → Node) : (s.onNode k g).cfg = s.cfg := rfl
@[simp] theorem State.onNode_faults (s : State) (k : Nat) (g : Node → Node) : (s.onNode k g).faults = s.faults := rfl
@[simp] theorem State.onNode_wade (s : State) (k : Nat) (g : Node → Node) : (s.onNode k g).wade = s.wade := rfl
@[simp] theorem State.onNode_discs (s : State) (k : Nat) (g : Node → Node) : (s.onNode k g).discs = s.discs := rfl
@[simp] theorem State.onNode_ctrs (s : State) (k : Nat) (g : Node → Node) : (s.onNode k g).ctrs = s.ctrs := rfl
@[simp] theorem State.onNode_opens (s : State) (k : Nat) (g : Node → Node) : (s.onNode k g).opens = s.opens := rfl
@[simp] theorem State.onNode_pres (s : State) (k : Nat) (g : Node → Node) : (s.onNode k g).pres = s.pres := rfl
@[simp] theorem State.onNode_seq (s : State) (k : Nat) (g : Node → Node) : (s.onNode k g).seq = s.seq := rfl
@[simp] theorem State.onNode_outs (s : State) (k : Nat) (g : Node → Node) : (s.onNode k g).outs = s.outs := rfl
@[simp] theorem State.onNode_lsws (s : State) (k : Nat) (g : Node → Node) : (s.onNode k g).lsws = s.lsws := rfl
@[simp] theorem State.onNode_drv (s : State) (k : Nat) (g : Node → Node) : (s.onNode k g).drv = s.drv := rfl
@[simp] theorem State.onNode_ports (s : State) (k : Nat) (g : Node → Node) : (s.onNode k g).ports = s.ports := rfl
@[simp] theorem State.onNode_reqs (s : State) (k : Nat) (g : Node → Node) : (s.onNode k g).reqs = s.reqs := rfl
@[simp] theorem State.onNode_chainSeq (s : State) (k : Nat) (g : Node → Node) : (s.onNode k g).chainSeq = s.chainSeq := rfl
@[simp] theorem State.onNode_cells (s : State) (k : Nat) (g : Node → Node) : (s.onNode k g).cells = s.cells := rfl
@[simp] theorem State.onNode_ests (s : State) (k : Nat) (g : Node → Node) : (s.onNode k g).ests = s.ests := rfl
@[simp] theorem State.onNode_sens (s : State) (k : Nat) (g : Node → Node) : (s.onNode k g).sens = s.sens := rfl
@[simp] theorem State.onNode_zones (s : State) (k : Nat) (g : Node → Node) : (s.onNode k g).zones = s.zones := rfl
@[simp] theorem State.onNode_therm (s : State) (k : Nat) (g : Node → Node) : (s.onNode k g).therm = s.therm := rfl
@[simp] theorem State.onNode_strs (s : State) (k : Nat) (g : Node → Node) : (s.onNode k g).strs = s.strs := rfl
@[simp] theorem State.onNode_pack (s : State) (k : Nat) (g : Node → Node) : (s.onNode k g).pack = s.pack := rfl
@[simp] theorem State.onNode_hvil (s : State) (k : Nat) (g : Node → Node) : (s.onNode k g).hvil = s.hvil := rfl
@[simp] theorem State.onNode_iso (s : State) (k : Nat) (g : Node → Node) : (s.onNode k g).iso = s.iso := rfl
@[simp] theorem State.onNode_lid (s : State) (k : Nat) (g : Node → Node) : (s.onNode k g).lid = s.lid := rfl
@[simp] theorem State.onNode_safe (s : State) (k : Nat) (g : Node → Node) : (s.onNode k g).safe = s.safe := rfl
@[simp] theorem State.onNode_msgs (s : State) (k : Nat) (g : Node → Node) : (s.onNode k g).msgs = s.msgs := rfl
@[simp] theorem State.onNode_axles (s : State) (k : Nat) (g : Node → Node) : (s.onNode k g).axles = s.axles := rfl
@[simp] theorem State.onNode_cans (s : State) (k : Nat) (g : Node → Node) : (s.onNode k g).cans = s.cans := rfl
@[simp] theorem State.onNode_pair (s : State) (k : Nat) (g : Node → Node) : (s.onNode k g).pair = s.pair := rfl
@[simp] theorem State.onNode_mram (s : State) (k : Nat) (g : Node → Node) : (s.onNode k g).mram = s.mram := rfl
@[simp] theorem State.onNode_repair (s : State) (k : Nat) (g : Node → Node) : (s.onNode k g).repair = s.repair := rfl
@[simp] theorem State.onNode_sent (s : State) (k : Nat) (g : Node → Node) : (s.onNode k g).sent = s.sent := rfl
@[simp] theorem State.onNode_free (s : State) (k : Nat) (g : Node → Node) : (s.onNode k g).free = s.free := rfl
@[simp] theorem State.onNode_node (s : State) (k : Nat) (g : Node → Node) : (s.onNode k g).node k = g (s.node k) :=
  Tab.getD_set_same _ _ _ _
theorem State.onNode_node_other (s : State) {k j : Nat} (g : Node → Node) (h : j ≠ k) : (s.onNode k g).node j = s.node j :=
  Tab.getD_set_other _ _ _ h
@[simp] theorem State.onNode_ring (s : State) (k : Nat) (g : Node → Node) (j : Nat) : (s.onNode k g).ring j = s.ring j := rfl
@[simp] theorem State.onNode_evr (s : State) (k : Nat) (g : Node → Node) (j : EvReg) : (s.onNode k g).evr j = s.evr j := rfl
@[simp] theorem State.onNode_irqc (s : State) (k : Nat) (g : Node → Node) (j : IrqBlk) : (s.onNode k g).irqc j = s.irqc j := rfl
@[simp] theorem State.onNode_fault (s : State) (k : Nat) (g : Node → Node) (j : Nat) : (s.onNode k g).fault j = s.fault j := rfl
@[simp] theorem State.onNode_disc (s : State) (k : Nat) (g : Node → Node) (j : Nat) : (s.onNode k g).disc j = s.disc j := rfl
@[simp] theorem State.onNode_ctr (s : State) (k : Nat) (g : Node → Node) (j : Nat) : (s.onNode k g).ctr j = s.ctr j := rfl
@[simp] theorem State.onNode_opn (s : State) (k : Nat) (g : Node → Node) (j : Nat) : (s.onNode k g).opn j = s.opn j := rfl
@[simp] theorem State.onNode_pre (s : State) (k : Nat) (g : Node → Node) (j : Nat) : (s.onNode k g).pre j = s.pre j := rfl
@[simp] theorem State.onNode_outc (s : State) (k : Nat) (g : Node → Node) (j : Nat) : (s.onNode k g).outc j = s.outc j := rfl
@[simp] theorem State.onNode_lsw (s : State) (k : Nat) (g : Node → Node) (j : Nat) : (s.onNode k g).lsw j = s.lsw j := rfl
@[simp] theorem State.onNode_port (s : State) (k : Nat) (g : Node → Node) (j : Nat) : (s.onNode k g).port j = s.port j := rfl
@[simp] theorem State.onNode_req (s : State) (k : Nat) (g : Node → Node) (j : Nat) : (s.onNode k g).req j = s.req j := rfl
@[simp] theorem State.onNode_cseq (s : State) (k : Nat) (g : Node → Node) (j : Nat) : (s.onNode k g).cseq j = s.cseq j := rfl
@[simp] theorem State.onNode_cell (s : State) (k : Nat) (g : Node → Node) (j : Nat) : (s.onNode k g).cell j = s.cell j := rfl
@[simp] theorem State.onNode_est (s : State) (k : Nat) (g : Node → Node) (j : Nat) : (s.onNode k g).est j = s.est j := rfl
@[simp] theorem State.onNode_sensor (s : State) (k : Nat) (g : Node → Node) (j : Nat) : (s.onNode k g).sensor j = s.sensor j := rfl
@[simp] theorem State.onNode_zone (s : State) (k : Nat) (g : Node → Node) (j : Nat) : (s.onNode k g).zone j = s.zone j := rfl
@[simp] theorem State.onNode_str (s : State) (k : Nat) (g : Node → Node) (j : Nat) : (s.onNode k g).str j = s.str j := rfl
@[simp] theorem State.onNode_loop (s : State) (k : Nat) (g : Node → Node) (j : Nat) : (s.onNode k g).loop j = s.loop j := rfl
@[simp] theorem State.onNode_msg (s : State) (k : Nat) (g : Node → Node) (j : Nat) : (s.onNode k g).msg j = s.msg j := rfl
@[simp] theorem State.onNode_axle (s : State) (k : Nat) (g : Node → Node) (j : Nat) : (s.onNode k g).axle j = s.axle j := rfl
@[simp] theorem State.onNode_can (s : State) (k : Nat) (g : Node → Node) (j : Nat) : (s.onNode k g).can j = s.can j := rfl

/-! ## `onReq` -/

@[simp] theorem State.onReq_reqs (s : State) (k : Nat) (g : List ChainReq → List ChainReq) :
    (s.onReq k g).reqs = s.reqs.set k (g (s.req k)) := rfl
@[simp] theorem State.onReq_pending (s : State) (k : Nat) (g : List ChainReq → List ChainReq) : (s.onReq k g).pending = s.pending := rfl
@[simp] theorem State.onReq_time (s : State) (k : Nat) (g : List ChainReq → List ChainReq) : (s.onReq k g).time = s.time := rfl
@[simp] theorem State.onReq_pwr (s : State) (k : Nat) (g : List ChainReq → List ChainReq) : (s.onReq k g).pwr = s.pwr := rfl
@[simp] theorem State.onReq_host (s : State) (k : Nat) (g : List ChainReq → List ChainReq) : (s.onReq k g).host = s.host := rfl
@[simp] theorem State.onReq_rings (s : State) (k : Nat) (g : List ChainReq → List ChainReq) : (s.onReq k g).rings = s.rings := rfl
@[simp] theorem State.onReq_ev (s : State) (k : Nat) (g : List ChainReq → List ChainReq) : (s.onReq k g).ev = s.ev := rfl
@[simp] theorem State.onReq_irqCfg (s : State) (k : Nat) (g : List ChainReq → List ChainReq) : (s.onReq k g).irqCfg = s.irqCfg := rfl
@[simp] theorem State.onReq_fuse (s : State) (k : Nat) (g : List ChainReq → List ChainReq) : (s.onReq k g).fuse = s.fuse := rfl
@[simp] theorem State.onReq_cfg (s : State) (k : Nat) (g : List ChainReq → List ChainReq) : (s.onReq k g).cfg = s.cfg := rfl
@[simp] theorem State.onReq_faults (s : State) (k : Nat) (g : List ChainReq → List ChainReq) : (s.onReq k g).faults = s.faults := rfl
@[simp] theorem State.onReq_wade (s : State) (k : Nat) (g : List ChainReq → List ChainReq) : (s.onReq k g).wade = s.wade := rfl
@[simp] theorem State.onReq_discs (s : State) (k : Nat) (g : List ChainReq → List ChainReq) : (s.onReq k g).discs = s.discs := rfl
@[simp] theorem State.onReq_ctrs (s : State) (k : Nat) (g : List ChainReq → List ChainReq) : (s.onReq k g).ctrs = s.ctrs := rfl
@[simp] theorem State.onReq_opens (s : State) (k : Nat) (g : List ChainReq → List ChainReq) : (s.onReq k g).opens = s.opens := rfl
@[simp] theorem State.onReq_pres (s : State) (k : Nat) (g : List ChainReq → List ChainReq) : (s.onReq k g).pres = s.pres := rfl
@[simp] theorem State.onReq_seq (s : State) (k : Nat) (g : List ChainReq → List ChainReq) : (s.onReq k g).seq = s.seq := rfl
@[simp] theorem State.onReq_outs (s : State) (k : Nat) (g : List ChainReq → List ChainReq) : (s.onReq k g).outs = s.outs := rfl
@[simp] theorem State.onReq_lsws (s : State) (k : Nat) (g : List ChainReq → List ChainReq) : (s.onReq k g).lsws = s.lsws := rfl
@[simp] theorem State.onReq_drv (s : State) (k : Nat) (g : List ChainReq → List ChainReq) : (s.onReq k g).drv = s.drv := rfl
@[simp] theorem State.onReq_ports (s : State) (k : Nat) (g : List ChainReq → List ChainReq) : (s.onReq k g).ports = s.ports := rfl
@[simp] theorem State.onReq_nodes (s : State) (k : Nat) (g : List ChainReq → List ChainReq) : (s.onReq k g).nodes = s.nodes := rfl
@[simp] theorem State.onReq_chainSeq (s : State) (k : Nat) (g : List ChainReq → List ChainReq) : (s.onReq k g).chainSeq = s.chainSeq := rfl
@[simp] theorem State.onReq_cells (s : State) (k : Nat) (g : List ChainReq → List ChainReq) : (s.onReq k g).cells = s.cells := rfl
@[simp] theorem State.onReq_ests (s : State) (k : Nat) (g : List ChainReq → List ChainReq) : (s.onReq k g).ests = s.ests := rfl
@[simp] theorem State.onReq_sens (s : State) (k : Nat) (g : List ChainReq → List ChainReq) : (s.onReq k g).sens = s.sens := rfl
@[simp] theorem State.onReq_zones (s : State) (k : Nat) (g : List ChainReq → List ChainReq) : (s.onReq k g).zones = s.zones := rfl
@[simp] theorem State.onReq_therm (s : State) (k : Nat) (g : List ChainReq → List ChainReq) : (s.onReq k g).therm = s.therm := rfl
@[simp] theorem State.onReq_strs (s : State) (k : Nat) (g : List ChainReq → List ChainReq) : (s.onReq k g).strs = s.strs := rfl
@[simp] theorem State.onReq_pack (s : State) (k : Nat) (g : List ChainReq → List ChainReq) : (s.onReq k g).pack = s.pack := rfl
@[simp] theorem State.onReq_hvil (s : State) (k : Nat) (g : List ChainReq → List ChainReq) : (s.onReq k g).hvil = s.hvil := rfl
@[simp] theorem State.onReq_iso (s : State) (k : Nat) (g : List ChainReq → List ChainReq) : (s.onReq k g).iso = s.iso := rfl
@[simp] theorem State.onReq_lid (s : State) (k : Nat) (g : List ChainReq → List ChainReq) : (s.onReq k g).lid = s.lid := rfl
@[simp] theorem State.onReq_safe (s : State) (k : Nat) (g : List ChainReq → List ChainReq) : (s.onReq k g).safe = s.safe := rfl
@[simp] theorem State.onReq_msgs (s : State) (k : Nat) (g : List ChainReq → List ChainReq) : (s.onReq k g).msgs = s.msgs := rfl
@[simp] theorem State.onReq_axles (s : State) (k : Nat) (g : List ChainReq → List ChainReq) : (s.onReq k g).axles = s.axles := rfl
@[simp] theorem State.onReq_cans (s : State) (k : Nat) (g : List ChainReq → List ChainReq) : (s.onReq k g).cans = s.cans := rfl
@[simp] theorem State.onReq_pair (s : State) (k : Nat) (g : List ChainReq → List ChainReq) : (s.onReq k g).pair = s.pair := rfl
@[simp] theorem State.onReq_mram (s : State) (k : Nat) (g : List ChainReq → List ChainReq) : (s.onReq k g).mram = s.mram := rfl
@[simp] theorem State.onReq_repair (s : State) (k : Nat) (g : List ChainReq → List ChainReq) : (s.onReq k g).repair = s.repair := rfl
@[simp] theorem State.onReq_sent (s : State) (k : Nat) (g : List ChainReq → List ChainReq) : (s.onReq k g).sent = s.sent := rfl
@[simp] theorem State.onReq_free (s : State) (k : Nat) (g : List ChainReq → List ChainReq) : (s.onReq k g).free = s.free := rfl
@[simp] theorem State.onReq_req (s : State) (k : Nat) (g : List ChainReq → List ChainReq) : (s.onReq k g).req k = g (s.req k) :=
  Tab.getD_set_same _ _ _ _
theorem State.onReq_req_other (s : State) {k j : Nat} (g : List ChainReq → List ChainReq) (h : j ≠ k) : (s.onReq k g).req j = s.req j :=
  Tab.getD_set_other _ _ _ h
@[simp] theorem State.onReq_ring (s : State) (k : Nat) (g : List ChainReq → List ChainReq) (j : Nat) : (s.onReq k g).ring j = s.ring j := rfl
@[simp] theorem State.onReq_evr (s : State) (k : Nat) (g : List ChainReq → List ChainReq) (j : EvReg) : (s.onReq k g).evr j = s.evr j := rfl
@[simp] theorem State.onReq_irqc (s : State) (k : Nat) (g : List ChainReq → List ChainReq) (j : IrqBlk) : (s.onReq k g).irqc j = s.irqc j := rfl
@[simp] theorem State.onReq_fault (s : State) (k : Nat) (g : List ChainReq → List ChainReq) (j : Nat) : (s.onReq k g).fault j = s.fault j := rfl
@[simp] theorem State.onReq_disc (s : State) (k : Nat) (g : List ChainReq → List ChainReq) (j : Nat) : (s.onReq k g).disc j = s.disc j := rfl
@[simp] theorem State.onReq_ctr (s : State) (k : Nat) (g : List ChainReq → List ChainReq) (j : Nat) : (s.onReq k g).ctr j = s.ctr j := rfl
@[simp] theorem State.onReq_opn (s : State) (k : Nat) (g : List ChainReq → List ChainReq) (j : Nat) : (s.onReq k g).opn j = s.opn j := rfl
@[simp] theorem State.onReq_pre (s : State) (k : Nat) (g : List ChainReq → List ChainReq) (j : Nat) : (s.onReq k g).pre j = s.pre j := rfl
@[simp] theorem State.onReq_outc (s : State) (k : Nat) (g : List ChainReq → List ChainReq) (j : Nat) : (s.onReq k g).outc j = s.outc j := rfl
@[simp] theorem State.onReq_lsw (s : State) (k : Nat) (g : List ChainReq → List ChainReq) (j : Nat) : (s.onReq k g).lsw j = s.lsw j := rfl
@[simp] theorem State.onReq_port (s : State) (k : Nat) (g : List ChainReq → List ChainReq) (j : Nat) : (s.onReq k g).port j = s.port j := rfl
@[simp] theorem State.onReq_node (s : State) (k : Nat) (g : List ChainReq → List ChainReq) (j : Nat) : (s.onReq k g).node j = s.node j := rfl
@[simp] theorem State.onReq_cseq (s : State) (k : Nat) (g : List ChainReq → List ChainReq) (j : Nat) : (s.onReq k g).cseq j = s.cseq j := rfl
@[simp] theorem State.onReq_cell (s : State) (k : Nat) (g : List ChainReq → List ChainReq) (j : Nat) : (s.onReq k g).cell j = s.cell j := rfl
@[simp] theorem State.onReq_est (s : State) (k : Nat) (g : List ChainReq → List ChainReq) (j : Nat) : (s.onReq k g).est j = s.est j := rfl
@[simp] theorem State.onReq_sensor (s : State) (k : Nat) (g : List ChainReq → List ChainReq) (j : Nat) : (s.onReq k g).sensor j = s.sensor j := rfl
@[simp] theorem State.onReq_zone (s : State) (k : Nat) (g : List ChainReq → List ChainReq) (j : Nat) : (s.onReq k g).zone j = s.zone j := rfl
@[simp] theorem State.onReq_str (s : State) (k : Nat) (g : List ChainReq → List ChainReq) (j : Nat) : (s.onReq k g).str j = s.str j := rfl
@[simp] theorem State.onReq_loop (s : State) (k : Nat) (g : List ChainReq → List ChainReq) (j : Nat) : (s.onReq k g).loop j = s.loop j := rfl
@[simp] theorem State.onReq_msg (s : State) (k : Nat) (g : List ChainReq → List ChainReq) (j : Nat) : (s.onReq k g).msg j = s.msg j := rfl
@[simp] theorem State.onReq_axle (s : State) (k : Nat) (g : List ChainReq → List ChainReq) (j : Nat) : (s.onReq k g).axle j = s.axle j := rfl
@[simp] theorem State.onReq_can (s : State) (k : Nat) (g : List ChainReq → List ChainReq) (j : Nat) : (s.onReq k g).can j = s.can j := rfl

/-! ## `onCseq` -/

@[simp] theorem State.onCseq_chainSeq (s : State) (k : Nat) (g : Nat → Nat) :
    (s.onCseq k g).chainSeq = s.chainSeq.set k (g (s.cseq k)) := rfl
@[simp] theorem State.onCseq_pending (s : State) (k : Nat) (g : Nat → Nat) : (s.onCseq k g).pending = s.pending := rfl
@[simp] theorem State.onCseq_time (s : State) (k : Nat) (g : Nat → Nat) : (s.onCseq k g).time = s.time := rfl
@[simp] theorem State.onCseq_pwr (s : State) (k : Nat) (g : Nat → Nat) : (s.onCseq k g).pwr = s.pwr := rfl
@[simp] theorem State.onCseq_host (s : State) (k : Nat) (g : Nat → Nat) : (s.onCseq k g).host = s.host := rfl
@[simp] theorem State.onCseq_rings (s : State) (k : Nat) (g : Nat → Nat) : (s.onCseq k g).rings = s.rings := rfl
@[simp] theorem State.onCseq_ev (s : State) (k : Nat) (g : Nat → Nat) : (s.onCseq k g).ev = s.ev := rfl
@[simp] theorem State.onCseq_irqCfg (s : State) (k : Nat) (g : Nat → Nat) : (s.onCseq k g).irqCfg = s.irqCfg := rfl
@[simp] theorem State.onCseq_fuse (s : State) (k : Nat) (g : Nat → Nat) : (s.onCseq k g).fuse = s.fuse := rfl
@[simp] theorem State.onCseq_cfg (s : State) (k : Nat) (g : Nat → Nat) : (s.onCseq k g).cfg = s.cfg := rfl
@[simp] theorem State.onCseq_faults (s : State) (k : Nat) (g : Nat → Nat) : (s.onCseq k g).faults = s.faults := rfl
@[simp] theorem State.onCseq_wade (s : State) (k : Nat) (g : Nat → Nat) : (s.onCseq k g).wade = s.wade := rfl
@[simp] theorem State.onCseq_discs (s : State) (k : Nat) (g : Nat → Nat) : (s.onCseq k g).discs = s.discs := rfl
@[simp] theorem State.onCseq_ctrs (s : State) (k : Nat) (g : Nat → Nat) : (s.onCseq k g).ctrs = s.ctrs := rfl
@[simp] theorem State.onCseq_opens (s : State) (k : Nat) (g : Nat → Nat) : (s.onCseq k g).opens = s.opens := rfl
@[simp] theorem State.onCseq_pres (s : State) (k : Nat) (g : Nat → Nat) : (s.onCseq k g).pres = s.pres := rfl
@[simp] theorem State.onCseq_seq (s : State) (k : Nat) (g : Nat → Nat) : (s.onCseq k g).seq = s.seq := rfl
@[simp] theorem State.onCseq_outs (s : State) (k : Nat) (g : Nat → Nat) : (s.onCseq k g).outs = s.outs := rfl
@[simp] theorem State.onCseq_lsws (s : State) (k : Nat) (g : Nat → Nat) : (s.onCseq k g).lsws = s.lsws := rfl
@[simp] theorem State.onCseq_drv (s : State) (k : Nat) (g : Nat → Nat) : (s.onCseq k g).drv = s.drv := rfl
@[simp] theorem State.onCseq_ports (s : State) (k : Nat) (g : Nat → Nat) : (s.onCseq k g).ports = s.ports := rfl
@[simp] theorem State.onCseq_nodes (s : State) (k : Nat) (g : Nat → Nat) : (s.onCseq k g).nodes = s.nodes := rfl
@[simp] theorem State.onCseq_reqs (s : State) (k : Nat) (g : Nat → Nat) : (s.onCseq k g).reqs = s.reqs := rfl
@[simp] theorem State.onCseq_cells (s : State) (k : Nat) (g : Nat → Nat) : (s.onCseq k g).cells = s.cells := rfl
@[simp] theorem State.onCseq_ests (s : State) (k : Nat) (g : Nat → Nat) : (s.onCseq k g).ests = s.ests := rfl
@[simp] theorem State.onCseq_sens (s : State) (k : Nat) (g : Nat → Nat) : (s.onCseq k g).sens = s.sens := rfl
@[simp] theorem State.onCseq_zones (s : State) (k : Nat) (g : Nat → Nat) : (s.onCseq k g).zones = s.zones := rfl
@[simp] theorem State.onCseq_therm (s : State) (k : Nat) (g : Nat → Nat) : (s.onCseq k g).therm = s.therm := rfl
@[simp] theorem State.onCseq_strs (s : State) (k : Nat) (g : Nat → Nat) : (s.onCseq k g).strs = s.strs := rfl
@[simp] theorem State.onCseq_pack (s : State) (k : Nat) (g : Nat → Nat) : (s.onCseq k g).pack = s.pack := rfl
@[simp] theorem State.onCseq_hvil (s : State) (k : Nat) (g : Nat → Nat) : (s.onCseq k g).hvil = s.hvil := rfl
@[simp] theorem State.onCseq_iso (s : State) (k : Nat) (g : Nat → Nat) : (s.onCseq k g).iso = s.iso := rfl
@[simp] theorem State.onCseq_lid (s : State) (k : Nat) (g : Nat → Nat) : (s.onCseq k g).lid = s.lid := rfl
@[simp] theorem State.onCseq_safe (s : State) (k : Nat) (g : Nat → Nat) : (s.onCseq k g).safe = s.safe := rfl
@[simp] theorem State.onCseq_msgs (s : State) (k : Nat) (g : Nat → Nat) : (s.onCseq k g).msgs = s.msgs := rfl
@[simp] theorem State.onCseq_axles (s : State) (k : Nat) (g : Nat → Nat) : (s.onCseq k g).axles = s.axles := rfl
@[simp] theorem State.onCseq_cans (s : State) (k : Nat) (g : Nat → Nat) : (s.onCseq k g).cans = s.cans := rfl
@[simp] theorem State.onCseq_pair (s : State) (k : Nat) (g : Nat → Nat) : (s.onCseq k g).pair = s.pair := rfl
@[simp] theorem State.onCseq_mram (s : State) (k : Nat) (g : Nat → Nat) : (s.onCseq k g).mram = s.mram := rfl
@[simp] theorem State.onCseq_repair (s : State) (k : Nat) (g : Nat → Nat) : (s.onCseq k g).repair = s.repair := rfl
@[simp] theorem State.onCseq_sent (s : State) (k : Nat) (g : Nat → Nat) : (s.onCseq k g).sent = s.sent := rfl
@[simp] theorem State.onCseq_free (s : State) (k : Nat) (g : Nat → Nat) : (s.onCseq k g).free = s.free := rfl
@[simp] theorem State.onCseq_cseq (s : State) (k : Nat) (g : Nat → Nat) : (s.onCseq k g).cseq k = g (s.cseq k) :=
  Tab.getD_set_same _ _ _ _
theorem State.onCseq_cseq_other (s : State) {k j : Nat} (g : Nat → Nat) (h : j ≠ k) : (s.onCseq k g).cseq j = s.cseq j :=
  Tab.getD_set_other _ _ _ h
@[simp] theorem State.onCseq_ring (s : State) (k : Nat) (g : Nat → Nat) (j : Nat) : (s.onCseq k g).ring j = s.ring j := rfl
@[simp] theorem State.onCseq_evr (s : State) (k : Nat) (g : Nat → Nat) (j : EvReg) : (s.onCseq k g).evr j = s.evr j := rfl
@[simp] theorem State.onCseq_irqc (s : State) (k : Nat) (g : Nat → Nat) (j : IrqBlk) : (s.onCseq k g).irqc j = s.irqc j := rfl
@[simp] theorem State.onCseq_fault (s : State) (k : Nat) (g : Nat → Nat) (j : Nat) : (s.onCseq k g).fault j = s.fault j := rfl
@[simp] theorem State.onCseq_disc (s : State) (k : Nat) (g : Nat → Nat) (j : Nat) : (s.onCseq k g).disc j = s.disc j := rfl
@[simp] theorem State.onCseq_ctr (s : State) (k : Nat) (g : Nat → Nat) (j : Nat) : (s.onCseq k g).ctr j = s.ctr j := rfl
@[simp] theorem State.onCseq_opn (s : State) (k : Nat) (g : Nat → Nat) (j : Nat) : (s.onCseq k g).opn j = s.opn j := rfl
@[simp] theorem State.onCseq_pre (s : State) (k : Nat) (g : Nat → Nat) (j : Nat) : (s.onCseq k g).pre j = s.pre j := rfl
@[simp] theorem State.onCseq_outc (s : State) (k : Nat) (g : Nat → Nat) (j : Nat) : (s.onCseq k g).outc j = s.outc j := rfl
@[simp] theorem State.onCseq_lsw (s : State) (k : Nat) (g : Nat → Nat) (j : Nat) : (s.onCseq k g).lsw j = s.lsw j := rfl
@[simp] theorem State.onCseq_port (s : State) (k : Nat) (g : Nat → Nat) (j : Nat) : (s.onCseq k g).port j = s.port j := rfl
@[simp] theorem State.onCseq_node (s : State) (k : Nat) (g : Nat → Nat) (j : Nat) : (s.onCseq k g).node j = s.node j := rfl
@[simp] theorem State.onCseq_req (s : State) (k : Nat) (g : Nat → Nat) (j : Nat) : (s.onCseq k g).req j = s.req j := rfl
@[simp] theorem State.onCseq_cell (s : State) (k : Nat) (g : Nat → Nat) (j : Nat) : (s.onCseq k g).cell j = s.cell j := rfl
@[simp] theorem State.onCseq_est (s : State) (k : Nat) (g : Nat → Nat) (j : Nat) : (s.onCseq k g).est j = s.est j := rfl
@[simp] theorem State.onCseq_sensor (s : State) (k : Nat) (g : Nat → Nat) (j : Nat) : (s.onCseq k g).sensor j = s.sensor j := rfl
@[simp] theorem State.onCseq_zone (s : State) (k : Nat) (g : Nat → Nat) (j : Nat) : (s.onCseq k g).zone j = s.zone j := rfl
@[simp] theorem State.onCseq_str (s : State) (k : Nat) (g : Nat → Nat) (j : Nat) : (s.onCseq k g).str j = s.str j := rfl
@[simp] theorem State.onCseq_loop (s : State) (k : Nat) (g : Nat → Nat) (j : Nat) : (s.onCseq k g).loop j = s.loop j := rfl
@[simp] theorem State.onCseq_msg (s : State) (k : Nat) (g : Nat → Nat) (j : Nat) : (s.onCseq k g).msg j = s.msg j := rfl
@[simp] theorem State.onCseq_axle (s : State) (k : Nat) (g : Nat → Nat) (j : Nat) : (s.onCseq k g).axle j = s.axle j := rfl
@[simp] theorem State.onCseq_can (s : State) (k : Nat) (g : Nat → Nat) (j : Nat) : (s.onCseq k g).can j = s.can j := rfl

/-! ## `onCell` -/

@[simp] theorem State.onCell_cells (s : State) (k : Nat) (g : CellLive → CellLive) :
    (s.onCell k g).cells = s.cells.set k (g (s.cell k)) := rfl
@[simp] theorem State.onCell_pending (s : State) (k : Nat) (g : CellLive → CellLive) : (s.onCell k g).pending = s.pending := rfl
@[simp] theorem State.onCell_time (s : State) (k : Nat) (g : CellLive → CellLive) : (s.onCell k g).time = s.time := rfl
@[simp] theorem State.onCell_pwr (s : State) (k : Nat) (g : CellLive → CellLive) : (s.onCell k g).pwr = s.pwr := rfl
@[simp] theorem State.onCell_host (s : State) (k : Nat) (g : CellLive → CellLive) : (s.onCell k g).host = s.host := rfl
@[simp] theorem State.onCell_rings (s : State) (k : Nat) (g : CellLive → CellLive) : (s.onCell k g).rings = s.rings := rfl
@[simp] theorem State.onCell_ev (s : State) (k : Nat) (g : CellLive → CellLive) : (s.onCell k g).ev = s.ev := rfl
@[simp] theorem State.onCell_irqCfg (s : State) (k : Nat) (g : CellLive → CellLive) : (s.onCell k g).irqCfg = s.irqCfg := rfl
@[simp] theorem State.onCell_fuse (s : State) (k : Nat) (g : CellLive → CellLive) : (s.onCell k g).fuse = s.fuse := rfl
@[simp] theorem State.onCell_cfg (s : State) (k : Nat) (g : CellLive → CellLive) : (s.onCell k g).cfg = s.cfg := rfl
@[simp] theorem State.onCell_faults (s : State) (k : Nat) (g : CellLive → CellLive) : (s.onCell k g).faults = s.faults := rfl
@[simp] theorem State.onCell_wade (s : State) (k : Nat) (g : CellLive → CellLive) : (s.onCell k g).wade = s.wade := rfl
@[simp] theorem State.onCell_discs (s : State) (k : Nat) (g : CellLive → CellLive) : (s.onCell k g).discs = s.discs := rfl
@[simp] theorem State.onCell_ctrs (s : State) (k : Nat) (g : CellLive → CellLive) : (s.onCell k g).ctrs = s.ctrs := rfl
@[simp] theorem State.onCell_opens (s : State) (k : Nat) (g : CellLive → CellLive) : (s.onCell k g).opens = s.opens := rfl
@[simp] theorem State.onCell_pres (s : State) (k : Nat) (g : CellLive → CellLive) : (s.onCell k g).pres = s.pres := rfl
@[simp] theorem State.onCell_seq (s : State) (k : Nat) (g : CellLive → CellLive) : (s.onCell k g).seq = s.seq := rfl
@[simp] theorem State.onCell_outs (s : State) (k : Nat) (g : CellLive → CellLive) : (s.onCell k g).outs = s.outs := rfl
@[simp] theorem State.onCell_lsws (s : State) (k : Nat) (g : CellLive → CellLive) : (s.onCell k g).lsws = s.lsws := rfl
@[simp] theorem State.onCell_drv (s : State) (k : Nat) (g : CellLive → CellLive) : (s.onCell k g).drv = s.drv := rfl
@[simp] theorem State.onCell_ports (s : State) (k : Nat) (g : CellLive → CellLive) : (s.onCell k g).ports = s.ports := rfl
@[simp] theorem State.onCell_nodes (s : State) (k : Nat) (g : CellLive → CellLive) : (s.onCell k g).nodes = s.nodes := rfl
@[simp] theorem State.onCell_reqs (s : State) (k : Nat) (g : CellLive → CellLive) : (s.onCell k g).reqs = s.reqs := rfl
@[simp] theorem State.onCell_chainSeq (s : State) (k : Nat) (g : CellLive → CellLive) : (s.onCell k g).chainSeq = s.chainSeq := rfl
@[simp] theorem State.onCell_ests (s : State) (k : Nat) (g : CellLive → CellLive) : (s.onCell k g).ests = s.ests := rfl
@[simp] theorem State.onCell_sens (s : State) (k : Nat) (g : CellLive → CellLive) : (s.onCell k g).sens = s.sens := rfl
@[simp] theorem State.onCell_zones (s : State) (k : Nat) (g : CellLive → CellLive) : (s.onCell k g).zones = s.zones := rfl
@[simp] theorem State.onCell_therm (s : State) (k : Nat) (g : CellLive → CellLive) : (s.onCell k g).therm = s.therm := rfl
@[simp] theorem State.onCell_strs (s : State) (k : Nat) (g : CellLive → CellLive) : (s.onCell k g).strs = s.strs := rfl
@[simp] theorem State.onCell_pack (s : State) (k : Nat) (g : CellLive → CellLive) : (s.onCell k g).pack = s.pack := rfl
@[simp] theorem State.onCell_hvil (s : State) (k : Nat) (g : CellLive → CellLive) : (s.onCell k g).hvil = s.hvil := rfl
@[simp] theorem State.onCell_iso (s : State) (k : Nat) (g : CellLive → CellLive) : (s.onCell k g).iso = s.iso := rfl
@[simp] theorem State.onCell_lid (s : State) (k : Nat) (g : CellLive → CellLive) : (s.onCell k g).lid = s.lid := rfl
@[simp] theorem State.onCell_safe (s : State) (k : Nat) (g : CellLive → CellLive) : (s.onCell k g).safe = s.safe := rfl
@[simp] theorem State.onCell_msgs (s : State) (k : Nat) (g : CellLive → CellLive) : (s.onCell k g).msgs = s.msgs := rfl
@[simp] theorem State.onCell_axles (s : State) (k : Nat) (g : CellLive → CellLive) : (s.onCell k g).axles = s.axles := rfl
@[simp] theorem State.onCell_cans (s : State) (k : Nat) (g : CellLive → CellLive) : (s.onCell k g).cans = s.cans := rfl
@[simp] theorem State.onCell_pair (s : State) (k : Nat) (g : CellLive → CellLive) : (s.onCell k g).pair = s.pair := rfl
@[simp] theorem State.onCell_mram (s : State) (k : Nat) (g : CellLive → CellLive) : (s.onCell k g).mram = s.mram := rfl
@[simp] theorem State.onCell_repair (s : State) (k : Nat) (g : CellLive → CellLive) : (s.onCell k g).repair = s.repair := rfl
@[simp] theorem State.onCell_sent (s : State) (k : Nat) (g : CellLive → CellLive) : (s.onCell k g).sent = s.sent := rfl
@[simp] theorem State.onCell_free (s : State) (k : Nat) (g : CellLive → CellLive) : (s.onCell k g).free = s.free := rfl
@[simp] theorem State.onCell_cell (s : State) (k : Nat) (g : CellLive → CellLive) : (s.onCell k g).cell k = g (s.cell k) :=
  Tab.getD_set_same _ _ _ _
theorem State.onCell_cell_other (s : State) {k j : Nat} (g : CellLive → CellLive) (h : j ≠ k) : (s.onCell k g).cell j = s.cell j :=
  Tab.getD_set_other _ _ _ h
@[simp] theorem State.onCell_ring (s : State) (k : Nat) (g : CellLive → CellLive) (j : Nat) : (s.onCell k g).ring j = s.ring j := rfl
@[simp] theorem State.onCell_evr (s : State) (k : Nat) (g : CellLive → CellLive) (j : EvReg) : (s.onCell k g).evr j = s.evr j := rfl
@[simp] theorem State.onCell_irqc (s : State) (k : Nat) (g : CellLive → CellLive) (j : IrqBlk) : (s.onCell k g).irqc j = s.irqc j := rfl
@[simp] theorem State.onCell_fault (s : State) (k : Nat) (g : CellLive → CellLive) (j : Nat) : (s.onCell k g).fault j = s.fault j := rfl
@[simp] theorem State.onCell_disc (s : State) (k : Nat) (g : CellLive → CellLive) (j : Nat) : (s.onCell k g).disc j = s.disc j := rfl
@[simp] theorem State.onCell_ctr (s : State) (k : Nat) (g : CellLive → CellLive) (j : Nat) : (s.onCell k g).ctr j = s.ctr j := rfl
@[simp] theorem State.onCell_opn (s : State) (k : Nat) (g : CellLive → CellLive) (j : Nat) : (s.onCell k g).opn j = s.opn j := rfl
@[simp] theorem State.onCell_pre (s : State) (k : Nat) (g : CellLive → CellLive) (j : Nat) : (s.onCell k g).pre j = s.pre j := rfl
@[simp] theorem State.onCell_outc (s : State) (k : Nat) (g : CellLive → CellLive) (j : Nat) : (s.onCell k g).outc j = s.outc j := rfl
@[simp] theorem State.onCell_lsw (s : State) (k : Nat) (g : CellLive → CellLive) (j : Nat) : (s.onCell k g).lsw j = s.lsw j := rfl
@[simp] theorem State.onCell_port (s : State) (k : Nat) (g : CellLive → CellLive) (j : Nat) : (s.onCell k g).port j = s.port j := rfl
@[simp] theorem State.onCell_node (s : State) (k : Nat) (g : CellLive → CellLive) (j : Nat) : (s.onCell k g).node j = s.node j := rfl
@[simp] theorem State.onCell_req (s : State) (k : Nat) (g : CellLive → CellLive) (j : Nat) : (s.onCell k g).req j = s.req j := rfl
@[simp] theorem State.onCell_cseq (s : State) (k : Nat) (g : CellLive → CellLive) (j : Nat) : (s.onCell k g).cseq j = s.cseq j := rfl
@[simp] theorem State.onCell_est (s : State) (k : Nat) (g : CellLive → CellLive) (j : Nat) : (s.onCell k g).est j = s.est j := rfl
@[simp] theorem State.onCell_sensor (s : State) (k : Nat) (g : CellLive → CellLive) (j : Nat) : (s.onCell k g).sensor j = s.sensor j := rfl
@[simp] theorem State.onCell_zone (s : State) (k : Nat) (g : CellLive → CellLive) (j : Nat) : (s.onCell k g).zone j = s.zone j := rfl
@[simp] theorem State.onCell_str (s : State) (k : Nat) (g : CellLive → CellLive) (j : Nat) : (s.onCell k g).str j = s.str j := rfl
@[simp] theorem State.onCell_loop (s : State) (k : Nat) (g : CellLive → CellLive) (j : Nat) : (s.onCell k g).loop j = s.loop j := rfl
@[simp] theorem State.onCell_msg (s : State) (k : Nat) (g : CellLive → CellLive) (j : Nat) : (s.onCell k g).msg j = s.msg j := rfl
@[simp] theorem State.onCell_axle (s : State) (k : Nat) (g : CellLive → CellLive) (j : Nat) : (s.onCell k g).axle j = s.axle j := rfl
@[simp] theorem State.onCell_can (s : State) (k : Nat) (g : CellLive → CellLive) (j : Nat) : (s.onCell k g).can j = s.can j := rfl

/-! ## `onEst` -/

@[simp] theorem State.onEst_ests (s : State) (k : Nat) (g : CellEst → CellEst) :
    (s.onEst k g).ests = s.ests.set k (g (s.est k)) := rfl
@[simp] theorem State.onEst_pending (s : State) (k : Nat) (g : CellEst → CellEst) : (s.onEst k g).pending = s.pending := rfl
@[simp] theorem State.onEst_time (s : State) (k : Nat) (g : CellEst → CellEst) : (s.onEst k g).time = s.time := rfl
@[simp] theorem State.onEst_pwr (s : State) (k : Nat) (g : CellEst → CellEst) : (s.onEst k g).pwr = s.pwr := rfl
@[simp] theorem State.onEst_host (s : State) (k : Nat) (g : CellEst → CellEst) : (s.onEst k g).host = s.host := rfl
@[simp] theorem State.onEst_rings (s : State) (k : Nat) (g : CellEst → CellEst) : (s.onEst k g).rings = s.rings := rfl
@[simp] theorem State.onEst_ev (s : State) (k : Nat) (g : CellEst → CellEst) : (s.onEst k g).ev = s.ev := rfl
@[simp] theorem State.onEst_irqCfg (s : State) (k : Nat) (g : CellEst → CellEst) : (s.onEst k g).irqCfg = s.irqCfg := rfl
@[simp] theorem State.onEst_fuse (s : State) (k : Nat) (g : CellEst → CellEst) : (s.onEst k g).fuse = s.fuse := rfl
@[simp] theorem State.onEst_cfg (s : State) (k : Nat) (g : CellEst → CellEst) : (s.onEst k g).cfg = s.cfg := rfl
@[simp] theorem State.onEst_faults (s : State) (k : Nat) (g : CellEst → CellEst) : (s.onEst k g).faults = s.faults := rfl
@[simp] theorem State.onEst_wade (s : State) (k : Nat) (g : CellEst → CellEst) : (s.onEst k g).wade = s.wade := rfl
@[simp] theorem State.onEst_discs (s : State) (k : Nat) (g : CellEst → CellEst) : (s.onEst k g).discs = s.discs := rfl
@[simp] theorem State.onEst_ctrs (s : State) (k : Nat) (g : CellEst → CellEst) : (s.onEst k g).ctrs = s.ctrs := rfl
@[simp] theorem State.onEst_opens (s : State) (k : Nat) (g : CellEst → CellEst) : (s.onEst k g).opens = s.opens := rfl
@[simp] theorem State.onEst_pres (s : State) (k : Nat) (g : CellEst → CellEst) : (s.onEst k g).pres = s.pres := rfl
@[simp] theorem State.onEst_seq (s : State) (k : Nat) (g : CellEst → CellEst) : (s.onEst k g).seq = s.seq := rfl
@[simp] theorem State.onEst_outs (s : State) (k : Nat) (g : CellEst → CellEst) : (s.onEst k g).outs = s.outs := rfl
@[simp] theorem State.onEst_lsws (s : State) (k : Nat) (g : CellEst → CellEst) : (s.onEst k g).lsws = s.lsws := rfl
@[simp] theorem State.onEst_drv (s : State) (k : Nat) (g : CellEst → CellEst) : (s.onEst k g).drv = s.drv := rfl
@[simp] theorem State.onEst_ports (s : State) (k : Nat) (g : CellEst → CellEst) : (s.onEst k g).ports = s.ports := rfl
@[simp] theorem State.onEst_nodes (s : State) (k : Nat) (g : CellEst → CellEst) : (s.onEst k g).nodes = s.nodes := rfl
@[simp] theorem State.onEst_reqs (s : State) (k : Nat) (g : CellEst → CellEst) : (s.onEst k g).reqs = s.reqs := rfl
@[simp] theorem State.onEst_chainSeq (s : State) (k : Nat) (g : CellEst → CellEst) : (s.onEst k g).chainSeq = s.chainSeq := rfl
@[simp] theorem State.onEst_cells (s : State) (k : Nat) (g : CellEst → CellEst) : (s.onEst k g).cells = s.cells := rfl
@[simp] theorem State.onEst_sens (s : State) (k : Nat) (g : CellEst → CellEst) : (s.onEst k g).sens = s.sens := rfl
@[simp] theorem State.onEst_zones (s : State) (k : Nat) (g : CellEst → CellEst) : (s.onEst k g).zones = s.zones := rfl
@[simp] theorem State.onEst_therm (s : State) (k : Nat) (g : CellEst → CellEst) : (s.onEst k g).therm = s.therm := rfl
@[simp] theorem State.onEst_strs (s : State) (k : Nat) (g : CellEst → CellEst) : (s.onEst k g).strs = s.strs := rfl
@[simp] theorem State.onEst_pack (s : State) (k : Nat) (g : CellEst → CellEst) : (s.onEst k g).pack = s.pack := rfl
@[simp] theorem State.onEst_hvil (s : State) (k : Nat) (g : CellEst → CellEst) : (s.onEst k g).hvil = s.hvil := rfl
@[simp] theorem State.onEst_iso (s : State) (k : Nat) (g : CellEst → CellEst) : (s.onEst k g).iso = s.iso := rfl
@[simp] theorem State.onEst_lid (s : State) (k : Nat) (g : CellEst → CellEst) : (s.onEst k g).lid = s.lid := rfl
@[simp] theorem State.onEst_safe (s : State) (k : Nat) (g : CellEst → CellEst) : (s.onEst k g).safe = s.safe := rfl
@[simp] theorem State.onEst_msgs (s : State) (k : Nat) (g : CellEst → CellEst) : (s.onEst k g).msgs = s.msgs := rfl
@[simp] theorem State.onEst_axles (s : State) (k : Nat) (g : CellEst → CellEst) : (s.onEst k g).axles = s.axles := rfl
@[simp] theorem State.onEst_cans (s : State) (k : Nat) (g : CellEst → CellEst) : (s.onEst k g).cans = s.cans := rfl
@[simp] theorem State.onEst_pair (s : State) (k : Nat) (g : CellEst → CellEst) : (s.onEst k g).pair = s.pair := rfl
@[simp] theorem State.onEst_mram (s : State) (k : Nat) (g : CellEst → CellEst) : (s.onEst k g).mram = s.mram := rfl
@[simp] theorem State.onEst_repair (s : State) (k : Nat) (g : CellEst → CellEst) : (s.onEst k g).repair = s.repair := rfl
@[simp] theorem State.onEst_sent (s : State) (k : Nat) (g : CellEst → CellEst) : (s.onEst k g).sent = s.sent := rfl
@[simp] theorem State.onEst_free (s : State) (k : Nat) (g : CellEst → CellEst) : (s.onEst k g).free = s.free := rfl
@[simp] theorem State.onEst_est (s : State) (k : Nat) (g : CellEst → CellEst) : (s.onEst k g).est k = g (s.est k) :=
  Tab.getD_set_same _ _ _ _
theorem State.onEst_est_other (s : State) {k j : Nat} (g : CellEst → CellEst) (h : j ≠ k) : (s.onEst k g).est j = s.est j :=
  Tab.getD_set_other _ _ _ h
@[simp] theorem State.onEst_ring (s : State) (k : Nat) (g : CellEst → CellEst) (j : Nat) : (s.onEst k g).ring j = s.ring j := rfl
@[simp] theorem State.onEst_evr (s : State) (k : Nat) (g : CellEst → CellEst) (j : EvReg) : (s.onEst k g).evr j = s.evr j := rfl
@[simp] theorem State.onEst_irqc (s : State) (k : Nat) (g : CellEst → CellEst) (j : IrqBlk) : (s.onEst k g).irqc j = s.irqc j := rfl
@[simp] theorem State.onEst_fault (s : State) (k : Nat) (g : CellEst → CellEst) (j : Nat) : (s.onEst k g).fault j = s.fault j := rfl
@[simp] theorem State.onEst_disc (s : State) (k : Nat) (g : CellEst → CellEst) (j : Nat) : (s.onEst k g).disc j = s.disc j := rfl
@[simp] theorem State.onEst_ctr (s : State) (k : Nat) (g : CellEst → CellEst) (j : Nat) : (s.onEst k g).ctr j = s.ctr j := rfl
@[simp] theorem State.onEst_opn (s : State) (k : Nat) (g : CellEst → CellEst) (j : Nat) : (s.onEst k g).opn j = s.opn j := rfl
@[simp] theorem State.onEst_pre (s : State) (k : Nat) (g : CellEst → CellEst) (j : Nat) : (s.onEst k g).pre j = s.pre j := rfl
@[simp] theorem State.onEst_outc (s : State) (k : Nat) (g : CellEst → CellEst) (j : Nat) : (s.onEst k g).outc j = s.outc j := rfl
@[simp] theorem State.onEst_lsw (s : State) (k : Nat) (g : CellEst → CellEst) (j : Nat) : (s.onEst k g).lsw j = s.lsw j := rfl
@[simp] theorem State.onEst_port (s : State) (k : Nat) (g : CellEst → CellEst) (j : Nat) : (s.onEst k g).port j = s.port j := rfl
@[simp] theorem State.onEst_node (s : State) (k : Nat) (g : CellEst → CellEst) (j : Nat) : (s.onEst k g).node j = s.node j := rfl
@[simp] theorem State.onEst_req (s : State) (k : Nat) (g : CellEst → CellEst) (j : Nat) : (s.onEst k g).req j = s.req j := rfl
@[simp] theorem State.onEst_cseq (s : State) (k : Nat) (g : CellEst → CellEst) (j : Nat) : (s.onEst k g).cseq j = s.cseq j := rfl
@[simp] theorem State.onEst_cell (s : State) (k : Nat) (g : CellEst → CellEst) (j : Nat) : (s.onEst k g).cell j = s.cell j := rfl
@[simp] theorem State.onEst_sensor (s : State) (k : Nat) (g : CellEst → CellEst) (j : Nat) : (s.onEst k g).sensor j = s.sensor j := rfl
@[simp] theorem State.onEst_zone (s : State) (k : Nat) (g : CellEst → CellEst) (j : Nat) : (s.onEst k g).zone j = s.zone j := rfl
@[simp] theorem State.onEst_str (s : State) (k : Nat) (g : CellEst → CellEst) (j : Nat) : (s.onEst k g).str j = s.str j := rfl
@[simp] theorem State.onEst_loop (s : State) (k : Nat) (g : CellEst → CellEst) (j : Nat) : (s.onEst k g).loop j = s.loop j := rfl
@[simp] theorem State.onEst_msg (s : State) (k : Nat) (g : CellEst → CellEst) (j : Nat) : (s.onEst k g).msg j = s.msg j := rfl
@[simp] theorem State.onEst_axle (s : State) (k : Nat) (g : CellEst → CellEst) (j : Nat) : (s.onEst k g).axle j = s.axle j := rfl
@[simp] theorem State.onEst_can (s : State) (k : Nat) (g : CellEst → CellEst) (j : Nat) : (s.onEst k g).can j = s.can j := rfl

/-! ## `onSensor` -/

@[simp] theorem State.onSensor_sens (s : State) (k : Nat) (g : Sensor → Sensor) :
    (s.onSensor k g).sens = s.sens.set k (g (s.sensor k)) := rfl
@[simp] theorem State.onSensor_pending (s : State) (k : Nat) (g : Sensor → Sensor) : (s.onSensor k g).pending = s.pending := rfl
@[simp] theorem State.onSensor_time (s : State) (k : Nat) (g : Sensor → Sensor) : (s.onSensor k g).time = s.time := rfl
@[simp] theorem State.onSensor_pwr (s : State) (k : Nat) (g : Sensor → Sensor) : (s.onSensor k g).pwr = s.pwr := rfl
@[simp] theorem State.onSensor_host (s : State) (k : Nat) (g : Sensor → Sensor) : (s.onSensor k g).host = s.host := rfl
@[simp] theorem State.onSensor_rings (s : State) (k : Nat) (g : Sensor → Sensor) : (s.onSensor k g).rings = s.rings := rfl
@[simp] theorem State.onSensor_ev (s : State) (k : Nat) (g : Sensor → Sensor) : (s.onSensor k g).ev = s.ev := rfl
@[simp] theorem State.onSensor_irqCfg (s : State) (k : Nat) (g : Sensor → Sensor) : (s.onSensor k g).irqCfg = s.irqCfg := rfl
@[simp] theorem State.onSensor_fuse (s : State) (k : Nat) (g : Sensor → Sensor) : (s.onSensor k g).fuse = s.fuse := rfl
@[simp] theorem State.onSensor_cfg (s : State) (k : Nat) (g : Sensor → Sensor) : (s.onSensor k g).cfg = s.cfg := rfl
@[simp] theorem State.onSensor_faults (s : State) (k : Nat) (g : Sensor → Sensor) : (s.onSensor k g).faults = s.faults := rfl
@[simp] theorem State.onSensor_wade (s : State) (k : Nat) (g : Sensor → Sensor) : (s.onSensor k g).wade = s.wade := rfl
@[simp] theorem State.onSensor_discs (s : State) (k : Nat) (g : Sensor → Sensor) : (s.onSensor k g).discs = s.discs := rfl
@[simp] theorem State.onSensor_ctrs (s : State) (k : Nat) (g : Sensor → Sensor) : (s.onSensor k g).ctrs = s.ctrs := rfl
@[simp] theorem State.onSensor_opens (s : State) (k : Nat) (g : Sensor → Sensor) : (s.onSensor k g).opens = s.opens := rfl
@[simp] theorem State.onSensor_pres (s : State) (k : Nat) (g : Sensor → Sensor) : (s.onSensor k g).pres = s.pres := rfl
@[simp] theorem State.onSensor_seq (s : State) (k : Nat) (g : Sensor → Sensor) : (s.onSensor k g).seq = s.seq := rfl
@[simp] theorem State.onSensor_outs (s : State) (k : Nat) (g : Sensor → Sensor) : (s.onSensor k g).outs = s.outs := rfl
@[simp] theorem State.onSensor_lsws (s : State) (k : Nat) (g : Sensor → Sensor) : (s.onSensor k g).lsws = s.lsws := rfl
@[simp] theorem State.onSensor_drv (s : State) (k : Nat) (g : Sensor → Sensor) : (s.onSensor k g).drv = s.drv := rfl
@[simp] theorem State.onSensor_ports (s : State) (k : Nat) (g : Sensor → Sensor) : (s.onSensor k g).ports = s.ports := rfl
@[simp] theorem State.onSensor_nodes (s : State) (k : Nat) (g : Sensor → Sensor) : (s.onSensor k g).nodes = s.nodes := rfl
@[simp] theorem State.onSensor_reqs (s : State) (k : Nat) (g : Sensor → Sensor) : (s.onSensor k g).reqs = s.reqs := rfl
@[simp] theorem State.onSensor_chainSeq (s : State) (k : Nat) (g : Sensor → Sensor) : (s.onSensor k g).chainSeq = s.chainSeq := rfl
@[simp] theorem State.onSensor_cells (s : State) (k : Nat) (g : Sensor → Sensor) : (s.onSensor k g).cells = s.cells := rfl
@[simp] theorem State.onSensor_ests (s : State) (k : Nat) (g : Sensor → Sensor) : (s.onSensor k g).ests = s.ests := rfl
@[simp] theorem State.onSensor_zones (s : State) (k : Nat) (g : Sensor → Sensor) : (s.onSensor k g).zones = s.zones := rfl
@[simp] theorem State.onSensor_therm (s : State) (k : Nat) (g : Sensor → Sensor) : (s.onSensor k g).therm = s.therm := rfl
@[simp] theorem State.onSensor_strs (s : State) (k : Nat) (g : Sensor → Sensor) : (s.onSensor k g).strs = s.strs := rfl
@[simp] theorem State.onSensor_pack (s : State) (k : Nat) (g : Sensor → Sensor) : (s.onSensor k g).pack = s.pack := rfl
@[simp] theorem State.onSensor_hvil (s : State) (k : Nat) (g : Sensor → Sensor) : (s.onSensor k g).hvil = s.hvil := rfl
@[simp] theorem State.onSensor_iso (s : State) (k : Nat) (g : Sensor → Sensor) : (s.onSensor k g).iso = s.iso := rfl
@[simp] theorem State.onSensor_lid (s : State) (k : Nat) (g : Sensor → Sensor) : (s.onSensor k g).lid = s.lid := rfl
@[simp] theorem State.onSensor_safe (s : State) (k : Nat) (g : Sensor → Sensor) : (s.onSensor k g).safe = s.safe := rfl
@[simp] theorem State.onSensor_msgs (s : State) (k : Nat) (g : Sensor → Sensor) : (s.onSensor k g).msgs = s.msgs := rfl
@[simp] theorem State.onSensor_axles (s : State) (k : Nat) (g : Sensor → Sensor) : (s.onSensor k g).axles = s.axles := rfl
@[simp] theorem State.onSensor_cans (s : State) (k : Nat) (g : Sensor → Sensor) : (s.onSensor k g).cans = s.cans := rfl
@[simp] theorem State.onSensor_pair (s : State) (k : Nat) (g : Sensor → Sensor) : (s.onSensor k g).pair = s.pair := rfl
@[simp] theorem State.onSensor_mram (s : State) (k : Nat) (g : Sensor → Sensor) : (s.onSensor k g).mram = s.mram := rfl
@[simp] theorem State.onSensor_repair (s : State) (k : Nat) (g : Sensor → Sensor) : (s.onSensor k g).repair = s.repair := rfl
@[simp] theorem State.onSensor_sent (s : State) (k : Nat) (g : Sensor → Sensor) : (s.onSensor k g).sent = s.sent := rfl
@[simp] theorem State.onSensor_free (s : State) (k : Nat) (g : Sensor → Sensor) : (s.onSensor k g).free = s.free := rfl
@[simp] theorem State.onSensor_sensor (s : State) (k : Nat) (g : Sensor → Sensor) : (s.onSensor k g).sensor k = g (s.sensor k) :=
  Tab.getD_set_same _ _ _ _
theorem State.onSensor_sensor_other (s : State) {k j : Nat} (g : Sensor → Sensor) (h : j ≠ k) : (s.onSensor k g).sensor j = s.sensor j :=
  Tab.getD_set_other _ _ _ h
@[simp] theorem State.onSensor_ring (s : State) (k : Nat) (g : Sensor → Sensor) (j : Nat) : (s.onSensor k g).ring j = s.ring j := rfl
@[simp] theorem State.onSensor_evr (s : State) (k : Nat) (g : Sensor → Sensor) (j : EvReg) : (s.onSensor k g).evr j = s.evr j := rfl
@[simp] theorem State.onSensor_irqc (s : State) (k : Nat) (g : Sensor → Sensor) (j : IrqBlk) : (s.onSensor k g).irqc j = s.irqc j := rfl
@[simp] theorem State.onSensor_fault (s : State) (k : Nat) (g : Sensor → Sensor) (j : Nat) : (s.onSensor k g).fault j = s.fault j := rfl
@[simp] theorem State.onSensor_disc (s : State) (k : Nat) (g : Sensor → Sensor) (j : Nat) : (s.onSensor k g).disc j = s.disc j := rfl
@[simp] theorem State.onSensor_ctr (s : State) (k : Nat) (g : Sensor → Sensor) (j : Nat) : (s.onSensor k g).ctr j = s.ctr j := rfl
@[simp] theorem State.onSensor_opn (s : State) (k : Nat) (g : Sensor → Sensor) (j : Nat) : (s.onSensor k g).opn j = s.opn j := rfl
@[simp] theorem State.onSensor_pre (s : State) (k : Nat) (g : Sensor → Sensor) (j : Nat) : (s.onSensor k g).pre j = s.pre j := rfl
@[simp] theorem State.onSensor_outc (s : State) (k : Nat) (g : Sensor → Sensor) (j : Nat) : (s.onSensor k g).outc j = s.outc j := rfl
@[simp] theorem State.onSensor_lsw (s : State) (k : Nat) (g : Sensor → Sensor) (j : Nat) : (s.onSensor k g).lsw j = s.lsw j := rfl
@[simp] theorem State.onSensor_port (s : State) (k : Nat) (g : Sensor → Sensor) (j : Nat) : (s.onSensor k g).port j = s.port j := rfl
@[simp] theorem State.onSensor_node (s : State) (k : Nat) (g : Sensor → Sensor) (j : Nat) : (s.onSensor k g).node j = s.node j := rfl
@[simp] theorem State.onSensor_req (s : State) (k : Nat) (g : Sensor → Sensor) (j : Nat) : (s.onSensor k g).req j = s.req j := rfl
@[simp] theorem State.onSensor_cseq (s : State) (k : Nat) (g : Sensor → Sensor) (j : Nat) : (s.onSensor k g).cseq j = s.cseq j := rfl
@[simp] theorem State.onSensor_cell (s : State) (k : Nat) (g : Sensor → Sensor) (j : Nat) : (s.onSensor k g).cell j = s.cell j := rfl
@[simp] theorem State.onSensor_est (s : State) (k : Nat) (g : Sensor → Sensor) (j : Nat) : (s.onSensor k g).est j = s.est j := rfl
@[simp] theorem State.onSensor_zone (s : State) (k : Nat) (g : Sensor → Sensor) (j : Nat) : (s.onSensor k g).zone j = s.zone j := rfl
@[simp] theorem State.onSensor_str (s : State) (k : Nat) (g : Sensor → Sensor) (j : Nat) : (s.onSensor k g).str j = s.str j := rfl
@[simp] theorem State.onSensor_loop (s : State) (k : Nat) (g : Sensor → Sensor) (j : Nat) : (s.onSensor k g).loop j = s.loop j := rfl
@[simp] theorem State.onSensor_msg (s : State) (k : Nat) (g : Sensor → Sensor) (j : Nat) : (s.onSensor k g).msg j = s.msg j := rfl
@[simp] theorem State.onSensor_axle (s : State) (k : Nat) (g : Sensor → Sensor) (j : Nat) : (s.onSensor k g).axle j = s.axle j := rfl
@[simp] theorem State.onSensor_can (s : State) (k : Nat) (g : Sensor → Sensor) (j : Nat) : (s.onSensor k g).can j = s.can j := rfl

/-! ## `onZone` -/

@[simp] theorem State.onZone_zones (s : State) (k : Nat) (g : Zone → Zone) :
    (s.onZone k g).zones = s.zones.set k (g (s.zone k)) := rfl
@[simp] theorem State.onZone_pending (s : State) (k : Nat) (g : Zone → Zone) : (s.onZone k g).pending = s.pending := rfl
@[simp] theorem State.onZone_time (s : State) (k : Nat) (g : Zone → Zone) : (s.onZone k g).time = s.time := rfl
@[simp] theorem State.onZone_pwr (s : State) (k : Nat) (g : Zone → Zone) : (s.onZone k g).pwr = s.pwr := rfl
@[simp] theorem State.onZone_host (s : State) (k : Nat) (g : Zone → Zone) : (s.onZone k g).host = s.host := rfl
@[simp] theorem State.onZone_rings (s : State) (k : Nat) (g : Zone → Zone) : (s.onZone k g).rings = s.rings := rfl
@[simp] theorem State.onZone_ev (s : State) (k : Nat) (g : Zone → Zone) : (s.onZone k g).ev = s.ev := rfl
@[simp] theorem State.onZone_irqCfg (s : State) (k : Nat) (g : Zone → Zone) : (s.onZone k g).irqCfg = s.irqCfg := rfl
@[simp] theorem State.onZone_fuse (s : State) (k : Nat) (g : Zone → Zone) : (s.onZone k g).fuse = s.fuse := rfl
@[simp] theorem State.onZone_cfg (s : State) (k : Nat) (g : Zone → Zone) : (s.onZone k g).cfg = s.cfg := rfl
@[simp] theorem State.onZone_faults (s : State) (k : Nat) (g : Zone → Zone) : (s.onZone k g).faults = s.faults := rfl
@[simp] theorem State.onZone_wade (s : State) (k : Nat) (g : Zone → Zone) : (s.onZone k g).wade = s.wade := rfl
@[simp] theorem State.onZone_discs (s : State) (k : Nat) (g : Zone → Zone) : (s.onZone k g).discs = s.discs := rfl
@[simp] theorem State.onZone_ctrs (s : State) (k : Nat) (g : Zone → Zone) : (s.onZone k g).ctrs = s.ctrs := rfl
@[simp] theorem State.onZone_opens (s : State) (k : Nat) (g : Zone → Zone) : (s.onZone k g).opens = s.opens := rfl
@[simp] theorem State.onZone_pres (s : State) (k : Nat) (g : Zone → Zone) : (s.onZone k g).pres = s.pres := rfl
@[simp] theorem State.onZone_seq (s : State) (k : Nat) (g : Zone → Zone) : (s.onZone k g).seq = s.seq := rfl
@[simp] theorem State.onZone_outs (s : State) (k : Nat) (g : Zone → Zone) : (s.onZone k g).outs = s.outs := rfl
@[simp] theorem State.onZone_lsws (s : State) (k : Nat) (g : Zone → Zone) : (s.onZone k g).lsws = s.lsws := rfl
@[simp] theorem State.onZone_drv (s : State) (k : Nat) (g : Zone → Zone) : (s.onZone k g).drv = s.drv := rfl
@[simp] theorem State.onZone_ports (s : State) (k : Nat) (g : Zone → Zone) : (s.onZone k g).ports = s.ports := rfl
@[simp] theorem State.onZone_nodes (s : State) (k : Nat) (g : Zone → Zone) : (s.onZone k g).nodes = s.nodes := rfl
@[simp] theorem State.onZone_reqs (s : State) (k : Nat) (g : Zone → Zone) : (s.onZone k g).reqs = s.reqs := rfl
@[simp] theorem State.onZone_chainSeq (s : State) (k : Nat) (g : Zone → Zone) : (s.onZone k g).chainSeq = s.chainSeq := rfl
@[simp] theorem State.onZone_cells (s : State) (k : Nat) (g : Zone → Zone) : (s.onZone k g).cells = s.cells := rfl
@[simp] theorem State.onZone_ests (s : State) (k : Nat) (g : Zone → Zone) : (s.onZone k g).ests = s.ests := rfl
@[simp] theorem State.onZone_sens (s : State) (k : Nat) (g : Zone → Zone) : (s.onZone k g).sens = s.sens := rfl
@[simp] theorem State.onZone_therm (s : State) (k : Nat) (g : Zone → Zone) : (s.onZone k g).therm = s.therm := rfl
@[simp] theorem State.onZone_strs (s : State) (k : Nat) (g : Zone → Zone) : (s.onZone k g).strs = s.strs := rfl
@[simp] theorem State.onZone_pack (s : State) (k : Nat) (g : Zone → Zone) : (s.onZone k g).pack = s.pack := rfl
@[simp] theorem State.onZone_hvil (s : State) (k : Nat) (g : Zone → Zone) : (s.onZone k g).hvil = s.hvil := rfl
@[simp] theorem State.onZone_iso (s : State) (k : Nat) (g : Zone → Zone) : (s.onZone k g).iso = s.iso := rfl
@[simp] theorem State.onZone_lid (s : State) (k : Nat) (g : Zone → Zone) : (s.onZone k g).lid = s.lid := rfl
@[simp] theorem State.onZone_safe (s : State) (k : Nat) (g : Zone → Zone) : (s.onZone k g).safe = s.safe := rfl
@[simp] theorem State.onZone_msgs (s : State) (k : Nat) (g : Zone → Zone) : (s.onZone k g).msgs = s.msgs := rfl
@[simp] theorem State.onZone_axles (s : State) (k : Nat) (g : Zone → Zone) : (s.onZone k g).axles = s.axles := rfl
@[simp] theorem State.onZone_cans (s : State) (k : Nat) (g : Zone → Zone) : (s.onZone k g).cans = s.cans := rfl
@[simp] theorem State.onZone_pair (s : State) (k : Nat) (g : Zone → Zone) : (s.onZone k g).pair = s.pair := rfl
@[simp] theorem State.onZone_mram (s : State) (k : Nat) (g : Zone → Zone) : (s.onZone k g).mram = s.mram := rfl
@[simp] theorem State.onZone_repair (s : State) (k : Nat) (g : Zone → Zone) : (s.onZone k g).repair = s.repair := rfl
@[simp] theorem State.onZone_sent (s : State) (k : Nat) (g : Zone → Zone) : (s.onZone k g).sent = s.sent := rfl
@[simp] theorem State.onZone_free (s : State) (k : Nat) (g : Zone → Zone) : (s.onZone k g).free = s.free := rfl
@[simp] theorem State.onZone_zone (s : State) (k : Nat) (g : Zone → Zone) : (s.onZone k g).zone k = g (s.zone k) :=
  Tab.getD_set_same _ _ _ _
theorem State.onZone_zone_other (s : State) {k j : Nat} (g : Zone → Zone) (h : j ≠ k) : (s.onZone k g).zone j = s.zone j :=
  Tab.getD_set_other _ _ _ h
@[simp] theorem State.onZone_ring (s : State) (k : Nat) (g : Zone → Zone) (j : Nat) : (s.onZone k g).ring j = s.ring j := rfl
@[simp] theorem State.onZone_evr (s : State) (k : Nat) (g : Zone → Zone) (j : EvReg) : (s.onZone k g).evr j = s.evr j := rfl
@[simp] theorem State.onZone_irqc (s : State) (k : Nat) (g : Zone → Zone) (j : IrqBlk) : (s.onZone k g).irqc j = s.irqc j := rfl
@[simp] theorem State.onZone_fault (s : State) (k : Nat) (g : Zone → Zone) (j : Nat) : (s.onZone k g).fault j = s.fault j := rfl
@[simp] theorem State.onZone_disc (s : State) (k : Nat) (g : Zone → Zone) (j : Nat) : (s.onZone k g).disc j = s.disc j := rfl
@[simp] theorem State.onZone_ctr (s : State) (k : Nat) (g : Zone → Zone) (j : Nat) : (s.onZone k g).ctr j = s.ctr j := rfl
@[simp] theorem State.onZone_opn (s : State) (k : Nat) (g : Zone → Zone) (j : Nat) : (s.onZone k g).opn j = s.opn j := rfl
@[simp] theorem State.onZone_pre (s : State) (k : Nat) (g : Zone → Zone) (j : Nat) : (s.onZone k g).pre j = s.pre j := rfl
@[simp] theorem State.onZone_outc (s : State) (k : Nat) (g : Zone → Zone) (j : Nat) : (s.onZone k g).outc j = s.outc j := rfl
@[simp] theorem State.onZone_lsw (s : State) (k : Nat) (g : Zone → Zone) (j : Nat) : (s.onZone k g).lsw j = s.lsw j := rfl
@[simp] theorem State.onZone_port (s : State) (k : Nat) (g : Zone → Zone) (j : Nat) : (s.onZone k g).port j = s.port j := rfl
@[simp] theorem State.onZone_node (s : State) (k : Nat) (g : Zone → Zone) (j : Nat) : (s.onZone k g).node j = s.node j := rfl
@[simp] theorem State.onZone_req (s : State) (k : Nat) (g : Zone → Zone) (j : Nat) : (s.onZone k g).req j = s.req j := rfl
@[simp] theorem State.onZone_cseq (s : State) (k : Nat) (g : Zone → Zone) (j : Nat) : (s.onZone k g).cseq j = s.cseq j := rfl
@[simp] theorem State.onZone_cell (s : State) (k : Nat) (g : Zone → Zone) (j : Nat) : (s.onZone k g).cell j = s.cell j := rfl
@[simp] theorem State.onZone_est (s : State) (k : Nat) (g : Zone → Zone) (j : Nat) : (s.onZone k g).est j = s.est j := rfl
@[simp] theorem State.onZone_sensor (s : State) (k : Nat) (g : Zone → Zone) (j : Nat) : (s.onZone k g).sensor j = s.sensor j := rfl
@[simp] theorem State.onZone_str (s : State) (k : Nat) (g : Zone → Zone) (j : Nat) : (s.onZone k g).str j = s.str j := rfl
@[simp] theorem State.onZone_loop (s : State) (k : Nat) (g : Zone → Zone) (j : Nat) : (s.onZone k g).loop j = s.loop j := rfl
@[simp] theorem State.onZone_msg (s : State) (k : Nat) (g : Zone → Zone) (j : Nat) : (s.onZone k g).msg j = s.msg j := rfl
@[simp] theorem State.onZone_axle (s : State) (k : Nat) (g : Zone → Zone) (j : Nat) : (s.onZone k g).axle j = s.axle j := rfl
@[simp] theorem State.onZone_can (s : State) (k : Nat) (g : Zone → Zone) (j : Nat) : (s.onZone k g).can j = s.can j := rfl

/-! ## `onStr` -/

@[simp] theorem State.onStr_strs (s : State) (k : Nat) (g : Str → Str) :
    (s.onStr k g).strs = s.strs.set k (g (s.str k)) := rfl
@[simp] theorem State.onStr_pending (s : State) (k : Nat) (g : Str → Str) : (s.onStr k g).pending = s.pending := rfl
@[simp] theorem State.onStr_time (s : State) (k : Nat) (g : Str → Str) : (s.onStr k g).time = s.time := rfl
@[simp] theorem State.onStr_pwr (s : State) (k : Nat) (g : Str → Str) : (s.onStr k g).pwr = s.pwr := rfl
@[simp] theorem State.onStr_host (s : State) (k : Nat) (g : Str → Str) : (s.onStr k g).host = s.host := rfl
@[simp] theorem State.onStr_rings (s : State) (k : Nat) (g : Str → Str) : (s.onStr k g).rings = s.rings := rfl
@[simp] theorem State.onStr_ev (s : State) (k : Nat) (g : Str → Str) : (s.onStr k g).ev = s.ev := rfl
@[simp] theorem State.onStr_irqCfg (s : State) (k : Nat) (g : Str → Str) : (s.onStr k g).irqCfg = s.irqCfg := rfl
@[simp] theorem State.onStr_fuse (s : State) (k : Nat) (g : Str → Str) : (s.onStr k g).fuse = s.fuse := rfl
@[simp] theorem State.onStr_cfg (s : State) (k : Nat) (g : Str → Str) : (s.onStr k g).cfg = s.cfg := rfl
@[simp] theorem State.onStr_faults (s : State) (k : Nat) (g : Str → Str) : (s.onStr k g).faults = s.faults := rfl
@[simp] theorem State.onStr_wade (s : State) (k : Nat) (g : Str → Str) : (s.onStr k g).wade = s.wade := rfl
@[simp] theorem State.onStr_discs (s : State) (k : Nat) (g : Str → Str) : (s.onStr k g).discs = s.discs := rfl
@[simp] theorem State.onStr_ctrs (s : State) (k : Nat) (g : Str → Str) : (s.onStr k g).ctrs = s.ctrs := rfl
@[simp] theorem State.onStr_opens (s : State) (k : Nat) (g : Str → Str) : (s.onStr k g).opens = s.opens := rfl
@[simp] theorem State.onStr_pres (s : State) (k : Nat) (g : Str → Str) : (s.onStr k g).pres = s.pres := rfl
@[simp] theorem State.onStr_seq (s : State) (k : Nat) (g : Str → Str) : (s.onStr k g).seq = s.seq := rfl
@[simp] theorem State.onStr_outs (s : State) (k : Nat) (g : Str → Str) : (s.onStr k g).outs = s.outs := rfl
@[simp] theorem State.onStr_lsws (s : State) (k : Nat) (g : Str → Str) : (s.onStr k g).lsws = s.lsws := rfl
@[simp] theorem State.onStr_drv (s : State) (k : Nat) (g : Str → Str) : (s.onStr k g).drv = s.drv := rfl
@[simp] theorem State.onStr_ports (s : State) (k : Nat) (g : Str → Str) : (s.onStr k g).ports = s.ports := rfl
@[simp] theorem State.onStr_nodes (s : State) (k : Nat) (g : Str → Str) : (s.onStr k g).nodes = s.nodes := rfl
@[simp] theorem State.onStr_reqs (s : State) (k : Nat) (g : Str → Str) : (s.onStr k g).reqs = s.reqs := rfl
@[simp] theorem State.onStr_chainSeq (s : State) (k : Nat) (g : Str → Str) : (s.onStr k g).chainSeq = s.chainSeq := rfl
@[simp] theorem State.onStr_cells (s : State) (k : Nat) (g : Str → Str) : (s.onStr k g).cells = s.cells := rfl
@[simp] theorem State.onStr_ests (s : State) (k : Nat) (g : Str → Str) : (s.onStr k g).ests = s.ests := rfl
@[simp] theorem State.onStr_sens (s : State) (k : Nat) (g : Str → Str) : (s.onStr k g).sens = s.sens := rfl
@[simp] theorem State.onStr_zones (s : State) (k : Nat) (g : Str → Str) : (s.onStr k g).zones = s.zones := rfl
@[simp] theorem State.onStr_therm (s : State) (k : Nat) (g : Str → Str) : (s.onStr k g).therm = s.therm := rfl
@[simp] theorem State.onStr_pack (s : State) (k : Nat) (g : Str → Str) : (s.onStr k g).pack = s.pack := rfl
@[simp] theorem State.onStr_hvil (s : State) (k : Nat) (g : Str → Str) : (s.onStr k g).hvil = s.hvil := rfl
@[simp] theorem State.onStr_iso (s : State) (k : Nat) (g : Str → Str) : (s.onStr k g).iso = s.iso := rfl
@[simp] theorem State.onStr_lid (s : State) (k : Nat) (g : Str → Str) : (s.onStr k g).lid = s.lid := rfl
@[simp] theorem State.onStr_safe (s : State) (k : Nat) (g : Str → Str) : (s.onStr k g).safe = s.safe := rfl
@[simp] theorem State.onStr_msgs (s : State) (k : Nat) (g : Str → Str) : (s.onStr k g).msgs = s.msgs := rfl
@[simp] theorem State.onStr_axles (s : State) (k : Nat) (g : Str → Str) : (s.onStr k g).axles = s.axles := rfl
@[simp] theorem State.onStr_cans (s : State) (k : Nat) (g : Str → Str) : (s.onStr k g).cans = s.cans := rfl
@[simp] theorem State.onStr_pair (s : State) (k : Nat) (g : Str → Str) : (s.onStr k g).pair = s.pair := rfl
@[simp] theorem State.onStr_mram (s : State) (k : Nat) (g : Str → Str) : (s.onStr k g).mram = s.mram := rfl
@[simp] theorem State.onStr_repair (s : State) (k : Nat) (g : Str → Str) : (s.onStr k g).repair = s.repair := rfl
@[simp] theorem State.onStr_sent (s : State) (k : Nat) (g : Str → Str) : (s.onStr k g).sent = s.sent := rfl
@[simp] theorem State.onStr_free (s : State) (k : Nat) (g : Str → Str) : (s.onStr k g).free = s.free := rfl
@[simp] theorem State.onStr_str (s : State) (k : Nat) (g : Str → Str) : (s.onStr k g).str k = g (s.str k) :=
  Tab.getD_set_same _ _ _ _
theorem State.onStr_str_other (s : State) {k j : Nat} (g : Str → Str) (h : j ≠ k) : (s.onStr k g).str j = s.str j :=
  Tab.getD_set_other _ _ _ h
@[simp] theorem State.onStr_ring (s : State) (k : Nat) (g : Str → Str) (j : Nat) : (s.onStr k g).ring j = s.ring j := rfl
@[simp] theorem State.onStr_evr (s : State) (k : Nat) (g : Str → Str) (j : EvReg) : (s.onStr k g).evr j = s.evr j := rfl
@[simp] theorem State.onStr_irqc (s : State) (k : Nat) (g : Str → Str) (j : IrqBlk) : (s.onStr k g).irqc j = s.irqc j := rfl
@[simp] theorem State.onStr_fault (s : State) (k : Nat) (g : Str → Str) (j : Nat) : (s.onStr k g).fault j = s.fault j := rfl
@[simp] theorem State.onStr_disc (s : State) (k : Nat) (g : Str → Str) (j : Nat) : (s.onStr k g).disc j = s.disc j := rfl
@[simp] theorem State.onStr_ctr (s : State) (k : Nat) (g : Str → Str) (j : Nat) : (s.onStr k g).ctr j = s.ctr j := rfl
@[simp] theorem State.onStr_opn (s : State) (k : Nat) (g : Str → Str) (j : Nat) : (s.onStr k g).opn j = s.opn j := rfl
@[simp] theorem State.onStr_pre (s : State) (k : Nat) (g : Str → Str) (j : Nat) : (s.onStr k g).pre j = s.pre j := rfl
@[simp] theorem State.onStr_outc (s : State) (k : Nat) (g : Str → Str) (j : Nat) : (s.onStr k g).outc j = s.outc j := rfl
@[simp] theorem State.onStr_lsw (s : State) (k : Nat) (g : Str → Str) (j : Nat) : (s.onStr k g).lsw j = s.lsw j := rfl
@[simp] theorem State.onStr_port (s : State) (k : Nat) (g : Str → Str) (j : Nat) : (s.onStr k g).port j = s.port j := rfl
@[simp] theorem State.onStr_node (s : State) (k : Nat) (g : Str → Str) (j : Nat) : (s.onStr k g).node j = s.node j := rfl
@[simp] theorem State.onStr_req (s : State) (k : Nat) (g : Str → Str) (j : Nat) : (s.onStr k g).req j = s.req j := rfl
@[simp] theorem State.onStr_cseq (s : State) (k : Nat) (g : Str → Str) (j : Nat) : (s.onStr k g).cseq j = s.cseq j := rfl
@[simp] theorem State.onStr_cell (s : State) (k : Nat) (g : Str → Str) (j : Nat) : (s.onStr k g).cell j = s.cell j := rfl
@[simp] theorem State.onStr_est (s : State) (k : Nat) (g : Str → Str) (j : Nat) : (s.onStr k g).est j = s.est j := rfl
@[simp] theorem State.onStr_sensor (s : State) (k : Nat) (g : Str → Str) (j : Nat) : (s.onStr k g).sensor j = s.sensor j := rfl
@[simp] theorem State.onStr_zone (s : State) (k : Nat) (g : Str → Str) (j : Nat) : (s.onStr k g).zone j = s.zone j := rfl
@[simp] theorem State.onStr_loop (s : State) (k : Nat) (g : Str → Str) (j : Nat) : (s.onStr k g).loop j = s.loop j := rfl
@[simp] theorem State.onStr_msg (s : State) (k : Nat) (g : Str → Str) (j : Nat) : (s.onStr k g).msg j = s.msg j := rfl
@[simp] theorem State.onStr_axle (s : State) (k : Nat) (g : Str → Str) (j : Nat) : (s.onStr k g).axle j = s.axle j := rfl
@[simp] theorem State.onStr_can (s : State) (k : Nat) (g : Str → Str) (j : Nat) : (s.onStr k g).can j = s.can j := rfl

/-! ## `onLoop` -/

@[simp] theorem State.onLoop_hvil (s : State) (k : Nat) (g : Hvil → Hvil) :
    (s.onLoop k g).hvil = s.hvil.set k (g (s.loop k)) := rfl
@[simp] theorem State.onLoop_pending (s : State) (k : Nat) (g : Hvil → Hvil) : (s.onLoop k g).pending = s.pending := rfl
@[simp] theorem State.onLoop_time (s : State) (k : Nat) (g : Hvil → Hvil) : (s.onLoop k g).time = s.time := rfl
@[simp] theorem State.onLoop_pwr (s : State) (k : Nat) (g : Hvil → Hvil) : (s.onLoop k g).pwr = s.pwr := rfl
@[simp] theorem State.onLoop_host (s : State) (k : Nat) (g : Hvil → Hvil) : (s.onLoop k g).host = s.host := rfl
@[simp] theorem State.onLoop_rings (s : State) (k : Nat) (g : Hvil → Hvil) : (s.onLoop k g).rings = s.rings := rfl
@[simp] theorem State.onLoop_ev (s : State) (k : Nat) (g : Hvil → Hvil) : (s.onLoop k g).ev = s.ev := rfl
@[simp] theorem State.onLoop_irqCfg (s : State) (k : Nat) (g : Hvil → Hvil) : (s.onLoop k g).irqCfg = s.irqCfg := rfl
@[simp] theorem State.onLoop_fuse (s : State) (k : Nat) (g : Hvil → Hvil) : (s.onLoop k g).fuse = s.fuse := rfl
@[simp] theorem State.onLoop_cfg (s : State) (k : Nat) (g : Hvil → Hvil) : (s.onLoop k g).cfg = s.cfg := rfl
@[simp] theorem State.onLoop_faults (s : State) (k : Nat) (g : Hvil → Hvil) : (s.onLoop k g).faults = s.faults := rfl
@[simp] theorem State.onLoop_wade (s : State) (k : Nat) (g : Hvil → Hvil) : (s.onLoop k g).wade = s.wade := rfl
@[simp] theorem State.onLoop_discs (s : State) (k : Nat) (g : Hvil → Hvil) : (s.onLoop k g).discs = s.discs := rfl
@[simp] theorem State.onLoop_ctrs (s : State) (k : Nat) (g : Hvil → Hvil) : (s.onLoop k g).ctrs = s.ctrs := rfl
@[simp] theorem State.onLoop_opens (s : State) (k : Nat) (g : Hvil → Hvil) : (s.onLoop k g).opens = s.opens := rfl
@[simp] theorem State.onLoop_pres (s : State) (k : Nat) (g : Hvil → Hvil) : (s.onLoop k g).pres = s.pres := rfl
@[simp] theorem State.onLoop_seq (s : State) (k : Nat) (g : Hvil → Hvil) : (s.onLoop k g).seq = s.seq := rfl
@[simp] theorem State.onLoop_outs (s : State) (k : Nat) (g : Hvil → Hvil) : (s.onLoop k g).outs = s.outs := rfl
@[simp] theorem State.onLoop_lsws (s : State) (k : Nat) (g : Hvil → Hvil) : (s.onLoop k g).lsws = s.lsws := rfl
@[simp] theorem State.onLoop_drv (s : State) (k : Nat) (g : Hvil → Hvil) : (s.onLoop k g).drv = s.drv := rfl
@[simp] theorem State.onLoop_ports (s : State) (k : Nat) (g : Hvil → Hvil) : (s.onLoop k g).ports = s.ports := rfl
@[simp] theorem State.onLoop_nodes (s : State) (k : Nat) (g : Hvil → Hvil) : (s.onLoop k g).nodes = s.nodes := rfl
@[simp] theorem State.onLoop_reqs (s : State) (k : Nat) (g : Hvil → Hvil) : (s.onLoop k g).reqs = s.reqs := rfl
@[simp] theorem State.onLoop_chainSeq (s : State) (k : Nat) (g : Hvil → Hvil) : (s.onLoop k g).chainSeq = s.chainSeq := rfl
@[simp] theorem State.onLoop_cells (s : State) (k : Nat) (g : Hvil → Hvil) : (s.onLoop k g).cells = s.cells := rfl
@[simp] theorem State.onLoop_ests (s : State) (k : Nat) (g : Hvil → Hvil) : (s.onLoop k g).ests = s.ests := rfl
@[simp] theorem State.onLoop_sens (s : State) (k : Nat) (g : Hvil → Hvil) : (s.onLoop k g).sens = s.sens := rfl
@[simp] theorem State.onLoop_zones (s : State) (k : Nat) (g : Hvil → Hvil) : (s.onLoop k g).zones = s.zones := rfl
@[simp] theorem State.onLoop_therm (s : State) (k : Nat) (g : Hvil → Hvil) : (s.onLoop k g).therm = s.therm := rfl
@[simp] theorem State.onLoop_strs (s : State) (k : Nat) (g : Hvil → Hvil) : (s.onLoop k g).strs = s.strs := rfl
@[simp] theorem State.onLoop_pack (s : State) (k : Nat) (g : Hvil → Hvil) : (s.onLoop k g).pack = s.pack := rfl
@[simp] theorem State.onLoop_iso (s : State) (k : Nat) (g : Hvil → Hvil) : (s.onLoop k g).iso = s.iso := rfl
@[simp] theorem State.onLoop_lid (s : State) (k : Nat) (g : Hvil → Hvil) : (s.onLoop k g).lid = s.lid := rfl
@[simp] theorem State.onLoop_safe (s : State) (k : Nat) (g : Hvil → Hvil) : (s.onLoop k g).safe = s.safe := rfl
@[simp] theorem State.onLoop_msgs (s : State) (k : Nat) (g : Hvil → Hvil) : (s.onLoop k g).msgs = s.msgs := rfl
@[simp] theorem State.onLoop_axles (s : State) (k : Nat) (g : Hvil → Hvil) : (s.onLoop k g).axles = s.axles := rfl
@[simp] theorem State.onLoop_cans (s : State) (k : Nat) (g : Hvil → Hvil) : (s.onLoop k g).cans = s.cans := rfl
@[simp] theorem State.onLoop_pair (s : State) (k : Nat) (g : Hvil → Hvil) : (s.onLoop k g).pair = s.pair := rfl
@[simp] theorem State.onLoop_mram (s : State) (k : Nat) (g : Hvil → Hvil) : (s.onLoop k g).mram = s.mram := rfl
@[simp] theorem State.onLoop_repair (s : State) (k : Nat) (g : Hvil → Hvil) : (s.onLoop k g).repair = s.repair := rfl
@[simp] theorem State.onLoop_sent (s : State) (k : Nat) (g : Hvil → Hvil) : (s.onLoop k g).sent = s.sent := rfl
@[simp] theorem State.onLoop_free (s : State) (k : Nat) (g : Hvil → Hvil) : (s.onLoop k g).free = s.free := rfl
@[simp] theorem State.onLoop_loop (s : State) (k : Nat) (g : Hvil → Hvil) : (s.onLoop k g).loop k = g (s.loop k) :=
  Tab.getD_set_same _ _ _ _
theorem State.onLoop_loop_other (s : State) {k j : Nat} (g : Hvil → Hvil) (h : j ≠ k) : (s.onLoop k g).loop j = s.loop j :=
  Tab.getD_set_other _ _ _ h
@[simp] theorem State.onLoop_ring (s : State) (k : Nat) (g : Hvil → Hvil) (j : Nat) : (s.onLoop k g).ring j = s.ring j := rfl
@[simp] theorem State.onLoop_evr (s : State) (k : Nat) (g : Hvil → Hvil) (j : EvReg) : (s.onLoop k g).evr j = s.evr j := rfl
@[simp] theorem State.onLoop_irqc (s : State) (k : Nat) (g : Hvil → Hvil) (j : IrqBlk) : (s.onLoop k g).irqc j = s.irqc j := rfl
@[simp] theorem State.onLoop_fault (s : State) (k : Nat) (g : Hvil → Hvil) (j : Nat) : (s.onLoop k g).fault j = s.fault j := rfl
@[simp] theorem State.onLoop_disc (s : State) (k : Nat) (g : Hvil → Hvil) (j : Nat) : (s.onLoop k g).disc j = s.disc j := rfl
@[simp] theorem State.onLoop_ctr (s : State) (k : Nat) (g : Hvil → Hvil) (j : Nat) : (s.onLoop k g).ctr j = s.ctr j := rfl
@[simp] theorem State.onLoop_opn (s : State) (k : Nat) (g : Hvil → Hvil) (j : Nat) : (s.onLoop k g).opn j = s.opn j := rfl
@[simp] theorem State.onLoop_pre (s : State) (k : Nat) (g : Hvil → Hvil) (j : Nat) : (s.onLoop k g).pre j = s.pre j := rfl
@[simp] theorem State.onLoop_outc (s : State) (k : Nat) (g : Hvil → Hvil) (j : Nat) : (s.onLoop k g).outc j = s.outc j := rfl
@[simp] theorem State.onLoop_lsw (s : State) (k : Nat) (g : Hvil → Hvil) (j : Nat) : (s.onLoop k g).lsw j = s.lsw j := rfl
@[simp] theorem State.onLoop_port (s : State) (k : Nat) (g : Hvil → Hvil) (j : Nat) : (s.onLoop k g).port j = s.port j := rfl
@[simp] theorem State.onLoop_node (s : State) (k : Nat) (g : Hvil → Hvil) (j : Nat) : (s.onLoop k g).node j = s.node j := rfl
@[simp] theorem State.onLoop_req (s : State) (k : Nat) (g : Hvil → Hvil) (j : Nat) : (s.onLoop k g).req j = s.req j := rfl
@[simp] theorem State.onLoop_cseq (s : State) (k : Nat) (g : Hvil → Hvil) (j : Nat) : (s.onLoop k g).cseq j = s.cseq j := rfl
@[simp] theorem State.onLoop_cell (s : State) (k : Nat) (g : Hvil → Hvil) (j : Nat) : (s.onLoop k g).cell j = s.cell j := rfl
@[simp] theorem State.onLoop_est (s : State) (k : Nat) (g : Hvil → Hvil) (j : Nat) : (s.onLoop k g).est j = s.est j := rfl
@[simp] theorem State.onLoop_sensor (s : State) (k : Nat) (g : Hvil → Hvil) (j : Nat) : (s.onLoop k g).sensor j = s.sensor j := rfl
@[simp] theorem State.onLoop_zone (s : State) (k : Nat) (g : Hvil → Hvil) (j : Nat) : (s.onLoop k g).zone j = s.zone j := rfl
@[simp] theorem State.onLoop_str (s : State) (k : Nat) (g : Hvil → Hvil) (j : Nat) : (s.onLoop k g).str j = s.str j := rfl
@[simp] theorem State.onLoop_msg (s : State) (k : Nat) (g : Hvil → Hvil) (j : Nat) : (s.onLoop k g).msg j = s.msg j := rfl
@[simp] theorem State.onLoop_axle (s : State) (k : Nat) (g : Hvil → Hvil) (j : Nat) : (s.onLoop k g).axle j = s.axle j := rfl
@[simp] theorem State.onLoop_can (s : State) (k : Nat) (g : Hvil → Hvil) (j : Nat) : (s.onLoop k g).can j = s.can j := rfl

/-! ## `onMsg` -/

@[simp] theorem State.onMsg_msgs (s : State) (k : Nat) (g : SafeMsg → SafeMsg) :
    (s.onMsg k g).msgs = s.msgs.set k (g (s.msg k)) := rfl
@[simp] theorem State.onMsg_pending (s : State) (k : Nat) (g : SafeMsg → SafeMsg) : (s.onMsg k g).pending = s.pending := rfl
@[simp] theorem State.onMsg_time (s : State) (k : Nat) (g : SafeMsg → SafeMsg) : (s.onMsg k g).time = s.time := rfl
@[simp] theorem State.onMsg_pwr (s : State) (k : Nat) (g : SafeMsg → SafeMsg) : (s.onMsg k g).pwr = s.pwr := rfl
@[simp] theorem State.onMsg_host (s : State) (k : Nat) (g : SafeMsg → SafeMsg) : (s.onMsg k g).host = s.host := rfl
@[simp] theorem State.onMsg_rings (s : State) (k : Nat) (g : SafeMsg → SafeMsg) : (s.onMsg k g).rings = s.rings := rfl
@[simp] theorem State.onMsg_ev (s : State) (k : Nat) (g : SafeMsg → SafeMsg) : (s.onMsg k g).ev = s.ev := rfl
@[simp] theorem State.onMsg_irqCfg (s : State) (k : Nat) (g : SafeMsg → SafeMsg) : (s.onMsg k g).irqCfg = s.irqCfg := rfl
@[simp] theorem State.onMsg_fuse (s : State) (k : Nat) (g : SafeMsg → SafeMsg) : (s.onMsg k g).fuse = s.fuse := rfl
@[simp] theorem State.onMsg_cfg (s : State) (k : Nat) (g : SafeMsg → SafeMsg) : (s.onMsg k g).cfg = s.cfg := rfl
@[simp] theorem State.onMsg_faults (s : State) (k : Nat) (g : SafeMsg → SafeMsg) : (s.onMsg k g).faults = s.faults := rfl
@[simp] theorem State.onMsg_wade (s : State) (k : Nat) (g : SafeMsg → SafeMsg) : (s.onMsg k g).wade = s.wade := rfl
@[simp] theorem State.onMsg_discs (s : State) (k : Nat) (g : SafeMsg → SafeMsg) : (s.onMsg k g).discs = s.discs := rfl
@[simp] theorem State.onMsg_ctrs (s : State) (k : Nat) (g : SafeMsg → SafeMsg) : (s.onMsg k g).ctrs = s.ctrs := rfl
@[simp] theorem State.onMsg_opens (s : State) (k : Nat) (g : SafeMsg → SafeMsg) : (s.onMsg k g).opens = s.opens := rfl
@[simp] theorem State.onMsg_pres (s : State) (k : Nat) (g : SafeMsg → SafeMsg) : (s.onMsg k g).pres = s.pres := rfl
@[simp] theorem State.onMsg_seq (s : State) (k : Nat) (g : SafeMsg → SafeMsg) : (s.onMsg k g).seq = s.seq := rfl
@[simp] theorem State.onMsg_outs (s : State) (k : Nat) (g : SafeMsg → SafeMsg) : (s.onMsg k g).outs = s.outs := rfl
@[simp] theorem State.onMsg_lsws (s : State) (k : Nat) (g : SafeMsg → SafeMsg) : (s.onMsg k g).lsws = s.lsws := rfl
@[simp] theorem State.onMsg_drv (s : State) (k : Nat) (g : SafeMsg → SafeMsg) : (s.onMsg k g).drv = s.drv := rfl
@[simp] theorem State.onMsg_ports (s : State) (k : Nat) (g : SafeMsg → SafeMsg) : (s.onMsg k g).ports = s.ports := rfl
@[simp] theorem State.onMsg_nodes (s : State) (k : Nat) (g : SafeMsg → SafeMsg) : (s.onMsg k g).nodes = s.nodes := rfl
@[simp] theorem State.onMsg_reqs (s : State) (k : Nat) (g : SafeMsg → SafeMsg) : (s.onMsg k g).reqs = s.reqs := rfl
@[simp] theorem State.onMsg_chainSeq (s : State) (k : Nat) (g : SafeMsg → SafeMsg) : (s.onMsg k g).chainSeq = s.chainSeq := rfl
@[simp] theorem State.onMsg_cells (s : State) (k : Nat) (g : SafeMsg → SafeMsg) : (s.onMsg k g).cells = s.cells := rfl
@[simp] theorem State.onMsg_ests (s : State) (k : Nat) (g : SafeMsg → SafeMsg) : (s.onMsg k g).ests = s.ests := rfl
@[simp] theorem State.onMsg_sens (s : State) (k : Nat) (g : SafeMsg → SafeMsg) : (s.onMsg k g).sens = s.sens := rfl
@[simp] theorem State.onMsg_zones (s : State) (k : Nat) (g : SafeMsg → SafeMsg) : (s.onMsg k g).zones = s.zones := rfl
@[simp] theorem State.onMsg_therm (s : State) (k : Nat) (g : SafeMsg → SafeMsg) : (s.onMsg k g).therm = s.therm := rfl
@[simp] theorem State.onMsg_strs (s : State) (k : Nat) (g : SafeMsg → SafeMsg) : (s.onMsg k g).strs = s.strs := rfl
@[simp] theorem State.onMsg_pack (s : State) (k : Nat) (g : SafeMsg → SafeMsg) : (s.onMsg k g).pack = s.pack := rfl
@[simp] theorem State.onMsg_hvil (s : State) (k : Nat) (g : SafeMsg → SafeMsg) : (s.onMsg k g).hvil = s.hvil := rfl
@[simp] theorem State.onMsg_iso (s : State) (k : Nat) (g : SafeMsg → SafeMsg) : (s.onMsg k g).iso = s.iso := rfl
@[simp] theorem State.onMsg_lid (s : State) (k : Nat) (g : SafeMsg → SafeMsg) : (s.onMsg k g).lid = s.lid := rfl
@[simp] theorem State.onMsg_safe (s : State) (k : Nat) (g : SafeMsg → SafeMsg) : (s.onMsg k g).safe = s.safe := rfl
@[simp] theorem State.onMsg_axles (s : State) (k : Nat) (g : SafeMsg → SafeMsg) : (s.onMsg k g).axles = s.axles := rfl
@[simp] theorem State.onMsg_cans (s : State) (k : Nat) (g : SafeMsg → SafeMsg) : (s.onMsg k g).cans = s.cans := rfl
@[simp] theorem State.onMsg_pair (s : State) (k : Nat) (g : SafeMsg → SafeMsg) : (s.onMsg k g).pair = s.pair := rfl
@[simp] theorem State.onMsg_mram (s : State) (k : Nat) (g : SafeMsg → SafeMsg) : (s.onMsg k g).mram = s.mram := rfl
@[simp] theorem State.onMsg_repair (s : State) (k : Nat) (g : SafeMsg → SafeMsg) : (s.onMsg k g).repair = s.repair := rfl
@[simp] theorem State.onMsg_sent (s : State) (k : Nat) (g : SafeMsg → SafeMsg) : (s.onMsg k g).sent = s.sent := rfl
@[simp] theorem State.onMsg_free (s : State) (k : Nat) (g : SafeMsg → SafeMsg) : (s.onMsg k g).free = s.free := rfl
@[simp] theorem State.onMsg_msg (s : State) (k : Nat) (g : SafeMsg → SafeMsg) : (s.onMsg k g).msg k = g (s.msg k) :=
  Tab.getD_set_same _ _ _ _
theorem State.onMsg_msg_other (s : State) {k j : Nat} (g : SafeMsg → SafeMsg) (h : j ≠ k) : (s.onMsg k g).msg j = s.msg j :=
  Tab.getD_set_other _ _ _ h
@[simp] theorem State.onMsg_ring (s : State) (k : Nat) (g : SafeMsg → SafeMsg) (j : Nat) : (s.onMsg k g).ring j = s.ring j := rfl
@[simp] theorem State.onMsg_evr (s : State) (k : Nat) (g : SafeMsg → SafeMsg) (j : EvReg) : (s.onMsg k g).evr j = s.evr j := rfl
@[simp] theorem State.onMsg_irqc (s : State) (k : Nat) (g : SafeMsg → SafeMsg) (j : IrqBlk) : (s.onMsg k g).irqc j = s.irqc j := rfl
@[simp] theorem State.onMsg_fault (s : State) (k : Nat) (g : SafeMsg → SafeMsg) (j : Nat) : (s.onMsg k g).fault j = s.fault j := rfl
@[simp] theorem State.onMsg_disc (s : State) (k : Nat) (g : SafeMsg → SafeMsg) (j : Nat) : (s.onMsg k g).disc j = s.disc j := rfl
@[simp] theorem State.onMsg_ctr (s : State) (k : Nat) (g : SafeMsg → SafeMsg) (j : Nat) : (s.onMsg k g).ctr j = s.ctr j := rfl
@[simp] theorem State.onMsg_opn (s : State) (k : Nat) (g : SafeMsg → SafeMsg) (j : Nat) : (s.onMsg k g).opn j = s.opn j := rfl
@[simp] theorem State.onMsg_pre (s : State) (k : Nat) (g : SafeMsg → SafeMsg) (j : Nat) : (s.onMsg k g).pre j = s.pre j := rfl
@[simp] theorem State.onMsg_outc (s : State) (k : Nat) (g : SafeMsg → SafeMsg) (j : Nat) : (s.onMsg k g).outc j = s.outc j := rfl
@[simp] theorem State.onMsg_lsw (s : State) (k : Nat) (g : SafeMsg → SafeMsg) (j : Nat) : (s.onMsg k g).lsw j = s.lsw j := rfl
@[simp] theorem State.onMsg_port (s : State) (k : Nat) (g : SafeMsg → SafeMsg) (j : Nat) : (s.onMsg k g).port j = s.port j := rfl
@[simp] theorem State.onMsg_node (s : State) (k : Nat) (g : SafeMsg → SafeMsg) (j : Nat) : (s.onMsg k g).node j = s.node j := rfl
@[simp] theorem State.onMsg_req (s : State) (k : Nat) (g : SafeMsg → SafeMsg) (j : Nat) : (s.onMsg k g).req j = s.req j := rfl
@[simp] theorem State.onMsg_cseq (s : State) (k : Nat) (g : SafeMsg → SafeMsg) (j : Nat) : (s.onMsg k g).cseq j = s.cseq j := rfl
@[simp] theorem State.onMsg_cell (s : State) (k : Nat) (g : SafeMsg → SafeMsg) (j : Nat) : (s.onMsg k g).cell j = s.cell j := rfl
@[simp] theorem State.onMsg_est (s : State) (k : Nat) (g : SafeMsg → SafeMsg) (j : Nat) : (s.onMsg k g).est j = s.est j := rfl
@[simp] theorem State.onMsg_sensor (s : State) (k : Nat) (g : SafeMsg → SafeMsg) (j : Nat) : (s.onMsg k g).sensor j = s.sensor j := rfl
@[simp] theorem State.onMsg_zone (s : State) (k : Nat) (g : SafeMsg → SafeMsg) (j : Nat) : (s.onMsg k g).zone j = s.zone j := rfl
@[simp] theorem State.onMsg_str (s : State) (k : Nat) (g : SafeMsg → SafeMsg) (j : Nat) : (s.onMsg k g).str j = s.str j := rfl
@[simp] theorem State.onMsg_loop (s : State) (k : Nat) (g : SafeMsg → SafeMsg) (j : Nat) : (s.onMsg k g).loop j = s.loop j := rfl
@[simp] theorem State.onMsg_axle (s : State) (k : Nat) (g : SafeMsg → SafeMsg) (j : Nat) : (s.onMsg k g).axle j = s.axle j := rfl
@[simp] theorem State.onMsg_can (s : State) (k : Nat) (g : SafeMsg → SafeMsg) (j : Nat) : (s.onMsg k g).can j = s.can j := rfl

/-! ## `onAxle` -/

@[simp] theorem State.onAxle_axles (s : State) (k : Nat) (g : Axle → Axle) :
    (s.onAxle k g).axles = s.axles.set k (g (s.axle k)) := rfl
@[simp] theorem State.onAxle_pending (s : State) (k : Nat) (g : Axle → Axle) : (s.onAxle k g).pending = s.pending := rfl
@[simp] theorem State.onAxle_time (s : State) (k : Nat) (g : Axle → Axle) : (s.onAxle k g).time = s.time := rfl
@[simp] theorem State.onAxle_pwr (s : State) (k : Nat) (g : Axle → Axle) : (s.onAxle k g).pwr = s.pwr := rfl
@[simp] theorem State.onAxle_host (s : State) (k : Nat) (g : Axle → Axle) : (s.onAxle k g).host = s.host := rfl
@[simp] theorem State.onAxle_rings (s : State) (k : Nat) (g : Axle → Axle) : (s.onAxle k g).rings = s.rings := rfl
@[simp] theorem State.onAxle_ev (s : State) (k : Nat) (g : Axle → Axle) : (s.onAxle k g).ev = s.ev := rfl
@[simp] theorem State.onAxle_irqCfg (s : State) (k : Nat) (g : Axle → Axle) : (s.onAxle k g).irqCfg = s.irqCfg := rfl
@[simp] theorem State.onAxle_fuse (s : State) (k : Nat) (g : Axle → Axle) : (s.onAxle k g).fuse = s.fuse := rfl
@[simp] theorem State.onAxle_cfg (s : State) (k : Nat) (g : Axle → Axle) : (s.onAxle k g).cfg = s.cfg := rfl
@[simp] theorem State.onAxle_faults (s : State) (k : Nat) (g : Axle → Axle) : (s.onAxle k g).faults = s.faults := rfl
@[simp] theorem State.onAxle_wade (s : State) (k : Nat) (g : Axle → Axle) : (s.onAxle k g).wade = s.wade := rfl
@[simp] theorem State.onAxle_discs (s : State) (k : Nat) (g : Axle → Axle) : (s.onAxle k g).discs = s.discs := rfl
@[simp] theorem State.onAxle_ctrs (s : State) (k : Nat) (g : Axle → Axle) : (s.onAxle k g).ctrs = s.ctrs := rfl
@[simp] theorem State.onAxle_opens (s : State) (k : Nat) (g : Axle → Axle) : (s.onAxle k g).opens = s.opens := rfl
@[simp] theorem State.onAxle_pres (s : State) (k : Nat) (g : Axle → Axle) : (s.onAxle k g).pres = s.pres := rfl
@[simp] theorem State.onAxle_seq (s : State) (k : Nat) (g : Axle → Axle) : (s.onAxle k g).seq = s.seq := rfl
@[simp] theorem State.onAxle_outs (s : State) (k : Nat) (g : Axle → Axle) : (s.onAxle k g).outs = s.outs := rfl
@[simp] theorem State.onAxle_lsws (s : State) (k : Nat) (g : Axle → Axle) : (s.onAxle k g).lsws = s.lsws := rfl
@[simp] theorem State.onAxle_drv (s : State) (k : Nat) (g : Axle → Axle) : (s.onAxle k g).drv = s.drv := rfl
@[simp] theorem State.onAxle_ports (s : State) (k : Nat) (g : Axle → Axle) : (s.onAxle k g).ports = s.ports := rfl
@[simp] theorem State.onAxle_nodes (s : State) (k : Nat) (g : Axle → Axle) : (s.onAxle k g).nodes = s.nodes := rfl
@[simp] theorem State.onAxle_reqs (s : State) (k : Nat) (g : Axle → Axle) : (s.onAxle k g).reqs = s.reqs := rfl
@[simp] theorem State.onAxle_chainSeq (s : State) (k : Nat) (g : Axle → Axle) : (s.onAxle k g).chainSeq = s.chainSeq := rfl
@[simp] theorem State.onAxle_cells (s : State) (k : Nat) (g : Axle → Axle) : (s.onAxle k g).cells = s.cells := rfl
@[simp] theorem State.onAxle_ests (s : State) (k : Nat) (g : Axle → Axle) : (s.onAxle k g).ests = s.ests := rfl
@[simp] theorem State.onAxle_sens (s : State) (k : Nat) (g : Axle → Axle) : (s.onAxle k g).sens = s.sens := rfl
@[simp] theorem State.onAxle_zones (s : State) (k : Nat) (g : Axle → Axle) : (s.onAxle k g).zones = s.zones := rfl
@[simp] theorem State.onAxle_therm (s : State) (k : Nat) (g : Axle → Axle) : (s.onAxle k g).therm = s.therm := rfl
@[simp] theorem State.onAxle_strs (s : State) (k : Nat) (g : Axle → Axle) : (s.onAxle k g).strs = s.strs := rfl
@[simp] theorem State.onAxle_pack (s : State) (k : Nat) (g : Axle → Axle) : (s.onAxle k g).pack = s.pack := rfl
@[simp] theorem State.onAxle_hvil (s : State) (k : Nat) (g : Axle → Axle) : (s.onAxle k g).hvil = s.hvil := rfl
@[simp] theorem State.onAxle_iso (s : State) (k : Nat) (g : Axle → Axle) : (s.onAxle k g).iso = s.iso := rfl
@[simp] theorem State.onAxle_lid (s : State) (k : Nat) (g : Axle → Axle) : (s.onAxle k g).lid = s.lid := rfl
@[simp] theorem State.onAxle_safe (s : State) (k : Nat) (g : Axle → Axle) : (s.onAxle k g).safe = s.safe := rfl
@[simp] theorem State.onAxle_msgs (s : State) (k : Nat) (g : Axle → Axle) : (s.onAxle k g).msgs = s.msgs := rfl
@[simp] theorem State.onAxle_cans (s : State) (k : Nat) (g : Axle → Axle) : (s.onAxle k g).cans = s.cans := rfl
@[simp] theorem State.onAxle_pair (s : State) (k : Nat) (g : Axle → Axle) : (s.onAxle k g).pair = s.pair := rfl
@[simp] theorem State.onAxle_mram (s : State) (k : Nat) (g : Axle → Axle) : (s.onAxle k g).mram = s.mram := rfl
@[simp] theorem State.onAxle_repair (s : State) (k : Nat) (g : Axle → Axle) : (s.onAxle k g).repair = s.repair := rfl
@[simp] theorem State.onAxle_sent (s : State) (k : Nat) (g : Axle → Axle) : (s.onAxle k g).sent = s.sent := rfl
@[simp] theorem State.onAxle_free (s : State) (k : Nat) (g : Axle → Axle) : (s.onAxle k g).free = s.free := rfl
@[simp] theorem State.onAxle_axle (s : State) (k : Nat) (g : Axle → Axle) : (s.onAxle k g).axle k = g (s.axle k) :=
  Tab.getD_set_same _ _ _ _
theorem State.onAxle_axle_other (s : State) {k j : Nat} (g : Axle → Axle) (h : j ≠ k) : (s.onAxle k g).axle j = s.axle j :=
  Tab.getD_set_other _ _ _ h
@[simp] theorem State.onAxle_ring (s : State) (k : Nat) (g : Axle → Axle) (j : Nat) : (s.onAxle k g).ring j = s.ring j := rfl
@[simp] theorem State.onAxle_evr (s : State) (k : Nat) (g : Axle → Axle) (j : EvReg) : (s.onAxle k g).evr j = s.evr j := rfl
@[simp] theorem State.onAxle_irqc (s : State) (k : Nat) (g : Axle → Axle) (j : IrqBlk) : (s.onAxle k g).irqc j = s.irqc j := rfl
@[simp] theorem State.onAxle_fault (s : State) (k : Nat) (g : Axle → Axle) (j : Nat) : (s.onAxle k g).fault j = s.fault j := rfl
@[simp] theorem State.onAxle_disc (s : State) (k : Nat) (g : Axle → Axle) (j : Nat) : (s.onAxle k g).disc j = s.disc j := rfl
@[simp] theorem State.onAxle_ctr (s : State) (k : Nat) (g : Axle → Axle) (j : Nat) : (s.onAxle k g).ctr j = s.ctr j := rfl
@[simp] theorem State.onAxle_opn (s : State) (k : Nat) (g : Axle → Axle) (j : Nat) : (s.onAxle k g).opn j = s.opn j := rfl
@[simp] theorem State.onAxle_pre (s : State) (k : Nat) (g : Axle → Axle) (j : Nat) : (s.onAxle k g).pre j = s.pre j := rfl
@[simp] theorem State.onAxle_outc (s : State) (k : Nat) (g : Axle → Axle) (j : Nat) : (s.onAxle k g).outc j = s.outc j := rfl
@[simp] theorem State.onAxle_lsw (s : State) (k : Nat) (g : Axle → Axle) (j : Nat) : (s.onAxle k g).lsw j = s.lsw j := rfl
@[simp] theorem State.onAxle_port (s : State) (k : Nat) (g : Axle → Axle) (j : Nat) : (s.onAxle k g).port j = s.port j := rfl
@[simp] theorem State.onAxle_node (s : State) (k : Nat) (g : Axle → Axle) (j : Nat) : (s.onAxle k g).node j = s.node j := rfl
@[simp] theorem State.onAxle_req (s : State) (k : Nat) (g : Axle → Axle) (j : Nat) : (s.onAxle k g).req j = s.req j := rfl
@[simp] theorem State.onAxle_cseq (s : State) (k : Nat) (g : Axle → Axle) (j : Nat) : (s.onAxle k g).cseq j = s.cseq j := rfl
@[simp] theorem State.onAxle_cell (s : State) (k : Nat) (g : Axle → Axle) (j : Nat) : (s.onAxle k g).cell j = s.cell j := rfl
@[simp] theorem State.onAxle_est (s : State) (k : Nat) (g : Axle → Axle) (j : Nat) : (s.onAxle k g).est j = s.est j := rfl
@[simp] theorem State.onAxle_sensor (s : State) (k : Nat) (g : Axle → Axle) (j : Nat) : (s.onAxle k g).sensor j = s.sensor j := rfl
@[simp] theorem State.onAxle_zone (s : State) (k : Nat) (g : Axle → Axle) (j : Nat) : (s.onAxle k g).zone j = s.zone j := rfl
@[simp] theorem State.onAxle_str (s : State) (k : Nat) (g : Axle → Axle) (j : Nat) : (s.onAxle k g).str j = s.str j := rfl
@[simp] theorem State.onAxle_loop (s : State) (k : Nat) (g : Axle → Axle) (j : Nat) : (s.onAxle k g).loop j = s.loop j := rfl
@[simp] theorem State.onAxle_msg (s : State) (k : Nat) (g : Axle → Axle) (j : Nat) : (s.onAxle k g).msg j = s.msg j := rfl
@[simp] theorem State.onAxle_can (s : State) (k : Nat) (g : Axle → Axle) (j : Nat) : (s.onAxle k g).can j = s.can j := rfl

/-! ## `onCan` -/

@[simp] theorem State.onCan_cans (s : State) (k : Nat) (g : CanCtl → CanCtl) :
    (s.onCan k g).cans = s.cans.set k (g (s.can k)) := rfl
@[simp] theorem State.onCan_pending (s : State) (k : Nat) (g : CanCtl → CanCtl) : (s.onCan k g).pending = s.pending := rfl
@[simp] theorem State.onCan_time (s : State) (k : Nat) (g : CanCtl → CanCtl) : (s.onCan k g).time = s.time := rfl
@[simp] theorem State.onCan_pwr (s : State) (k : Nat) (g : CanCtl → CanCtl) : (s.onCan k g).pwr = s.pwr := rfl
@[simp] theorem State.onCan_host (s : State) (k : Nat) (g : CanCtl → CanCtl) : (s.onCan k g).host = s.host := rfl
@[simp] theorem State.onCan_rings (s : State) (k : Nat) (g : CanCtl → CanCtl) : (s.onCan k g).rings = s.rings := rfl
@[simp] theorem State.onCan_ev (s : State) (k : Nat) (g : CanCtl → CanCtl) : (s.onCan k g).ev = s.ev := rfl
@[simp] theorem State.onCan_irqCfg (s : State) (k : Nat) (g : CanCtl → CanCtl) : (s.onCan k g).irqCfg = s.irqCfg := rfl
@[simp] theorem State.onCan_fuse (s : State) (k : Nat) (g : CanCtl → CanCtl) : (s.onCan k g).fuse = s.fuse := rfl
@[simp] theorem State.onCan_cfg (s : State) (k : Nat) (g : CanCtl → CanCtl) : (s.onCan k g).cfg = s.cfg := rfl
@[simp] theorem State.onCan_faults (s : State) (k : Nat) (g : CanCtl → CanCtl) : (s.onCan k g).faults = s.faults := rfl
@[simp] theorem State.onCan_wade (s : State) (k : Nat) (g : CanCtl → CanCtl) : (s.onCan k g).wade = s.wade := rfl
@[simp] theorem State.onCan_discs (s : State) (k : Nat) (g : CanCtl → CanCtl) : (s.onCan k g).discs = s.discs := rfl
@[simp] theorem State.onCan_ctrs (s : State) (k : Nat) (g : CanCtl → CanCtl) : (s.onCan k g).ctrs = s.ctrs := rfl
@[simp] theorem State.onCan_opens (s : State) (k : Nat) (g : CanCtl → CanCtl) : (s.onCan k g).opens = s.opens := rfl
@[simp] theorem State.onCan_pres (s : State) (k : Nat) (g : CanCtl → CanCtl) : (s.onCan k g).pres = s.pres := rfl
@[simp] theorem State.onCan_seq (s : State) (k : Nat) (g : CanCtl → CanCtl) : (s.onCan k g).seq = s.seq := rfl
@[simp] theorem State.onCan_outs (s : State) (k : Nat) (g : CanCtl → CanCtl) : (s.onCan k g).outs = s.outs := rfl
@[simp] theorem State.onCan_lsws (s : State) (k : Nat) (g : CanCtl → CanCtl) : (s.onCan k g).lsws = s.lsws := rfl
@[simp] theorem State.onCan_drv (s : State) (k : Nat) (g : CanCtl → CanCtl) : (s.onCan k g).drv = s.drv := rfl
@[simp] theorem State.onCan_ports (s : State) (k : Nat) (g : CanCtl → CanCtl) : (s.onCan k g).ports = s.ports := rfl
@[simp] theorem State.onCan_nodes (s : State) (k : Nat) (g : CanCtl → CanCtl) : (s.onCan k g).nodes = s.nodes := rfl
@[simp] theorem State.onCan_reqs (s : State) (k : Nat) (g : CanCtl → CanCtl) : (s.onCan k g).reqs = s.reqs := rfl
@[simp] theorem State.onCan_chainSeq (s : State) (k : Nat) (g : CanCtl → CanCtl) : (s.onCan k g).chainSeq = s.chainSeq := rfl
@[simp] theorem State.onCan_cells (s : State) (k : Nat) (g : CanCtl → CanCtl) : (s.onCan k g).cells = s.cells := rfl
@[simp] theorem State.onCan_ests (s : State) (k : Nat) (g : CanCtl → CanCtl) : (s.onCan k g).ests = s.ests := rfl
@[simp] theorem State.onCan_sens (s : State) (k : Nat) (g : CanCtl → CanCtl) : (s.onCan k g).sens = s.sens := rfl
@[simp] theorem State.onCan_zones (s : State) (k : Nat) (g : CanCtl → CanCtl) : (s.onCan k g).zones = s.zones := rfl
@[simp] theorem State.onCan_therm (s : State) (k : Nat) (g : CanCtl → CanCtl) : (s.onCan k g).therm = s.therm := rfl
@[simp] theorem State.onCan_strs (s : State) (k : Nat) (g : CanCtl → CanCtl) : (s.onCan k g).strs = s.strs := rfl
@[simp] theorem State.onCan_pack (s : State) (k : Nat) (g : CanCtl → CanCtl) : (s.onCan k g).pack = s.pack := rfl
@[simp] theorem State.onCan_hvil (s : State) (k : Nat) (g : CanCtl → CanCtl) : (s.onCan k g).hvil = s.hvil := rfl
@[simp] theorem State.onCan_iso (s : State) (k : Nat) (g : CanCtl → CanCtl) : (s.onCan k g).iso = s.iso := rfl
@[simp] theorem State.onCan_lid (s : State) (k : Nat) (g : CanCtl → CanCtl) : (s.onCan k g).lid = s.lid := rfl
@[simp] theorem State.onCan_safe (s : State) (k : Nat) (g : CanCtl → CanCtl) : (s.onCan k g).safe = s.safe := rfl
@[simp] theorem State.onCan_msgs (s : State) (k : Nat) (g : CanCtl → CanCtl) : (s.onCan k g).msgs = s.msgs := rfl
@[simp] theorem State.onCan_axles (s : State) (k : Nat) (g : CanCtl → CanCtl) : (s.onCan k g).axles = s.axles := rfl
@[simp] theorem State.onCan_pair (s : State) (k : Nat) (g : CanCtl → CanCtl) : (s.onCan k g).pair = s.pair := rfl
@[simp] theorem State.onCan_mram (s : State) (k : Nat) (g : CanCtl → CanCtl) : (s.onCan k g).mram = s.mram := rfl
@[simp] theorem State.onCan_repair (s : State) (k : Nat) (g : CanCtl → CanCtl) : (s.onCan k g).repair = s.repair := rfl
@[simp] theorem State.onCan_sent (s : State) (k : Nat) (g : CanCtl → CanCtl) : (s.onCan k g).sent = s.sent := rfl
@[simp] theorem State.onCan_free (s : State) (k : Nat) (g : CanCtl → CanCtl) : (s.onCan k g).free = s.free := rfl
@[simp] theorem State.onCan_can (s : State) (k : Nat) (g : CanCtl → CanCtl) : (s.onCan k g).can k = g (s.can k) :=
  Tab.getD_set_same _ _ _ _
theorem State.onCan_can_other (s : State) {k j : Nat} (g : CanCtl → CanCtl) (h : j ≠ k) : (s.onCan k g).can j = s.can j :=
  Tab.getD_set_other _ _ _ h
@[simp] theorem State.onCan_ring (s : State) (k : Nat) (g : CanCtl → CanCtl) (j : Nat) : (s.onCan k g).ring j = s.ring j := rfl
@[simp] theorem State.onCan_evr (s : State) (k : Nat) (g : CanCtl → CanCtl) (j : EvReg) : (s.onCan k g).evr j = s.evr j := rfl
@[simp] theorem State.onCan_irqc (s : State) (k : Nat) (g : CanCtl → CanCtl) (j : IrqBlk) : (s.onCan k g).irqc j = s.irqc j := rfl
@[simp] theorem State.onCan_fault (s : State) (k : Nat) (g : CanCtl → CanCtl) (j : Nat) : (s.onCan k g).fault j = s.fault j := rfl
@[simp] theorem State.onCan_disc (s : State) (k : Nat) (g : CanCtl → CanCtl) (j : Nat) : (s.onCan k g).disc j = s.disc j := rfl
@[simp] theorem State.onCan_ctr (s : State) (k : Nat) (g : CanCtl → CanCtl) (j : Nat) : (s.onCan k g).ctr j = s.ctr j := rfl
@[simp] theorem State.onCan_opn (s : State) (k : Nat) (g : CanCtl → CanCtl) (j : Nat) : (s.onCan k g).opn j = s.opn j := rfl
@[simp] theorem State.onCan_pre (s : State) (k : Nat) (g : CanCtl → CanCtl) (j : Nat) : (s.onCan k g).pre j = s.pre j := rfl
@[simp] theorem State.onCan_outc (s : State) (k : Nat) (g : CanCtl → CanCtl) (j : Nat) : (s.onCan k g).outc j = s.outc j := rfl
@[simp] theorem State.onCan_lsw (s : State) (k : Nat) (g : CanCtl → CanCtl) (j : Nat) : (s.onCan k g).lsw j = s.lsw j := rfl
@[simp] theorem State.onCan_port (s : State) (k : Nat) (g : CanCtl → CanCtl) (j : Nat) : (s.onCan k g).port j = s.port j := rfl
@[simp] theorem State.onCan_node (s : State) (k : Nat) (g : CanCtl → CanCtl) (j : Nat) : (s.onCan k g).node j = s.node j := rfl
@[simp] theorem State.onCan_req (s : State) (k : Nat) (g : CanCtl → CanCtl) (j : Nat) : (s.onCan k g).req j = s.req j := rfl
@[simp] theorem State.onCan_cseq (s : State) (k : Nat) (g : CanCtl → CanCtl) (j : Nat) : (s.onCan k g).cseq j = s.cseq j := rfl
@[simp] theorem State.onCan_cell (s : State) (k : Nat) (g : CanCtl → CanCtl) (j : Nat) : (s.onCan k g).cell j = s.cell j := rfl
@[simp] theorem State.onCan_est (s : State) (k : Nat) (g : CanCtl → CanCtl) (j : Nat) : (s.onCan k g).est j = s.est j := rfl
@[simp] theorem State.onCan_sensor (s : State) (k : Nat) (g : CanCtl → CanCtl) (j : Nat) : (s.onCan k g).sensor j = s.sensor j := rfl
@[simp] theorem State.onCan_zone (s : State) (k : Nat) (g : CanCtl → CanCtl) (j : Nat) : (s.onCan k g).zone j = s.zone j := rfl
@[simp] theorem State.onCan_str (s : State) (k : Nat) (g : CanCtl → CanCtl) (j : Nat) : (s.onCan k g).str j = s.str j := rfl
@[simp] theorem State.onCan_loop (s : State) (k : Nat) (g : CanCtl → CanCtl) (j : Nat) : (s.onCan k g).loop j = s.loop j := rfl
@[simp] theorem State.onCan_msg (s : State) (k : Nat) (g : CanCtl → CanCtl) (j : Nat) : (s.onCan k g).msg j = s.msg j := rfl
@[simp] theorem State.onCan_axle (s : State) (k : Nat) (g : CanCtl → CanCtl) (j : Nat) : (s.onCan k g).axle j = s.axle j := rfl

/-! ## The time base -/

@[simp] theorem State.at_now (s : State) (t : Nat) : (s.at t).now = max s.now t := rfl
@[simp] theorem State.at_pending (s : State) (t : Nat) : (s.at t).pending = s.pending := rfl
@[simp] theorem State.at_pwr (s : State) (t : Nat) : (s.at t).pwr = s.pwr := rfl
@[simp] theorem State.at_host (s : State) (t : Nat) : (s.at t).host = s.host := rfl
@[simp] theorem State.at_rings (s : State) (t : Nat) : (s.at t).rings = s.rings := rfl
@[simp] theorem State.at_ev (s : State) (t : Nat) : (s.at t).ev = s.ev := rfl
@[simp] theorem State.at_irqCfg (s : State) (t : Nat) : (s.at t).irqCfg = s.irqCfg := rfl
@[simp] theorem State.at_fuse (s : State) (t : Nat) : (s.at t).fuse = s.fuse := rfl
@[simp] theorem State.at_cfg (s : State) (t : Nat) : (s.at t).cfg = s.cfg := rfl
@[simp] theorem State.at_faults (s : State) (t : Nat) : (s.at t).faults = s.faults := rfl
@[simp] theorem State.at_wade (s : State) (t : Nat) : (s.at t).wade = s.wade := rfl
@[simp] theorem State.at_discs (s : State) (t : Nat) : (s.at t).discs = s.discs := rfl
@[simp] theorem State.at_ctrs (s : State) (t : Nat) : (s.at t).ctrs = s.ctrs := rfl
@[simp] theorem State.at_opens (s : State) (t : Nat) : (s.at t).opens = s.opens := rfl
@[simp] theorem State.at_pres (s : State) (t : Nat) : (s.at t).pres = s.pres := rfl
@[simp] theorem State.at_seq (s : State) (t : Nat) : (s.at t).seq = s.seq := rfl
@[simp] theorem State.at_outs (s : State) (t : Nat) : (s.at t).outs = s.outs := rfl
@[simp] theorem State.at_lsws (s : State) (t : Nat) : (s.at t).lsws = s.lsws := rfl
@[simp] theorem State.at_drv (s : State) (t : Nat) : (s.at t).drv = s.drv := rfl
@[simp] theorem State.at_ports (s : State) (t : Nat) : (s.at t).ports = s.ports := rfl
@[simp] theorem State.at_nodes (s : State) (t : Nat) : (s.at t).nodes = s.nodes := rfl
@[simp] theorem State.at_reqs (s : State) (t : Nat) : (s.at t).reqs = s.reqs := rfl
@[simp] theorem State.at_chainSeq (s : State) (t : Nat) : (s.at t).chainSeq = s.chainSeq := rfl
@[simp] theorem State.at_cells (s : State) (t : Nat) : (s.at t).cells = s.cells := rfl
@[simp] theorem State.at_ests (s : State) (t : Nat) : (s.at t).ests = s.ests := rfl
@[simp] theorem State.at_sens (s : State) (t : Nat) : (s.at t).sens = s.sens := rfl
@[simp] theorem State.at_zones (s : State) (t : Nat) : (s.at t).zones = s.zones := rfl
@[simp] theorem State.at_therm (s : State) (t : Nat) : (s.at t).therm = s.therm := rfl
@[simp] theorem State.at_strs (s : State) (t : Nat) : (s.at t).strs = s.strs := rfl
@[simp] theorem State.at_pack (s : State) (t : Nat) : (s.at t).pack = s.pack := rfl
@[simp] theorem State.at_hvil (s : State) (t : Nat) : (s.at t).hvil = s.hvil := rfl
@[simp] theorem State.at_iso (s : State) (t : Nat) : (s.at t).iso = s.iso := rfl
@[simp] theorem State.at_lid (s : State) (t : Nat) : (s.at t).lid = s.lid := rfl
@[simp] theorem State.at_safe (s : State) (t : Nat) : (s.at t).safe = s.safe := rfl
@[simp] theorem State.at_msgs (s : State) (t : Nat) : (s.at t).msgs = s.msgs := rfl
@[simp] theorem State.at_axles (s : State) (t : Nat) : (s.at t).axles = s.axles := rfl
@[simp] theorem State.at_cans (s : State) (t : Nat) : (s.at t).cans = s.cans := rfl
@[simp] theorem State.at_pair (s : State) (t : Nat) : (s.at t).pair = s.pair := rfl
@[simp] theorem State.at_mram (s : State) (t : Nat) : (s.at t).mram = s.mram := rfl
@[simp] theorem State.at_repair (s : State) (t : Nat) : (s.at t).repair = s.repair := rfl
@[simp] theorem State.at_sent (s : State) (t : Nat) : (s.at t).sent = s.sent := rfl
@[simp] theorem State.at_free (s : State) (t : Nat) : (s.at t).free = s.free := rfl

/-! ## What the module puts out -/

@[simp] theorem State.emit_sent (s : State) (x : Output) : (s.emit x).sent = x :: s.sent := rfl
@[simp] theorem State.emit_now (s : State) (x : Output) : (s.emit x).now = s.now := by
  unfold State.emit State.now
  split <;> rfl
@[simp] theorem State.emit_pending (s : State) (x : Output) : (s.emit x).pending = s.pending := rfl
@[simp] theorem State.emit_pwr (s : State) (x : Output) : (s.emit x).pwr = s.pwr := rfl
@[simp] theorem State.emit_host (s : State) (x : Output) : (s.emit x).host = s.host := rfl
@[simp] theorem State.emit_rings (s : State) (x : Output) : (s.emit x).rings = s.rings := rfl
@[simp] theorem State.emit_ev (s : State) (x : Output) : (s.emit x).ev = s.ev := rfl
@[simp] theorem State.emit_irqCfg (s : State) (x : Output) : (s.emit x).irqCfg = s.irqCfg := rfl
@[simp] theorem State.emit_fuse (s : State) (x : Output) : (s.emit x).fuse = s.fuse := rfl
@[simp] theorem State.emit_cfg (s : State) (x : Output) : (s.emit x).cfg = s.cfg := rfl
@[simp] theorem State.emit_faults (s : State) (x : Output) : (s.emit x).faults = s.faults := rfl
@[simp] theorem State.emit_wade (s : State) (x : Output) : (s.emit x).wade = s.wade := rfl
@[simp] theorem State.emit_discs (s : State) (x : Output) : (s.emit x).discs = s.discs := rfl
@[simp] theorem State.emit_ctrs (s : State) (x : Output) : (s.emit x).ctrs = s.ctrs := rfl
@[simp] theorem State.emit_opens (s : State) (x : Output) : (s.emit x).opens = s.opens := rfl
@[simp] theorem State.emit_pres (s : State) (x : Output) : (s.emit x).pres = s.pres := rfl
@[simp] theorem State.emit_seq (s : State) (x : Output) : (s.emit x).seq = s.seq := rfl
@[simp] theorem State.emit_outs (s : State) (x : Output) : (s.emit x).outs = s.outs := rfl
@[simp] theorem State.emit_lsws (s : State) (x : Output) : (s.emit x).lsws = s.lsws := rfl
@[simp] theorem State.emit_drv (s : State) (x : Output) : (s.emit x).drv = s.drv := rfl
@[simp] theorem State.emit_ports (s : State) (x : Output) : (s.emit x).ports = s.ports := rfl
@[simp] theorem State.emit_nodes (s : State) (x : Output) : (s.emit x).nodes = s.nodes := rfl
@[simp] theorem State.emit_reqs (s : State) (x : Output) : (s.emit x).reqs = s.reqs := rfl
@[simp] theorem State.emit_chainSeq (s : State) (x : Output) : (s.emit x).chainSeq = s.chainSeq := rfl
@[simp] theorem State.emit_cells (s : State) (x : Output) : (s.emit x).cells = s.cells := rfl
@[simp] theorem State.emit_ests (s : State) (x : Output) : (s.emit x).ests = s.ests := rfl
@[simp] theorem State.emit_sens (s : State) (x : Output) : (s.emit x).sens = s.sens := rfl
@[simp] theorem State.emit_zones (s : State) (x : Output) : (s.emit x).zones = s.zones := rfl
@[simp] theorem State.emit_therm (s : State) (x : Output) : (s.emit x).therm = s.therm := rfl
@[simp] theorem State.emit_strs (s : State) (x : Output) : (s.emit x).strs = s.strs := rfl
@[simp] theorem State.emit_pack (s : State) (x : Output) : (s.emit x).pack = s.pack := rfl
@[simp] theorem State.emit_hvil (s : State) (x : Output) : (s.emit x).hvil = s.hvil := rfl
@[simp] theorem State.emit_iso (s : State) (x : Output) : (s.emit x).iso = s.iso := rfl
@[simp] theorem State.emit_lid (s : State) (x : Output) : (s.emit x).lid = s.lid := rfl
@[simp] theorem State.emit_safe (s : State) (x : Output) : (s.emit x).safe = s.safe := rfl
@[simp] theorem State.emit_msgs (s : State) (x : Output) : (s.emit x).msgs = s.msgs := rfl
@[simp] theorem State.emit_axles (s : State) (x : Output) : (s.emit x).axles = s.axles := rfl
@[simp] theorem State.emit_cans (s : State) (x : Output) : (s.emit x).cans = s.cans := rfl
@[simp] theorem State.emit_pair (s : State) (x : Output) : (s.emit x).pair = s.pair := rfl
@[simp] theorem State.emit_mram (s : State) (x : Output) : (s.emit x).mram = s.mram := rfl
@[simp] theorem State.emit_repair (s : State) (x : Output) : (s.emit x).repair = s.repair := rfl
@[simp] theorem State.emit_free (s : State) (x : Output) : (s.emit x).free = s.free := rfl

end Sys2Proof.Machine
end

