-- ==== Sys2Proof/Laws/Ops.lean ====
section
/-! SUPPORT. What the shared operations can do, said once: bits of an event register, stream and non-volatile records, and
the four ways a host command goes. -/

namespace Sys2Proof.Machine

open Sys2Proof

/-! ## Event registers and records -/

/-- Setting bits of an event register ors them in and counts once, up to 255 (20 R492). -/
@[simp] theorem State.setBits_evr (s : State) (r : EvReg) (b : Word) :
    (s.setBits r b).evr r = { bits := (s.evr r).bits ||| b, cnt := min ((s.evr r).cnt + 1) 0xFF } :=
  State.onEvr_evr s r _

/-- Setting bits of one event register leaves the others. -/
theorem State.setBits_evr_other (s : State) {r q : EvReg} (b : Word) (h : q ≠ r) :
    (s.setBits r b).evr q = s.evr q :=
  State.onEvr_evr_other s _ h

/-- A record is dropped, or joins the records that wait for their ring. -/
theorem State.record_cases (s : State) (fn : Nat) (body : List Byte) :
    (s.streamRing fn = none ∧ s.record fn body = s) ∨
    ∃ n, s.streamRing fn = some n ∧
      s.record fn body = { s with host := { s.host with streamQ := s.host.streamQ ++ [{ fn := fn, body := body }] } } := by
  unfold State.record
  cases h : s.streamRing fn with
  | none => exact Or.inl ⟨rfl, rfl⟩
  | some n => exact Or.inr ⟨n, rfl, rfl⟩

/-- A non-volatile record is committed, or held back until it may start (22 R536, R537). -/
theorem State.nvDue_cases (s : State) (r : NvReq) :
    (s.mayWrite = true ∧ s.nvDue r = s.nvCommit r) ∨
    (s.mayWrite = false ∧
      ∃ t : State, t = { s with mram := { s.mram with held := s.mram.held ++ [{ req := r, due := s.now }] } } ∧
        (s.nvDue r = t ∨ s.nvDue r = t.event .pwr 3)) := by
  unfold State.nvDue
  by_cases h : s.mayWrite = true
  · exact Or.inl ⟨h, if_pos h⟩
  · refine Or.inr ⟨by simpa using h, _, rfl, ?_⟩
    rw [if_neg h]
    dsimp only
    by_cases c : (s.mram.refuse || !s.mounted || decide (100 ≤ s.pwr.holdup)) = true
    · exact Or.inl (if_pos c)
    · exact Or.inr (if_neg c)

/-- A module that may make no mirrored write makes none (17 R424). -/
theorem State.mirrorDue_not_full (s : State) (r : NvReq) (ref : Option CmdRef) (h : s.fullPrimary = false) :
    s.mirrorDue r ref = s := by
  unfold State.mirrorDue
  simp [h]

/-! ## Host commands (19 R464) -/

/-- A failing parameter comes first: BAD_PARAMETER. -/
theorem State.command_param (s : State) (op : Nat) (d : Desc) (perms : List Perm) (bars busy : Bool)
    (body : State → CmdRef → State) :
    s.command op d false perms bars busy body = s.finish (s.refOf op d) 7 0 [] false := rfl

/-- Then the first permission that is not met. -/
theorem State.command_denied (s : State) (op : Nat) (d : Desc) (perms : List Perm) (bars busy : Bool)
    (body : State → CmdRef → State) {p : Perm} (h : perms.find? (fun p => !s.permits bars p) = some p) :
    s.command op d true perms bars busy body = s.finish (s.refOf op d) (permStatus p) 0 [] false := by
  unfold State.command
  simp [h]

/-- Then a command it would meet: BUSY. -/
theorem State.command_busy (s : State) (op : Nat) (d : Desc) (perms : List Perm) (bars busy : Bool)
    (body : State → CmdRef → State) (h : ∀ p ∈ perms, s.permits bars p = true) (hb : busy = true ∨ s.busy op = true) :
    s.command op d true perms bars busy body = s.finish (s.refOf op d) 3 0 [] false := by
  have hf : perms.find? (fun p => !s.permits bars p) = none := by
    rw [List.find?_eq_none]
    intro p hp
    simp [h p hp]
  unfold State.command
  simp [hf, hb]

/-- A command that passes every check runs, after it is accepted. -/
theorem State.command_runs (s : State) (op : Nat) (d : Desc) (perms : List Perm) (bars busy : Bool)
    (body : State → CmdRef → State) (h : ∀ p ∈ perms, s.permits bars p = true) (hb : busy = false) (hr : s.busy op = false) :
    s.command op d true perms bars busy body = body (s.accept (s.refOf op d)) (s.refOf op d) := by
  have hf : perms.find? (fun p => !s.permits bars p) = none := by
    rw [List.find?_eq_none]
    intro p hp
    simp [h p hp]
  unfold State.command
  simp [hf, hb, hr]

/-- There is no fifth way. -/
theorem State.command_cases (s : State) (op : Nat) (d : Desc) (okPar : Bool) (perms : List Perm) (bars busy : Bool)
    (body : State → CmdRef → State) :
    (okPar = false ∧ s.command op d okPar perms bars busy body = s.finish (s.refOf op d) 7 0 [] false) ∨
    (okPar = true ∧ ∃ p ∈ perms, s.permits bars p = false ∧
      s.command op d okPar perms bars busy body = s.finish (s.refOf op d) (permStatus p) 0 [] false) ∨
    (okPar = true ∧ (∀ p ∈ perms, s.permits bars p = true) ∧ (busy = true ∨ s.busy op = true) ∧
      s.command op d okPar perms bars busy body = s.finish (s.refOf op d) 3 0 [] false) ∨
    (okPar = true ∧ (∀ p ∈ perms, s.permits bars p = true) ∧ busy = false ∧ s.busy op = false ∧
      s.command op d okPar perms bars busy body = body (s.accept (s.refOf op d)) (s.refOf op d)) := by
  cases okPar with
  | false => exact Or.inl ⟨rfl, rfl⟩
  | true =>
    right
    cases hf : perms.find? (fun p => !s.permits bars p) with
    | some p =>
      refine Or.inl ⟨rfl, p, List.mem_of_find?_eq_some hf, ?_, State.command_denied s op d perms bars busy body hf⟩
      have := List.find?_some hf
      simpa using this
    | none =>
      have ha : ∀ p ∈ perms, s.permits bars p = true := by
        intro p hp
        have := List.find?_eq_none.1 hf p hp
        simpa using this
      right
      by_cases hb : busy = true ∨ s.busy op = true
      · exact Or.inl ⟨rfl, ha, hb, State.command_busy s op d perms bars busy body ha hb⟩
      · have h1 : busy = false := by simpa using fun h => hb (Or.inl h)
        have h2 : s.busy op = false := by simpa using fun h => hb (Or.inr h)
        exact Or.inr ⟨rfl, ha, h1, h2, State.command_runs s op d perms bars busy body ha h1 h2⟩

end Sys2Proof.Machine
end

