-- ==== Sys2Proof/Laws/Tame.lean ====
section
/-! SUPPORT. What almost every operation leaves alone: the queue, the fuse bank, the host's emergency-supply command, and
that it starts no close sequence and opens no maintenance session. `Tame s t` says so of going from `s` to `t`. -/

namespace Sys2Proof.Machine

open Sys2Proof

/-- From `s` to `t` the queue, the fuse bank and the host's emergency-supply command are unchanged, no close sequence has
started and no maintenance session has opened. -/
structure Tame (s t : State) : Prop where
  pending : t.pending = s.pending
  fuse : t.fuse = s.fuse
  emgHost : t.pack.emgHost = s.pack.emgHost
  active : t.seq.active = true → s.seq.active = true
  maint : t.cfg.maint = true → s.cfg.maint = true

/-- Nothing done is tame. -/
theorem Tame.refl (s : State) : Tame s s := ⟨rfl, rfl, rfl, id, id⟩

/-- One tame change after another is tame. -/
theorem Tame.trans {a b c : State} (h : Tame a b) (k : Tame b c) : Tame a c :=
  ⟨k.pending.trans h.pending, k.fuse.trans h.fuse, k.emgHost.trans h.emgHost, fun x => h.active (k.active x),
    fun x => h.maint (k.maint x)⟩

/-- A choice of two tame changes is tame. -/
theorem Tame.ite {s a b : State} {c : Prop} [Decidable c] (h : Tame s a) (k : Tame s b) : Tame s (if c then a else b) := by
  by_cases x : c
  · rw [if_pos x]; exact h
  · rw [if_neg x]; exact k

/-- The same of what a pair holds first. -/
theorem Tame.iteFst {α : Type} {s : State} {a b : State × α} {c : Prop} [Decidable c] (h : Tame s a.1) (k : Tame s b.1) :
    Tame s (if c then a else b).1 := by
  by_cases x : c
  · rw [if_pos x]; exact h
  · rw [if_neg x]; exact k

/-- The same of what a pair holds second. -/
theorem Tame.iteSnd {α : Type} {s : State} {a b : α × State} {c : Prop} [Decidable c] (h : Tame s a.2) (k : Tame s b.2) :
    Tame s (if c then a else b).2 := by
  by_cases x : c
  · rw [if_pos x]; exact h
  · rw [if_neg x]; exact k

/-- A pair written out holds first what it holds first. -/
theorem Tame.mkFst {α : Type} {s t : State} {x : α} (h : Tame s t) : Tame s (t, x).1 := h

/-- A pair written out holds second what it holds second. -/
theorem Tame.mkSnd {α : Type} {s t : State} {x : α} (h : Tame s t) : Tame s (x, t).2 := h

/-- Tame changes over a list are tame. -/
theorem Tame.foldl {α : Type} {s t : State} {f : State → α → State} {l : List α} (h : Tame s t)
    (k : ∀ y z, Tame s y → Tame s (f y z)) : Tame s (l.foldl f t) := by
  induction l generalizing t with
  | nil => exact h
  | cons x l ih => exact ih (k t x h)

/-- Tame changes over a list that carry another value first. -/
theorem Tame.foldlSnd {α β : Type} {s : State} {f : β × State → α → β × State} {l : List α} {x : β × State} (h : Tame s x.2)
    (k : ∀ y z, Tame s y.2 → Tame s (f y z).2) : Tame s (l.foldl f x).2 := by
  induction l generalizing x with
  | nil => exact h
  | cons z l ih => exact ih (k x z h)

/-- Tame changes over a list that carry another value second. -/
theorem Tame.foldlFst {α β : Type} {s : State} {f : State × β → α → State × β} {l : List α} {x : State × β} (h : Tame s x.1)
    (k : ∀ y z, Tame s y.1 → Tame s (f y z).1) : Tame s (l.foldl f x).1 := by
  induction l generalizing x with
  | nil => exact h
  | cons z l ih => exact ih (k x z h)

/-- A step of a proof: `t` is tame, and what follows from it. -/
theorem Tame.cut {s t : State} {P : Prop} (h : Tame s t) (k : Tame s t → P) : P := k h

/-- A state written out is tame when the five parts are. -/
theorem Tame.lit {s : State} {a1 : List Instr} {a2 a3 a4 a5 a6 a7} {f : FuseBank} {c : CfgStore} {b1 b2 b3 b4 b5 b6} {q : Seq}
  {d1 d2 d3 d4 d5 d6 d7 d8 d9 d10 d11 d12 d13 p e1 e2 e3 e4 e5 e6 e7 e8 e9 e10 e11 e12}
  (h1 : a1 = s.pending) (h2 : f = s.fuse) (h3 : p.emgHost = s.pack.emgHost) (h4 : q.active = true → s.seq.active = true)
  (h5 : c.maint = true → s.cfg.maint = true) :
  Tame s (State.mk a1 a2 a3 a4 a5 a6 a7 f c b1 b2 b3 b4 b5 b6 q d1 d2 d3 d4 d5 d6 d7 d8 d9 d10 d11 d12 d13 p e1 e2 e3 e4 e5 e6 e7 e8 e9 e10 e11 e12) :=
 ⟨h1, h2, h3, h4, h5⟩

end Sys2Proof.Machine
end

