-- ==== Sys2Proof/Laws/TameOps.lean ====
section
/-! SUPPORT. The operations of Machine.Ops are tame. -/

namespace Sys2Proof.Machine

open Sys2Proof

set_option linter.unreachableTactic false
set_option linter.unusedTactic false

theorem State.onRing_tame {s0 s : State} (h : Tame s0 s) (k : Nat) (g : Ring → Ring) :
    Tame s0 (State.onRing s k g) := by
  unfold State.onRing
  repeat' first
    | refine Tame.pending ?_
    | refine Tame.fuse ?_
    | refine Tame.emgHost ?_
    | refine Tame.active ?_
    | refine Tame.maint ?_
    | with_reducible assumption
    | split
    | (clear_value *; split)
    | (with_reducible apply Tame.lit <;> (try dsimp only))

theorem State.onEvr_tame {s0 s : State} (h : Tame s0 s) (k : EvReg) (g : EvSt → EvSt) :
    Tame s0 (State.onEvr s k g) := by
  unfold State.onEvr
  repeat' first
    | refine Tame.pending ?_
    | refine Tame.fuse ?_
    | refine Tame.emgHost ?_
    | refine Tame.active ?_
    | refine Tame.maint ?_
    | with_reducible assumption
    | split
    | (clear_value *; split)
    | (with_reducible apply Tame.lit <;> (try dsimp only))

theorem State.onIrqc_tame {s0 s : State} (h : Tame s0 s) (k : IrqBlk) (g : Word → Word) :
    Tame s0 (State.onIrqc s k g) := by
  unfold State.onIrqc
  repeat' first
    | refine Tame.pending ?_
    | refine Tame.fuse ?_
    | refine Tame.emgHost ?_
    | refine Tame.active ?_
    | refine Tame.maint ?_
    | with_reducible assumption
    | split
    | (clear_value *; split)
    | (with_reducible apply Tame.lit <;> (try dsimp only))

theorem State.onFault_tame {s0 s : State} (h : Tame s0 s) (k : Nat) (g : LatchSt → LatchSt) :
    Tame s0 (State.onFault s k g) := by
  unfold State.onFault
  repeat' first
    | refine Tame.pending ?_
    | refine Tame.fuse ?_
    | refine Tame.emgHost ?_
    | refine Tame.active ?_
    | refine Tame.maint ?_
    | with_reducible assumption
    | split
    | (clear_value *; split)
    | (with_reducible apply Tame.lit <;> (try dsimp only))

theorem State.onMark_tame {s0 s : State} (h : Tame s0 s) (n scope : Nat) (g : ScopeMark → ScopeMark) :
    Tame s0 (State.onMark s n scope g) := by
  unfold State.onMark
  repeat' first
    | refine Tame.pending ?_
    | refine Tame.fuse ?_
    | refine Tame.emgHost ?_
    | refine Tame.active ?_
    | refine Tame.maint ?_
    | with_reducible assumption
    | with_reducible apply State.onFault_tame
    | intro x
    | split
    | (clear_value *; split)
    | (with_reducible apply Tame.lit <;> (try dsimp only))

theorem State.onDisc_tame {s0 s : State} (h : Tame s0 s) (k : Nat) (g : Disc → Disc) :
    Tame s0 (State.onDisc s k g) := by
  unfold State.onDisc
  repeat' first
    | refine Tame.pending ?_
    | refine Tame.fuse ?_
    | refine Tame.emgHost ?_
    | refine Tame.active ?_
    | refine Tame.maint ?_
    | with_reducible assumption
    | split
    | (clear_value *; split)
    | (with_reducible apply Tame.lit <;> (try dsimp only))

theorem State.onCtr_tame {s0 s : State} (h : Tame s0 s) (k : Nat) (g : Ctr → Ctr) :
    Tame s0 (State.onCtr s k g) := by
  unfold State.onCtr
  repeat' first
    | refine Tame.pending ?_
    | refine Tame.fuse ?_
    | refine Tame.emgHost ?_
    | refine Tame.active ?_
    | refine Tame.maint ?_
    | with_reducible assumption
    | split
    | (clear_value *; split)
    | (with_reducible apply Tame.lit <;> (try dsimp only))

theorem State.onOpn_tame {s0 s : State} (h : Tame s0 s) (k : Nat) (g : StrOpen → StrOpen) :
    Tame s0 (State.onOpn s k g) := by
  unfold State.onOpn
  repeat' first
    | refine Tame.pending ?_
    | refine Tame.fuse ?_
    | refine Tame.emgHost ?_
    | refine Tame.active ?_
    | refine Tame.maint ?_
    | with_reducible assumption
    | split
    | (clear_value *; split)
    | (with_reducible apply Tame.lit <;> (try dsimp only))

theorem State.onPre_tame {s0 s : State} (h : Tame s0 s) (k : Nat) (g : Pre → Pre) :
    Tame s0 (State.onPre s k g) := by
  unfold State.onPre
  repeat' first
    | refine Tame.pending ?_
    | refine Tame.fuse ?_
    | refine Tame.emgHost ?_
    | refine Tame.active ?_
    | refine Tame.maint ?_
    | with_reducible assumption
    | split
    | (clear_value *; split)
    | (with_reducible apply Tame.lit <;> (try dsimp only))

theorem State.onOutc_tame {s0 s : State} (h : Tame s0 s) (k : Nat) (g : OutCh → OutCh) :
    Tame s0 (State.onOutc s k g) := by
  unfold State.onOutc
  repeat' first
    | refine Tame.pending ?_
    | refine Tame.fuse ?_
    | refine Tame.emgHost ?_
    | refine Tame.active ?_
    | refine Tame.maint ?_
    | with_reducible assumption
    | split
    | (clear_value *; split)
    | (with_reducible apply Tame.lit <;> (try dsimp only))

theorem State.onLsw_tame {s0 s : State} (h : Tame s0 s) (k : Nat) (g : Lsw → Lsw) :
    Tame s0 (State.onLsw s k g) := by
  unfold State.onLsw
  repeat' first
    | refine Tame.pending ?_
    | refine Tame.fuse ?_
    | refine Tame.emgHost ?_
    | refine Tame.active ?_
    | refine Tame.maint ?_
    | with_reducible assumption
    | split
    | (clear_value *; split)
    | (with_reducible apply Tame.lit <;> (try dsimp only))

theorem State.onPort_tame {s0 s : State} (h : Tame s0 s) (k : Nat) (g : Port → Port) :
    Tame s0 (State.onPort s k g) := by
  unfold State.onPort
  repeat' first
    | refine Tame.pending ?_
    | refine Tame.fuse ?_
    | refine Tame.emgHost ?_
    | refine Tame.active ?_
    | refine Tame.maint ?_
    | with_reducible assumption
    | split
    | (clear_value *; split)
    | (with_reducible apply Tame.lit <;> (try dsimp only))

theorem State.onNode_tame {s0 s : State} (h : Tame s0 s) (k : Nat) (g : Node → Node) :
    Tame s0 (State.onNode s k g) := by
  unfold State.onNode
  repeat' first
    | refine Tame.pending ?_
    | refine Tame.fuse ?_
    | refine Tame.emgHost ?_
    | refine Tame.active ?_
    | refine Tame.maint ?_
    | with_reducible assumption
    | split
    | (clear_value *; split)
    | (with_reducible apply Tame.lit <;> (try dsimp only))

theorem State.onReq_tame {s0 s : State} (h : Tame s0 s) (k : Nat) (g : List ChainReq → List ChainReq) :
    Tame s0 (State.onReq s k g) := by
  unfold State.onReq
  repeat' first
    | refine Tame.pending ?_
    | refine Tame.fuse ?_
    | refine Tame.emgHost ?_
    | refine Tame.active ?_
    | refine Tame.maint ?_
    | with_reducible assumption
    | split
    | (clear_value *; split)
    | (with_reducible apply Tame.lit <;> (try dsimp only))

theorem State.onCseq_tame {s0 s : State} (h : Tame s0 s) (k : Nat) (g : Nat → Nat) :
    Tame s0 (State.onCseq s k g) := by
  unfold State.onCseq
  repeat' first
    | refine Tame.pending ?_
    | refine Tame.fuse ?_
    | refine Tame.emgHost ?_
    | refine Tame.active ?_
    | refine Tame.maint ?_
    | with_reducible assumption
    | split
    | (clear_value *; split)
    | (with_reducible apply Tame.lit <;> (try dsimp only))

theorem State.onCell_tame {s0 s : State} (h : Tame s0 s) (k : Nat) (g : CellLive → CellLive) :
    Tame s0 (State.onCell s k g) := by
  unfold State.onCell
  repeat' first
    | refine Tame.pending ?_
    | refine Tame.fuse ?_
    | refine Tame.emgHost ?_
    | refine Tame.active ?_
    | refine Tame.maint ?_
    | with_reducible assumption
    | split
    | (clear_value *; split)
    | (with_reducible apply Tame.lit <;> (try dsimp only))

theorem State.onEst_tame {s0 s : State} (h : Tame s0 s) (k : Nat) (g : CellEst → CellEst) :
    Tame s0 (State.onEst s k g) := by
  unfold State.onEst
  repeat' first
    | refine Tame.pending ?_
    | refine Tame.fuse ?_
    | refine Tame.emgHost ?_
    | refine Tame.active ?_
    | refine Tame.maint ?_
    | with_reducible assumption
    | split
    | (clear_value *; split)
    | (with_reducible apply Tame.lit <;> (try dsimp only))

theorem State.onSensor_tame {s0 s : State} (h : Tame s0 s) (k : Nat) (g : Sensor → Sensor) :
    Tame s0 (State.onSensor s k g) := by
  unfold State.onSensor
  repeat' first
    | refine Tame.pending ?_
    | refine Tame.fuse ?_
    | refine Tame.emgHost ?_
    | refine Tame.active ?_
    | refine Tame.maint ?_
    | with_reducible assumption
    | split
    | (clear_value *; split)
    | (with_reducible apply Tame.lit <;> (try dsimp only))

theorem State.onZone_tame {s0 s : State} (h : Tame s0 s) (k : Nat) (g : Zone → Zone) :
    Tame s0 (State.onZone s k g) := by
  unfold State.onZone
  repeat' first
    | refine Tame.pending ?_
    | refine Tame.fuse ?_
    | refine Tame.emgHost ?_
    | refine Tame.active ?_
    | refine Tame.maint ?_
    | with_reducible assumption
    | split
    | (clear_value *; split)
    | (with_reducible apply Tame.lit <;> (try dsimp only))

theorem State.onStr_tame {s0 s : State} (h : Tame s0 s) (k : Nat) (g : Str → Str) :
    Tame s0 (State.onStr s k g) := by
  unfold State.onStr
  repeat' first
    | refine Tame.pending ?_
    | refine Tame.fuse ?_
    | refine Tame.emgHost ?_
    | refine Tame.active ?_
    | refine Tame.maint ?_
    | with_reducible assumption
    | split
    | (clear_value *; split)
    | (with_reducible apply Tame.lit <;> (try dsimp only))

theorem State.onLoop_tame {s0 s : State} (h : Tame s0 s) (k : Nat) (g : Hvil → Hvil) :
    Tame s0 (State.onLoop s k g) := by
  unfold State.onLoop
  repeat' first
    | refine Tame.pending ?_
    | refine Tame.fuse ?_
    | refine Tame.emgHost ?_
    | refine Tame.active ?_
    | refine Tame.maint ?_
    | with_reducible assumption
    | split
    | (clear_value *; split)
    | (with_reducible apply Tame.lit <;> (try dsimp only))

theorem State.onMsg_tame {s0 s : State} (h : Tame s0 s) (k : Nat) (g : SafeMsg → SafeMsg) :
    Tame s0 (State.onMsg s k g) := by
  unfold State.onMsg
  repeat' first
    | refine Tame.pending ?_
    | refine Tame.fuse ?_
    | refine Tame.emgHost ?_
    | refine Tame.active ?_
    | refine Tame.maint ?_
    | with_reducible assumption
    | split
    | (clear_value *; split)
    | (with_reducible apply Tame.lit <;> (try dsimp only))

theorem State.onAxle_tame {s0 s : State} (h : Tame s0 s) (k : Nat) (g : Axle → Axle) :
    Tame s0 (State.onAxle s k g) := by
  unfold State.onAxle
  repeat' first
    | refine Tame.pending ?_
    | refine Tame.fuse ?_
    | refine Tame.emgHost ?_
    | refine Tame.active ?_
    | refine Tame.maint ?_
    | with_reducible assumption
    | split
    | (clear_value *; split)
    | (with_reducible apply Tame.lit <;> (try dsimp only))

theorem State.onCan_tame {s0 s : State} (h : Tame s0 s) (k : Nat) (g : CanCtl → CanCtl) :
    Tame s0 (State.onCan s k g) := by
  unfold State.onCan
  repeat' first
    | refine Tame.pending ?_
    | refine Tame.fuse ?_
    | refine Tame.emgHost ?_
    | refine Tame.active ?_
    | refine Tame.maint ?_
    | with_reducible assumption
    | split
    | (clear_value *; split)
    | (with_reducible apply Tame.lit <;> (try dsimp only))

theorem State.at_tame {s0 s : State} (h : Tame s0 s) (t : Nat) :
    Tame s0 (State.at s t) := by
  unfold State.at
  repeat' first
    | refine Tame.pending ?_
    | refine Tame.fuse ?_
    | refine Tame.emgHost ?_
    | refine Tame.active ?_
    | refine Tame.maint ?_
    | with_reducible assumption
    | with_reducible apply Tame.ite
    | split
    | (clear_value *; split)
    | (with_reducible apply Tame.lit <;> (try dsimp only))

theorem State.stepTo_tame {s0 s : State} (h : Tame s0 s) (t : Nat) :
    Tame s0 (State.stepTo s t) := by
  unfold State.stepTo
  repeat' first
    | refine Tame.pending ?_
    | refine Tame.fuse ?_
    | refine Tame.emgHost ?_
    | refine Tame.active ?_
    | refine Tame.maint ?_
    | with_reducible assumption
    | split
    | (clear_value *; split)
    | (with_reducible apply Tame.lit <;> (try dsimp only))

theorem State.stamped_tame {s0 s : State} (h : Tame s0 s)  :
    Tame s0 (State.stamped s) := by
  unfold State.stamped
  repeat' first
    | refine Tame.pending ?_
    | refine Tame.fuse ?_
    | refine Tame.emgHost ?_
    | refine Tame.active ?_
    | refine Tame.maint ?_
    | with_reducible assumption
    | split
    | (clear_value *; split)
    | (with_reducible apply Tame.lit <;> (try dsimp only))

theorem State.emit_tame {s0 s : State} (h : Tame s0 s) (o : Output) :
    Tame s0 (State.emit s o) := by
  unfold State.emit
  repeat' first
    | refine Tame.pending ?_
    | refine Tame.fuse ?_
    | refine Tame.emgHost ?_
    | refine Tame.active ?_
    | refine Tame.maint ?_
    | with_reducible assumption
    | with_reducible apply Tame.ite
    | split
    | (clear_value *; split)
    | (with_reducible apply Tame.lit <;> (try dsimp only))

theorem State.cause_tame {s0 s : State} (h : Tame s0 s) (typ : Nat) (o : Nat → Output) :
    Tame s0 (State.cause s typ o) := by
  unfold State.cause
  repeat' first
    | refine Tame.pending ?_
    | refine Tame.fuse ?_
    | refine Tame.emgHost ?_
    | refine Tame.active ?_
    | refine Tame.maint ?_
    | (intro x; refine Tame.cut (s := s0) (t := x) ?_ (fun hx => ?_); subst x; rotate_left; (first | clear_value x | skip))
    | (lift_lets; intro x; refine Tame.cut (s := s0) (t := x) ?_ (fun hx => ?_); subst x; rotate_left; (first | clear_value x | skip))
    | (lift_lets; intro x)
    | with_reducible assumption
    | with_reducible apply State.emit_tame
    | intro x
    | split
    | (clear_value *; split)
    | (with_reducible apply Tame.lit <;> (try dsimp only))

theorem State.sendCoil_tame {s0 s : State} (h : Tame s0 s) (f : CoilFrame) :
    Tame s0 (State.sendCoil s f) := by
  unfold State.sendCoil
  repeat' first
    | with_reducible assumption
    | with_reducible apply State.cause_tame
    | with_reducible apply State.coil_tame
    | intro x
    | split
    | (clear_value *; split)

theorem State.sendEvt_tame {s0 s : State} (h : Tame s0 s) (e : PairEvt) :
    Tame s0 (State.sendEvt s e) := by
  unfold State.sendEvt
  repeat' first
    | with_reducible assumption
    | with_reducible apply State.cause_tame
    | intro x
    | split
    | (clear_value *; split)

theorem State.sendTrain_tame {s0 s : State} (h : Tame s0 s) (i : PartnerId) :
    Tame s0 (State.sendTrain s i) := by
  unfold State.sendTrain
  repeat' first
    | with_reducible assumption
    | with_reducible apply State.cause_tame
    | intro x
    | split
    | (clear_value *; split)

theorem State.sendNvw_tame {s0 s : State} (h : Tame s0 s) (f : NvwFrame) :
    Tame s0 (State.sendNvw s f) := by
  unfold State.sendNvw
  repeat' first
    | with_reducible assumption
    | with_reducible apply State.cause_tame
    | intro x
    | split
    | (clear_value *; split)

theorem State.sendMirror_tame {s0 s : State} (h : Tame s0 s) (i : MirrorItem) :
    Tame s0 (State.sendMirror s i) := by
  unfold State.sendMirror
  repeat' first
    | with_reducible assumption
    | with_reducible apply Tame.ite
    | with_reducible apply State.cause_tame
    | intro x
    | split
    | (clear_value *; split)

theorem State.driveIrq_tame {s0 s : State} (h : Tame s0 s)  :
    Tame s0 (State.driveIrq s) := by
  unfold State.driveIrq
  repeat' first
    | refine Tame.pending ?_
    | refine Tame.fuse ?_
    | refine Tame.emgHost ?_
    | refine Tame.active ?_
    | refine Tame.maint ?_
    | (intro x; refine Tame.cut (s := s0) (t := x) ?_ (fun hx => ?_); subst x; rotate_left; (first | clear_value x | skip))
    | (lift_lets; intro x; refine Tame.cut (s := s0) (t := x) ?_ (fun hx => ?_); subst x; rotate_left; (first | clear_value x | skip))
    | (lift_lets; intro x)
    | with_reducible assumption
    | intro x
    | split
    | (clear_value *; split)
    | (with_reducible apply Tame.lit <;> (try dsimp only))

theorem State.msix_tame {s0 s : State} (h : Tame s0 s) (v : Nat) :
    Tame s0 (State.msix s v) := by
  unfold State.msix
  repeat' first
    | refine Tame.pending ?_
    | refine Tame.fuse ?_
    | refine Tame.emgHost ?_
    | refine Tame.active ?_
    | refine Tame.maint ?_
    | with_reducible assumption
    | with_reducible apply Tame.ite
    | with_reducible apply State.emit_tame
    | with_reducible apply State.msix_tame
    | split
    | (clear_value *; split)
    | (with_reducible apply Tame.lit <;> (try dsimp only))

theorem State.setBits_tame {s0 s : State} (h : Tame s0 s) (r : EvReg) (b : Word) :
    Tame s0 (State.setBits s r b) := by
  unfold State.setBits
  repeat' first
    | with_reducible assumption
    | with_reducible apply State.onEvr_tame
    | intro x
    | split
    | (clear_value *; split)

theorem State.raiseIrq_tame {s0 s : State} (h : Tame s0 s) (src : Nat) :
    Tame s0 (State.raiseIrq s src) := by
  unfold State.raiseIrq
  repeat' first
    | (intro x; refine Tame.cut (s := s0) (t := x) ?_ (fun hx => ?_); subst x; rotate_left; (first | clear_value x | skip))
    | (lift_lets; intro x; refine Tame.cut (s := s0) (t := x) ?_ (fun hx => ?_); subst x; rotate_left; (first | clear_value x | skip))
    | (lift_lets; intro x)
    | with_reducible assumption
    | with_reducible apply Tame.ite
    | with_reducible apply State.driveIrq_tame
    | with_reducible apply State.msix_tame
    | with_reducible apply State.setBits_tame
    | intro x
    | split
    | (clear_value *; split)

theorem State.event_tame {s0 s : State} (h : Tame s0 s) (r : EvReg) (n : Nat) :
    Tame s0 (State.event s r n) := by
  unfold State.event
  repeat' first
    | (intro x; refine Tame.cut (s := s0) (t := x) ?_ (fun hx => ?_); subst x; rotate_left; (first | clear_value x | skip))
    | (lift_lets; intro x; refine Tame.cut (s := s0) (t := x) ?_ (fun hx => ?_); subst x; rotate_left; (first | clear_value x | skip))
    | (lift_lets; intro x)
    | with_reducible assumption
    | with_reducible apply Tame.ite
    | with_reducible apply State.setBits_tame
    | with_reducible apply State.raiseIrq_tame
    | intro x
    | split
    | (clear_value *; split)

theorem State.record_tame {s0 s : State} (h : Tame s0 s) (fn : Nat) (body : List Byte) :
    Tame s0 (State.record s fn body) := by
  unfold State.record
  repeat' first
    | refine Tame.pending ?_
    | refine Tame.fuse ?_
    | refine Tame.emgHost ?_
    | refine Tame.active ?_
    | refine Tame.maint ?_
    | with_reducible assumption
    | intro x
    | split
    | (clear_value *; split)
    | (with_reducible apply Tame.lit <;> (try dsimp only))

theorem State.eventRec_tame {s0 s : State} (h : Tame s0 s) (kind code subject port : Nat) (v1 v2 v3 : Int) :
    Tame s0 (State.eventRec s kind code subject port v1 v2 v3) := by
  unfold State.eventRec
  repeat' first
    | with_reducible assumption
    | with_reducible apply State.record_tame
    | split
    | (clear_value *; split)

theorem State.canRec_tame {s0 s : State} (h : Tame s0 s) (c code id : Nat) (v : Int) :
    Tame s0 (State.canRec s c code id v) := by
  unfold State.canRec
  repeat' first
    | with_reducible assumption
    | with_reducible apply State.record_tame
    | split
    | (clear_value *; split)

theorem State.takeCommit_tame {s0 s : State} (h : Tame s0 s) (kind : Nat) :
    Tame s0 (State.takeCommit s kind) := by
  unfold State.takeCommit
  repeat' first
    | refine Tame.pending ?_
    | refine Tame.fuse ?_
    | refine Tame.emgHost ?_
    | refine Tame.active ?_
    | refine Tame.maint ?_
    | with_reducible assumption
    | split
    | (clear_value *; split)
    | (with_reducible apply Tame.lit <;> (try dsimp only))

theorem State.holdupNow_tame {s0 s : State} (h : Tame s0 s) (h : Nat) :
    Tame s0 (State.holdupNow s h) := by
  unfold State.holdupNow
  repeat' first
    | refine Tame.pending ?_
    | refine Tame.fuse ?_
    | refine Tame.emgHost ?_
    | refine Tame.active ?_
    | refine Tame.maint ?_
    | with_reducible assumption
    | split
    | (clear_value *; split)
    | (with_reducible apply Tame.lit <;> (try dsimp only))

theorem State.journal_tame {s0 s : State} (h : Tame s0 s) (e : JEntry) :
    Tame s0 (State.journal s e) := by
  unfold State.journal
  repeat' first
    | refine Tame.pending ?_
    | refine Tame.fuse ?_
    | refine Tame.emgHost ?_
    | refine Tame.active ?_
    | refine Tame.maint ?_
    | (intro x; refine Tame.cut (s := s0) (t := x) ?_ (fun hx => ?_); subst x; rotate_left; (first | clear_value x | skip))
    | (lift_lets; intro x; refine Tame.cut (s := s0) (t := x) ?_ (fun hx => ?_); subst x; rotate_left; (first | clear_value x | skip))
    | (lift_lets; intro x)
    | with_reducible assumption
    | with_reducible apply Tame.ite
    | with_reducible apply State.takeCommit_tame
    | with_reducible apply State.journal_tame
    | intro x
    | split
    | (clear_value *; split)
    | (with_reducible apply Tame.lit <;> (try dsimp only))

theorem State.applied_tame {s0 s : State} (h : Tame s0 s) (c : Nat) :
    Tame s0 (State.applied s c) := by
  unfold State.applied
  repeat' first
    | (intro x; refine Tame.cut (s := s0) (t := x) ?_ (fun hx => ?_); subst x; rotate_left; (first | clear_value x | skip))
    | (lift_lets; intro x; refine Tame.cut (s := s0) (t := x) ?_ (fun hx => ?_); subst x; rotate_left; (first | clear_value x | skip))
    | (lift_lets; intro x)
    | with_reducible assumption
    | with_reducible apply State.takeCommit_tame
    | with_reducible apply State.journal_tame
    | intro x
    | split
    | (clear_value *; split)

theorem State.snapCommit_tame {s0 s : State} (h : Tame s0 s) (b : List Byte) :
    Tame s0 (State.snapCommit s b) := by
  unfold State.snapCommit
  repeat' first
    | refine Tame.pending ?_
    | refine Tame.fuse ?_
    | refine Tame.emgHost ?_
    | refine Tame.active ?_
    | refine Tame.maint ?_
    | (intro x; refine Tame.cut (s := s0) (t := x) ?_ (fun hx => ?_); subst x; rotate_left; (first | clear_value x | skip))
    | (lift_lets; intro x; refine Tame.cut (s := s0) (t := x) ?_ (fun hx => ?_); subst x; rotate_left; (first | clear_value x | skip))
    | (lift_lets; intro x)
    | with_reducible assumption
    | intro x
    | split
    | (clear_value *; split)
    | (with_reducible apply Tame.lit <;> (try dsimp only))

theorem State.nvCommit_tame {s0 s : State} (h : Tame s0 s) (r : NvReq) :
    Tame s0 (State.nvCommit s r) := by
  unfold State.nvCommit
  repeat' first
    | refine Tame.pending ?_
    | refine Tame.fuse ?_
    | refine Tame.emgHost ?_
    | refine Tame.active ?_
    | refine Tame.maint ?_
    | (intro x; refine Tame.cut (s := s0) (t := x) ?_ (fun hx => ?_); subst x; rotate_left; (first | clear_value x | skip))
    | (lift_lets; intro x; refine Tame.cut (s := s0) (t := x) ?_ (fun hx => ?_); subst x; rotate_left; (first | clear_value x | skip))
    | (lift_lets; intro x)
    | with_reducible assumption
    | with_reducible apply Tame.ite
    | with_reducible apply State.onStr_tame
    | with_reducible apply State.takeCommit_tame
    | with_reducible apply State.journal_tame
    | with_reducible apply State.applied_tame
    | with_reducible apply State.snapCommit_tame
    | (with_reducible apply Tame.foldl; rotate_left; intro y z hy)
    | intro x
    | split
    | (clear_value *; split)
    | (with_reducible apply Tame.lit <;> (try dsimp only))

theorem State.nvDue_tame {s0 s : State} (h : Tame s0 s) (r : NvReq) :
    Tame s0 (State.nvDue s r) := by
  unfold State.nvDue
  repeat' first
    | refine Tame.pending ?_
    | refine Tame.fuse ?_
    | refine Tame.emgHost ?_
    | refine Tame.active ?_
    | refine Tame.maint ?_
    | (intro x; refine Tame.cut (s := s0) (t := x) ?_ (fun hx => ?_); subst x; rotate_left; (first | clear_value x | skip))
    | (lift_lets; intro x; refine Tame.cut (s := s0) (t := x) ?_ (fun hx => ?_); subst x; rotate_left; (first | clear_value x | skip))
    | (lift_lets; intro x)
    | with_reducible assumption
    | with_reducible apply Tame.ite
    | with_reducible apply State.event_tame
    | with_reducible apply State.nvCommit_tame
    | intro x
    | split
    | (clear_value *; split)
    | (with_reducible apply Tame.lit <;> (try dsimp only))

theorem State.bbEvent_tame {s0 s : State} (h : Tame s0 s) (code subject port : Nat) (v v2 v3 : Nat) :
    Tame s0 (State.bbEvent s code subject port v v2 v3) := by
  unfold State.bbEvent
  repeat' first
    | (intro x; refine Tame.cut (s := s0) (t := x) ?_ (fun hx => ?_); subst x; rotate_left; (first | clear_value x | skip))
    | (lift_lets; intro x; refine Tame.cut (s := s0) (t := x) ?_ (fun hx => ?_); subst x; rotate_left; (first | clear_value x | skip))
    | (lift_lets; intro x)
    | with_reducible assumption
    | with_reducible apply State.stamped_tame
    | with_reducible apply State.nvDue_tame
    | intro x
    | split
    | (clear_value *; split)

theorem State.pairStatusRec_tame {s0 s : State} (h : Tame s0 s)  :
    Tame s0 (State.pairStatusRec s) := by
  unfold State.pairStatusRec
  repeat' first
    | refine Tame.pending ?_
    | refine Tame.fuse ?_
    | refine Tame.emgHost ?_
    | refine Tame.active ?_
    | refine Tame.maint ?_
    | with_reducible assumption
    | with_reducible apply Tame.ite
    | with_reducible apply State.record_tame
    | split
    | (clear_value *; split)
    | (with_reducible apply Tame.lit <;> (try dsimp only))

theorem State.pairChanged_tame {s0 s : State} (h : Tame s0 s)  :
    Tame s0 (State.pairChanged s) := by
  unfold State.pairChanged
  repeat' first
    | with_reducible assumption
    | with_reducible apply Tame.ite
    | with_reducible apply State.pairStatusRec_tame
    | split
    | (clear_value *; split)

theorem State.pairEvent_tame {s0 s : State} (h : Tame s0 s) (n : Nat) (before : PairRole) (v tRef : Nat) :
    Tame s0 (State.pairEvent s n before v tRef) := by
  unfold State.pairEvent
  repeat' first
    | (intro x; refine Tame.cut (s := s0) (t := x) ?_ (fun hx => ?_); subst x; rotate_left; (first | clear_value x | skip))
    | (lift_lets; intro x; refine Tame.cut (s := s0) (t := x) ?_ (fun hx => ?_); subst x; rotate_left; (first | clear_value x | skip))
    | (lift_lets; intro x)
    | with_reducible assumption
    | with_reducible apply State.event_tame
    | with_reducible apply State.record_tame
    | with_reducible apply State.pairStatusRec_tame
    | intro x
    | split
    | (clear_value *; split)

theorem State.diverge_tame {s0 s : State} (h : Tame s0 s) (region : Nat) :
    Tame s0 (State.diverge s region) := by
  unfold State.diverge
  repeat' first
    | refine Tame.pending ?_
    | refine Tame.fuse ?_
    | refine Tame.emgHost ?_
    | refine Tame.active ?_
    | refine Tame.maint ?_
    | (intro x; refine Tame.cut (s := s0) (t := x) ?_ (fun hx => ?_); subst x; rotate_left; (first | clear_value x | skip))
    | (lift_lets; intro x; refine Tame.cut (s := s0) (t := x) ?_ (fun hx => ?_); subst x; rotate_left; (first | clear_value x | skip))
    | (lift_lets; intro x)
    | with_reducible assumption
    | with_reducible apply Tame.ite
    | with_reducible apply State.pairEvent_tame
    | intro x
    | split
    | (clear_value *; split)
    | (with_reducible apply Tame.lit <;> (try dsimp only))

theorem State.mirrorDue_tame {s0 s : State} (h : Tame s0 s) (r : NvReq) (ref : Option CmdRef) :
    Tame s0 (State.mirrorDue s r ref) := by
  unfold State.mirrorDue
  repeat' first
    | refine Tame.pending ?_
    | refine Tame.fuse ?_
    | refine Tame.emgHost ?_
    | refine Tame.active ?_
    | refine Tame.maint ?_
    | (intro x; refine Tame.cut (s := s0) (t := x) ?_ (fun hx => ?_); subst x; rotate_left; (first | clear_value x | skip))
    | (lift_lets; intro x; refine Tame.cut (s := s0) (t := x) ?_ (fun hx => ?_); subst x; rotate_left; (first | clear_value x | skip))
    | (lift_lets; intro x)
    | with_reducible assumption
    | with_reducible apply Tame.ite
    | with_reducible apply State.sendNvw_tame
    | with_reducible apply State.nvDue_tame
    | with_reducible apply State.diverge_tame
    | intro x
    | split
    | (clear_value *; split)
    | (with_reducible apply Tame.lit <;> (try dsimp only))

theorem State.logAdd_tame {s0 s : State} (h : Tame s0 s) (e : LogEntry) :
    Tame s0 (State.logAdd s e) := by
  unfold State.logAdd
  repeat' first
    | refine Tame.pending ?_
    | refine Tame.fuse ?_
    | refine Tame.emgHost ?_
    | refine Tame.active ?_
    | refine Tame.maint ?_
    | with_reducible assumption
    | split
    | (clear_value *; split)
    | (with_reducible apply Tame.lit <;> (try dsimp only))

theorem State.logMod_tame {s0 s : State} (h : Tame s0 s) (r : CmdRef) (g : LogEntry → LogEntry) :
    Tame s0 (State.logMod s r g) := by
  unfold State.logMod
  repeat' first
    | refine Tame.pending ?_
    | refine Tame.fuse ?_
    | refine Tame.emgHost ?_
    | refine Tame.active ?_
    | refine Tame.maint ?_
    | with_reducible assumption
    | with_reducible apply Tame.ite
    | intro x
    | split
    | (clear_value *; split)
    | (with_reducible apply Tame.lit <;> (try dsimp only))

theorem State.release_tame {s0 s : State} (h : Tame s0 s) (r : CmdRef) :
    Tame s0 (State.release s r) := by
  unfold State.release
  repeat' first
    | refine Tame.pending ?_
    | refine Tame.fuse ?_
    | refine Tame.emgHost ?_
    | refine Tame.active ?_
    | refine Tame.maint ?_
    | with_reducible assumption
    | with_reducible apply Tame.ite
    | with_reducible apply State.onRing_tame
    | intro x
    | split
    | (clear_value *; split)
    | (with_reducible apply Tame.lit <;> (try dsimp only))

theorem State.finish_tame {s0 s : State} (h : Tame s0 s) (r : CmdRef) (status value : Nat) (result : List Byte) (isPartial : Bool) :
    Tame s0 (State.finish s r status value result isPartial) := by
  unfold State.finish
  repeat' first
    | refine Tame.pending ?_
    | refine Tame.fuse ?_
    | refine Tame.emgHost ?_
    | refine Tame.active ?_
    | refine Tame.maint ?_
    | (intro x; refine Tame.cut (s := s0) (t := x) ?_ (fun hx => ?_); subst x; rotate_left; (first | clear_value x | skip))
    | (lift_lets; intro x; refine Tame.cut (s := s0) (t := x) ?_ (fun hx => ?_); subst x; rotate_left; (first | clear_value x | skip))
    | (lift_lets; intro x)
    | with_reducible assumption
    | with_reducible apply Tame.ite
    | with_reducible apply State.logMod_tame
    | with_reducible apply State.release_tame
    | intro x
    | split
    | (clear_value *; split)
    | (with_reducible apply Tame.lit <;> (try dsimp only))

theorem State.keep_tame {s0 s : State} (h : Tame s0 s) (c : RunCmd) :
    Tame s0 (State.keep s c) := by
  unfold State.keep
  repeat' first
    | refine Tame.pending ?_
    | refine Tame.fuse ?_
    | refine Tame.emgHost ?_
    | refine Tame.active ?_
    | refine Tame.maint ?_
    | with_reducible assumption
    | split
    | (clear_value *; split)
    | (with_reducible apply Tame.lit <;> (try dsimp only))

theorem State.accept_tame {s0 s : State} (h : Tame s0 s) (r : CmdRef) :
    Tame s0 (State.accept s r) := by
  unfold State.accept
  repeat' first
    | refine Tame.pending ?_
    | refine Tame.fuse ?_
    | refine Tame.emgHost ?_
    | refine Tame.active ?_
    | refine Tame.maint ?_
    | (intro x; refine Tame.cut (s := s0) (t := x) ?_ (fun hx => ?_); subst x; rotate_left; (first | clear_value x | skip))
    | (lift_lets; intro x; refine Tame.cut (s := s0) (t := x) ?_ (fun hx => ?_); subst x; rotate_left; (first | clear_value x | skip))
    | (lift_lets; intro x)
    | with_reducible assumption
    | with_reducible apply Tame.ite
    | with_reducible apply State.logAdd_tame
    | intro x
    | split
    | (clear_value *; split)
    | (with_reducible apply Tame.lit <;> (try dsimp only))

theorem State.repairRec_tame {s0 s : State} (h : Tame s0 s) (kind unit detail : Nat) :
    Tame s0 (State.repairRec s kind unit detail) := by
  unfold State.repairRec
  repeat' first
    | refine Tame.pending ?_
    | refine Tame.fuse ?_
    | refine Tame.emgHost ?_
    | refine Tame.active ?_
    | refine Tame.maint ?_
    | (intro x; refine Tame.cut (s := s0) (t := x) ?_ (fun hx => ?_); subst x; rotate_left; (first | clear_value x | skip))
    | (lift_lets; intro x; refine Tame.cut (s := s0) (t := x) ?_ (fun hx => ?_); subst x; rotate_left; (first | clear_value x | skip))
    | (lift_lets; intro x)
    | with_reducible assumption
    | with_reducible apply State.bbEvent_tame
    | intro x
    | split
    | (clear_value *; split)
    | (with_reducible apply Tame.lit <;> (try dsimp only))

theorem State.repaired_tame {s0 s : State} (h : Tame s0 s) (kind unit detail bit : Nat) :
    Tame s0 (State.repaired s kind unit detail bit) := by
  unfold State.repaired
  repeat' first
    | with_reducible assumption
    | with_reducible apply State.event_tame
    | with_reducible apply State.repairRec_tame
    | split
    | (clear_value *; split)

theorem State.draw_tame {s0 s : State} (h : Tame s0 s) : Tame s0 (State.draw s).2 :=
  ⟨h.pending, h.fuse, h.emgHost, h.active, h.maint⟩

theorem State.draw_tame' {s0 s t : State} {a} (h : Tame s0 s) (e : State.draw s = (a, t)) : Tame s0 t := by
  have k := State.draw_tame h
  rw [e] at k
  exact k

theorem State.holdupDrawn_tame {s0 s : State} (h : Tame s0 s)  :
    Tame s0 (State.holdupDrawn s) := by
  unfold State.holdupDrawn
  repeat' first
    | (intro x; refine Tame.cut (s := s0) (t := x) ?_ (fun hx => ?_); subst x; rotate_left; (first | clear_value x | skip))
    | (lift_lets; intro x; refine Tame.cut (s := s0) (t := x) ?_ (fun hx => ?_); subst x; rotate_left; (first | clear_value x | skip))
    | (lift_lets; intro x)
    | with_reducible assumption
    | with_reducible apply State.holdupNow_tame
    | with_reducible apply State.draw_tame
    | (refine State.draw_tame' ?_ ‹_›)
    | intro x
    | split
    | (clear_value *; split)

end Sys2Proof.Machine
end

