-- ==== Sys2Proof/Laws/TameTick.lean ====
section
/-! SUPPORT. The operations of Machine.Tick are tame. -/

namespace Sys2Proof.Machine

open Sys2Proof

set_option linter.unreachableTactic false
set_option linter.unusedTactic false

theorem State.tick_tame {s0 s : State} (h : Tame s0 s)  :
    Tame s0 (State.tick s) := by
  unfold State.tick
  repeat' first
    | refine Tame.pending ?_
    | refine Tame.fuse ?_
    | refine Tame.emgHost ?_
    | refine Tame.active ?_
    | refine Tame.maint ?_
    | (intro x; refine Tame.cut (s := s0) (t := x) ?_ (fun hx => ?_); subst x; rotate_left; (first | clear_value x | skip))
    | (lift_lets; intro x; refine Tame.cut (s := s0) (t := x) ?_ (fun hx => ?_); subst x; rotate_left; (first | clear_value x | skip))
    | (lift_lets; intro x)
    | with_reducible assumption
    | with_reducible apply Tame.ite
    | intro x
    | split
    | (clear_value *; split)
    | (with_reducible apply Tame.lit <;> (try dsimp only))

theorem State.keeperOn_tame {s0 s : State} (h : Tame s0 s)  :
    Tame s0 (State.keeperOn s) := by
  unfold State.keeperOn
  repeat' first
    | refine Tame.pending ?_
    | refine Tame.fuse ?_
    | refine Tame.emgHost ?_
    | refine Tame.active ?_
    | refine Tame.maint ?_
    | with_reducible assumption
    | split
    | (clear_value *; split)
    | (with_reducible apply Tame.lit <;> (try dsimp only))

theorem State.keeperOff_tame {s0 s : State} (h : Tame s0 s)  :
    Tame s0 (State.keeperOff s) := by
  unfold State.keeperOff
  repeat' first
    | refine Tame.pending ?_
    | refine Tame.fuse ?_
    | refine Tame.emgHost ?_
    | refine Tame.active ?_
    | refine Tame.maint ?_
    | (intro x; refine Tame.cut (s := s0) (t := x) ?_ (fun hx => ?_); subst x; rotate_left; (first | clear_value x | skip))
    | (lift_lets; intro x; refine Tame.cut (s := s0) (t := x) ?_ (fun hx => ?_); subst x; rotate_left; (first | clear_value x | skip))
    | (lift_lets; intro x)
    | with_reducible assumption
    | with_reducible apply Tame.ite
    | intro x
    | split
    | (clear_value *; split)
    | (with_reducible apply Tame.lit <;> (try dsimp only))

end Sys2Proof.Machine
end

