-- ==== Sys2Proof/Laws/TameCanBase.lean ====
section
/-! SUPPORT. The operations of Machine.CanBase are tame. -/

namespace Sys2Proof.Machine

open Sys2Proof

set_option linter.unreachableTactic false
set_option linter.unusedTactic false

theorem State.originate_tame {s0 s : State} (h : Tame s0 s) (c : Nat) (f : CanFrame) :
    Tame s0 (State.originate s c f) := by
  unfold State.originate
  repeat' first
    | refine Tame.pending ?_
    | refine Tame.fuse ?_
    | refine Tame.emgHost ?_
    | refine Tame.active ?_
    | refine Tame.maint ?_
    | (intro x; refine Tame.cut (s := s0) (t := x) ?_ (fun hx => ?_); subst x; rotate_left; (first | clear_value x | skip))
    | (lift_lets; intro x; refine Tame.cut (s := s0) (t := x) ?_ (fun hx => ?_); subst x; rotate_left; (first | clear_value x | skip))
    | (lift_lets; intro x)
    | with_reducible assumption
    | with_reducible apply Tame.ite
    | with_reducible apply State.onCan_tame
    | intro x
    | split
    | (clear_value *; split)
    | (with_reducible apply Tame.lit <;> (try dsimp only))

theorem State.sendSafe_tame {s0 s : State} (h : Tame s0 s) (id typ len : Nat) (data : List Byte) :
    Tame s0 (State.sendSafe s id typ len data) := by
  unfold State.sendSafe
  repeat' first
    | refine Tame.pending ?_
    | refine Tame.fuse ?_
    | refine Tame.emgHost ?_
    | refine Tame.active ?_
    | refine Tame.maint ?_
    | (intro x; refine Tame.cut (s := s0) (t := x) ?_ (fun hx => ?_); subst x; rotate_left; (first | clear_value x | skip))
    | (lift_lets; intro x; refine Tame.cut (s := s0) (t := x) ?_ (fun hx => ?_); subst x; rotate_left; (first | clear_value x | skip))
    | (lift_lets; intro x)
    | with_reducible assumption
    | with_reducible apply State.originate_tame
    | intro x
    | split
    | (clear_value *; split)
    | (with_reducible apply Tame.lit <;> (try dsimp only))

theorem State.publish_tame {s0 s : State} (h : Tame s0 s) (t : Nat) (extra : Bool) :
    Tame s0 (State.publish s t extra) := by
  unfold State.publish
  repeat' first
    | refine Tame.pending ?_
    | refine Tame.fuse ?_
    | refine Tame.emgHost ?_
    | refine Tame.active ?_
    | refine Tame.maint ?_
    | (intro x; refine Tame.cut (s := s0) (t := x) ?_ (fun hx => ?_); subst x; rotate_left; (first | clear_value x | skip))
    | (lift_lets; intro x; refine Tame.cut (s := s0) (t := x) ?_ (fun hx => ?_); subst x; rotate_left; (first | clear_value x | skip))
    | (lift_lets; intro x)
    | with_reducible assumption
    | with_reducible apply Tame.ite
    | with_reducible apply State.sendMirror_tame
    | with_reducible apply State.record_tame
    | with_reducible apply State.draw_tame
    | (refine State.draw_tame' ?_ ‹_›)
    | with_reducible apply State.sendSafe_tame
    | with_reducible apply State.saveWindow_tame
    | intro x
    | split
    | (clear_value *; split)
    | (with_reducible apply Tame.lit <;> (try dsimp only))

theorem State.f52Str_tame {s0 s : State} (h : Tame s0 s) (p : Nat) :
    Tame s0 (State.f52Str s p) := by
  unfold State.f52Str
  repeat' first
    | refine Tame.pending ?_
    | refine Tame.fuse ?_
    | refine Tame.emgHost ?_
    | refine Tame.active ?_
    | refine Tame.maint ?_
    | (intro x; refine Tame.cut (s := s0) (t := x) ?_ (fun hx => ?_); subst x; rotate_left; (first | clear_value x | skip))
    | (lift_lets; intro x; refine Tame.cut (s := s0) (t := x) ?_ (fun hx => ?_); subst x; rotate_left; (first | clear_value x | skip))
    | (lift_lets; intro x)
    | with_reducible assumption
    | with_reducible apply Tame.ite
    | with_reducible apply State.onStr_tame
    | intro x
    | split
    | (clear_value *; split)
    | (with_reducible apply Tame.lit <;> (try dsimp only))

theorem State.f52Pack_tame {s0 s : State} (h : Tame s0 s)  :
    Tame s0 (State.f52Pack s) := by
  unfold State.f52Pack
  repeat' first
    | refine Tame.pending ?_
    | refine Tame.fuse ?_
    | refine Tame.emgHost ?_
    | refine Tame.active ?_
    | refine Tame.maint ?_
    | (intro x; refine Tame.cut (s := s0) (t := x) ?_ (fun hx => ?_); subst x; rotate_left; (first | clear_value x | skip))
    | (lift_lets; intro x; refine Tame.cut (s := s0) (t := x) ?_ (fun hx => ?_); subst x; rotate_left; (first | clear_value x | skip))
    | (lift_lets; intro x)
    | with_reducible assumption
    | with_reducible apply Tame.ite
    | (with_reducible apply Tame.foldl; rotate_left; intro y z hy)
    | intro x
    | split
    | (clear_value *; split)
    | (with_reducible apply Tame.lit <;> (try dsimp only))

theorem State.f52Eval_tame {s0 s : State} (h : Tame s0 s)  :
    Tame s0 (State.f52Eval s) := by
  unfold State.f52Eval
  repeat' first
    | with_reducible assumption
    | with_reducible apply Tame.ite
    | with_reducible apply State.f52Str_tame
    | with_reducible apply State.f52Pack_tame
    | (with_reducible apply Tame.foldl; rotate_left; intro y z hy)
    | intro x
    | split
    | (clear_value *; split)

theorem State.limitsZero_tame {s0 s : State} (h : Tame s0 s) (scope : Nat) (idx : List Nat) (code : Nat) :
    Tame s0 (State.limitsZero s scope idx code) := by
  unfold State.limitsZero
  repeat' first
    | refine Tame.pending ?_
    | refine Tame.fuse ?_
    | refine Tame.emgHost ?_
    | refine Tame.active ?_
    | refine Tame.maint ?_
    | (intro x; refine Tame.cut (s := s0) (t := x) ?_ (fun hx => ?_); subst x; rotate_left; (first | clear_value x | skip))
    | (lift_lets; intro x; refine Tame.cut (s := s0) (t := x) ?_ (fun hx => ?_); subst x; rotate_left; (first | clear_value x | skip))
    | (lift_lets; intro x)
    | with_reducible assumption
    | with_reducible apply Tame.ite
    | with_reducible apply State.onStr_tame
    | with_reducible apply State.f52Eval_tame
    | (with_reducible apply Tame.foldl; rotate_left; intro y z hy)
    | intro x
    | split
    | (clear_value *; split)
    | (with_reducible apply Tame.lit <;> (try dsimp only))

theorem State.zeroLimits_tame {s0 s : State} (h : Tame s0 s) (scope : Nat) :
    Tame s0 (State.zeroLimits s scope) := by
  unfold State.zeroLimits
  repeat' first
    | with_reducible assumption
    | with_reducible apply State.limitsZero_tame
    | split
    | (clear_value *; split)

theorem State.publishExtra_tame {s0 s : State} (h : Tame s0 s)  :
    Tame s0 (State.publishExtra s) := by
  unfold State.publishExtra
  repeat' first
    | with_reducible assumption
    | with_reducible apply Tame.ite
    | with_reducible apply State.publish_tame
    | split
    | (clear_value *; split)

theorem State.publishZero_tame {s0 s : State} (h : Tame s0 s) (scope : Nat) :
    Tame s0 (State.publishZero s scope) := by
  unfold State.publishZero
  repeat' first
    | with_reducible assumption
    | with_reducible apply State.zeroLimits_tame
    | with_reducible apply State.publishExtra_tame
    | split
    | (clear_value *; split)

end Sys2Proof.Machine
end

