-- ==== Sys2Proof/Laws/TameCoils.lean ====
section
/-! SUPPORT. The operations of Machine.Coils are tame. -/

namespace Sys2Proof.Machine

open Sys2Proof

set_option linter.unreachableTactic false
set_option linter.unusedTactic false

theorem State.faultRec_tame {s0 s : State} (h : Tame s0 s) (n scope change : Nat) (w : Why) (flags : Nat) :
    Tame s0 (State.faultRec s n scope change w flags) := by
  unfold State.faultRec
  repeat' first
    | (intro x; refine Tame.cut (s := s0) (t := x) ?_ (fun hx => ?_); subst x; rotate_left; (first | clear_value x | skip))
    | (lift_lets; intro x; refine Tame.cut (s := s0) (t := x) ?_ (fun hx => ?_); subst x; rotate_left; (first | clear_value x | skip))
    | (lift_lets; intro x)
    | with_reducible assumption
    | with_reducible apply Tame.ite
    | with_reducible apply State.raiseIrq_tame
    | with_reducible apply State.record_tame
    | with_reducible apply State.bbEvent_tame
    | intro x
    | split
    | (clear_value *; split)

theorem State.retriesTake_tame {s0 s : State} (h : Tame s0 s) (old : List Nat) :
    Tame s0 (State.retriesTake s old) := by
  unfold State.retriesTake
  repeat' first
    | refine Tame.pending ?_
    | refine Tame.fuse ?_
    | refine Tame.emgHost ?_
    | refine Tame.active ?_
    | refine Tame.maint ?_
    | with_reducible assumption
    | with_reducible apply Tame.ite
    | with_reducible apply State.onOutc_tame
    | (with_reducible apply Tame.foldl; rotate_left; intro y z hy)
    | intro x
    | split
    | (clear_value *; split)
    | (with_reducible apply Tame.lit <;> (try dsimp only))

theorem State.finishGroup_tame {s0 s : State} (h : Tame s0 s) (r : CmdRef) (g : Nat) (rs : List MemberRes) :
    Tame s0 (State.finishGroup s r g rs) := by
  unfold State.finishGroup
  repeat' first
    | (intro x; refine Tame.cut (s := s0) (t := x) ?_ (fun hx => ?_); subst x; rotate_left; (first | clear_value x | skip))
    | (lift_lets; intro x; refine Tame.cut (s := s0) (t := x) ?_ (fun hx => ?_); subst x; rotate_left; (first | clear_value x | skip))
    | (lift_lets; intro x)
    | with_reducible assumption
    | with_reducible apply Tame.ite
    | with_reducible apply State.finish_tame
    | intro x
    | split
    | (clear_value *; split)

theorem State.settleCmds_tame {s0 s : State} (h : Tame s0 s)  :
    Tame s0 (State.settleCmds s) := by
  unfold State.settleCmds
  repeat' first
    | refine Tame.pending ?_
    | refine Tame.fuse ?_
    | refine Tame.emgHost ?_
    | refine Tame.active ?_
    | refine Tame.maint ?_
    | (intro x; refine Tame.cut (s := s0) (t := x) ?_ (fun hx => ?_); subst x; rotate_left; (first | clear_value x | skip))
    | (lift_lets; intro x; refine Tame.cut (s := s0) (t := x) ?_ (fun hx => ?_); subst x; rotate_left; (first | clear_value x | skip))
    | (lift_lets; intro x)
    | with_reducible assumption
    | with_reducible exact Tame.refl _
    | with_reducible apply Tame.ite
    | with_reducible apply State.finish_tame
    | with_reducible apply State.finishGroup_tame
    | (with_reducible apply Tame.foldl; rotate_left; intro y z hy)
    | intro x
    | split
    | (clear_value *; split)
    | (with_reducible apply Tame.lit <;> (try dsimp only))
    | contradiction

theorem State.connEnd_tame {s0 s : State} (h : Tame s0 s) (port : Nat) :
    Tame s0 (State.connEnd s port) := by
  unfold State.connEnd
  repeat' first
    | refine Tame.pending ?_
    | refine Tame.fuse ?_
    | refine Tame.emgHost ?_
    | refine Tame.active ?_
    | refine Tame.maint ?_
    | with_reducible assumption
    | with_reducible apply State.onStr_tame
    | (with_reducible apply Tame.foldl; rotate_left; intro y z hy)
    | intro x
    | split
    | (clear_value *; split)
    | (with_reducible apply Tame.lit <;> (try dsimp only))

theorem State.openMark_tame {s0 s : State} (h : Tame s0 s) (port : Nat) :
    Tame s0 (State.openMark s port) := by
  unfold State.openMark
  repeat' first
    | refine Tame.pending ?_
    | refine Tame.fuse ?_
    | refine Tame.emgHost ?_
    | refine Tame.active ?_
    | refine Tame.maint ?_
    | (intro x; refine Tame.cut (s := s0) (t := x) ?_ (fun hx => ?_); subst x; rotate_left; (first | clear_value x | skip))
    | (lift_lets; intro x; refine Tame.cut (s := s0) (t := x) ?_ (fun hx => ?_); subst x; rotate_left; (first | clear_value x | skip))
    | (lift_lets; intro x)
    | with_reducible assumption
    | with_reducible apply State.onStr_tame
    | (with_reducible apply Tame.foldl; rotate_left; intro y z hy)
    | intro x
    | split
    | (clear_value *; split)
    | (with_reducible apply Tame.lit <;> (try dsimp only))

theorem State.setCtr_tame {s0 s : State} (h : Tame s0 s) (i : Nat) (st : CtrState) :
    Tame s0 (State.setCtr s i st) := by
  unfold State.setCtr
  repeat' first
    | refine Tame.pending ?_
    | refine Tame.fuse ?_
    | refine Tame.emgHost ?_
    | refine Tame.active ?_
    | refine Tame.maint ?_
    | (intro x; refine Tame.cut (s := s0) (t := x) ?_ (fun hx => ?_); subst x; rotate_left; (first | clear_value x | skip))
    | (lift_lets; intro x; refine Tame.cut (s := s0) (t := x) ?_ (fun hx => ?_); subst x; rotate_left; (first | clear_value x | skip))
    | (lift_lets; intro x)
    | with_reducible assumption
    | with_reducible apply Tame.ite
    | with_reducible apply State.onCtr_tame
    | with_reducible apply State.sendEvt_tame
    | with_reducible apply State.eventRec_tame
    | with_reducible apply State.settleCmds_tame
    | with_reducible apply State.connEnd_tame
    | with_reducible apply State.openMark_tame
    | intro x
    | split
    | (clear_value *; split)
    | (with_reducible apply Tame.lit <;> (try dsimp only))

theorem State.channel_tame {s0 s : State} (h : Tame s0 s) (ch : Nat) (on : Bool) :
    Tame s0 (State.channel s ch on) := by
  unfold State.channel
  repeat' first
    | refine Tame.pending ?_
    | refine Tame.fuse ?_
    | refine Tame.emgHost ?_
    | refine Tame.active ?_
    | refine Tame.maint ?_
    | with_reducible assumption
    | with_reducible apply Tame.ite
    | with_reducible apply State.onOutc_tame
    | intro x
    | split
    | (clear_value *; split)
    | (with_reducible apply Tame.lit <;> (try dsimp only))

theorem State.coil_tame {s0 s : State} (h : Tame s0 s) (ch : Nat) (on : Bool) :
    Tame s0 (State.coil s ch on) := by
  unfold State.coil
  repeat' first
    | refine Tame.pending ?_
    | refine Tame.fuse ?_
    | refine Tame.emgHost ?_
    | refine Tame.active ?_
    | refine Tame.maint ?_
    | (intro x; refine Tame.cut (s := s0) (t := x) ?_ (fun hx => ?_); subst x; rotate_left; (first | clear_value x | skip))
    | (lift_lets; intro x; refine Tame.cut (s := s0) (t := x) ?_ (fun hx => ?_); subst x; rotate_left; (first | clear_value x | skip))
    | (lift_lets; intro x)
    | with_reducible assumption
    | with_reducible apply Tame.ite
    | with_reducible apply State.sendCoil_tame
    | with_reducible apply State.channel_tame
    | intro x
    | split
    | (clear_value *; split)
    | (with_reducible apply Tame.lit <;> (try dsimp only))

theorem State.rearm_tame {s0 s : State} (h : Tame s0 s) (j : Nat) :
    Tame s0 (State.rearm s j) := by
  unfold State.rearm
  repeat' first
    | refine Tame.pending ?_
    | refine Tame.fuse ?_
    | refine Tame.emgHost ?_
    | refine Tame.active ?_
    | refine Tame.maint ?_
    | with_reducible assumption
    | with_reducible apply Tame.ite
    | with_reducible apply State.onLsw_tame
    | intro x
    | split
    | (clear_value *; split)
    | (with_reducible apply Tame.lit <;> (try dsimp only))

theorem State.setOn_tame {s0 s : State} (h : Tame s0 s) (ch i : Nat) :
    Tame s0 (State.setOn s ch i) := by
  unfold State.setOn
  repeat' first
    | with_reducible assumption
    | with_reducible apply State.setCtr_tame
    | (with_reducible apply Tame.foldl; rotate_left; intro y z hy)
    | intro x
    | split
    | (clear_value *; split)

theorem State.ctrOn_tame {s0 s : State} (h : Tame s0 s) (i : Nat) :
    Tame s0 (State.ctrOn s i) := by
  unfold State.ctrOn
  repeat' first
    | refine Tame.pending ?_
    | refine Tame.fuse ?_
    | refine Tame.emgHost ?_
    | refine Tame.active ?_
    | refine Tame.maint ?_
    | (intro x; refine Tame.cut (s := s0) (t := x) ?_ (fun hx => ?_); subst x; rotate_left; (first | clear_value x | skip))
    | (lift_lets; intro x; refine Tame.cut (s := s0) (t := x) ?_ (fun hx => ?_); subst x; rotate_left; (first | clear_value x | skip))
    | (lift_lets; intro x)
    | with_reducible assumption
    | with_reducible apply Tame.ite
    | with_reducible apply State.onCtr_tame
    | with_reducible apply State.setCtr_tame
    | with_reducible apply State.coil_tame
    | with_reducible apply State.rearm_tame
    | with_reducible apply State.setOn_tame
    | intro x
    | split
    | (clear_value *; split)
    | (with_reducible apply Tame.lit <;> (try dsimp only))

theorem State.setOff_tame {s0 s : State} (h : Tame s0 s) (ch i : Nat) :
    Tame s0 (State.setOff s ch i) := by
  unfold State.setOff
  repeat' first
    | refine Tame.pending ?_
    | refine Tame.fuse ?_
    | refine Tame.emgHost ?_
    | refine Tame.active ?_
    | refine Tame.maint ?_
    | (intro x; refine Tame.cut (s := s0) (t := x) ?_ (fun hx => ?_); subst x; rotate_left; (first | clear_value x | skip))
    | (lift_lets; intro x; refine Tame.cut (s := s0) (t := x) ?_ (fun hx => ?_); subst x; rotate_left; (first | clear_value x | skip))
    | (lift_lets; intro x)
    | with_reducible assumption
    | with_reducible apply Tame.ite
    | with_reducible apply State.onCtr_tame
    | with_reducible apply State.onOpn_tame
    | with_reducible apply State.setCtr_tame
    | with_reducible apply State.coil_tame
    | (with_reducible apply Tame.foldl; rotate_left; intro y z hy)
    | intro x
    | split
    | (clear_value *; split)
    | (with_reducible apply Tame.lit <;> (try dsimp only))

theorem State.ctrOff_tame {s0 s : State} (h : Tame s0 s) (i : Nat) (leaving : List Nat) (above : Bool) :
    Tame s0 (State.ctrOff s i leaving above) := by
  unfold State.ctrOff
  repeat' first
    | refine Tame.pending ?_
    | refine Tame.fuse ?_
    | refine Tame.emgHost ?_
    | refine Tame.active ?_
    | refine Tame.maint ?_
    | (intro x; refine Tame.cut (s := s0) (t := x) ?_ (fun hx => ?_); subst x; rotate_left; (first | clear_value x | skip))
    | (lift_lets; intro x; refine Tame.cut (s := s0) (t := x) ?_ (fun hx => ?_); subst x; rotate_left; (first | clear_value x | skip))
    | (lift_lets; intro x)
    | with_reducible assumption
    | with_reducible apply Tame.ite
    | with_reducible apply State.onCtr_tame
    | with_reducible apply State.setCtr_tame
    | with_reducible apply State.coil_tame
    | with_reducible apply State.setOff_tame
    | intro x
    | split
    | (clear_value *; split)
    | (with_reducible apply Tame.lit <;> (try dsimp only))

theorem State.beginOpen_tame {s0 s : State} (h : Tame s0 s) (p : Nat) (above : Bool) :
    Tame s0 (State.beginOpen s p above) := by
  unfold State.beginOpen
  repeat' first
    | refine Tame.pending ?_
    | refine Tame.fuse ?_
    | refine Tame.emgHost ?_
    | refine Tame.active ?_
    | refine Tame.maint ?_
    | (intro x; refine Tame.cut (s := s0) (t := x) ?_ (fun hx => ?_); subst x; rotate_left; (first | clear_value x | skip))
    | (lift_lets; intro x; refine Tame.cut (s := s0) (t := x) ?_ (fun hx => ?_); subst x; rotate_left; (first | clear_value x | skip))
    | (lift_lets; intro x)
    | with_reducible assumption
    | with_reducible apply Tame.ite
    | with_reducible apply State.onOpn_tame
    | with_reducible apply State.ctrOff_tame
    | intro x
    | split
    | (clear_value *; split)
    | (with_reducible apply Tame.lit <;> (try dsimp only))

theorem State.openAll_tame {s0 s : State} (h : Tame s0 s) (p : Nat) :
    Tame s0 (State.openAll s p) := by
  unfold State.openAll
  repeat' first
    | refine Tame.pending ?_
    | refine Tame.fuse ?_
    | refine Tame.emgHost ?_
    | refine Tame.active ?_
    | refine Tame.maint ?_
    | (intro x; refine Tame.cut (s := s0) (t := x) ?_ (fun hx => ?_); subst x; rotate_left; (first | clear_value x | skip))
    | (lift_lets; intro x; refine Tame.cut (s := s0) (t := x) ?_ (fun hx => ?_); subst x; rotate_left; (first | clear_value x | skip))
    | (lift_lets; intro x)
    | with_reducible assumption
    | with_reducible apply Tame.ite
    | with_reducible apply State.onOpn_tame
    | with_reducible apply State.ctrOff_tame
    | (with_reducible apply Tame.foldl; rotate_left; intro y z hy)
    | intro x
    | split
    | (clear_value *; split)
    | (with_reducible apply Tame.lit <;> (try dsimp only))

theorem State.releaseLsw_tame {s0 s : State} (h : Tame s0 s) (j by_ : Nat) :
    Tame s0 (State.releaseLsw s j by_) := by
  unfold State.releaseLsw
  repeat' first
    | refine Tame.pending ?_
    | refine Tame.fuse ?_
    | refine Tame.emgHost ?_
    | refine Tame.active ?_
    | refine Tame.maint ?_
    | (intro x; refine Tame.cut (s := s0) (t := x) ?_ (fun hx => ?_); subst x; rotate_left; (first | clear_value x | skip))
    | (lift_lets; intro x; refine Tame.cut (s := s0) (t := x) ?_ (fun hx => ?_); subst x; rotate_left; (first | clear_value x | skip))
    | (lift_lets; intro x)
    | with_reducible assumption
    | with_reducible apply Tame.ite
    | with_reducible apply State.onOutc_tame
    | with_reducible apply State.onLsw_tame
    | with_reducible apply State.emit_tame
    | with_reducible apply State.event_tame
    | with_reducible apply State.eventRec_tame
    | (with_reducible apply Tame.foldl; rotate_left; intro y z hy)
    | intro x
    | split
    | (clear_value *; split)
    | (with_reducible apply Tame.lit <;> (try dsimp only))

theorem State.openModule_tame {s0 s : State} (h : Tame s0 s) (by_ : Nat) :
    Tame s0 (State.openModule s by_) := by
  unfold State.openModule
  repeat' first
    | refine Tame.pending ?_
    | refine Tame.fuse ?_
    | refine Tame.emgHost ?_
    | refine Tame.active ?_
    | refine Tame.maint ?_
    | (intro x; refine Tame.cut (s := s0) (t := x) ?_ (fun hx => ?_); subst x; rotate_left; (first | clear_value x | skip))
    | (lift_lets; intro x; refine Tame.cut (s := s0) (t := x) ?_ (fun hx => ?_); subst x; rotate_left; (first | clear_value x | skip))
    | (lift_lets; intro x)
    | with_reducible assumption
    | with_reducible apply Tame.ite
    | with_reducible apply State.onOpn_tame
    | with_reducible apply State.ctrOff_tame
    | with_reducible apply State.releaseLsw_tame
    | (with_reducible apply Tame.foldl; rotate_left; intro y z hy)
    | intro x
    | split
    | (clear_value *; split)
    | (with_reducible apply Tame.lit <;> (try dsimp only))

theorem State.startWait_tame {s0 s : State} (h : Tame s0 s) (key w : Nat) (cmd : Option CmdRef) :
    Tame s0 (State.startWait s key w cmd) := by
  unfold State.startWait
  repeat' first
    | refine Tame.pending ?_
    | refine Tame.fuse ?_
    | refine Tame.emgHost ?_
    | refine Tame.active ?_
    | refine Tame.maint ?_
    | with_reducible assumption
    | with_reducible apply Tame.ite
    | with_reducible apply State.onDisc_tame
    | intro x
    | split
    | (clear_value *; split)
    | (with_reducible apply Tame.lit <;> (try dsimp only))

theorem State.publishZeros_tame {s0 s : State} (h : Tame s0 s) (scope : Nat) :
    Tame s0 (State.publishZeros s scope) := by
  unfold State.publishZeros
  repeat' first
    | with_reducible assumption
    | with_reducible apply Tame.ite
    | with_reducible apply State.zeroLimits_tame
    | with_reducible apply State.publishExtra_tame
    | with_reducible apply State.publishZero_tame
    | (with_reducible apply Tame.foldl; rotate_left; intro y z hy)
    | intro x
    | split
    | (clear_value *; split)

theorem State.startB_tame {s0 s : State} (h : Tame s0 s) (scope w : Nat) (cmd : Option CmdRef) :
    Tame s0 (State.startB s scope w cmd) := by
  unfold State.startB
  repeat' first
    | (intro x; refine Tame.cut (s := s0) (t := x) ?_ (fun hx => ?_); subst x; rotate_left; (first | clear_value x | skip))
    | (lift_lets; intro x; refine Tame.cut (s := s0) (t := x) ?_ (fun hx => ?_); subst x; rotate_left; (first | clear_value x | skip))
    | (lift_lets; intro x)
    | with_reducible assumption
    | with_reducible apply Tame.ite
    | with_reducible apply State.startWait_tame
    | with_reducible apply State.publishZeros_tame
    | (with_reducible apply Tame.foldl; rotate_left; intro y z hy)
    | intro x
    | split
    | (clear_value *; split)

theorem State.startC_tame {s0 s : State} (h : Tame s0 s) (scope : Nat) :
    Tame s0 (State.startC s scope) := by
  unfold State.startC
  repeat' first
    | with_reducible assumption
    | with_reducible apply Tame.ite
    | with_reducible apply State.onDisc_tame
    | intro x
    | split
    | (clear_value *; split)

theorem State.openedRec_tame {s0 s : State} (h : Tame s0 s) (scope : Nat) (above : Bool) :
    Tame s0 (State.openedRec s scope above) := by
  unfold State.openedRec
  repeat' first
    | with_reducible assumption
    | with_reducible apply State.faultRec_tame
    | (with_reducible apply Tame.foldl; rotate_left; intro y z hy)
    | intro x
    | split
    | (clear_value *; split)

theorem State.packOpened_tame {s0 s : State} (h : Tame s0 s) (above : Bool) :
    Tame s0 (State.packOpened s above) := by
  unfold State.packOpened
  repeat' first
    | refine Tame.pending ?_
    | refine Tame.fuse ?_
    | refine Tame.emgHost ?_
    | refine Tame.active ?_
    | refine Tame.maint ?_
    | with_reducible assumption
    | with_reducible apply Tame.ite
    | with_reducible apply State.onDisc_tame
    | with_reducible apply State.openedRec_tame
    | intro x
    | split
    | (clear_value *; split)
    | (with_reducible apply Tame.lit <;> (try dsimp only))

theorem State.openScope_tame {s0 s : State} (h : Tame s0 s) (key : Nat) (above : Bool) :
    Tame s0 (State.openScope s key above) := by
  unfold State.openScope
  repeat' first
    | refine Tame.pending ?_
    | refine Tame.fuse ?_
    | refine Tame.emgHost ?_
    | refine Tame.active ?_
    | refine Tame.maint ?_
    | (intro x; refine Tame.cut (s := s0) (t := x) ?_ (fun hx => ?_); subst x; rotate_left; (first | clear_value x | skip))
    | (lift_lets; intro x; refine Tame.cut (s := s0) (t := x) ?_ (fun hx => ?_); subst x; rotate_left; (first | clear_value x | skip))
    | (lift_lets; intro x)
    | with_reducible assumption
    | with_reducible apply Tame.ite
    | with_reducible apply State.onDisc_tame
    | with_reducible apply State.settleCmds_tame
    | with_reducible apply State.ctrOff_tame
    | with_reducible apply State.beginOpen_tame
    | with_reducible apply State.openedRec_tame
    | with_reducible apply State.packOpened_tame
    | intro x
    | split
    | (clear_value *; split)
    | (with_reducible apply Tame.lit <;> (try dsimp only))

theorem State.discSample_tame {s0 s : State} (h : Tame s0 s) (key : Nat) (i : Int) :
    Tame s0 (State.discSample s key i) := by
  unfold State.discSample
  repeat' first
    | refine Tame.pending ?_
    | refine Tame.fuse ?_
    | refine Tame.emgHost ?_
    | refine Tame.active ?_
    | refine Tame.maint ?_
    | (intro x; refine Tame.cut (s := s0) (t := x) ?_ (fun hx => ?_); subst x; rotate_left; (first | clear_value x | skip))
    | (lift_lets; intro x; refine Tame.cut (s := s0) (t := x) ?_ (fun hx => ?_); subst x; rotate_left; (first | clear_value x | skip))
    | (lift_lets; intro x)
    | with_reducible assumption
    | with_reducible apply Tame.ite
    | with_reducible apply State.onDisc_tame
    | with_reducible apply State.openScope_tame
    | intro x
    | split
    | (clear_value *; split)
    | (with_reducible apply Tame.lit <;> (try dsimp only))

theorem State.commandOpen_tame {s0 s : State} (h : Tame s0 s) (l : List Member) (cmd : Option CmdRef) :
    Tame s0 (State.commandOpen s l cmd) := by
  unfold State.commandOpen
  repeat' first
    | (intro x; refine Tame.cut (s := s0) (t := x) ?_ (fun hx => ?_); subst x; rotate_left; (first | clear_value x | skip))
    | (lift_lets; intro x; refine Tame.cut (s := s0) (t := x) ?_ (fun hx => ?_); subst x; rotate_left; (first | clear_value x | skip))
    | (lift_lets; intro x)
    | with_reducible assumption
    | with_reducible apply Tame.ite
    | with_reducible apply State.zeroLimits_tame
    | with_reducible apply State.publishExtra_tame
    | with_reducible apply State.startWait_tame
    | (with_reducible apply Tame.foldl; rotate_left; intro y z hy)
    | intro x
    | split
    | (clear_value *; split)

theorem State.revert_tame {s0 s : State} (h : Tame s0 s)  :
    Tame s0 (State.revert s) := by
  unfold State.revert
  repeat' first
    | refine Tame.pending ?_
    | refine Tame.fuse ?_
    | refine Tame.emgHost ?_
    | refine Tame.active ?_
    | refine Tame.maint ?_
    | with_reducible refine State.command_tame ?_ _ _ _ _ _ _ _ (fun x r hx => ?_)
    | (intro x; refine Tame.cut (s := s0) (t := x) ?_ (fun hx => ?_); subst x; rotate_left; (first | clear_value x | skip))
    | (lift_lets; intro x; refine Tame.cut (s := s0) (t := x) ?_ (fun hx => ?_); subst x; rotate_left; (first | clear_value x | skip))
    | (lift_lets; intro x)
    | with_reducible assumption
    | with_reducible apply Tame.ite
    | with_reducible apply State.settleCmds_tame
    | with_reducible apply State.commandOpen_tame
    | intro x
    | split
    | (clear_value *; split)
    | (with_reducible apply Tame.lit <;> (try dsimp only))

theorem State.seqFinish_tame {s0 s : State} (h : Tame s0 s)  :
    Tame s0 (State.seqFinish s) := by
  unfold State.seqFinish
  repeat' first
    | refine Tame.pending ?_
    | refine Tame.fuse ?_
    | refine Tame.emgHost ?_
    | refine Tame.active ?_
    | refine Tame.maint ?_
    | (intro x; refine Tame.cut (s := s0) (t := x) ?_ (fun hx => ?_); subst x; rotate_left; (first | clear_value x | skip))
    | (lift_lets; intro x; refine Tame.cut (s := s0) (t := x) ?_ (fun hx => ?_); subst x; rotate_left; (first | clear_value x | skip))
    | (lift_lets; intro x)
    | with_reducible assumption
    | with_reducible exact Tame.refl _
    | with_reducible apply Tame.ite
    | with_reducible apply State.finishGroup_tame
    | with_reducible apply State.revert_tame
    | intro x
    | split
    | (clear_value *; split)
    | (with_reducible apply Tame.lit <;> (try dsimp only))
    | contradiction

theorem State.seqTell_tame {s0 s : State} (h : Tame s0 s)  :
    Tame s0 (State.seqTell s) := by
  unfold State.seqTell
  repeat' first
    | with_reducible assumption
    | with_reducible apply Tame.ite
    | with_reducible apply State.sendEvt_tame
    | split
    | (clear_value *; split)

theorem State.resTell_tame {s0 s : State} (h : Tame s0 s) (code : Nat) :
    Tame s0 (State.resTell s code) := by
  unfold State.resTell
  repeat' first
    | with_reducible assumption
    | with_reducible apply Tame.ite
    | with_reducible apply State.sendEvt_tame
    | split
    | (clear_value *; split)

theorem State.memberEnd_tame {s0 s : State} (h : Tame s0 s) (code : Nat) :
    Tame s0 (State.memberEnd s code) := by
  unfold State.memberEnd
  repeat' first
    | refine Tame.pending ?_
    | refine Tame.fuse ?_
    | refine Tame.emgHost ?_
    | refine Tame.active ?_
    | refine Tame.maint ?_
    | (intro x; refine Tame.cut (s := s0) (t := x) ?_ (fun hx => ?_); subst x; rotate_left; (first | clear_value x | skip))
    | (lift_lets; intro x; refine Tame.cut (s := s0) (t := x) ?_ (fun hx => ?_); subst x; rotate_left; (first | clear_value x | skip))
    | (lift_lets; intro x)
    | with_reducible assumption
    | with_reducible exact Tame.refl _
    | with_reducible apply Tame.ite
    | with_reducible apply State.finishGroup_tame
    | with_reducible apply State.revert_tame
    | with_reducible apply State.seqFinish_tame
    | with_reducible apply State.resTell_tame
    | intro x
    | split
    | (clear_value *; split)
    | (with_reducible apply Tame.lit <;> (try dsimp only))
    | contradiction

theorem State.seqStop_tame {s0 s : State} (h : Tame s0 s) (code : Nat) :
    Tame s0 (State.seqStop s code) := by
  unfold State.seqStop
  repeat' first
    | with_reducible assumption
    | with_reducible apply Tame.ite
    | with_reducible apply State.memberEnd_tame
    | split
    | (clear_value *; split)

theorem State.seqFault_tame {s0 s : State} (h : Tame s0 s) (c : Nat) :
    Tame s0 (State.seqFault s c) := by
  unfold State.seqFault
  repeat' first
    | (intro x; refine Tame.cut (s := s0) (t := x) ?_ (fun hx => ?_); subst x; rotate_left; (first | clear_value x | skip))
    | (lift_lets; intro x; refine Tame.cut (s := s0) (t := x) ?_ (fun hx => ?_); subst x; rotate_left; (first | clear_value x | skip))
    | (lift_lets; intro x)
    | with_reducible assumption
    | with_reducible apply Tame.ite
    | with_reducible apply State.ctrOff_tame
    | with_reducible apply State.seqStop_tame
    | intro x
    | split
    | (clear_value *; split)

theorem State.seqAbort_tame {s0 s : State} (h : Tame s0 s) (code : Nat) :
    Tame s0 (State.seqAbort s code) := by
  unfold State.seqAbort
  repeat' first
    | refine Tame.pending ?_
    | refine Tame.fuse ?_
    | refine Tame.emgHost ?_
    | refine Tame.active ?_
    | refine Tame.maint ?_
    | (intro x; refine Tame.cut (s := s0) (t := x) ?_ (fun hx => ?_); subst x; rotate_left; (first | clear_value x | skip))
    | (lift_lets; intro x; refine Tame.cut (s := s0) (t := x) ?_ (fun hx => ?_); subst x; rotate_left; (first | clear_value x | skip))
    | (lift_lets; intro x)
    | with_reducible assumption
    | with_reducible apply Tame.ite
    | with_reducible apply State.onOpn_tame
    | with_reducible apply State.ctrOff_tame
    | with_reducible apply State.memberEnd_tame
    | intro x
    | split
    | (clear_value *; split)
    | (with_reducible apply Tame.lit <;> (try dsimp only))

end Sys2Proof.Machine
end

