-- ==== Sys2Proof/Laws/TameChainBase.lean ====
section
/-! SUPPORT. The operations of Machine.ChainBase are tame. -/

namespace Sys2Proof.Machine

open Sys2Proof

set_option linter.unreachableTactic false
set_option linter.unusedTactic false

theorem State.chainOut_tame {s0 s : State} (h : Tame s0 s) (p e t : Nat) (bytes : List Byte) :
    Tame s0 (State.chainOut s p e t bytes) := by
  unfold State.chainOut
  repeat' first
    | with_reducible assumption
    | with_reducible apply State.onCseq_tame
    | with_reducible apply State.emit_tame
    | intro x
    | split
    | (clear_value *; split)

theorem State.sendCmd_tame {s0 s : State} (h : Tame s0 s) (p e addr tag : Nat) (payload : List Byte) (ref : Option CmdRef) :
    Tame s0 (State.sendCmd s p e addr tag payload ref) := by
  unfold State.sendCmd
  repeat' first
    | (intro x; refine Tame.cut (s := s0) (t := x) ?_ (fun hx => ?_); subst x; rotate_left; (first | clear_value x | skip))
    | (lift_lets; intro x; refine Tame.cut (s := s0) (t := x) ?_ (fun hx => ?_); subst x; rotate_left; (first | clear_value x | skip))
    | (lift_lets; intro x)
    | with_reducible assumption
    | with_reducible apply Tame.ite
    | with_reducible apply State.onReq_tame
    | with_reducible apply State.sendEvt_tame
    | with_reducible apply State.chainOut_tame
    | intro x
    | split
    | (clear_value *; split)

theorem State.sendTo_tame {s0 s : State} (h : Tame s0 s) (p addr tag : Nat) (payload : List Byte) (ref : Option CmdRef) :
    Tame s0 (State.sendTo s p addr tag payload ref) := by
  unfold State.sendTo
  repeat' first
    | (intro x; refine Tame.cut (s := s0) (t := x) ?_ (fun hx => ?_); subst x; rotate_left; (first | clear_value x | skip))
    | (lift_lets; intro x; refine Tame.cut (s := s0) (t := x) ?_ (fun hx => ?_); subst x; rotate_left; (first | clear_value x | skip))
    | (lift_lets; intro x)
    | with_reducible assumption
    | with_reducible apply Tame.ite
    | with_reducible apply State.sendCmd_tame
    | intro x
    | split
    | (clear_value *; split)

theorem State.broadcast_tame {s0 s : State} (h : Tame s0 s) (p tag : Nat) (payload : List Byte) :
    Tame s0 (State.broadcast s p tag payload) := by
  unfold State.broadcast
  repeat' first
    | (intro x; refine Tame.cut (s := s0) (t := x) ?_ (fun hx => ?_); subst x; rotate_left; (first | clear_value x | skip))
    | (lift_lets; intro x; refine Tame.cut (s := s0) (t := x) ?_ (fun hx => ?_); subst x; rotate_left; (first | clear_value x | skip))
    | (lift_lets; intro x)
    | with_reducible assumption
    | with_reducible apply State.sendCmd_tame
    | (with_reducible apply Tame.foldl; rotate_left; intro y z hy)
    | intro x
    | split
    | (clear_value *; split)

theorem State.balHold_tame {s0 s : State} (h : Tame s0 s) (p a : Nat) (chs : List Nat) :
    Tame s0 (State.balHold s p a chs) := by
  unfold State.balHold
  repeat' first
    | refine Tame.pending ?_
    | refine Tame.fuse ?_
    | refine Tame.emgHost ?_
    | refine Tame.active ?_
    | refine Tame.maint ?_
    | with_reducible assumption
    | with_reducible apply Tame.ite
    | with_reducible apply State.onCell_tame
    | (with_reducible apply Tame.foldl; rotate_left; intro y z hy)
    | intro x
    | split
    | (clear_value *; split)
    | (with_reducible apply Tame.lit <;> (try dsimp only))

theorem State.toneSend_tame {s0 s : State} (h : Tame s0 s) (p e : Nat) :
    Tame s0 (State.toneSend s p e) := by
  unfold State.toneSend
  repeat' first
    | with_reducible assumption
    | with_reducible apply Tame.ite
    | with_reducible apply State.emit_tame
    | with_reducible apply State.sendEvt_tame
    | split
    | (clear_value *; split)

theorem State.enumerate_tame {s0 s : State} (h : Tame s0 s) (p e addr : Nat) :
    Tame s0 (State.enumerate s p e addr) := by
  unfold State.enumerate
  repeat' first
    | with_reducible assumption
    | with_reducible apply State.sendCmd_tame
    | split
    | (clear_value *; split)

theorem State.wakePort_tame {s0 s : State} (h : Tame s0 s) (p : Nat) (warm hb : Bool) :
    Tame s0 (State.wakePort s p warm hb) := by
  unfold State.wakePort
  repeat' first
    | refine Tame.pending ?_
    | refine Tame.fuse ?_
    | refine Tame.emgHost ?_
    | refine Tame.active ?_
    | refine Tame.maint ?_
    | (intro x; refine Tame.cut (s := s0) (t := x) ?_ (fun hx => ?_); subst x; rotate_left; (first | clear_value x | skip))
    | (lift_lets; intro x; refine Tame.cut (s := s0) (t := x) ?_ (fun hx => ?_); subst x; rotate_left; (first | clear_value x | skip))
    | (lift_lets; intro x)
    | with_reducible assumption
    | with_reducible apply Tame.ite
    | with_reducible apply State.onPort_tame
    | with_reducible apply State.onNode_tame
    | with_reducible apply State.onReq_tame
    | with_reducible apply State.emit_tame
    | (with_reducible apply Tame.foldl; rotate_left; intro y z hy)
    | intro x
    | split
    | (clear_value *; split)
    | (with_reducible apply Tame.lit <;> (try dsimp only))

end Sys2Proof.Machine
end

