-- ==== Sys2Proof/Laws/TameWake.lean ====
section
/-! SUPPORT. The operations of Machine.Wake are tame. -/

namespace Sys2Proof.Machine

open Sys2Proof

set_option linter.unreachableTactic false
set_option linter.unusedTactic false

theorem State.resetCause_tame {s0 s : State} (h : Tame s0 s) (n : Nat) :
    Tame s0 (State.resetCause s n) := by
  unfold State.resetCause
  repeat' first
    | refine Tame.pending ?_
    | refine Tame.fuse ?_
    | refine Tame.emgHost ?_
    | refine Tame.active ?_
    | refine Tame.maint ?_
    | (intro x; refine Tame.cut (s := s0) (t := x) ?_ (fun hx => ?_); subst x; rotate_left; (first | clear_value x | skip))
    | (lift_lets; intro x; refine Tame.cut (s := s0) (t := x) ?_ (fun hx => ?_); subst x; rotate_left; (first | clear_value x | skip))
    | (lift_lets; intro x)
    | with_reducible assumption
    | with_reducible apply State.event_tame
    | with_reducible apply State.bbEvent_tame
    | with_reducible apply State.resetCause_tame
    | intro x
    | split
    | (clear_value *; split)
    | (with_reducible apply Tame.lit <;> (try dsimp only))

theorem State.powerState_tame {s0 s : State} (h : Tame s0 s) (st : PState) (code src : Nat) :
    Tame s0 (State.powerState s st code src) := by
  unfold State.powerState
  repeat' first
    | refine Tame.pending ?_
    | refine Tame.fuse ?_
    | refine Tame.emgHost ?_
    | refine Tame.active ?_
    | refine Tame.maint ?_
    | (intro x; refine Tame.cut (s := s0) (t := x) ?_ (fun hx => ?_); subst x; rotate_left; (first | clear_value x | skip))
    | (lift_lets; intro x; refine Tame.cut (s := s0) (t := x) ?_ (fun hx => ?_); subst x; rotate_left; (first | clear_value x | skip))
    | (lift_lets; intro x)
    | with_reducible assumption
    | with_reducible apply State.event_tame
    | with_reducible apply State.eventRec_tame
    | intro x
    | split
    | (clear_value *; split)
    | (with_reducible apply Tame.lit <;> (try dsimp only))

theorem State.wakeRun_tame {s0 s : State} (h : Tame s0 s) (src : Nat) :
    Tame s0 (State.wakeRun s src) := by
  unfold State.wakeRun
  repeat' first
    | refine Tame.pending ?_
    | refine Tame.fuse ?_
    | refine Tame.emgHost ?_
    | refine Tame.active ?_
    | refine Tame.maint ?_
    | (intro x; refine Tame.cut (s := s0) (t := x) ?_ (fun hx => ?_); subst x; rotate_left; (first | clear_value x | skip))
    | (lift_lets; intro x; refine Tame.cut (s := s0) (t := x) ?_ (fun hx => ?_); subst x; rotate_left; (first | clear_value x | skip))
    | (lift_lets; intro x)
    | with_reducible assumption
    | with_reducible apply Tame.ite
    | with_reducible apply State.keeperOff_tame
    | with_reducible apply State.wakePort_tame
    | with_reducible apply State.resetCause_tame
    | with_reducible apply State.powerState_tame
    | (with_reducible apply Tame.foldl; rotate_left; intro y z hy)
    | intro x
    | split
    | (clear_value *; split)
    | (with_reducible apply Tame.lit <;> (try dsimp only))

theorem State.wakeBy_tame {s0 s : State} (h : Tame s0 s) (code : Nat) :
    Tame s0 (State.wakeBy s code) := by
  unfold State.wakeBy
  repeat' first
    | refine Tame.pending ?_
    | refine Tame.fuse ?_
    | refine Tame.emgHost ?_
    | refine Tame.active ?_
    | refine Tame.maint ?_
    | with_reducible assumption
    | with_reducible apply Tame.ite
    | with_reducible apply State.wakeRun_tame
    | split
    | (clear_value *; split)
    | (with_reducible apply Tame.lit <;> (try dsimp only))

end Sys2Proof.Machine
end

