-- ==== Sys2Proof/Laws/TameProtect.lean ====
section
/-! SUPPORT. The operations of Machine.Protect are tame. -/

namespace Sys2Proof.Machine

open Sys2Proof

set_option linter.unreachableTactic false
set_option linter.unusedTactic false

theorem State.wadeEnter_tame {s0 s : State} (h : Tame s0 s)  :
    Tame s0 (State.wadeEnter s) := by
  unfold State.wadeEnter
  repeat' first
    | refine Tame.pending ?_
    | refine Tame.fuse ?_
    | refine Tame.emgHost ?_
    | refine Tame.active ?_
    | refine Tame.maint ?_
    | (intro x; refine Tame.cut (s := s0) (t := x) ?_ (fun hx => ?_); subst x; rotate_left; (first | clear_value x | skip))
    | (lift_lets; intro x; refine Tame.cut (s := s0) (t := x) ?_ (fun hx => ?_); subst x; rotate_left; (first | clear_value x | skip))
    | (lift_lets; intro x)
    | with_reducible assumption
    | with_reducible apply Tame.ite
    | with_reducible apply State.eventRec_tame
    | intro x
    | split
    | (clear_value *; split)
    | (with_reducible apply Tame.lit <;> (try dsimp only))

theorem State.wadeCheckEnd_tame {s0 s : State} (h : Tame s0 s)  :
    Tame s0 (State.wadeCheckEnd s) := by
  unfold State.wadeCheckEnd
  repeat' first
    | refine Tame.pending ?_
    | refine Tame.fuse ?_
    | refine Tame.emgHost ?_
    | refine Tame.active ?_
    | refine Tame.maint ?_
    | (intro x; refine Tame.cut (s := s0) (t := x) ?_ (fun hx => ?_); subst x; rotate_left; (first | clear_value x | skip))
    | (lift_lets; intro x; refine Tame.cut (s := s0) (t := x) ?_ (fun hx => ?_); subst x; rotate_left; (first | clear_value x | skip))
    | (lift_lets; intro x)
    | with_reducible assumption
    | with_reducible apply Tame.ite
    | with_reducible apply State.eventRec_tame
    | intro x
    | split
    | (clear_value *; split)
    | (with_reducible apply Tame.lit <;> (try dsimp only))

theorem State.wadeJoin_tame {s0 s : State} (h : Tame s0 s) (n scope : Nat) :
    Tame s0 (State.wadeJoin s n scope).1 := by
  unfold State.wadeJoin
  repeat' first
    | with_reducible assumption
    | with_reducible apply Tame.ite
    | with_reducible apply Tame.iteFst
    | with_reducible apply State.onFault_tame
    | with_reducible apply State.wadeEnter_tame
    | with_reducible apply Tame.mkFst
    | intro x

theorem State.wadeJoin_tame' {s0 s t : State} {a} {n scope : Nat} (h : Tame s0 s)
    (e : (State.wadeJoin s n scope) = (t, a)) : Tame s0 t := by
  have k := State.wadeJoin_tame h n scope
  rw [e] at k
  exact k

theorem State.wadeOpens_tame {s0 s : State} (h : Tame s0 s)  :
    Tame s0 (State.wadeOpens s) := by
  unfold State.wadeOpens
  repeat' first
    | (intro x; refine Tame.cut (s := s0) (t := x) ?_ (fun hx => ?_); subst x; rotate_left; (first | clear_value x | skip))
    | (lift_lets; intro x; refine Tame.cut (s := s0) (t := x) ?_ (fun hx => ?_); subst x; rotate_left; (first | clear_value x | skip))
    | (lift_lets; intro x)
    | with_reducible assumption
    | with_reducible apply Tame.ite
    | with_reducible apply State.startC_tame
    | (with_reducible apply Tame.foldl; rotate_left; intro y z hy)
    | intro x
    | split
    | (clear_value *; split)

theorem State.wadeAdopt_tame {s0 s : State} (h : Tame s0 s)  :
    Tame s0 (State.wadeAdopt s) := by
  unfold State.wadeAdopt
  repeat' first
    | refine Tame.pending ?_
    | refine Tame.fuse ?_
    | refine Tame.emgHost ?_
    | refine Tame.active ?_
    | refine Tame.maint ?_
    | (intro x; refine Tame.cut (s := s0) (t := x) ?_ (fun hx => ?_); subst x; rotate_left; (first | clear_value x | skip))
    | (lift_lets; intro x; refine Tame.cut (s := s0) (t := x) ?_ (fun hx => ?_); subst x; rotate_left; (first | clear_value x | skip))
    | (lift_lets; intro x)
    | with_reducible assumption
    | with_reducible apply Tame.ite
    | with_reducible apply State.onFault_tame
    | with_reducible apply State.wadeCheckEnd_tame
    | with_reducible apply State.wadeJoin_tame
    | (refine State.wadeJoin_tame' ?_ ‹_›)
    | (with_reducible apply Tame.foldl; rotate_left; intro y z hy)
    | intro x
    | split
    | (clear_value *; split)
    | (with_reducible apply Tame.lit <;> (try dsimp only))

theorem State.actA_tame {s0 s : State} (h : Tame s0 s) (scope by_ : Nat) :
    Tame s0 (State.actA s scope by_) := by
  unfold State.actA
  repeat' first
    | refine Tame.pending ?_
    | refine Tame.fuse ?_
    | refine Tame.emgHost ?_
    | refine Tame.active ?_
    | refine Tame.maint ?_
    | (intro x; refine Tame.cut (s := s0) (t := x) ?_ (fun hx => ?_); subst x; rotate_left; (first | clear_value x | skip))
    | (lift_lets; intro x; refine Tame.cut (s := s0) (t := x) ?_ (fun hx => ?_); subst x; rotate_left; (first | clear_value x | skip))
    | (lift_lets; intro x)
    | with_reducible assumption
    | with_reducible apply Tame.ite
    | with_reducible apply State.onDisc_tame
    | with_reducible apply State.openAll_tame
    | with_reducible apply State.releaseLsw_tame
    | with_reducible apply State.openModule_tame
    | with_reducible apply State.publishZeros_tame
    | (with_reducible apply Tame.foldl; rotate_left; intro y z hy)
    | intro x
    | split
    | (clear_value *; split)
    | (with_reducible apply Tame.lit <;> (try dsimp only))

theorem State.derateZero_tame {s0 s : State} (h : Tame s0 s) (n scope : Nat) :
    Tame s0 (State.derateZero s n scope) := by
  unfold State.derateZero
  repeat' first
    | with_reducible assumption
    | with_reducible apply Tame.ite
    | with_reducible apply State.limitsZero_tame
    | with_reducible apply State.publishExtra_tame
    | split
    | (clear_value *; split)

theorem State.act_tame {s0 s : State} (h : Tame s0 s) (n scope : Nat) (hwBy : Nat) :
    Tame s0 (State.act s n scope hwBy) := by
  unfold State.act
  repeat' first
    | (intro x; refine Tame.cut (s := s0) (t := x) ?_ (fun hx => ?_); subst x; rotate_left; (first | clear_value x | skip))
    | (lift_lets; intro x; refine Tame.cut (s := s0) (t := x) ?_ (fun hx => ?_); subst x; rotate_left; (first | clear_value x | skip))
    | (lift_lets; intro x)
    | with_reducible assumption
    | with_reducible apply Tame.ite
    | with_reducible apply State.startB_tame
    | with_reducible apply State.startC_tame
    | with_reducible apply State.openedRec_tame
    | with_reducible apply State.seqFault_tame
    | with_reducible apply State.actA_tame
    | with_reducible apply State.derateZero_tame
    | intro x
    | split
    | (clear_value *; split)

theorem State.snapshot_tame {s0 s : State} (h : Tame s0 s) (p n cls pos : Nat) :
    Tame s0 (State.snapshot s p n cls pos) := by
  unfold State.snapshot
  repeat' first
    | with_reducible assumption
    | with_reducible apply Tame.ite
    | with_reducible apply State.stamped_tame
    | with_reducible apply State.nvDue_tame
    | split
    | (clear_value *; split)

theorem State.f39Rec_tame {s0 s : State} (h : Tame s0 s) (l : List Nat) (but : Nat) :
    Tame s0 (State.f39Rec s l but) := by
  unfold State.f39Rec
  repeat' first
    | with_reducible assumption
    | with_reducible apply State.faultRec_tame
    | (with_reducible apply Tame.foldl; rotate_left; intro y z hy)
    | intro x
    | split
    | (clear_value *; split)

theorem State.f37Rec_tame {s0 s : State} (h : Tame s0 s) (l : List Nat) (ch : Nat) :
    Tame s0 (State.f37Rec s l ch) := by
  unfold State.f37Rec
  repeat' first
    | with_reducible assumption
    | with_reducible apply State.faultRec_tame
    | (with_reducible apply Tame.foldl; rotate_left; intro y z hy)
    | intro x
    | split
    | (clear_value *; split)

theorem State.latch_tame {s0 s : State} (h : Tame s0 s) (n scope : Nat) (w : Why) :
    Tame s0 (State.latch s n scope w) := by
  unfold State.latch
  repeat' first
    | refine Tame.pending ?_
    | refine Tame.fuse ?_
    | refine Tame.emgHost ?_
    | refine Tame.active ?_
    | refine Tame.maint ?_
    | (intro x; refine Tame.cut (s := s0) (t := x) ?_ (fun hx => ?_); subst x; rotate_left; (first | clear_value x | skip))
    | (lift_lets; intro x; refine Tame.cut (s := s0) (t := x) ?_ (fun hx => ?_); subst x; rotate_left; (first | clear_value x | skip))
    | (lift_lets; intro x)
    | with_reducible assumption
    | with_reducible apply Tame.ite
    | with_reducible apply State.onFault_tame
    | with_reducible apply State.onMark_tame
    | with_reducible apply State.sendEvt_tame
    | with_reducible apply State.faultRec_tame
    | with_reducible apply State.wakeBy_tame
    | with_reducible apply State.wadeJoin_tame
    | (refine State.wadeJoin_tame' ?_ ‹_›)
    | with_reducible apply State.act_tame
    | with_reducible apply State.snapshot_tame
    | with_reducible apply State.f39Rec_tame
    | with_reducible apply State.f37Rec_tame
    | with_reducible apply State.latch_tame
    | intro x
    | split
    | (clear_value *; split)
    | (with_reducible apply Tame.lit <;> (try dsimp only))

theorem State.stand_tame {s0 s : State} (h : Tame s0 s) (n scope : Nat) (w : Why) :
    Tame s0 (State.stand s n scope w) := by
  unfold State.stand
  repeat' first
    | refine Tame.pending ?_
    | refine Tame.fuse ?_
    | refine Tame.emgHost ?_
    | refine Tame.active ?_
    | refine Tame.maint ?_
    | (intro x; refine Tame.cut (s := s0) (t := x) ?_ (fun hx => ?_); subst x; rotate_left; (first | clear_value x | skip))
    | (lift_lets; intro x; refine Tame.cut (s := s0) (t := x) ?_ (fun hx => ?_); subst x; rotate_left; (first | clear_value x | skip))
    | (lift_lets; intro x)
    | with_reducible assumption
    | with_reducible apply Tame.ite
    | with_reducible apply State.onFault_tame
    | with_reducible apply State.onMark_tame
    | with_reducible apply State.latch_tame
    | intro x
    | split
    | (clear_value *; split)
    | (with_reducible apply Tame.lit <;> (try dsimp only))

theorem State.cancelC_tame {s0 s : State} (h : Tame s0 s) (scope : Nat) :
    Tame s0 (State.cancelC s scope) := by
  unfold State.cancelC
  repeat' first
    | refine Tame.pending ?_
    | refine Tame.fuse ?_
    | refine Tame.emgHost ?_
    | refine Tame.active ?_
    | refine Tame.maint ?_
    | (intro x; refine Tame.cut (s := s0) (t := x) ?_ (fun hx => ?_); subst x; rotate_left; (first | clear_value x | skip))
    | (lift_lets; intro x; refine Tame.cut (s := s0) (t := x) ?_ (fun hx => ?_); subst x; rotate_left; (first | clear_value x | skip))
    | (lift_lets; intro x)
    | with_reducible assumption
    | with_reducible apply Tame.ite
    | with_reducible apply State.onDisc_tame
    | (with_reducible apply Tame.foldl; rotate_left; intro y z hy)
    | intro x
    | split
    | (clear_value *; split)
    | (with_reducible apply Tame.lit <;> (try dsimp only))

theorem State.unlatch_tame {s0 s : State} (h : Tame s0 s) (n scope : Nat) :
    Tame s0 (State.unlatch s n scope) := by
  unfold State.unlatch
  repeat' first
    | refine Tame.pending ?_
    | refine Tame.fuse ?_
    | refine Tame.emgHost ?_
    | refine Tame.active ?_
    | refine Tame.maint ?_
    | (intro x; refine Tame.cut (s := s0) (t := x) ?_ (fun hx => ?_); subst x; rotate_left; (first | clear_value x | skip))
    | (lift_lets; intro x; refine Tame.cut (s := s0) (t := x) ?_ (fun hx => ?_); subst x; rotate_left; (first | clear_value x | skip))
    | (lift_lets; intro x)
    | with_reducible assumption
    | with_reducible apply Tame.ite
    | with_reducible apply State.onFault_tame
    | with_reducible apply State.onMark_tame
    | with_reducible apply State.onStr_tame
    | with_reducible apply State.sendEvt_tame
    | with_reducible apply State.faultRec_tame
    | with_reducible apply State.setCtr_tame
    | with_reducible apply State.wadeCheckEnd_tame
    | with_reducible apply State.latch_tame
    | with_reducible apply State.cancelC_tame
    | (with_reducible apply Tame.foldl; rotate_left; intro y z hy)
    | intro x
    | split
    | (clear_value *; split)
    | (with_reducible apply Tame.lit <;> (try dsimp only))

theorem State.cease_tame {s0 s : State} (h : Tame s0 s) (n scope : Nat) :
    Tame s0 (State.cease s n scope) := by
  unfold State.cease
  repeat' first
    | refine Tame.pending ?_
    | refine Tame.fuse ?_
    | refine Tame.emgHost ?_
    | refine Tame.active ?_
    | refine Tame.maint ?_
    | (intro x; refine Tame.cut (s := s0) (t := x) ?_ (fun hx => ?_); subst x; rotate_left; (first | clear_value x | skip))
    | (lift_lets; intro x; refine Tame.cut (s := s0) (t := x) ?_ (fun hx => ?_); subst x; rotate_left; (first | clear_value x | skip))
    | (lift_lets; intro x)
    | with_reducible assumption
    | with_reducible apply Tame.ite
    | with_reducible apply State.onFault_tame
    | with_reducible apply State.onMark_tame
    | with_reducible apply State.sendEvt_tame
    | with_reducible apply State.faultRec_tame
    | with_reducible apply State.unlatch_tame
    | intro x
    | split
    | (clear_value *; split)
    | (with_reducible apply Tame.lit <;> (try dsimp only))

theorem State.setCond_tame {s0 s : State} (h : Tame s0 s) (n scope : Nat) (b : Bool) (w : Why) :
    Tame s0 (State.setCond s n scope b w) := by
  unfold State.setCond
  repeat' first
    | with_reducible assumption
    | with_reducible apply Tame.ite
    | with_reducible apply State.stand_tame
    | with_reducible apply State.cease_tame
    | split
    | (clear_value *; split)

theorem State.finding_tame {s0 s : State} (h : Tame s0 s) (n scope : Nat) (w : Why) :
    Tame s0 (State.finding s n scope w) := by
  unfold State.finding
  repeat' first
    | with_reducible assumption
    | with_reducible apply State.stand_tame
    | with_reducible apply State.cease_tame
    | split
    | (clear_value *; split)

theorem State.tryClear_tame {s0 s : State} (h : Tame s0 s) (n scope : Nat) :
    Tame s0 (State.tryClear s n scope).1 := by
  unfold State.tryClear
  repeat' first
    | (intro x; refine Tame.cut (s := s0) (t := x) ?_ (fun hx => ?_); subst x; rotate_left; (first | clear_value x | skip))
    | (lift_lets; intro x; refine Tame.cut (s := s0) (t := x) ?_ (fun hx => ?_); subst x; rotate_left; (first | clear_value x | skip))
    | (lift_lets; intro x)
    | with_reducible assumption
    | with_reducible apply Tame.ite
    | with_reducible apply Tame.iteFst
    | with_reducible apply State.faultRec_tame
    | with_reducible apply State.unlatch_tame
    | with_reducible apply Tame.mkFst
    | intro x
    | split
    | (clear_value *; split)

theorem State.tryClear_tame' {s0 s t : State} {a} {n scope : Nat} (h : Tame s0 s)
    (e : (State.tryClear s n scope) = (t, a)) : Tame s0 t := by
  have k := State.tryClear_tame h n scope
  rw [e] at k
  exact k

theorem State.settleScope_tame {s0 s : State} (h : Tame s0 s) (scope : Nat) :
    Tame s0 (State.settleScope s scope) := by
  unfold State.settleScope
  repeat' first
    | (intro x; refine Tame.cut (s := s0) (t := x) ?_ (fun hx => ?_); subst x; rotate_left; (first | clear_value x | skip))
    | (lift_lets; intro x; refine Tame.cut (s := s0) (t := x) ?_ (fun hx => ?_); subst x; rotate_left; (first | clear_value x | skip))
    | (lift_lets; intro x)
    | with_reducible assumption
    | with_reducible apply Tame.ite
    | with_reducible apply State.startB_tame
    | with_reducible apply State.startC_tame
    | with_reducible apply State.openedRec_tame
    | with_reducible apply State.actA_tame
    | intro x
    | split
    | (clear_value *; split)

theorem State.settle_tame {s0 s : State} (h : Tame s0 s)  :
    Tame s0 (State.settle s) := by
  unfold State.settle
  repeat' first
    | with_reducible assumption
    | with_reducible apply State.settleScope_tame
    | (with_reducible apply Tame.foldl; rotate_left; intro y z hy)
    | intro x
    | split
    | (clear_value *; split)

theorem State.toneTrip_tame {s0 s : State} (h : Tame s0 s) (p e : Nat) :
    Tame s0 (State.toneTrip s p e) := by
  unfold State.toneTrip
  repeat' first
    | refine Tame.pending ?_
    | refine Tame.fuse ?_
    | refine Tame.emgHost ?_
    | refine Tame.active ?_
    | refine Tame.maint ?_
    | (intro x; refine Tame.cut (s := s0) (t := x) ?_ (fun hx => ?_); subst x; rotate_left; (first | clear_value x | skip))
    | (lift_lets; intro x; refine Tame.cut (s := s0) (t := x) ?_ (fun hx => ?_); subst x; rotate_left; (first | clear_value x | skip))
    | (lift_lets; intro x)
    | with_reducible assumption
    | with_reducible apply Tame.ite
    | with_reducible apply State.onFault_tame
    | with_reducible apply State.releaseLsw_tame
    | with_reducible apply State.openModule_tame
    | with_reducible apply State.openedRec_tame
    | with_reducible apply State.latch_tame
    | (with_reducible apply Tame.foldl; rotate_left; intro y z hy)
    | intro x
    | split
    | (clear_value *; split)
    | (with_reducible apply Tame.lit <;> (try dsimp only))

theorem State.startWindow_tame {s0 s : State} (h : Tame s0 s) (scope : Nat) :
    Tame s0 (State.startWindow s scope) := by
  unfold State.startWindow
  repeat' first
    | refine Tame.pending ?_
    | refine Tame.fuse ?_
    | refine Tame.emgHost ?_
    | refine Tame.active ?_
    | refine Tame.maint ?_
    | (intro x; refine Tame.cut (s := s0) (t := x) ?_ (fun hx => ?_); subst x; rotate_left; (first | clear_value x | skip))
    | (lift_lets; intro x; refine Tame.cut (s := s0) (t := x) ?_ (fun hx => ?_); subst x; rotate_left; (first | clear_value x | skip))
    | (lift_lets; intro x)
    | with_reducible assumption
    | with_reducible apply Tame.ite
    | with_reducible apply State.onDisc_tame
    | with_reducible apply State.startB_tame
    | (with_reducible apply Tame.foldl; rotate_left; intro y z hy)
    | intro x
    | split
    | (clear_value *; split)
    | (with_reducible apply Tame.lit <;> (try dsimp only))

end Sys2Proof.Machine
end

