-- ==== Sys2Proof/Laws/TameEstBase.lean ====
section
/-! SUPPORT. The operations of Machine.EstBase are tame. -/

namespace Sys2Proof.Machine

open Sys2Proof

set_option linter.unreachableTactic false
set_option linter.unusedTactic false

theorem State.zReset_tame {s0 s : State} (h : Tame s0 s) (g : Nat) :
    Tame s0 (State.zReset s g) := by
  unfold State.zReset
  repeat' first
    | refine Tame.pending ?_
    | refine Tame.fuse ?_
    | refine Tame.emgHost ?_
    | refine Tame.active ?_
    | refine Tame.maint ?_
    | with_reducible assumption
    | with_reducible apply State.onEst_tame
    | intro x
    | split
    | (clear_value *; split)
    | (with_reducible apply Tame.lit <;> (try dsimp only))

theorem State.estEvent_tame {s0 s : State} (h : Tame s0 s) (p ev st pos : Nat) (soc : Int) (sigma span qunc before meas after : Nat) (dq : Int) (t0 : Nat) :
    Tame s0 (State.estEvent s p ev st pos soc sigma span qunc before meas after dq t0) := by
  unfold State.estEvent
  repeat' first
    | with_reducible assumption
    | with_reducible apply State.record_tame
    | split
    | (clear_value *; split)

theorem State.estPoint_tame {s0 s : State} (h : Tame s0 s) (g ev : Nat) (soc : Int) (sigma : Nat) :
    Tame s0 (State.estPoint s g ev soc sigma) := by
  unfold State.estPoint
  repeat' first
    | with_reducible assumption
    | with_reducible apply State.estEvent_tame
    | split
    | (clear_value *; split)

theorem State.f49On_tame {s0 s : State} (h : Tame s0 s) (g : Nat) :
    Tame s0 (State.f49On s g) := by
  unfold State.f49On
  repeat' first
    | refine Tame.pending ?_
    | refine Tame.fuse ?_
    | refine Tame.emgHost ?_
    | refine Tame.active ?_
    | refine Tame.maint ?_
    | (intro x; refine Tame.cut (s := s0) (t := x) ?_ (fun hx => ?_); subst x; rotate_left; (first | clear_value x | skip))
    | (lift_lets; intro x; refine Tame.cut (s := s0) (t := x) ?_ (fun hx => ?_); subst x; rotate_left; (first | clear_value x | skip))
    | (lift_lets; intro x)
    | with_reducible assumption
    | with_reducible apply Tame.ite
    | with_reducible apply State.onEst_tame
    | with_reducible apply State.stand_tame
    | with_reducible apply State.estPoint_tame
    | intro x
    | split
    | (clear_value *; split)
    | (with_reducible apply Tame.lit <;> (try dsimp only))

end Sys2Proof.Machine
end

