-- ==== Sys2Proof/Laws/TameOperands.lean ====
section
/-! SUPPORT. The operations of Machine.Operands are tame. -/

namespace Sys2Proof.Machine

open Sys2Proof

set_option linter.unreachableTactic false
set_option linter.unusedTactic false

theorem State.command_tame {s0 s : State} (h : Tame s0 s) (op : Nat) (d : Desc) (okPar : Bool) (perms : List Perm)
    (bars busy : Bool) (body : State → CmdRef → State) (hb : ∀ x r, Tame s0 x → Tame s0 (body x r)) :
    Tame s0 (State.command s op d okPar perms bars busy body) := by
  unfold State.command
  dsimp only
  split
  · exact State.finish_tame h _ _ _ _ _
  · split
    · exact State.finish_tame h _ _ _ _ _
    · split
      · exact State.finish_tame h _ _ _ _ _
      · exact hb _ _ (State.accept_tame h _)

theorem State.okay_tame {s0 s : State} (h : Tame s0 s) (r : CmdRef) (value : Nat) (result : List Byte) :
    Tame s0 (State.okay s r value result) := by
  unfold State.okay
  repeat' first
    | with_reducible assumption
    | with_reducible apply State.finish_tame
    | split
    | (clear_value *; split)

theorem State.fail_tame {s0 s : State} (h : Tame s0 s) (r : CmdRef) (status : Nat) :
    Tame s0 (State.fail s r status) := by
  unfold State.fail
  repeat' first
    | with_reducible assumption
    | with_reducible apply State.finish_tame
    | split
    | (clear_value *; split)

end Sys2Proof.Machine
end

