-- ==== Sys2Proof/Laws/TamePassport.lean ====
section
/-! SUPPORT. The operations of Machine.Passport are tame. -/

namespace Sys2Proof.Machine

open Sys2Proof

set_option linter.unreachableTactic false
set_option linter.unusedTactic false

theorem State.passWrite_tame {s0 s : State} (h : Tame s0 s) (p : Nat) :
    Tame s0 (State.passWrite s p) := by
  unfold State.passWrite
  repeat' first
    | with_reducible assumption
    | with_reducible apply State.sendTo_tame
    | (with_reducible apply Tame.foldl; rotate_left; intro y z hy)
    | intro x
    | split
    | (clear_value *; split)

theorem State.cellNew_tame {s0 s : State} (h : Tame s0 s) (g : Nat) :
    Tame s0 (State.cellNew s g) := by
  unfold State.cellNew
  repeat' first
    | (intro x; refine Tame.cut (s := s0) (t := x) ?_ (fun hx => ?_); subst x; rotate_left; (first | clear_value x | skip))
    | (lift_lets; intro x; refine Tame.cut (s := s0) (t := x) ?_ (fun hx => ?_); subst x; rotate_left; (first | clear_value x | skip))
    | (lift_lets; intro x)
    | with_reducible assumption
    | with_reducible apply State.onEst_tame
    | with_reducible apply State.zReset_tame
    | intro x
    | split
    | (clear_value *; split)

theorem State.classified_tame {s0 s : State} (h : Tame s0 s) (p : Nat) (c : Classif) :
    Tame s0 (State.classified s p c) := by
  unfold State.classified
  repeat' first
    | refine Tame.pending ?_
    | refine Tame.fuse ?_
    | refine Tame.emgHost ?_
    | refine Tame.active ?_
    | refine Tame.maint ?_
    | (intro x; refine Tame.cut (s := s0) (t := x) ?_ (fun hx => ?_); subst x; rotate_left; (first | clear_value x | skip))
    | (lift_lets; intro x; refine Tame.cut (s := s0) (t := x) ?_ (fun hx => ?_); subst x; rotate_left; (first | clear_value x | skip))
    | (lift_lets; intro x)
    | with_reducible assumption
    | with_reducible apply Tame.ite
    | with_reducible apply State.onPort_tame
    | with_reducible apply State.onEst_tame
    | with_reducible apply State.onStr_tame
    | with_reducible apply State.stand_tame
    | with_reducible apply State.estEvent_tame
    | with_reducible apply State.cellNew_tame
    | (with_reducible apply Tame.foldl; rotate_left; intro y z hy)
    | intro x
    | split
    | (clear_value *; split)
    | (with_reducible apply Tame.lit <;> (try dsimp only))

theorem State.rosterSettle_tame {s0 s : State} (h : Tame s0 s) (p : Nat) :
    Tame s0 (State.rosterSettle s p) := by
  unfold State.rosterSettle
  repeat' first
    | refine Tame.pending ?_
    | refine Tame.fuse ?_
    | refine Tame.emgHost ?_
    | refine Tame.active ?_
    | refine Tame.maint ?_
    | with_reducible assumption
    | with_reducible apply Tame.ite
    | with_reducible apply State.onPort_tame
    | with_reducible apply State.cease_tame
    | intro x
    | split
    | (clear_value *; split)
    | (with_reducible apply Tame.lit <;> (try dsimp only))

theorem State.seedOcv_tame {s0 s : State} (h : Tame s0 s) (g : Nat) :
    Tame s0 (State.seedOcv s g) := by
  unfold State.seedOcv
  repeat' first
    | refine Tame.pending ?_
    | refine Tame.fuse ?_
    | refine Tame.emgHost ?_
    | refine Tame.active ?_
    | refine Tame.maint ?_
    | (intro x; refine Tame.cut (s := s0) (t := x) ?_ (fun hx => ?_); subst x; rotate_left; (first | clear_value x | skip))
    | (lift_lets; intro x; refine Tame.cut (s := s0) (t := x) ?_ (fun hx => ?_); subst x; rotate_left; (first | clear_value x | skip))
    | (lift_lets; intro x)
    | with_reducible assumption
    | with_reducible apply State.onEst_tame
    | with_reducible apply State.estPoint_tame
    | intro x
    | split
    | (clear_value *; split)
    | (with_reducible apply Tame.lit <;> (try dsimp only))

theorem State.seedSaved_tame {s0 s : State} (h : Tame s0 s) (g : Nat) :
    Tame s0 (State.seedSaved s g) := by
  unfold State.seedSaved
  repeat' first
    | refine Tame.pending ?_
    | refine Tame.fuse ?_
    | refine Tame.emgHost ?_
    | refine Tame.active ?_
    | refine Tame.maint ?_
    | (intro x; refine Tame.cut (s := s0) (t := x) ?_ (fun hx => ?_); subst x; rotate_left; (first | clear_value x | skip))
    | (lift_lets; intro x; refine Tame.cut (s := s0) (t := x) ?_ (fun hx => ?_); subst x; rotate_left; (first | clear_value x | skip))
    | (lift_lets; intro x)
    | with_reducible assumption
    | with_reducible apply Tame.ite
    | with_reducible apply State.onEst_tame
    | with_reducible apply State.estPoint_tame
    | with_reducible apply State.seedOcv_tame
    | intro x
    | split
    | (clear_value *; split)
    | (with_reducible apply Tame.lit <;> (try dsimp only))

theorem State.ageFrom_tame {s0 s : State} (h : Tame s0 s) (g : Nat) (b : List Byte) :
    Tame s0 (State.ageFrom s g b) := by
  unfold State.ageFrom
  repeat' first
    | refine Tame.pending ?_
    | refine Tame.fuse ?_
    | refine Tame.emgHost ?_
    | refine Tame.active ?_
    | refine Tame.maint ?_
    | (intro x; refine Tame.cut (s := s0) (t := x) ?_ (fun hx => ?_); subst x; rotate_left; (first | clear_value x | skip))
    | (lift_lets; intro x; refine Tame.cut (s := s0) (t := x) ?_ (fun hx => ?_); subst x; rotate_left; (first | clear_value x | skip))
    | (lift_lets; intro x)
    | with_reducible assumption
    | with_reducible apply Tame.ite
    | with_reducible apply State.onEst_tame
    | intro x
    | split
    | (clear_value *; split)
    | (with_reducible apply Tame.lit <;> (try dsimp only))

theorem State.ageLoad_tame {s0 s : State} (h : Tame s0 s) (g : Nat) :
    Tame s0 (State.ageLoad s g) := by
  unfold State.ageLoad
  repeat' first
    | refine Tame.pending ?_
    | refine Tame.fuse ?_
    | refine Tame.emgHost ?_
    | refine Tame.active ?_
    | refine Tame.maint ?_
    | with_reducible assumption
    | with_reducible apply Tame.ite
    | with_reducible apply State.onEst_tame
    | with_reducible apply State.ageFrom_tame
    | intro x
    | split
    | (clear_value *; split)
    | (with_reducible apply Tame.lit <;> (try dsimp only))

end Sys2Proof.Machine
end

