-- ==== Sys2Proof/Laws/TameLimits.lean ====
section
/-! SUPPORT. The operations of Machine.Limits are tame. -/

namespace Sys2Proof.Machine

open Sys2Proof

set_option linter.unreachableTactic false
set_option linter.unusedTactic false

theorem State.projection_tame {s0 s : State} (h : Tame s0 s) (p idx : Nat) :
    Tame s0 (State.projection s p idx).2 := by
  unfold State.projection
  repeat' first
    | (intro x; refine Tame.cut (s := s0) (t := x) ?_ (fun hx => ?_); subst x; rotate_left; (first | clear_value x | skip))
    | (lift_lets; intro x; refine Tame.cut (s := s0) (t := x) ?_ (fun hx => ?_); subst x; rotate_left; (first | clear_value x | skip))
    | (lift_lets; intro x)
    | with_reducible assumption
    | with_reducible apply Tame.ite
    | with_reducible apply Tame.iteSnd
    | with_reducible apply State.draw_tame
    | (refine State.draw_tame' ?_ ‹_›)
    | with_reducible apply Tame.mkSnd
    | intro x
    | split
    | (clear_value *; split)

theorem State.projection_tame' {s0 s t : State} {a} {p idx : Nat} (h : Tame s0 s)
    (e : (State.projection s p idx) = (a, t)) : Tame s0 t := by
  have k := State.projection_tame h p idx
  rw [e] at k
  exact k

theorem State.limRaw_tame {s0 s : State} (h : Tame s0 s) (p idx : Nat) :
    Tame s0 (State.limRaw s p idx).2 := by
  unfold State.limRaw
  repeat' first
    | (intro x; refine Tame.cut (s := s0) (t := x) ?_ (fun hx => ?_); subst x; rotate_left; (first | clear_value x | skip))
    | (lift_lets; intro x; refine Tame.cut (s := s0) (t := x) ?_ (fun hx => ?_); subst x; rotate_left; (first | clear_value x | skip))
    | (lift_lets; intro x)
    | with_reducible assumption
    | with_reducible apply State.projection_tame
    | (refine State.projection_tame' ?_ ‹_›)
    | with_reducible apply Tame.mkSnd
    | intro x
    | split
    | (clear_value *; split)

theorem State.limRaw_tame' {s0 s t : State} {a} {p idx : Nat} (h : Tame s0 s)
    (e : (State.limRaw s p idx) = (a, t)) : Tame s0 t := by
  have k := State.limRaw_tame h p idx
  rw [e] at k
  exact k

theorem State.limString_tame {s0 s : State} (h : Tame s0 s) (p : Nat) :
    Tame s0 (State.limString s p) := by
  unfold State.limString
  split
  rename_i raw t e
  have k := Tame.foldlSnd (s := s0) (l := List.range 8) (x := (([] : List Lim), s))
    (f := fun (y : List Lim × State) i => (y.1 ++ [(State.limRaw y.2 p i).1], (State.limRaw y.2 p i).2)) h
    (fun y i hy => State.limRaw_tame hy p i)
  have e' := congrArg Prod.snd e
  dsimp only at e'
  refine State.onStr_tame ?_ p _
  rw [← e']
  exact k

theorem State.shareDown_tame {s0 s : State} (h : Tame s0 s) (idx code : Nat) :
    Tame s0 (State.shareDown s idx code) := by
  unfold State.shareDown
  repeat' first
    | refine Tame.pending ?_
    | refine Tame.fuse ?_
    | refine Tame.emgHost ?_
    | refine Tame.active ?_
    | refine Tame.maint ?_
    | (intro x; refine Tame.cut (s := s0) (t := x) ?_ (fun hx => ?_); subst x; rotate_left; (first | clear_value x | skip))
    | (lift_lets; intro x; refine Tame.cut (s := s0) (t := x) ?_ (fun hx => ?_); subst x; rotate_left; (first | clear_value x | skip))
    | (lift_lets; intro x)
    | with_reducible assumption
    | with_reducible apply State.onStr_tame
    | (with_reducible apply Tame.foldl; rotate_left; intro y z hy)
    | intro x
    | split
    | (clear_value *; split)
    | (with_reducible apply Tame.lit <;> (try dsimp only))

theorem State.packCut_tame {s0 s : State} (h : Tame s0 s) (idx v code : Nat) :
    Tame s0 (State.packCut s idx v code) := by
  unfold State.packCut
  repeat' first
    | refine Tame.pending ?_
    | refine Tame.fuse ?_
    | refine Tame.emgHost ?_
    | refine Tame.active ?_
    | refine Tame.maint ?_
    | (intro x; refine Tame.cut (s := s0) (t := x) ?_ (fun hx => ?_); subst x; rotate_left; (first | clear_value x | skip))
    | (lift_lets; intro x; refine Tame.cut (s := s0) (t := x) ?_ (fun hx => ?_); subst x; rotate_left; (first | clear_value x | skip))
    | (lift_lets; intro x)
    | with_reducible assumption
    | with_reducible apply Tame.ite
    | with_reducible apply State.shareDown_tame
    | intro x
    | split
    | (clear_value *; split)
    | (with_reducible apply Tame.lit <;> (try dsimp only))

theorem State.reserveCut_tame {s0 s : State} (h : Tame s0 s)  :
    Tame s0 (State.reserveCut s) := by
  unfold State.reserveCut
  repeat' first
    | with_reducible assumption
    | with_reducible apply Tame.ite
    | with_reducible apply State.packCut_tame
    | (with_reducible apply Tame.foldl; rotate_left; intro y z hy)
    | intro x
    | split
    | (clear_value *; split)

theorem State.r26Cut_tame {s0 s : State} (h : Tame s0 s)  :
    Tame s0 (State.r26Cut s) := by
  unfold State.r26Cut
  repeat' first
    | refine Tame.pending ?_
    | refine Tame.fuse ?_
    | refine Tame.emgHost ?_
    | refine Tame.active ?_
    | refine Tame.maint ?_
    | (intro x; refine Tame.cut (s := s0) (t := x) ?_ (fun hx => ?_); subst x; rotate_left; (first | clear_value x | skip))
    | (lift_lets; intro x; refine Tame.cut (s := s0) (t := x) ?_ (fun hx => ?_); subst x; rotate_left; (first | clear_value x | skip))
    | (lift_lets; intro x)
    | with_reducible assumption
    | with_reducible apply Tame.ite
    | (with_reducible apply Tame.foldl; rotate_left; intro y z hy)
    | intro x
    | split
    | (clear_value *; split)
    | (with_reducible apply Tame.lit <;> (try dsimp only))

theorem State.limPack_tame {s0 s : State} (h : Tame s0 s)  :
    Tame s0 (State.limPack s) := by
  unfold State.limPack
  repeat' first
    | refine Tame.pending ?_
    | refine Tame.fuse ?_
    | refine Tame.emgHost ?_
    | refine Tame.active ?_
    | refine Tame.maint ?_
    | (intro x; refine Tame.cut (s := s0) (t := x) ?_ (fun hx => ?_); subst x; rotate_left; (first | clear_value x | skip))
    | (lift_lets; intro x; refine Tame.cut (s := s0) (t := x) ?_ (fun hx => ?_); subst x; rotate_left; (first | clear_value x | skip))
    | (lift_lets; intro x)
    | with_reducible assumption
    | with_reducible apply Tame.ite
    | with_reducible apply State.onStr_tame
    | with_reducible apply State.packCut_tame
    | with_reducible apply State.reserveCut_tame
    | with_reducible apply State.r26Cut_tame
    | (with_reducible apply Tame.foldl; rotate_left; intro y z hy)
    | intro x
    | split
    | (clear_value *; split)
    | (with_reducible apply Tame.lit <;> (try dsimp only))

theorem State.f52One_tame {s0 s : State} (h : Tame s0 s) (sc : Nat) (t : Option Nat) (ok : Nat) (i : Int) :
    Tame s0 (State.f52One s sc t ok i) := by
  unfold State.f52One
  repeat' first
    | with_reducible assumption
    | with_reducible apply Tame.ite
    | with_reducible apply State.stand_tame
    | with_reducible apply State.cease_tame
    | intro x
    | split
    | (clear_value *; split)

theorem State.f52Settle_tame {s0 s : State} (h : Tame s0 s)  :
    Tame s0 (State.f52Settle s) := by
  unfold State.f52Settle
  repeat' first
    | refine Tame.pending ?_
    | refine Tame.fuse ?_
    | refine Tame.emgHost ?_
    | refine Tame.active ?_
    | refine Tame.maint ?_
    | (intro x; refine Tame.cut (s := s0) (t := x) ?_ (fun hx => ?_); subst x; rotate_left; (first | clear_value x | skip))
    | (lift_lets; intro x; refine Tame.cut (s := s0) (t := x) ?_ (fun hx => ?_); subst x; rotate_left; (first | clear_value x | skip))
    | (lift_lets; intro x)
    | with_reducible assumption
    | with_reducible exact Tame.refl _
    | with_reducible apply Tame.ite
    | with_reducible apply State.f52One_tame
    | (with_reducible apply Tame.foldl; rotate_left; intro y z hy)
    | intro x
    | split
    | (clear_value *; split)
    | contradiction

theorem State.f54Check_tame {s0 s : State} (h : Tame s0 s)  :
    Tame s0 (State.f54Check s) := by
  unfold State.f54Check
  repeat' first
    | refine Tame.pending ?_
    | refine Tame.fuse ?_
    | refine Tame.emgHost ?_
    | refine Tame.active ?_
    | refine Tame.maint ?_
    | (intro x; refine Tame.cut (s := s0) (t := x) ?_ (fun hx => ?_); subst x; rotate_left; (first | clear_value x | skip))
    | (lift_lets; intro x; refine Tame.cut (s := s0) (t := x) ?_ (fun hx => ?_); subst x; rotate_left; (first | clear_value x | skip))
    | (lift_lets; intro x)
    | with_reducible assumption
    | with_reducible apply Tame.ite
    | with_reducible apply State.stand_tame
    | with_reducible apply State.cease_tame
    | intro x
    | split
    | (clear_value *; split)
    | (with_reducible apply Tame.lit <;> (try dsimp only))

end Sys2Proof.Machine
end

