-- ==== Sys2Proof/Laws/TameSequence.lean ====
section
/-! SUPPORT. The operations of Machine.Sequence are tame. -/

namespace Sys2Proof.Machine

open Sys2Proof

set_option linter.unreachableTactic false
set_option linter.unusedTactic false

theorem State.weld_tame {s0 s : State} (h : Tame s0 s) (i : Nat) :
    Tame s0 (State.weld s i) := by
  unfold State.weld
  repeat' first
    | with_reducible assumption
    | with_reducible apply State.setCtr_tame
    | with_reducible apply State.finding_tame
    | split
    | (clear_value *; split)

theorem State.failClose_tame {s0 s : State} (h : Tame s0 s) (i : Nat) :
    Tame s0 (State.failClose s i) := by
  unfold State.failClose
  repeat' first
    | with_reducible assumption
    | with_reducible apply State.finding_tame
    | split
    | (clear_value *; split)

theorem State.lockCheck_tame {s0 s : State} (h : Tame s0 s) (p : Nat) :
    Tame s0 (State.lockCheck s p) := by
  unfold State.lockCheck
  repeat' first
    | refine Tame.pending ?_
    | refine Tame.fuse ?_
    | refine Tame.emgHost ?_
    | refine Tame.active ?_
    | refine Tame.maint ?_
    | (intro x; refine Tame.cut (s := s0) (t := x) ?_ (fun hx => ?_); subst x; rotate_left; (first | clear_value x | skip))
    | (lift_lets; intro x; refine Tame.cut (s := s0) (t := x) ?_ (fun hx => ?_); subst x; rotate_left; (first | clear_value x | skip))
    | (lift_lets; intro x)
    | with_reducible assumption
    | with_reducible apply Tame.ite
    | with_reducible apply State.onPre_tame
    | with_reducible apply State.eventRec_tame
    | intro x
    | split
    | (clear_value *; split)
    | (with_reducible apply Tame.lit <;> (try dsimp only))

theorem State.ethSample_tame {s0 s : State} (h : Tame s0 s) (p : Nat) :
    Tame s0 (State.ethSample s p) := by
  unfold State.ethSample
  repeat' first
    | refine Tame.pending ?_
    | refine Tame.fuse ?_
    | refine Tame.emgHost ?_
    | refine Tame.active ?_
    | refine Tame.maint ?_
    | (intro x; refine Tame.cut (s := s0) (t := x) ?_ (fun hx => ?_); subst x; rotate_left; (first | clear_value x | skip))
    | (lift_lets; intro x; refine Tame.cut (s := s0) (t := x) ?_ (fun hx => ?_); subst x; rotate_left; (first | clear_value x | skip))
    | (lift_lets; intro x)
    | with_reducible assumption
    | with_reducible apply Tame.ite
    | with_reducible apply State.onPre_tame
    | with_reducible apply State.coil_tame
    | with_reducible apply State.lockCheck_tame
    | intro x
    | split
    | (clear_value *; split)
    | (with_reducible apply Tame.lit <;> (try dsimp only))

theorem State.seqPh_tame {s0 s : State} (h : Tame s0 s) (ph : SeqPhase) :
    Tame s0 (State.seqPh s ph) := by
  unfold State.seqPh
  repeat' first
    | refine Tame.pending ?_
    | refine Tame.fuse ?_
    | refine Tame.emgHost ?_
    | refine Tame.active ?_
    | refine Tame.maint ?_
    | with_reducible assumption
    | with_reducible apply State.seqTell_tame
    | split
    | (clear_value *; split)
    | (with_reducible apply Tame.lit <;> (try dsimp only))

theorem State.memberDone_tame {s0 s : State} (h : Tame s0 s)  :
    Tame s0 (State.memberDone s) := by
  unfold State.memberDone
  repeat' first
    | refine Tame.pending ?_
    | refine Tame.fuse ?_
    | refine Tame.emgHost ?_
    | refine Tame.active ?_
    | refine Tame.maint ?_
    | (intro x; refine Tame.cut (s := s0) (t := x) ?_ (fun hx => ?_); subst x; rotate_left; (first | clear_value x | skip))
    | (lift_lets; intro x; refine Tame.cut (s := s0) (t := x) ?_ (fun hx => ?_); subst x; rotate_left; (first | clear_value x | skip))
    | (lift_lets; intro x)
    | with_reducible assumption
    | with_reducible apply State.onStr_tame
    | with_reducible apply State.setCtr_tame
    | with_reducible apply State.memberEnd_tame
    | (with_reducible apply Tame.foldl; rotate_left; intro y z hy)
    | intro x
    | split
    | (clear_value *; split)
    | (with_reducible apply Tame.lit <;> (try dsimp only))

theorem State.seqF33_tame {s0 s : State} (h : Tame s0 s) (l : List Nat) :
    Tame s0 (State.seqF33 s l) := by
  unfold State.seqF33
  repeat' first
    | with_reducible assumption
    | with_reducible apply State.seqAbort_tame
    | with_reducible apply State.failClose_tame
    | (with_reducible apply Tame.foldl; rotate_left; intro y z hy)
    | intro x
    | split
    | (clear_value *; split)

theorem State.seqF32_tame {s0 s : State} (h : Tame s0 s) (l : List Nat) :
    Tame s0 (State.seqF32 s l) := by
  unfold State.seqF32
  repeat' first
    | with_reducible assumption
    | with_reducible apply State.seqAbort_tame
    | with_reducible apply State.weld_tame
    | (with_reducible apply Tame.foldl; rotate_left; intro y z hy)
    | intro x
    | split
    | (clear_value *; split)

theorem State.preStart_tame {s0 s : State} (h : Tame s0 s) (p : Nat) :
    Tame s0 (State.preStart s p) := by
  unfold State.preStart
  repeat' first
    | refine Tame.pending ?_
    | refine Tame.fuse ?_
    | refine Tame.emgHost ?_
    | refine Tame.active ?_
    | refine Tame.maint ?_
    | (intro x; refine Tame.cut (s := s0) (t := x) ?_ (fun hx => ?_); subst x; rotate_left; (first | clear_value x | skip))
    | (lift_lets; intro x; refine Tame.cut (s := s0) (t := x) ?_ (fun hx => ?_); subst x; rotate_left; (first | clear_value x | skip))
    | (lift_lets; intro x)
    | with_reducible assumption
    | with_reducible apply Tame.ite
    | with_reducible apply State.onPre_tame
    | with_reducible apply State.ctrOn_tame
    | with_reducible apply State.seqTell_tame
    | with_reducible apply State.memberEnd_tame
    | with_reducible apply State.seqStop_tame
    | with_reducible apply State.lockCheck_tame
    | intro x
    | split
    | (clear_value *; split)
    | (with_reducible apply Tame.lit <;> (try dsimp only))

theorem State.knWinStart_tame {s0 s : State} (h : Tame s0 s) (p : Nat) :
    Tame s0 (State.knWinStart s p) := by
  unfold State.knWinStart
  repeat' first
    | with_reducible assumption
    | with_reducible apply Tame.ite
    | with_reducible apply State.ctrOn_tame
    | with_reducible apply State.memberEnd_tame
    | with_reducible apply State.seqStop_tame
    | with_reducible apply State.seqPh_tame
    | intro x
    | split
    | (clear_value *; split)

theorem State.kpStart_tame {s0 s : State} (h : Tame s0 s) (p : Nat) (ph : SeqPhase) :
    Tame s0 (State.kpStart s p ph) := by
  unfold State.kpStart
  repeat' first
    | refine Tame.pending ?_
    | refine Tame.fuse ?_
    | refine Tame.emgHost ?_
    | refine Tame.active ?_
    | refine Tame.maint ?_
    | (intro x; refine Tame.cut (s := s0) (t := x) ?_ (fun hx => ?_); subst x; rotate_left; (first | clear_value x | skip))
    | (lift_lets; intro x; refine Tame.cut (s := s0) (t := x) ?_ (fun hx => ?_); subst x; rotate_left; (first | clear_value x | skip))
    | (lift_lets; intro x)
    | with_reducible assumption
    | with_reducible apply Tame.ite
    | with_reducible apply State.onCtr_tame
    | with_reducible apply State.ctrOn_tame
    | with_reducible apply State.seqFault_tame
    | with_reducible apply State.seqAbort_tame
    | with_reducible apply State.seqPh_tame
    | intro x
    | split
    | (clear_value *; split)
    | (with_reducible apply Tame.lit <;> (try dsimp only))

theorem State.kpVerified_tame {s0 s : State} (h : Tame s0 s) (p : Nat) :
    Tame s0 (State.kpVerified s p) := by
  unfold State.kpVerified
  repeat' first
    | (intro x; refine Tame.cut (s := s0) (t := x) ?_ (fun hx => ?_); subst x; rotate_left; (first | clear_value x | skip))
    | (lift_lets; intro x; refine Tame.cut (s := s0) (t := x) ?_ (fun hx => ?_); subst x; rotate_left; (first | clear_value x | skip))
    | (lift_lets; intro x)
    | with_reducible assumption
    | with_reducible apply Tame.ite
    | with_reducible apply State.setCtr_tame
    | with_reducible apply State.ctrOff_tame
    | with_reducible apply State.seqPh_tame
    | with_reducible apply State.memberDone_tame
    | intro x
    | split
    | (clear_value *; split)

theorem State.seqFit_tame {s0 s : State} (h : Tame s0 s) (p : Nat) :
    Tame s0 (State.seqFit s p) := by
  unfold State.seqFit
  repeat' first
    | refine Tame.pending ?_
    | refine Tame.fuse ?_
    | refine Tame.emgHost ?_
    | refine Tame.active ?_
    | refine Tame.maint ?_
    | (intro x; refine Tame.cut (s := s0) (t := x) ?_ (fun hx => ?_); subst x; rotate_left; (first | clear_value x | skip))
    | (lift_lets; intro x; refine Tame.cut (s := s0) (t := x) ?_ (fun hx => ?_); subst x; rotate_left; (first | clear_value x | skip))
    | (lift_lets; intro x)
    | with_reducible assumption
    | with_reducible apply Tame.ite
    | with_reducible apply State.eventRec_tame
    | with_reducible apply State.seqAbort_tame
    | with_reducible apply State.finding_tame
    | intro x
    | split
    | (clear_value *; split)
    | (with_reducible apply Tame.lit <;> (try dsimp only))

theorem State.noRise_tame {s0 s : State} (h : Tame s0 s) (p : Nat) :
    Tame s0 (State.noRise s p) := by
  unfold State.noRise
  repeat' first
    | (intro x; refine Tame.cut (s := s0) (t := x) ?_ (fun hx => ?_); subst x; rotate_left; (first | clear_value x | skip))
    | (lift_lets; intro x; refine Tame.cut (s := s0) (t := x) ?_ (fun hx => ?_); subst x; rotate_left; (first | clear_value x | skip))
    | (lift_lets; intro x)
    | with_reducible assumption
    | with_reducible apply Tame.ite
    | with_reducible apply State.seqF33_tame
    | intro x
    | split
    | (clear_value *; split)

theorem State.memberStart_tame {s0 s : State} (h : Tame s0 s)  :
    Tame s0 (State.memberStart s) := by
  unfold State.memberStart
  repeat' first
    | refine Tame.pending ?_
    | refine Tame.fuse ?_
    | refine Tame.emgHost ?_
    | refine Tame.active ?_
    | refine Tame.maint ?_
    | (intro x; refine Tame.cut (s := s0) (t := x) ?_ (fun hx => ?_); subst x; rotate_left; (first | clear_value x | skip))
    | (lift_lets; intro x; refine Tame.cut (s := s0) (t := x) ?_ (fun hx => ?_); subst x; rotate_left; (first | clear_value x | skip))
    | (lift_lets; intro x)
    | with_reducible assumption
    | with_reducible apply Tame.ite
    | with_reducible apply State.onCtr_tame
    | with_reducible apply State.ctrOn_tame
    | with_reducible apply State.seqTell_tame
    | with_reducible apply State.memberEnd_tame
    | with_reducible apply State.seqPh_tame
    | with_reducible apply State.memberDone_tame
    | with_reducible apply State.seqF32_tame
    | intro x
    | split
    | (clear_value *; split)
    | (with_reducible apply Tame.lit <;> (try dsimp only))

theorem State.seqRun_tame {s0 : State} (n : Nat) {s : State} (h : Tame s0 s) : Tame s0 (State.seqRun n s) := by
  induction n generalizing s with
  | zero => exact h
  | succ n ih =>
    unfold State.seqRun
    exact Tame.ite (ih (State.memberStart_tame h)) h

theorem State.seqKick_tame {s0 s : State} (h : Tame s0 s) : Tame s0 (State.seqKick s) := State.seqRun_tame 17 h

theorem State.pretestSample_tame {s0 s : State} (h : Tame s0 s) (p : Nat) :
    Tame s0 (State.pretestSample s p) := by
  unfold State.pretestSample
  repeat' first
    | refine Tame.pending ?_
    | refine Tame.fuse ?_
    | refine Tame.emgHost ?_
    | refine Tame.active ?_
    | refine Tame.maint ?_
    | with_reducible assumption
    | with_reducible apply Tame.ite
    | with_reducible apply State.seqF32_tame
    | intro x
    | split
    | (clear_value *; split)
    | (with_reducible apply Tame.lit <;> (try dsimp only))

theorem State.chargeSample_tame {s0 s : State} (h : Tame s0 s) (p : Nat) :
    Tame s0 (State.chargeSample s p) := by
  unfold State.chargeSample
  repeat' first
    | refine Tame.pending ?_
    | refine Tame.fuse ?_
    | refine Tame.emgHost ?_
    | refine Tame.active ?_
    | refine Tame.maint ?_
    | (intro x; refine Tame.cut (s := s0) (t := x) ?_ (fun hx => ?_); subst x; rotate_left; (first | clear_value x | skip))
    | (lift_lets; intro x; refine Tame.cut (s := s0) (t := x) ?_ (fun hx => ?_); subst x; rotate_left; (first | clear_value x | skip))
    | (lift_lets; intro x)
    | with_reducible assumption
    | with_reducible apply Tame.ite
    | with_reducible apply State.kpStart_tame
    | with_reducible apply State.seqFit_tame
    | intro x
    | split
    | (clear_value *; split)
    | (with_reducible apply Tame.lit <;> (try dsimp only))

theorem State.winCount_tame {s0 s : State} (h : Tame s0 s) (p : Nat) (valid : Bool) :
    Tame s0 (State.winCount s p valid) := by
  unfold State.winCount
  repeat' first
    | refine Tame.pending ?_
    | refine Tame.fuse ?_
    | refine Tame.emgHost ?_
    | refine Tame.active ?_
    | refine Tame.maint ?_
    | (intro x; refine Tame.cut (s := s0) (t := x) ?_ (fun hx => ?_); subst x; rotate_left; (first | clear_value x | skip))
    | (lift_lets; intro x; refine Tame.cut (s := s0) (t := x) ?_ (fun hx => ?_); subst x; rotate_left; (first | clear_value x | skip))
    | (lift_lets; intro x)
    | with_reducible assumption
    | with_reducible apply Tame.ite
    | intro x
    | split
    | (clear_value *; split)
    | (with_reducible apply Tame.lit <;> (try dsimp only))

theorem State.setSample_tame {s0 s : State} (h : Tame s0 s)  :
    Tame s0 (State.setSample s) := by
  unfold State.setSample
  repeat' first
    | with_reducible assumption
    | with_reducible apply Tame.ite
    | with_reducible apply State.knWinStart_tame
    | split
    | (clear_value *; split)

theorem State.windowSample_tame {s0 s : State} (h : Tame s0 s) (p : Nat) :
    Tame s0 (State.windowSample s p) := by
  unfold State.windowSample
  repeat' first
    | refine Tame.pending ?_
    | refine Tame.fuse ?_
    | refine Tame.emgHost ?_
    | refine Tame.active ?_
    | refine Tame.maint ?_
    | (intro x; refine Tame.cut (s := s0) (t := x) ?_ (fun hx => ?_); subst x; rotate_left; (first | clear_value x | skip))
    | (lift_lets; intro x; refine Tame.cut (s := s0) (t := x) ?_ (fun hx => ?_); subst x; rotate_left; (first | clear_value x | skip))
    | (lift_lets; intro x)
    | with_reducible assumption
    | with_reducible apply Tame.ite
    | with_reducible apply State.seqTell_tame
    | with_reducible apply State.memberEnd_tame
    | with_reducible apply State.preStart_tame
    | with_reducible apply State.knWinStart_tame
    | intro x
    | split
    | (clear_value *; split)
    | (with_reducible apply Tame.lit <;> (try dsimp only))

theorem State.seqSample_tame {s0 s : State} (h : Tame s0 s) (p : Nat) (valid : Bool) :
    Tame s0 (State.seqSample s p valid) := by
  unfold State.seqSample
  repeat' first
    | refine Tame.pending ?_
    | refine Tame.fuse ?_
    | refine Tame.emgHost ?_
    | refine Tame.active ?_
    | refine Tame.maint ?_
    | (intro x; refine Tame.cut (s := s0) (t := x) ?_ (fun hx => ?_); subst x; rotate_left; (first | clear_value x | skip))
    | (lift_lets; intro x; refine Tame.cut (s := s0) (t := x) ?_ (fun hx => ?_); subst x; rotate_left; (first | clear_value x | skip))
    | (lift_lets; intro x)
    | with_reducible assumption
    | with_reducible apply Tame.ite
    | with_reducible apply State.kpVerified_tame
    | with_reducible apply State.seqKick_tame
    | with_reducible apply State.pretestSample_tame
    | with_reducible apply State.chargeSample_tame
    | with_reducible apply State.winCount_tame
    | with_reducible apply State.setSample_tame
    | with_reducible apply State.windowSample_tame
    | intro x
    | split
    | (clear_value *; split)
    | (with_reducible apply Tame.lit <;> (try dsimp only))

theorem State.verifyOpen_tame {s0 s : State} (h : Tame s0 s) (i : Nat) :
    Tame s0 (State.verifyOpen s i) := by
  unfold State.verifyOpen
  repeat' first
    | with_reducible assumption
    | with_reducible apply Tame.ite
    | with_reducible apply State.setCtr_tame
    | with_reducible apply State.weld_tame
    | split
    | (clear_value *; split)

theorem State.openDone_tame {s0 s : State} (h : Tame s0 s) (p : Nat) :
    Tame s0 (State.openDone s p) := by
  unfold State.openDone
  repeat' first
    | refine Tame.pending ?_
    | refine Tame.fuse ?_
    | refine Tame.emgHost ?_
    | refine Tame.active ?_
    | refine Tame.maint ?_
    | (intro x; refine Tame.cut (s := s0) (t := x) ?_ (fun hx => ?_); subst x; rotate_left; (first | clear_value x | skip))
    | (lift_lets; intro x; refine Tame.cut (s := s0) (t := x) ?_ (fun hx => ?_); subst x; rotate_left; (first | clear_value x | skip))
    | (lift_lets; intro x)
    | with_reducible assumption
    | with_reducible apply Tame.ite
    | with_reducible apply State.onOpn_tame
    | with_reducible apply State.settleCmds_tame
    | with_reducible apply State.verifyOpen_tame
    | intro x
    | split
    | (clear_value *; split)
    | (with_reducible apply Tame.lit <;> (try dsimp only))

theorem State.checkOpen_tame {s0 s : State} (h : Tame s0 s) (p : Nat) :
    Tame s0 (State.checkOpen s p) := by
  unfold State.checkOpen
  repeat' first
    | refine Tame.pending ?_
    | refine Tame.fuse ?_
    | refine Tame.emgHost ?_
    | refine Tame.active ?_
    | refine Tame.maint ?_
    | (intro x; refine Tame.cut (s := s0) (t := x) ?_ (fun hx => ?_); subst x; rotate_left; (first | clear_value x | skip))
    | (lift_lets; intro x; refine Tame.cut (s := s0) (t := x) ?_ (fun hx => ?_); subst x; rotate_left; (first | clear_value x | skip))
    | (lift_lets; intro x)
    | with_reducible assumption
    | with_reducible apply Tame.ite
    | with_reducible apply State.onOpn_tame
    | with_reducible apply State.ctrOff_tame
    | with_reducible apply State.verifyOpen_tame
    | with_reducible apply State.openDone_tame
    | with_reducible apply State.suspect_tame
    | intro x
    | split
    | (clear_value *; split)
    | (with_reducible apply Tame.lit <;> (try dsimp only))

theorem State.auxCheck_tame {s0 s : State} (h : Tame s0 s) (i : Nat) :
    Tame s0 (State.auxCheck s i) := by
  unfold State.auxCheck
  repeat' first
    | with_reducible assumption
    | with_reducible apply Tame.ite
    | with_reducible apply State.weld_tame
    | split
    | (clear_value *; split)

theorem State.checkNoData_tame {s0 s : State} (h : Tame s0 s) (p : Nat) :
    Tame s0 (State.checkNoData s p) := by
  unfold State.checkNoData
  repeat' first
    | refine Tame.pending ?_
    | refine Tame.fuse ?_
    | refine Tame.emgHost ?_
    | refine Tame.active ?_
    | refine Tame.maint ?_
    | (intro x; refine Tame.cut (s := s0) (t := x) ?_ (fun hx => ?_); subst x; rotate_left; (first | clear_value x | skip))
    | (lift_lets; intro x; refine Tame.cut (s := s0) (t := x) ?_ (fun hx => ?_); subst x; rotate_left; (first | clear_value x | skip))
    | (lift_lets; intro x)
    | with_reducible assumption
    | with_reducible apply Tame.ite
    | with_reducible apply State.onOpn_tame
    | with_reducible apply State.eventRec_tame
    | with_reducible apply State.setCtr_tame
    | with_reducible apply State.coil_tame
    | with_reducible apply State.ctrOff_tame
    | with_reducible apply State.openDone_tame
    | with_reducible apply State.auxCheck_tame
    | intro x
    | split
    | (clear_value *; split)
    | (with_reducible apply Tame.lit <;> (try dsimp only))

theorem State.secondCheck_tame {s0 s : State} (h : Tame s0 s) (p : Nat) :
    Tame s0 (State.secondCheck s p) := by
  unfold State.secondCheck
  repeat' first
    | refine Tame.pending ?_
    | refine Tame.fuse ?_
    | refine Tame.emgHost ?_
    | refine Tame.active ?_
    | refine Tame.maint ?_
    | (intro x; refine Tame.cut (s := s0) (t := x) ?_ (fun hx => ?_); subst x; rotate_left; (first | clear_value x | skip))
    | (lift_lets; intro x; refine Tame.cut (s := s0) (t := x) ?_ (fun hx => ?_); subst x; rotate_left; (first | clear_value x | skip))
    | (lift_lets; intro x)
    | with_reducible assumption
    | with_reducible apply Tame.ite
    | with_reducible apply State.onOpn_tame
    | with_reducible apply State.stand_tame
    | with_reducible apply State.cease_tame
    | with_reducible apply State.weld_tame
    | with_reducible apply State.verifyOpen_tame
    | with_reducible apply State.openDone_tame
    | with_reducible apply State.auxCheck_tame
    | with_reducible apply State.suspect_tame
    | intro x
    | split
    | (clear_value *; split)
    | (with_reducible apply Tame.lit <;> (try dsimp only))

theorem State.openSample_tame {s0 s : State} (h : Tame s0 s) (p : Nat) :
    Tame s0 (State.openSample s p) := by
  unfold State.openSample
  repeat' first
    | refine Tame.pending ?_
    | refine Tame.fuse ?_
    | refine Tame.emgHost ?_
    | refine Tame.active ?_
    | refine Tame.maint ?_
    | (intro x; refine Tame.cut (s := s0) (t := x) ?_ (fun hx => ?_); subst x; rotate_left; (first | clear_value x | skip))
    | (lift_lets; intro x; refine Tame.cut (s := s0) (t := x) ?_ (fun hx => ?_); subst x; rotate_left; (first | clear_value x | skip))
    | (lift_lets; intro x)
    | with_reducible assumption
    | with_reducible apply Tame.ite
    | with_reducible apply State.onOpn_tame
    | with_reducible apply State.cease_tame
    | with_reducible apply State.seqKick_tame
    | with_reducible apply State.checkOpen_tame
    | intro x
    | split
    | (clear_value *; split)
    | (with_reducible apply Tame.lit <;> (try dsimp only))

end Sys2Proof.Machine
end

