-- ==== Sys2Proof/Laws/TameContactor.lean ====
section
/-! SUPPORT. The operations of Machine.Contactor are tame. -/

namespace Sys2Proof.Machine

open Sys2Proof

set_option linter.unreachableTactic false
set_option linter.unusedTactic false

theorem execPrecloseTestEnd_tame {s0 s t : State}  (h : Tame s0 s)
    (e : execPrecloseTestEnd s = .next t) : Tame s0 t := by
  unfold execPrecloseTestEnd at e
  injection e with e
  subst e
  repeat' first
    | refine Tame.pending ?_
    | refine Tame.fuse ?_
    | refine Tame.emgHost ?_
    | refine Tame.active ?_
    | refine Tame.maint ?_
    | (intro x; refine Tame.cut (s := s0) (t := x) ?_ (fun hx => ?_); subst x; rotate_left; (first | clear_value x | skip))
    | (lift_lets; intro x; refine Tame.cut (s := s0) (t := x) ?_ (fun hx => ?_); subst x; rotate_left; (first | clear_value x | skip))
    | (lift_lets; intro x)
    | with_reducible assumption
    | with_reducible apply Tame.ite
    | with_reducible apply State.at_tame
    | with_reducible apply State.ctrOn_tame
    | with_reducible apply State.seqTell_tame
    | with_reducible apply State.seqFault_tame
    | with_reducible apply State.seqAbort_tame
    | intro x
    | split
    | (clear_value *; split)
    | (with_reducible apply Tame.lit <;> (try dsimp only))

theorem execFirstFitDue_tame {s0 s t : State}  (h : Tame s0 s)
    (e : execFirstFitDue s = .next t) : Tame s0 t := by
  unfold execFirstFitDue at e
  injection e with e
  subst e
  repeat' first
    | refine Tame.pending ?_
    | refine Tame.fuse ?_
    | refine Tame.emgHost ?_
    | refine Tame.active ?_
    | refine Tame.maint ?_
    | (intro x; refine Tame.cut (s := s0) (t := x) ?_ (fun hx => ?_); subst x; rotate_left; (first | clear_value x | skip))
    | (lift_lets; intro x; refine Tame.cut (s := s0) (t := x) ?_ (fun hx => ?_); subst x; rotate_left; (first | clear_value x | skip))
    | (lift_lets; intro x)
    | with_reducible assumption
    | with_reducible apply Tame.ite
    | with_reducible apply State.at_tame
    | with_reducible apply State.seqTell_tame
    | with_reducible apply State.seqFit_tame
    | with_reducible apply State.noRise_tame
    | intro x
    | split
    | (clear_value *; split)
    | (with_reducible apply Tame.lit <;> (try dsimp only))

theorem execPrechargeTimeout_tame {s0 s t : State}  (h : Tame s0 s)
    (e : execPrechargeTimeout s = .next t) : Tame s0 t := by
  unfold execPrechargeTimeout at e
  injection e with e
  subst e
  repeat' first
    | (intro x; refine Tame.cut (s := s0) (t := x) ?_ (fun hx => ?_); subst x; rotate_left; (first | clear_value x | skip))
    | (lift_lets; intro x; refine Tame.cut (s := s0) (t := x) ?_ (fun hx => ?_); subst x; rotate_left; (first | clear_value x | skip))
    | (lift_lets; intro x)
    | with_reducible assumption
    | with_reducible apply Tame.ite
    | with_reducible apply State.at_tame
    | with_reducible apply State.seqAbort_tame
    | with_reducible apply State.finding_tame
    | with_reducible apply State.seqKick_tame
    | intro x
    | split
    | (clear_value *; split)

theorem execCloseTimeElapsed_tame {s0 s t : State}  (h : Tame s0 s)
    (e : execCloseTimeElapsed s = .next t) : Tame s0 t := by
  unfold execCloseTimeElapsed at e
  injection e with e
  subst e
  repeat' first
    | refine Tame.pending ?_
    | refine Tame.fuse ?_
    | refine Tame.emgHost ?_
    | refine Tame.active ?_
    | refine Tame.maint ?_
    | (intro x; refine Tame.cut (s := s0) (t := x) ?_ (fun hx => ?_); subst x; rotate_left; (first | clear_value x | skip))
    | (lift_lets; intro x; refine Tame.cut (s := s0) (t := x) ?_ (fun hx => ?_); subst x; rotate_left; (first | clear_value x | skip))
    | (lift_lets; intro x)
    | with_reducible assumption
    | with_reducible apply Tame.ite
    | with_reducible apply State.onOpn_tame
    | with_reducible apply State.at_tame
    | with_reducible apply State.ctrOff_tame
    | with_reducible apply State.seqTell_tame
    | with_reducible apply State.seqPh_tame
    | with_reducible apply State.kpStart_tame
    | with_reducible apply State.seqKick_tame
    | intro x
    | split
    | (clear_value *; split)
    | (with_reducible apply Tame.lit <;> (try dsimp only))

theorem execCloseVerifyTimeout_tame {s0 s t : State}  (h : Tame s0 s)
    (e : execCloseVerifyTimeout s = .next t) : Tame s0 t := by
  unfold execCloseVerifyTimeout at e
  injection e with e
  subst e
  repeat' first
    | (intro x; refine Tame.cut (s := s0) (t := x) ?_ (fun hx => ?_); subst x; rotate_left; (first | clear_value x | skip))
    | (lift_lets; intro x; refine Tame.cut (s := s0) (t := x) ?_ (fun hx => ?_); subst x; rotate_left; (first | clear_value x | skip))
    | (lift_lets; intro x)
    | with_reducible assumption
    | with_reducible apply Tame.ite
    | with_reducible apply State.at_tame
    | with_reducible apply State.memberDone_tame
    | with_reducible apply State.seqF33_tame
    | with_reducible apply State.kpVerified_tame
    | with_reducible apply State.seqKick_tame
    | intro x
    | split
    | (clear_value *; split)

theorem execPreOpenVerify_tame {s0 s t : State}  (h : Tame s0 s)
    (e : execPreOpenVerify s = .next t) : Tame s0 t := by
  unfold execPreOpenVerify at e
  injection e with e
  subst e
  repeat' first
    | (intro x; refine Tame.cut (s := s0) (t := x) ?_ (fun hx => ?_); subst x; rotate_left; (first | clear_value x | skip))
    | (lift_lets; intro x; refine Tame.cut (s := s0) (t := x) ?_ (fun hx => ?_); subst x; rotate_left; (first | clear_value x | skip))
    | (lift_lets; intro x)
    | with_reducible assumption
    | with_reducible apply Tame.ite
    | with_reducible apply State.at_tame
    | with_reducible apply State.setCtr_tame
    | with_reducible apply State.memberDone_tame
    | with_reducible apply State.seqF32_tame
    | with_reducible apply State.seqKick_tame
    | intro x
    | split
    | (clear_value *; split)

theorem execWindowWaitExpiry_tame {s0 s t : State}  (h : Tame s0 s)
    (e : execWindowWaitExpiry s = .next t) : Tame s0 t := by
  unfold execWindowWaitExpiry at e
  injection e with e
  subst e
  repeat' first
    | with_reducible assumption
    | with_reducible apply Tame.ite
    | with_reducible apply State.at_tame
    | with_reducible apply State.memberEnd_tame
    | with_reducible apply State.seqKick_tame
    | split
    | (clear_value *; split)

theorem execCheckAtOpen_tame {s0 s t : State} (p : Nat) (h : Tame s0 s)
    (e : execCheckAtOpen p s = .next t) : Tame s0 t := by
  unfold execCheckAtOpen at e
  injection e with e
  subst e
  repeat' first
    | refine Tame.pending ?_
    | refine Tame.fuse ?_
    | refine Tame.emgHost ?_
    | refine Tame.active ?_
    | refine Tame.maint ?_
    | (intro x; refine Tame.cut (s := s0) (t := x) ?_ (fun hx => ?_); subst x; rotate_left; (first | clear_value x | skip))
    | (lift_lets; intro x; refine Tame.cut (s := s0) (t := x) ?_ (fun hx => ?_); subst x; rotate_left; (first | clear_value x | skip))
    | (lift_lets; intro x)
    | with_reducible assumption
    | with_reducible apply Tame.ite
    | with_reducible apply State.onOpn_tame
    | with_reducible apply State.at_tame
    | with_reducible apply State.seqKick_tame
    | with_reducible apply State.verifyOpen_tame
    | with_reducible apply State.checkOpen_tame
    | intro x
    | split
    | (clear_value *; split)
    | (with_reducible apply Tame.lit <;> (try dsimp only))

theorem execCheckAtOpenNoData_tame {s0 s t : State} (p : Nat) (h : Tame s0 s)
    (e : execCheckAtOpenNoData p s = .next t) : Tame s0 t := by
  unfold execCheckAtOpenNoData at e
  injection e with e
  subst e
  repeat' first
    | (intro x; refine Tame.cut (s := s0) (t := x) ?_ (fun hx => ?_); subst x; rotate_left; (first | clear_value x | skip))
    | (lift_lets; intro x; refine Tame.cut (s := s0) (t := x) ?_ (fun hx => ?_); subst x; rotate_left; (first | clear_value x | skip))
    | (lift_lets; intro x)
    | with_reducible assumption
    | with_reducible apply Tame.ite
    | with_reducible apply State.at_tame
    | with_reducible apply State.seqKick_tame
    | with_reducible apply State.checkNoData_tame
    | intro x
    | split
    | (clear_value *; split)

theorem execSecondContactorCheck_tame {s0 s t : State} (p : Nat) (h : Tame s0 s)
    (e : execSecondContactorCheck p s = .next t) : Tame s0 t := by
  unfold execSecondContactorCheck at e
  injection e with e
  subst e
  repeat' first
    | (intro x; refine Tame.cut (s := s0) (t := x) ?_ (fun hx => ?_); subst x; rotate_left; (first | clear_value x | skip))
    | (lift_lets; intro x; refine Tame.cut (s := s0) (t := x) ?_ (fun hx => ?_); subst x; rotate_left; (first | clear_value x | skip))
    | (lift_lets; intro x)
    | with_reducible assumption
    | with_reducible apply Tame.ite
    | with_reducible apply State.at_tame
    | with_reducible apply State.seqKick_tame
    | with_reducible apply State.secondCheck_tame
    | with_reducible apply State.suspect_tame
    | intro x
    | split
    | (clear_value *; split)

theorem execBusDischargeTimeout_tame {s0 s t : State} (p : Nat) (h : Tame s0 s)
    (e : execBusDischargeTimeout p s = .next t) : Tame s0 t := by
  unfold execBusDischargeTimeout at e
  injection e with e
  subst e
  repeat' first
    | refine Tame.pending ?_
    | refine Tame.fuse ?_
    | refine Tame.emgHost ?_
    | refine Tame.active ?_
    | refine Tame.maint ?_
    | (intro x; refine Tame.cut (s := s0) (t := x) ?_ (fun hx => ?_); subst x; rotate_left; (first | clear_value x | skip))
    | (lift_lets; intro x; refine Tame.cut (s := s0) (t := x) ?_ (fun hx => ?_); subst x; rotate_left; (first | clear_value x | skip))
    | (lift_lets; intro x)
    | with_reducible assumption
    | with_reducible apply Tame.ite
    | with_reducible apply State.onOpn_tame
    | with_reducible apply State.at_tame
    | with_reducible apply State.weld_tame
    | intro x
    | split
    | (clear_value *; split)
    | (with_reducible apply Tame.lit <;> (try dsimp only))

theorem execPrechargeLockoutEnd_tame {s0 s t : State} (p : Nat) (h : Tame s0 s)
    (e : execPrechargeLockoutEnd p s = .next t) : Tame s0 t := by
  unfold execPrechargeLockoutEnd at e
  injection e with e
  subst e
  repeat' first
    | with_reducible assumption
    | with_reducible apply State.lockCheck_tame
    | split
    | (clear_value *; split)

theorem State.f37Settle_tame {s0 s : State} (h : Tame s0 s) (ch : Nat) :
    Tame s0 (State.f37Settle s ch) := by
  unfold State.f37Settle
  repeat' first
    | (intro x; refine Tame.cut (s := s0) (t := x) ?_ (fun hx => ?_); subst x; rotate_left; (first | clear_value x | skip))
    | (lift_lets; intro x; refine Tame.cut (s := s0) (t := x) ?_ (fun hx => ?_); subst x; rotate_left; (first | clear_value x | skip))
    | (lift_lets; intro x)
    | with_reducible assumption
    | with_reducible apply Tame.ite
    | with_reducible apply State.f37Rec_tame
    | with_reducible apply State.setCond_tame
    | intro x
    | split
    | (clear_value *; split)

theorem execCoilEchoTimeout_tame {s0 s t : State} (ch : Nat) (h : Tame s0 s)
    (e : execCoilEchoTimeout ch s = .next t) : Tame s0 t := by
  unfold execCoilEchoTimeout at e
  injection e with e
  subst e
  repeat' first
    | refine Tame.pending ?_
    | refine Tame.fuse ?_
    | refine Tame.emgHost ?_
    | refine Tame.active ?_
    | refine Tame.maint ?_
    | (intro x; refine Tame.cut (s := s0) (t := x) ?_ (fun hx => ?_); subst x; rotate_left; (first | clear_value x | skip))
    | (lift_lets; intro x; refine Tame.cut (s := s0) (t := x) ?_ (fun hx => ?_); subst x; rotate_left; (first | clear_value x | skip))
    | (lift_lets; intro x)
    | with_reducible assumption
    | with_reducible apply State.at_tame
    | with_reducible apply State.f37Settle_tame
    | intro x
    | split
    | (clear_value *; split)
    | (with_reducible apply Tame.lit <;> (try dsimp only))

end Sys2Proof.Machine
end

