-- ==== Sys2Proof/Laws/TameEst.lean ====
section
/-! SUPPORT. The operations of Machine.Est are tame. -/

namespace Sys2Proof.Machine

open Sys2Proof

set_option linter.unreachableTactic false
set_option linter.unusedTactic false

theorem State.reserveStep_tame {s0 s : State} (h : Tame s0 s)  :
    Tame s0 (State.reserveStep s) := by
  unfold State.reserveStep
  repeat' first
    | refine Tame.pending ?_
    | refine Tame.fuse ?_
    | refine Tame.emgHost ?_
    | refine Tame.active ?_
    | refine Tame.maint ?_
    | (intro x; refine Tame.cut (s := s0) (t := x) ?_ (fun hx => ?_); subst x; rotate_left; (first | clear_value x | skip))
    | (lift_lets; intro x; refine Tame.cut (s := s0) (t := x) ?_ (fun hx => ?_); subst x; rotate_left; (first | clear_value x | skip))
    | (lift_lets; intro x)
    | with_reducible assumption
    | with_reducible apply Tame.ite
    | with_reducible apply State.f52Eval_tame
    | with_reducible apply State.publishExtra_tame
    | with_reducible apply State.stand_tame
    | with_reducible apply State.cease_tame
    | with_reducible apply State.reserveCut_tame
    | intro x
    | split
    | (clear_value *; split)
    | (with_reducible apply Tame.lit <;> (try dsimp only))

theorem State.updateStr_tame {s0 s : State} (h : Tame s0 s) (p S : Nat) :
    Tame s0 (State.updateStr s p S) := by
  unfold State.updateStr
  repeat' first
    | refine Tame.pending ?_
    | refine Tame.fuse ?_
    | refine Tame.emgHost ?_
    | refine Tame.active ?_
    | refine Tame.maint ?_
    | (intro x; refine Tame.cut (s := s0) (t := x) ?_ (fun hx => ?_); subst x; rotate_left; (first | clear_value x | skip))
    | (lift_lets; intro x; refine Tame.cut (s := s0) (t := x) ?_ (fun hx => ?_); subst x; rotate_left; (first | clear_value x | skip))
    | (lift_lets; intro x)
    | with_reducible assumption
    | with_reducible apply Tame.ite
    | with_reducible apply State.onStr_tame
    | with_reducible apply State.kalmanCell_tame
    | with_reducible apply State.repStr_tame
    | with_reducible apply State.dodStep_tame
    | with_reducible apply State.strCounters_tame
    | with_reducible apply State.imbalance_tame
    | with_reducible apply State.qualify_tame
    | (with_reducible apply Tame.foldl; rotate_left; intro y z hy)
    | intro x
    | split
    | (clear_value *; split)
    | (with_reducible apply Tame.lit <;> (try dsimp only))

theorem State.mirror10_tame {s0 s : State} (h : Tame s0 s)  :
    Tame s0 (State.mirror10 s) := by
  unfold State.mirror10
  repeat' first
    | (intro x; refine Tame.cut (s := s0) (t := x) ?_ (fun hx => ?_); subst x; rotate_left; (first | clear_value x | skip))
    | (lift_lets; intro x; refine Tame.cut (s := s0) (t := x) ?_ (fun hx => ?_); subst x; rotate_left; (first | clear_value x | skip))
    | (lift_lets; intro x)
    | with_reducible assumption
    | with_reducible apply Tame.ite
    | with_reducible apply State.sendMirror_tame
    | (with_reducible apply Tame.foldl; rotate_left; intro y z hy)
    | intro x
    | split
    | (clear_value *; split)

theorem State.kalmanStep_tame {s0 s : State} (h : Tame s0 s) (S : Nat) :
    Tame s0 (State.kalmanStep s S) := by
  unfold State.kalmanStep
  repeat' first
    | refine Tame.pending ?_
    | refine Tame.fuse ?_
    | refine Tame.emgHost ?_
    | refine Tame.active ?_
    | refine Tame.maint ?_
    | (intro x; refine Tame.cut (s := s0) (t := x) ?_ (fun hx => ?_); subst x; rotate_left; (first | clear_value x | skip))
    | (lift_lets; intro x; refine Tame.cut (s := s0) (t := x) ?_ (fun hx => ?_); subst x; rotate_left; (first | clear_value x | skip))
    | (lift_lets; intro x)
    | with_reducible assumption
    | with_reducible apply Tame.ite
    | with_reducible apply State.at_tame
    | with_reducible apply State.repPack_tame
    | with_reducible apply State.energies_tame
    | with_reducible apply State.seqKick_tame
    | with_reducible apply State.reserveStep_tame
    | with_reducible apply State.updateStr_tame
    | with_reducible apply State.mirror10_tame
    | (with_reducible apply Tame.foldl; rotate_left; intro y z hy)
    | intro x
    | split
    | (clear_value *; split)
    | (with_reducible apply Tame.lit <;> (try dsimp only))

theorem execKalmanUpdate_tame {s0 s t : State} (S : Nat) (h : Tame s0 s)
    (e : execKalmanUpdate S s = .next t) : Tame s0 t := by
  unfold execKalmanUpdate at e
  injection e with e
  subst e
  repeat' first
    | with_reducible assumption
    | with_reducible apply Tame.ite
    | with_reducible apply State.kalmanStep_tame
    | split
    | (clear_value *; split)

theorem execEstimatorResultTimeout_tame {s0 s t : State}  (h : Tame s0 s)
    (e : execEstimatorResultTimeout s = .next t) : Tame s0 t := by
  unfold execEstimatorResultTimeout at e
  injection e with e
  subst e
  repeat' first
    | refine Tame.pending ?_
    | refine Tame.fuse ?_
    | refine Tame.emgHost ?_
    | refine Tame.active ?_
    | refine Tame.maint ?_
    | (intro x; refine Tame.cut (s := s0) (t := x) ?_ (fun hx => ?_); subst x; rotate_left; (first | clear_value x | skip))
    | (lift_lets; intro x; refine Tame.cut (s := s0) (t := x) ?_ (fun hx => ?_); subst x; rotate_left; (first | clear_value x | skip))
    | (lift_lets; intro x)
    | with_reducible assumption
    | with_reducible apply Tame.ite
    | with_reducible apply State.at_tame
    | with_reducible apply State.f52Eval_tame
    | with_reducible apply State.publishExtra_tame
    | with_reducible apply State.r26Cut_tame
    | intro x
    | split
    | (clear_value *; split)
    | (with_reducible apply Tame.lit <;> (try dsimp only))

theorem State.limitsNow_tame {s0 s : State} (h : Tame s0 s) (S : Nat) :
    Tame s0 (State.limitsNow s S) := by
  unfold State.limitsNow
  repeat' first
    | refine Tame.pending ?_
    | refine Tame.fuse ?_
    | refine Tame.emgHost ?_
    | refine Tame.active ?_
    | refine Tame.maint ?_
    | (intro x; refine Tame.cut (s := s0) (t := x) ?_ (fun hx => ?_); subst x; rotate_left; (first | clear_value x | skip))
    | (lift_lets; intro x; refine Tame.cut (s := s0) (t := x) ?_ (fun hx => ?_); subst x; rotate_left; (first | clear_value x | skip))
    | (lift_lets; intro x)
    | with_reducible assumption
    | with_reducible apply Tame.ite
    | with_reducible apply State.publish_tame
    | with_reducible apply State.f52Eval_tame
    | with_reducible apply State.limString_tame
    | with_reducible apply State.limPack_tame
    | with_reducible apply State.f52Settle_tame
    | with_reducible apply State.f54Check_tame
    | with_reducible apply State.seqKick_tame
    | (with_reducible apply Tame.foldl; rotate_left; intro y z hy)
    | intro x
    | split
    | (clear_value *; split)
    | (with_reducible apply Tame.lit <;> (try dsimp only))

theorem execLimitsPublication_tame {s0 s t : State} (S : Nat) (h : Tame s0 s)
    (e : execLimitsPublication S s = .next t) : Tame s0 t := by
  unfold execLimitsPublication at e
  injection e with e
  subst e
  repeat' first
    | with_reducible assumption
    | with_reducible apply Tame.ite
    | with_reducible apply State.at_tame
    | with_reducible apply State.limitsNow_tame
    | split
    | (clear_value *; split)

theorem State.estRecords_tame {s0 s : State} (h : Tame s0 s) (S : Nat) :
    Tame s0 (State.estRecords s S) := by
  unfold State.estRecords
  repeat' first
    | refine Tame.pending ?_
    | refine Tame.fuse ?_
    | refine Tame.emgHost ?_
    | refine Tame.active ?_
    | refine Tame.maint ?_
    | (intro x; refine Tame.cut (s := s0) (t := x) ?_ (fun hx => ?_); subst x; rotate_left; (first | clear_value x | skip))
    | (lift_lets; intro x; refine Tame.cut (s := s0) (t := x) ?_ (fun hx => ?_); subst x; rotate_left; (first | clear_value x | skip))
    | (lift_lets; intro x)
    | with_reducible assumption
    | with_reducible apply Tame.ite
    | with_reducible apply State.onEst_tame
    | with_reducible apply State.onStr_tame
    | with_reducible apply State.at_tame
    | with_reducible apply State.sendMirror_tame
    | with_reducible apply State.record_tame
    | (with_reducible apply Tame.foldl; rotate_left; intro y z hy)
    | intro x
    | split
    | (clear_value *; split)
    | (with_reducible apply Tame.lit <;> (try dsimp only))

theorem execEstimatorRecord_tame {s0 s t : State} (S : Nat) (h : Tame s0 s)
    (e : execEstimatorRecord S s = .next t) : Tame s0 t := by
  unfold execEstimatorRecord at e
  injection e with e
  subst e
  repeat' first
    | with_reducible assumption
    | with_reducible apply Tame.ite
    | with_reducible apply State.estRecords_tame
    | split
    | (clear_value *; split)

theorem execTrueRestPoint_tame {s0 s t : State} (p : Nat) (h : Tame s0 s)
    (e : execTrueRestPoint p s = .next t) : Tame s0 t := by
  unfold execTrueRestPoint at e
  injection e with e
  subst e
  repeat' first
    | refine Tame.pending ?_
    | refine Tame.fuse ?_
    | refine Tame.emgHost ?_
    | refine Tame.active ?_
    | refine Tame.maint ?_
    | (intro x; refine Tame.cut (s := s0) (t := x) ?_ (fun hx => ?_); subst x; rotate_left; (first | clear_value x | skip))
    | (lift_lets; intro x; refine Tame.cut (s := s0) (t := x) ?_ (fun hx => ?_); subst x; rotate_left; (first | clear_value x | skip))
    | (lift_lets; intro x)
    | with_reducible assumption
    | with_reducible apply Tame.ite
    | with_reducible apply State.onStr_tame
    | with_reducible apply State.at_tame
    | with_reducible apply State.trueRest_tame
    | (with_reducible apply Tame.foldl; rotate_left; intro y z hy)
    | intro x
    | split
    | (clear_value *; split)
    | (with_reducible apply Tame.lit <;> (try dsimp only))

theorem execWispPointEvaluation_tame {s0 s t : State} (p : Nat) (h : Tame s0 s)
    (e : execWispPointEvaluation p s = .next t) : Tame s0 t := by
  unfold execWispPointEvaluation at e
  injection e with e
  subst e
  repeat' first
    | (intro x; refine Tame.cut (s := s0) (t := x) ?_ (fun hx => ?_); subst x; rotate_left; (first | clear_value x | skip))
    | (lift_lets; intro x; refine Tame.cut (s := s0) (t := x) ?_ (fun hx => ?_); subst x; rotate_left; (first | clear_value x | skip))
    | (lift_lets; intro x)
    | with_reducible assumption
    | with_reducible apply Tame.ite
    | with_reducible apply State.at_tame
    | with_reducible apply State.trueRest_tame
    | with_reducible apply State.wisp_tame
    | (with_reducible apply Tame.foldl; rotate_left; intro y z hy)
    | intro x
    | split
    | (clear_value *; split)

theorem execDivergenceCease_tame {s0 s t : State} (g : Nat) (h : Tame s0 s)
    (e : execDivergenceCease g s = .next t) : Tame s0 t := by
  unfold execDivergenceCease at e
  injection e with e
  subst e
  repeat' first
    | refine Tame.pending ?_
    | refine Tame.fuse ?_
    | refine Tame.emgHost ?_
    | refine Tame.active ?_
    | refine Tame.maint ?_
    | (intro x; refine Tame.cut (s := s0) (t := x) ?_ (fun hx => ?_); subst x; rotate_left; (first | clear_value x | skip))
    | (lift_lets; intro x; refine Tame.cut (s := s0) (t := x) ?_ (fun hx => ?_); subst x; rotate_left; (first | clear_value x | skip))
    | (lift_lets; intro x)
    | with_reducible assumption
    | with_reducible apply Tame.ite
    | with_reducible apply State.onEst_tame
    | with_reducible apply State.at_tame
    | with_reducible apply State.cease_tame
    | with_reducible apply State.estPoint_tame
    | intro x
    | split
    | (clear_value *; split)
    | (with_reducible apply Tame.lit <;> (try dsimp only))

theorem execEnergyRecompute_tame {s0 s t : State}  (h : Tame s0 s)
    (e : execEnergyRecompute s = .next t) : Tame s0 t := by
  unfold execEnergyRecompute at e
  injection e with e
  subst e
  repeat' first
    | with_reducible assumption
    | with_reducible apply Tame.ite
    | with_reducible apply State.energies_tame
    | split
    | (clear_value *; split)

end Sys2Proof.Machine
end

