-- ==== Sys2Proof/Laws/TameSweepBase.lean ====
section
/-! SUPPORT. The operations of Machine.SweepBase are tame. -/

namespace Sys2Proof.Machine

open Sys2Proof

set_option linter.unreachableTactic false
set_option linter.unusedTactic false

theorem State.planKick_tame {s0 s : State} (h : Tame s0 s) (p : Nat) :
    Tame s0 (State.planKick s p) := by
  unfold State.planKick
  repeat' first
    | refine Tame.pending ?_
    | refine Tame.fuse ?_
    | refine Tame.emgHost ?_
    | refine Tame.active ?_
    | refine Tame.maint ?_
    | (intro x; refine Tame.cut (s := s0) (t := x) ?_ (fun hx => ?_); subst x; rotate_left; (first | clear_value x | skip))
    | (lift_lets; intro x; refine Tame.cut (s := s0) (t := x) ?_ (fun hx => ?_); subst x; rotate_left; (first | clear_value x | skip))
    | (lift_lets; intro x)
    | with_reducible assumption
    | with_reducible apply State.onPort_tame
    | intro x
    | split
    | (clear_value *; split)
    | (with_reducible apply Tame.lit <;> (try dsimp only))

theorem State.deferPlan_tame {s0 s : State} (h : Tame s0 s) (p k : Nat) :
    Tame s0 (State.deferPlan s p k) := by
  unfold State.deferPlan
  repeat' first
    | refine Tame.pending ?_
    | refine Tame.fuse ?_
    | refine Tame.emgHost ?_
    | refine Tame.active ?_
    | refine Tame.maint ?_
    | with_reducible assumption
    | with_reducible apply Tame.ite
    | with_reducible apply State.onPort_tame
    | intro x
    | split
    | (clear_value *; split)
    | (with_reducible apply Tame.lit <;> (try dsimp only))

theorem State.planTell_tame {s0 s : State} (h : Tame s0 s) (e : PairEvt) :
    Tame s0 (State.planTell s e) := by
  unfold State.planTell
  repeat' first
    | with_reducible assumption
    | with_reducible apply Tame.ite
    | with_reducible apply State.sendEvt_tame
    | split
    | (clear_value *; split)

theorem State.openWindow_tame {s0 s : State} (h : Tame s0 s) (p b t : Nat) :
    Tame s0 (State.openWindow s p b t) := by
  unfold State.openWindow
  repeat' first
    | refine Tame.pending ?_
    | refine Tame.fuse ?_
    | refine Tame.emgHost ?_
    | refine Tame.active ?_
    | refine Tame.maint ?_
    | (intro x; refine Tame.cut (s := s0) (t := x) ?_ (fun hx => ?_); subst x; rotate_left; (first | clear_value x | skip))
    | (lift_lets; intro x; refine Tame.cut (s := s0) (t := x) ?_ (fun hx => ?_); subst x; rotate_left; (first | clear_value x | skip))
    | (lift_lets; intro x)
    | with_reducible assumption
    | with_reducible apply State.onEst_tame
    | with_reducible apply State.onStr_tame
    | (with_reducible apply Tame.foldl; rotate_left; intro y z hy)
    | intro x
    | split
    | (clear_value *; split)
    | (with_reducible apply Tame.lit <;> (try dsimp only))

theorem State.firstWindow_tame {s0 s : State} (h : Tame s0 s) (p b : Nat) :
    Tame s0 (State.firstWindow s p b) := by
  unfold State.firstWindow
  repeat' first
    | refine Tame.pending ?_
    | refine Tame.fuse ?_
    | refine Tame.emgHost ?_
    | refine Tame.active ?_
    | refine Tame.maint ?_
    | (intro x; refine Tame.cut (s := s0) (t := x) ?_ (fun hx => ?_); subst x; rotate_left; (first | clear_value x | skip))
    | (lift_lets; intro x; refine Tame.cut (s := s0) (t := x) ?_ (fun hx => ?_); subst x; rotate_left; (first | clear_value x | skip))
    | (lift_lets; intro x)
    | with_reducible assumption
    | with_reducible apply Tame.ite
    | with_reducible apply State.onStr_tame
    | with_reducible apply State.openWindow_tame
    | intro x
    | split
    | (clear_value *; split)
    | (with_reducible apply Tame.lit <;> (try dsimp only))

theorem State.segClose_tame {s0 s : State} (h : Tame s0 s) (p b : Nat) :
    Tame s0 (State.segClose s p b) := by
  unfold State.segClose
  repeat' first
    | refine Tame.pending ?_
    | refine Tame.fuse ?_
    | refine Tame.emgHost ?_
    | refine Tame.active ?_
    | refine Tame.maint ?_
    | (intro x; refine Tame.cut (s := s0) (t := x) ?_ (fun hx => ?_); subst x; rotate_left; (first | clear_value x | skip))
    | (lift_lets; intro x; refine Tame.cut (s := s0) (t := x) ?_ (fun hx => ?_); subst x; rotate_left; (first | clear_value x | skip))
    | (lift_lets; intro x)
    | with_reducible assumption
    | with_reducible apply Tame.ite
    | with_reducible apply State.onEst_tame
    | with_reducible apply State.onStr_tame
    | (with_reducible apply Tame.foldl; rotate_left; intro y z hy)
    | intro x
    | split
    | (clear_value *; split)
    | (with_reducible apply Tame.lit <;> (try dsimp only))

theorem State.segSample_tame {s0 s : State} (h : Tame s0 s) (p S b : Nat) (i : Option Int) (settling ow : Bool) :
    Tame s0 (State.segSample s p S b i settling ow) := by
  unfold State.segSample
  repeat' first
    | refine Tame.pending ?_
    | refine Tame.fuse ?_
    | refine Tame.emgHost ?_
    | refine Tame.active ?_
    | refine Tame.maint ?_
    | (intro x; refine Tame.cut (s := s0) (t := x) ?_ (fun hx => ?_); subst x; rotate_left; (first | clear_value x | skip))
    | (lift_lets; intro x; refine Tame.cut (s := s0) (t := x) ?_ (fun hx => ?_); subst x; rotate_left; (first | clear_value x | skip))
    | (lift_lets; intro x)
    | with_reducible assumption
    | with_reducible apply Tame.ite
    | with_reducible apply State.onEst_tame
    | with_reducible apply State.onStr_tame
    | (with_reducible apply Tame.foldl; rotate_left; intro y z hy)
    | intro x
    | split
    | (clear_value *; split)
    | (with_reducible apply Tame.lit <;> (try dsimp only))

theorem State.impRecord_tame {s0 s : State} (h : Tame s0 s) (p : Nat) (body : List Byte) :
    Tame s0 (State.impRecord s p body) := by
  unfold State.impRecord
  repeat' first
    | (intro x; refine Tame.cut (s := s0) (t := x) ?_ (fun hx => ?_); subst x; rotate_left; (first | clear_value x | skip))
    | (lift_lets; intro x; refine Tame.cut (s := s0) (t := x) ?_ (fun hx => ?_); subst x; rotate_left; (first | clear_value x | skip))
    | (lift_lets; intro x)
    | with_reducible assumption
    | with_reducible apply Tame.ite
    | with_reducible apply State.sendMirror_tame
    | with_reducible apply State.record_tame
    | intro x
    | split
    | (clear_value *; split)

theorem State.tableSet_tame {s0 s : State} (h : Tame s0 s) (g slot b : Nat) (z : Int × Int) :
    Tame s0 (State.tableSet s g slot b z) := by
  unfold State.tableSet
  repeat' first
    | refine Tame.pending ?_
    | refine Tame.fuse ?_
    | refine Tame.emgHost ?_
    | refine Tame.active ?_
    | refine Tame.maint ?_
    | (intro x; refine Tame.cut (s := s0) (t := x) ?_ (fun hx => ?_); subst x; rotate_left; (first | clear_value x | skip))
    | (lift_lets; intro x; refine Tame.cut (s := s0) (t := x) ?_ (fun hx => ?_); subst x; rotate_left; (first | clear_value x | skip))
    | (lift_lets; intro x)
    | with_reducible assumption
    | with_reducible apply Tame.ite
    | with_reducible apply State.onEst_tame
    | with_reducible apply State.sendMirror_tame
    | intro x
    | split
    | (clear_value *; split)
    | (with_reducible apply Tame.lit <;> (try dsimp only))

theorem State.tableUpdate_tame {s0 s : State} (h : Tame s0 s) (g slot b w : Nat) (z : Int × Int) (d : Int) :
    Tame s0 (State.tableUpdate s g slot b w z d) := by
  unfold State.tableUpdate
  repeat' first
    | (intro x; refine Tame.cut (s := s0) (t := x) ?_ (fun hx => ?_); subst x; rotate_left; (first | clear_value x | skip))
    | (lift_lets; intro x; refine Tame.cut (s := s0) (t := x) ?_ (fun hx => ?_); subst x; rotate_left; (first | clear_value x | skip))
    | (lift_lets; intro x)
    | with_reducible assumption
    | with_reducible apply State.draw_tame
    | (refine State.draw_tame' ?_ ‹_›)
    | with_reducible apply State.tableSet_tame
    | intro x
    | split
    | (clear_value *; split)

theorem State.lineStep_tame {s0 s : State} (h : Tame s0 s) (p b : Nat) :
    Tame s0 (State.lineStep s p b) := by
  unfold State.lineStep
  repeat' first
    | refine Tame.pending ?_
    | refine Tame.fuse ?_
    | refine Tame.emgHost ?_
    | refine Tame.active ?_
    | refine Tame.maint ?_
    | (intro x; refine Tame.cut (s := s0) (t := x) ?_ (fun hx => ?_); subst x; rotate_left; (first | clear_value x | skip))
    | (lift_lets; intro x; refine Tame.cut (s := s0) (t := x) ?_ (fun hx => ?_); subst x; rotate_left; (first | clear_value x | skip))
    | (lift_lets; intro x)
    | with_reducible assumption
    | with_reducible apply Tame.ite
    | with_reducible apply State.onStr_tame
    | intro x
    | split
    | (clear_value *; split)
    | (with_reducible apply Tame.lit <;> (try dsimp only))

theorem State.winClose_tame {s0 s : State} (h : Tame s0 s) (p band t : Nat) :
    Tame s0 (State.winClose s p band t) := by
  unfold State.winClose
  repeat' first
    | (intro x; refine Tame.cut (s := s0) (t := x) ?_ (fun hx => ?_); subst x; rotate_left; (first | clear_value x | skip))
    | (lift_lets; intro x; refine Tame.cut (s := s0) (t := x) ?_ (fun hx => ?_); subst x; rotate_left; (first | clear_value x | skip))
    | (lift_lets; intro x)
    | with_reducible assumption
    | with_reducible apply Tame.ite
    | with_reducible apply State.at_tame
    | with_reducible apply State.openWindow_tame
    | with_reducible apply State.impRecord_tame
    | with_reducible apply State.tableUpdate_tame
    | with_reducible apply State.lineStep_tame
    | (with_reducible apply Tame.foldl; rotate_left; intro y z hy)
    | intro x
    | split
    | (clear_value *; split)

theorem State.segCatch_tame {s0 : State} (p S b n : Nat) {s : State} (h : Tame s0 s) : Tame s0 (State.segCatch s p S b n) := by
  induction n generalizing s with
  | zero => exact h
  | succ n ih =>
    unfold State.segCatch
    dsimp only
    split
    · exact Tame.ite (ih (State.winClose_tame h _ _ _)) (Tame.ite (ih (State.segClose_tame h _ _)) h)
    · exact h

theorem State.impSample_tame {s0 s : State} (h : Tame s0 s) (p S : Nat) (i : Option Int) (settling ow : Bool) :
    Tame s0 (State.impSample s p S i settling ow) := by
  unfold State.impSample
  extract_lets n s1 th s2 s3
  have h1 : Tame s0 s1 := Tame.foldl h (fun y z hy => State.segSample_tame (State.segCatch_tame _ _ _ _ hy) _ _ _ _ _ _)
  have h2 : Tame s0 s2 := Tame.ite (c := s1.dftServed n < n) (Tame.lit h1.pending h1.fuse h1.emgHost h1.active h1.maint) h1
  exact Tame.foldl (State.onStr_tame h2 _ _) (fun y z hy => State.firstWindow_tame hy _ _)

theorem State.sedgeOver_tame {s0 s : State} (h : Tame s0 s) (p : Nat) :
    Tame s0 (State.sedgeOver s p) := by
  unfold State.sedgeOver
  repeat' first
    | refine Tame.pending ?_
    | refine Tame.fuse ?_
    | refine Tame.emgHost ?_
    | refine Tame.active ?_
    | refine Tame.maint ?_
    | (intro x; refine Tame.cut (s := s0) (t := x) ?_ (fun hx => ?_); subst x; rotate_left; (first | clear_value x | skip))
    | (lift_lets; intro x; refine Tame.cut (s := s0) (t := x) ?_ (fun hx => ?_); subst x; rotate_left; (first | clear_value x | skip))
    | (lift_lets; intro x)
    | with_reducible assumption
    | with_reducible apply State.onPort_tame
    | with_reducible apply State.planKick_tame
    | with_reducible apply State.planTell_tame
    | intro x
    | split
    | (clear_value *; split)
    | (with_reducible apply Tame.lit <;> (try dsimp only))

theorem State.sedgeStops_tame {s0 s : State} (h : Tame s0 s) (p : Nat) :
    Tame s0 (State.sedgeStops s p) := by
  unfold State.sedgeStops
  repeat' first
    | refine Tame.pending ?_
    | refine Tame.fuse ?_
    | refine Tame.emgHost ?_
    | refine Tame.active ?_
    | refine Tame.maint ?_
    | (intro x; refine Tame.cut (s := s0) (t := x) ?_ (fun hx => ?_); subst x; rotate_left; (first | clear_value x | skip))
    | (lift_lets; intro x; refine Tame.cut (s := s0) (t := x) ?_ (fun hx => ?_); subst x; rotate_left; (first | clear_value x | skip))
    | (lift_lets; intro x)
    | with_reducible assumption
    | with_reducible apply State.onPort_tame
    | with_reducible apply State.sendTo_tame
    | (with_reducible apply Tame.foldl; rotate_left; intro y z hy)
    | intro x
    | split
    | (clear_value *; split)
    | (with_reducible apply Tame.lit <;> (try dsimp only))

theorem State.sedgeAbort_tame {s0 s : State} (h : Tame s0 s) (p : Nat) :
    Tame s0 (State.sedgeAbort s p) := by
  unfold State.sedgeAbort
  repeat' first
    | refine Tame.pending ?_
    | refine Tame.fuse ?_
    | refine Tame.emgHost ?_
    | refine Tame.active ?_
    | refine Tame.maint ?_
    | (intro x; refine Tame.cut (s := s0) (t := x) ?_ (fun hx => ?_); subst x; rotate_left; (first | clear_value x | skip))
    | (lift_lets; intro x; refine Tame.cut (s := s0) (t := x) ?_ (fun hx => ?_); subst x; rotate_left; (first | clear_value x | skip))
    | (lift_lets; intro x)
    | with_reducible assumption
    | with_reducible apply Tame.ite
    | with_reducible apply State.onPort_tame
    | with_reducible apply State.impRecord_tame
    | with_reducible apply State.sedgeOver_tame
    | with_reducible apply State.sedgeStops_tame
    | intro x
    | split
    | (clear_value *; split)
    | (with_reducible apply Tame.lit <;> (try dsimp only))

theorem State.sedgeSample_tame {s0 s : State} (h : Tame s0 s) (p : Nat) (settling ow : Bool) :
    Tame s0 (State.sedgeSample s p settling ow) := by
  unfold State.sedgeSample
  repeat' first
    | refine Tame.pending ?_
    | refine Tame.fuse ?_
    | refine Tame.emgHost ?_
    | refine Tame.active ?_
    | refine Tame.maint ?_
    | (intro x; refine Tame.cut (s := s0) (t := x) ?_ (fun hx => ?_); subst x; rotate_left; (first | clear_value x | skip))
    | (lift_lets; intro x; refine Tame.cut (s := s0) (t := x) ?_ (fun hx => ?_); subst x; rotate_left; (first | clear_value x | skip))
    | (lift_lets; intro x)
    | with_reducible assumption
    | with_reducible apply Tame.ite
    | with_reducible apply State.onPort_tame
    | with_reducible apply State.onEst_tame
    | (with_reducible apply Tame.foldl; rotate_left; intro y z hy)
    | intro x
    | split
    | (clear_value *; split)
    | (with_reducible apply Tame.lit <;> (try dsimp only))

theorem State.burstOff_tame {s0 s : State} (h : Tame s0 s) (p : Nat) :
    Tame s0 (State.burstOff s p) := by
  unfold State.burstOff
  repeat' first
    | refine Tame.pending ?_
    | refine Tame.fuse ?_
    | refine Tame.emgHost ?_
    | refine Tame.active ?_
    | refine Tame.maint ?_
    | with_reducible assumption
    | with_reducible apply Tame.ite
    | with_reducible apply State.onPort_tame
    | with_reducible apply State.planKick_tame
    | with_reducible apply State.planTell_tame
    | intro x
    | split
    | (clear_value *; split)
    | (with_reducible apply Tame.lit <;> (try dsimp only))

end Sys2Proof.Machine
end

