-- ==== Sys2Proof/Laws/TameImp.lean ====
section
/-! SUPPORT. The operations of Machine.Imp are tame. -/

namespace Sys2Proof.Machine

open Sys2Proof

set_option linter.unreachableTactic false
set_option linter.unusedTactic false

theorem execSegmentClose_tame {s0 s t : State} (p : Nat) (band : Nat) (h : Tame s0 s)
    (e : execSegmentClose p band s = .next t) : Tame s0 t := by
  unfold execSegmentClose at e
  injection e with e
  subst e
  repeat' first
    | (intro x; refine Tame.cut (s := s0) (t := x) ?_ (fun hx => ?_); subst x; rotate_left; (first | clear_value x | skip))
    | (lift_lets; intro x; refine Tame.cut (s := s0) (t := x) ?_ (fun hx => ?_); subst x; rotate_left; (first | clear_value x | skip))
    | (lift_lets; intro x)
    | with_reducible assumption
    | with_reducible apply Tame.ite
    | with_reducible apply State.at_tame
    | with_reducible apply State.segClose_tame
    | intro x
    | split
    | (clear_value *; split)

theorem execWindowEnd_tame {s0 s t : State} (p : Nat) (band : Nat) (h : Tame s0 s)
    (e : execWindowEnd p band s = .next t) : Tame s0 t := by
  unfold execWindowEnd at e
  injection e with e
  subst e
  repeat' first
    | with_reducible assumption
    | with_reducible apply Tame.ite
    | with_reducible apply State.winClose_tame
    | intro x
    | split
    | (clear_value *; split)

theorem State.sedgeStart_tame {s0 s : State} (h : Tame s0 s) (p : Nat) :
    Tame s0 (State.sedgeStart s p) := by
  unfold State.sedgeStart
  repeat' first
    | refine Tame.pending ?_
    | refine Tame.fuse ?_
    | refine Tame.emgHost ?_
    | refine Tame.active ?_
    | refine Tame.maint ?_
    | (intro x; refine Tame.cut (s := s0) (t := x) ?_ (fun hx => ?_); subst x; rotate_left; (first | clear_value x | skip))
    | (lift_lets; intro x; refine Tame.cut (s := s0) (t := x) ?_ (fun hx => ?_); subst x; rotate_left; (first | clear_value x | skip))
    | (lift_lets; intro x)
    | with_reducible assumption
    | with_reducible apply Tame.ite
    | with_reducible apply State.onPort_tame
    | with_reducible apply State.onEst_tame
    | with_reducible apply State.sendTo_tame
    | with_reducible apply State.planKick_tame
    | with_reducible apply State.planTell_tame
    | (with_reducible apply Tame.foldl; rotate_left; intro y z hy)
    | intro x
    | split
    | (clear_value *; split)
    | (with_reducible apply Tame.lit <;> (try dsimp only))

theorem execSedgeSessionStart_tame {s0 s t : State} (p : Nat) (h : Tame s0 s)
    (e : execSedgeSessionStart p s = .next t) : Tame s0 t := by
  unfold execSedgeSessionStart at e
  injection e with e
  subst e
  repeat' first
    | with_reducible assumption
    | with_reducible apply Tame.ite
    | with_reducible apply State.deferPlan_tame
    | with_reducible apply State.sedgeStart_tame
    | split
    | (clear_value *; split)

theorem State.sedgeCell_tame {s0 s : State} (h : Tame s0 s) (p pos : Nat) :
    Tame s0 (State.sedgeCell s p pos).1 := by
  unfold State.sedgeCell
  extract_lets g slot s1 a
  have k : Tame s0 s1 := State.onEst_tame h _ _
  clear_value a s1
  exact Tame.iteFst (Tame.mkFst k) (Tame.mkFst (Tame.foldl k (fun y z hy => State.tableUpdate_tame hy _ _ _ _ _ _)))

theorem State.sedgeTake_tame {s0 s : State} (h : Tame s0 s) (p : Nat) :
    Tame s0 (State.sedgeTake s p) := by
  unfold State.sedgeTake
  generalize hF : List.foldl _ _ _ = r
  have k : Tame s0 r.1 := by
    rw [← hF]
    exact Tame.foldlFst h (fun y z hy => State.sedgeCell_tame hy p (y.1.sedgePos p z))
  clear hF
  exact State.sedgeOver_tame (State.impRecord_tame k _ _) _

theorem execSedgeSequenceEnd_tame {s0 s t : State} (p : Nat) (seq : Nat) (h : Tame s0 s)
    (e : execSedgeSequenceEnd p seq s = .next t) : Tame s0 t := by
  unfold execSedgeSequenceEnd at e
  injection e with e
  subst e
  repeat' first
    | (intro x; refine Tame.cut (s := s0) (t := x) ?_ (fun hx => ?_); subst x; rotate_left; (first | clear_value x | skip))
    | (lift_lets; intro x; refine Tame.cut (s := s0) (t := x) ?_ (fun hx => ?_); subst x; rotate_left; (first | clear_value x | skip))
    | (lift_lets; intro x)
    | with_reducible assumption
    | with_reducible apply Tame.ite
    | with_reducible apply State.at_tame
    | with_reducible apply State.sedgeOver_tame
    | with_reducible apply State.sedgeTake_tame
    | intro x
    | split
    | (clear_value *; split)

theorem State.fitTake_tame {s0 s : State} (h : Tame s0 s) (g slot : Nat) (par : FitPar) :
    Tame s0 (State.fitTake s g slot par) := by
  unfold State.fitTake
  repeat' first
    | refine Tame.pending ?_
    | refine Tame.fuse ?_
    | refine Tame.emgHost ?_
    | refine Tame.active ?_
    | refine Tame.maint ?_
    | (intro x; refine Tame.cut (s := s0) (t := x) ?_ (fun hx => ?_); subst x; rotate_left; (first | clear_value x | skip))
    | (lift_lets; intro x; refine Tame.cut (s := s0) (t := x) ?_ (fun hx => ?_); subst x; rotate_left; (first | clear_value x | skip))
    | (lift_lets; intro x)
    | with_reducible assumption
    | with_reducible apply Tame.ite
    | with_reducible apply State.onEst_tame
    | with_reducible apply State.ageFaults_tame
    | intro x
    | split
    | (clear_value *; split)
    | (with_reducible apply Tame.lit <;> (try dsimp only))

theorem State.fitSlot_tame {s0 s : State} (h : Tame s0 s) (g slot : Nat) :
    Tame s0 (State.fitSlot s g slot) := by
  unfold State.fitSlot
  repeat' first
    | refine Tame.pending ?_
    | refine Tame.fuse ?_
    | refine Tame.emgHost ?_
    | refine Tame.active ?_
    | refine Tame.maint ?_
    | (intro x; refine Tame.cut (s := s0) (t := x) ?_ (fun hx => ?_); subst x; rotate_left; (first | clear_value x | skip))
    | (lift_lets; intro x; refine Tame.cut (s := s0) (t := x) ?_ (fun hx => ?_); subst x; rotate_left; (first | clear_value x | skip))
    | (lift_lets; intro x)
    | with_reducible assumption
    | with_reducible apply Tame.ite
    | with_reducible apply State.onStr_tame
    | with_reducible apply State.fitTake_tame
    | intro x
    | split
    | (clear_value *; split)
    | (with_reducible apply Tame.lit <;> (try dsimp only))

theorem execCircuitFit_tame {s0 s fin : State} (g : Nat) (slot : Nat) (t : Nat) (h : Tame s0 s)
    (e : execCircuitFit g slot t s = .next fin) : Tame s0 fin := by
  unfold execCircuitFit at e
  injection e with e
  subst e
  repeat' first
    | refine Tame.pending ?_
    | refine Tame.fuse ?_
    | refine Tame.emgHost ?_
    | refine Tame.active ?_
    | refine Tame.maint ?_
    | (intro x; refine Tame.cut (s := s0) (t := x) ?_ (fun hx => ?_); subst x; rotate_left; (first | clear_value x | skip))
    | (lift_lets; intro x; refine Tame.cut (s := s0) (t := x) ?_ (fun hx => ?_); subst x; rotate_left; (first | clear_value x | skip))
    | (lift_lets; intro x)
    | with_reducible assumption
    | with_reducible apply Tame.ite
    | with_reducible apply State.onEst_tame
    | with_reducible apply State.at_tame
    | with_reducible apply State.fitSlot_tame
    | intro x
    | split
    | (clear_value *; split)
    | (with_reducible apply Tame.lit <;> (try dsimp only))

theorem execFitRecord_tame {s0 s t : State} (p : Nat) (h : Tame s0 s)
    (e : execFitRecord p s = .next t) : Tame s0 t := by
  unfold execFitRecord at e
  injection e with e
  subst e
  repeat' first
    | refine Tame.pending ?_
    | refine Tame.fuse ?_
    | refine Tame.emgHost ?_
    | refine Tame.active ?_
    | refine Tame.maint ?_
    | (intro x; refine Tame.cut (s := s0) (t := x) ?_ (fun hx => ?_); subst x; rotate_left; (first | clear_value x | skip))
    | (lift_lets; intro x; refine Tame.cut (s := s0) (t := x) ?_ (fun hx => ?_); subst x; rotate_left; (first | clear_value x | skip))
    | (lift_lets; intro x)
    | with_reducible assumption
    | with_reducible apply Tame.ite
    | with_reducible apply State.onStr_tame
    | with_reducible apply State.impRecord_tame
    | intro x
    | split
    | (clear_value *; split)
    | (with_reducible apply Tame.lit <;> (try dsimp only))

theorem State.tableSave_tame {s0 s : State} (h : Tame s0 s) (g : Nat) :
    Tame s0 (State.tableSave s g) := by
  unfold State.tableSave
  repeat' first
    | refine Tame.pending ?_
    | refine Tame.fuse ?_
    | refine Tame.emgHost ?_
    | refine Tame.active ?_
    | refine Tame.maint ?_
    | with_reducible assumption
    | with_reducible apply Tame.ite
    | with_reducible apply State.onEst_tame
    | with_reducible apply State.mirrorDue_tame
    | intro x
    | split
    | (clear_value *; split)
    | (with_reducible apply Tame.lit <;> (try dsimp only))

theorem execTableWriteback_tame {s0 s t : State} (g : Nat) (h : Tame s0 s)
    (e : execTableWriteback g s = .next t) : Tame s0 t := by
  unfold execTableWriteback at e
  injection e with e
  subst e
  repeat' first
    | with_reducible assumption
    | with_reducible apply Tame.ite
    | with_reducible apply State.at_tame
    | with_reducible apply State.tableSave_tame
    | intro x
    | split
    | (clear_value *; split)

theorem execTableAgeAdvance_tame {s0 s t : State}  (h : Tame s0 s)
    (e : execTableAgeAdvance s = .next t) : Tame s0 t := by
  unfold execTableAgeAdvance at e
  injection e with e
  subst e
  repeat' first
    | refine Tame.pending ?_
    | refine Tame.fuse ?_
    | refine Tame.emgHost ?_
    | refine Tame.active ?_
    | refine Tame.maint ?_
    | (intro x; refine Tame.cut (s := s0) (t := x) ?_ (fun hx => ?_); subst x; rotate_left; (first | clear_value x | skip))
    | (lift_lets; intro x; refine Tame.cut (s := s0) (t := x) ?_ (fun hx => ?_); subst x; rotate_left; (first | clear_value x | skip))
    | (lift_lets; intro x)
    | with_reducible assumption
    | with_reducible apply State.at_tame
    | intro x
    | split
    | (clear_value *; split)
    | (with_reducible apply Tame.lit <;> (try dsimp only))

end Sys2Proof.Machine
end

