-- ==== Sys2Proof/Laws/TameNvBase.lean ====
section
/-! SUPPORT. The operations of Machine.NvBase are tame. -/

namespace Sys2Proof.Machine

open Sys2Proof

set_option linter.unreachableTactic false
set_option linter.unusedTactic false

theorem State.counterSave_tame {s0 s : State} (h : Tame s0 s)  :
    Tame s0 (State.counterSave s) := by
  unfold State.counterSave
  repeat' first
    | with_reducible assumption
    | with_reducible apply State.mirrorDue_tame
    | split
    | (clear_value *; split)

theorem State.countersFrom_tame {s0 s : State} (h : Tame s0 s) (b : List Byte) (charge : Bool) :
    Tame s0 (State.countersFrom s b charge) := by
  unfold State.countersFrom
  repeat' first
    | refine Tame.pending ?_
    | refine Tame.fuse ?_
    | refine Tame.emgHost ?_
    | refine Tame.active ?_
    | refine Tame.maint ?_
    | (intro x; refine Tame.cut (s := s0) (t := x) ?_ (fun hx => ?_); subst x; rotate_left; (first | clear_value x | skip))
    | (lift_lets; intro x; refine Tame.cut (s := s0) (t := x) ?_ (fun hx => ?_); subst x; rotate_left; (first | clear_value x | skip))
    | (lift_lets; intro x)
    | with_reducible assumption
    | with_reducible apply Tame.ite
    | with_reducible apply State.onStr_tame
    | (with_reducible apply Tame.foldl; rotate_left; intro y z hy)
    | intro x
    | split
    | (clear_value *; split)
    | (with_reducible apply Tame.lit <;> (try dsimp only))

theorem State.stampSaved_tame {s0 s : State} (h : Tame s0 s)  :
    Tame s0 (State.stampSaved s) := by
  unfold State.stampSaved
  repeat' first
    | refine Tame.pending ?_
    | refine Tame.fuse ?_
    | refine Tame.emgHost ?_
    | refine Tame.active ?_
    | refine Tame.maint ?_
    | with_reducible assumption
    | with_reducible apply State.onStr_tame
    | (with_reducible apply Tame.foldl; rotate_left; intro y z hy)
    | intro x
    | split
    | (clear_value *; split)
    | (with_reducible apply Tame.lit <;> (try dsimp only))

theorem State.estSave_tame {s0 s : State} (h : Tame s0 s)  :
    Tame s0 (State.estSave s) := by
  unfold State.estSave
  repeat' first
    | with_reducible assumption
    | with_reducible apply Tame.ite
    | with_reducible apply State.nvDue_tame
    | with_reducible apply State.stampSaved_tame
    | split
    | (clear_value *; split)

theorem State.tablesSave_tame {s0 s : State} (h : Tame s0 s)  :
    Tame s0 (State.tablesSave s) := by
  unfold State.tablesSave
  repeat' first
    | with_reducible assumption
    | with_reducible apply State.tableSave_tame
    | (with_reducible apply Tame.foldl; rotate_left; intro y z hy)
    | intro x
    | split
    | (clear_value *; split)

theorem State.ageSave_tame {s0 s : State} (h : Tame s0 s) (g : Nat) :
    Tame s0 (State.ageSave s g) := by
  unfold State.ageSave
  repeat' first
    | with_reducible assumption
    | with_reducible apply State.mirrorDue_tame
    | split
    | (clear_value *; split)

theorem State.agesSave_tame {s0 s : State} (h : Tame s0 s)  :
    Tame s0 (State.agesSave s) := by
  unfold State.agesSave
  repeat' first
    | with_reducible assumption
    | with_reducible apply State.ageSave_tame
    | (with_reducible apply Tame.foldl; rotate_left; intro y z hy)
    | intro x
    | split
    | (clear_value *; split)

theorem State.saveAll_tame {s0 s : State} (h : Tame s0 s)  :
    Tame s0 (State.saveAll s) := by
  unfold State.saveAll
  repeat' first
    | with_reducible assumption
    | with_reducible apply State.counterSave_tame
    | with_reducible apply State.estSave_tame
    | with_reducible apply State.tablesSave_tame
    | with_reducible apply State.agesSave_tame
    | split
    | (clear_value *; split)

theorem State.tableFrom_tame {s0 s : State} (h : Tame s0 s) (g : Nat) (b : List Byte) :
    Tame s0 (State.tableFrom s g b) := by
  unfold State.tableFrom
  repeat' first
    | refine Tame.pending ?_
    | refine Tame.fuse ?_
    | refine Tame.emgHost ?_
    | refine Tame.active ?_
    | refine Tame.maint ?_
    | (intro x; refine Tame.cut (s := s0) (t := x) ?_ (fun hx => ?_); subst x; rotate_left; (first | clear_value x | skip))
    | (lift_lets; intro x; refine Tame.cut (s := s0) (t := x) ?_ (fun hx => ?_); subst x; rotate_left; (first | clear_value x | skip))
    | (lift_lets; intro x)
    | with_reducible assumption
    | with_reducible apply State.onEst_tame
    | intro x
    | split
    | (clear_value *; split)
    | (with_reducible apply Tame.lit <;> (try dsimp only))

theorem State.tableLoad_tame {s0 s : State} (h : Tame s0 s) (g : Nat) :
    Tame s0 (State.tableLoad s g) := by
  unfold State.tableLoad
  repeat' first
    | with_reducible assumption
    | with_reducible apply State.tableFrom_tame
    | intro x
    | split
    | (clear_value *; split)

theorem State.repairPend_tame {s0 s : State} (h : Tame s0 s) (kind unit : Nat) :
    Tame s0 (State.repairPend s kind unit) := by
  unfold State.repairPend
  repeat' first
    | refine Tame.pending ?_
    | refine Tame.fuse ?_
    | refine Tame.emgHost ?_
    | refine Tame.active ?_
    | refine Tame.maint ?_
    | (intro x; refine Tame.cut (s := s0) (t := x) ?_ (fun hx => ?_); subst x; rotate_left; (first | clear_value x | skip))
    | (lift_lets; intro x; refine Tame.cut (s := s0) (t := x) ?_ (fun hx => ?_); subst x; rotate_left; (first | clear_value x | skip))
    | (lift_lets; intro x)
    | with_reducible assumption
    | with_reducible apply Tame.ite
    | intro x
    | split
    | (clear_value *; split)
    | (with_reducible apply Tame.lit <;> (try dsimp only))

theorem State.sectorRemap_tame {s0 s : State} (h : Tame s0 s) (sector : Nat) :
    Tame s0 (State.sectorRemap s sector) := by
  unfold State.sectorRemap
  repeat' first
    | refine Tame.pending ?_
    | refine Tame.fuse ?_
    | refine Tame.emgHost ?_
    | refine Tame.active ?_
    | refine Tame.maint ?_
    | (intro x; refine Tame.cut (s := s0) (t := x) ?_ (fun hx => ?_); subst x; rotate_left; (first | clear_value x | skip))
    | (lift_lets; intro x; refine Tame.cut (s := s0) (t := x) ?_ (fun hx => ?_); subst x; rotate_left; (first | clear_value x | skip))
    | (lift_lets; intro x)
    | with_reducible assumption
    | with_reducible apply Tame.ite
    | with_reducible apply State.takeCommit_tame
    | with_reducible apply State.bbEvent_tame
    | with_reducible apply State.repaired_tame
    | with_reducible apply State.repairPend_tame
    | with_reducible apply State.saveWindow_tame
    | intro x
    | split
    | (clear_value *; split)
    | (with_reducible apply Tame.lit <;> (try dsimp only))

theorem State.flushHeld_tame {s0 s : State} (h : Tame s0 s)  :
    Tame s0 (State.flushHeld s) := by
  unfold State.flushHeld
  repeat' first
    | refine Tame.pending ?_
    | refine Tame.fuse ?_
    | refine Tame.emgHost ?_
    | refine Tame.active ?_
    | refine Tame.maint ?_
    | (intro x; refine Tame.cut (s := s0) (t := x) ?_ (fun hx => ?_); subst x; rotate_left; (first | clear_value x | skip))
    | (lift_lets; intro x; refine Tame.cut (s := s0) (t := x) ?_ (fun hx => ?_); subst x; rotate_left; (first | clear_value x | skip))
    | (lift_lets; intro x)
    | with_reducible assumption
    | with_reducible apply Tame.ite
    | with_reducible apply State.nvCommit_tame
    | (with_reducible apply Tame.foldl; rotate_left; intro y z hy)
    | intro x
    | split
    | (clear_value *; split)
    | (with_reducible apply Tame.lit <;> (try dsimp only))

theorem State.saveSet_tame {s0 s : State} (h : Tame s0 s)  :
    Tame s0 (State.saveSet s) := by
  unfold State.saveSet
  repeat' first
    | refine Tame.pending ?_
    | refine Tame.fuse ?_
    | refine Tame.emgHost ?_
    | refine Tame.active ?_
    | refine Tame.maint ?_
    | (intro x; refine Tame.cut (s := s0) (t := x) ?_ (fun hx => ?_); subst x; rotate_left; (first | clear_value x | skip))
    | (lift_lets; intro x; refine Tame.cut (s := s0) (t := x) ?_ (fun hx => ?_); subst x; rotate_left; (first | clear_value x | skip))
    | (lift_lets; intro x)
    | with_reducible assumption
    | with_reducible apply Tame.ite
    | with_reducible apply State.nvCommit_tame
    | with_reducible apply State.stampSaved_tame
    | intro x
    | split
    | (clear_value *; split)
    | (with_reducible apply Tame.lit <;> (try dsimp only))

theorem State.journalEntry_tame {s0 s : State} (h : Tame s0 s) (e : JEntry) :
    Tame s0 (State.journalEntry s e) := by
  unfold State.journalEntry
  repeat' first
    | refine Tame.pending ?_
    | refine Tame.fuse ?_
    | refine Tame.emgHost ?_
    | refine Tame.active ?_
    | refine Tame.maint ?_
    | (intro x; refine Tame.cut (s := s0) (t := x) ?_ (fun hx => ?_); subst x; rotate_left; (first | clear_value x | skip))
    | (lift_lets; intro x; refine Tame.cut (s := s0) (t := x) ?_ (fun hx => ?_); subst x; rotate_left; (first | clear_value x | skip))
    | (lift_lets; intro x)
    | with_reducible assumption
    | with_reducible apply Tame.ite
    | with_reducible apply State.takeCommit_tame
    | with_reducible apply State.journal_tame
    | with_reducible apply State.applied_tame
    | with_reducible apply State.nvCommit_tame
    | with_reducible apply State.bbEvent_tame
    | intro x
    | split
    | (clear_value *; split)
    | (with_reducible apply Tame.lit <;> (try dsimp only))

theorem State.journalScan_tame {s0 s : State} (h : Tame s0 s)  :
    Tame s0 (State.journalScan s) := by
  unfold State.journalScan
  repeat' first
    | with_reducible assumption
    | with_reducible apply State.journal_tame
    | with_reducible apply State.journalEntry_tame
    | (with_reducible apply Tame.foldl; rotate_left; intro y z hy)
    | intro x
    | split
    | (clear_value *; split)

end Sys2Proof.Machine
end

