-- ==== Sys2Proof/Laws/TameCurBase.lean ====
section
/-! SUPPORT. The operations of Machine.CurBase are tame. -/

namespace Sys2Proof.Machine

open Sys2Proof

set_option linter.unreachableTactic false
set_option linter.unusedTactic false

theorem State.filtReset_tame {s0 s : State} (h : Tame s0 s)  :
    Tame s0 (State.filtReset s) := by
  unfold State.filtReset
  repeat' first
    | refine Tame.pending ?_
    | refine Tame.fuse ?_
    | refine Tame.emgHost ?_
    | refine Tame.active ?_
    | refine Tame.maint ?_
    | (intro x; refine Tame.cut (s := s0) (t := x) ?_ (fun hx => ?_); subst x; rotate_left; (first | clear_value x | skip))
    | (lift_lets; intro x; refine Tame.cut (s := s0) (t := x) ?_ (fun hx => ?_); subst x; rotate_left; (first | clear_value x | skip))
    | (lift_lets; intro x)
    | with_reducible assumption
    | with_reducible apply State.onStr_tame
    | (with_reducible apply Tame.foldl; rotate_left; intro y z hy)
    | intro x
    | split
    | (clear_value *; split)
    | (with_reducible apply Tame.lit <;> (try dsimp only))

theorem State.filtRestart_tame {s0 s : State} (h : Tame s0 s) (p S : Nat) :
    Tame s0 (State.filtRestart s p S) := by
  unfold State.filtRestart
  repeat' first
    | refine Tame.pending ?_
    | refine Tame.fuse ?_
    | refine Tame.emgHost ?_
    | refine Tame.active ?_
    | refine Tame.maint ?_
    | with_reducible assumption
    | with_reducible apply Tame.ite
    | intro x
    | split
    | (clear_value *; split)
    | (with_reducible apply Tame.lit <;> (try dsimp only))

theorem State.fMinStep_tame {s0 s : State} (h : Tame s0 s) : Tame s0 (State.fMinStep s) := by
  unfold State.fMinStep
  generalize List.filter _ _ = l
  cases l with
  | nil => exact h
  | cons x r =>
    exact Tame.ite h (State.filtReset_tame (Tame.lit h.pending h.fuse h.emgHost h.active h.maint))

theorem State.f20_tame {s0 s : State} (h : Tame s0 s) (k : Nat) (on : Bool) (v : Int) :
    Tame s0 (State.f20 s k on v) := by
  unfold State.f20
  repeat' first
    | refine Tame.pending ?_
    | refine Tame.fuse ?_
    | refine Tame.emgHost ?_
    | refine Tame.active ?_
    | refine Tame.maint ?_
    | (intro x; refine Tame.cut (s := s0) (t := x) ?_ (fun hx => ?_); subst x; rotate_left; (first | clear_value x | skip))
    | (lift_lets; intro x; refine Tame.cut (s := s0) (t := x) ?_ (fun hx => ?_); subst x; rotate_left; (first | clear_value x | skip))
    | (lift_lets; intro x)
    | with_reducible assumption
    | with_reducible apply Tame.ite
    | with_reducible apply State.setCond_tame
    | with_reducible apply State.f20_tame
    | intro x
    | split
    | (clear_value *; split)
    | (with_reducible apply Tame.lit <;> (try dsimp only))

theorem State.f21_tame {s0 s : State} (h : Tame s0 s) (p k : Nat) (on : Bool) (v : Int) :
    Tame s0 (State.f21 s p k on v) := by
  unfold State.f21
  repeat' first
    | refine Tame.pending ?_
    | refine Tame.fuse ?_
    | refine Tame.emgHost ?_
    | refine Tame.active ?_
    | refine Tame.maint ?_
    | (intro x; refine Tame.cut (s := s0) (t := x) ?_ (fun hx => ?_); subst x; rotate_left; (first | clear_value x | skip))
    | (lift_lets; intro x; refine Tame.cut (s := s0) (t := x) ?_ (fun hx => ?_); subst x; rotate_left; (first | clear_value x | skip))
    | (lift_lets; intro x)
    | with_reducible assumption
    | with_reducible apply Tame.ite
    | with_reducible apply State.onStr_tame
    | with_reducible apply State.setCond_tame
    | with_reducible apply State.f21_tame
    | intro x
    | split
    | (clear_value *; split)
    | (with_reducible apply Tame.lit <;> (try dsimp only))

theorem State.countStr_tame {s0 s : State} (h : Tame s0 s) (p S : Nat) (i : Int) :
    Tame s0 (State.countStr s p S i) := by
  unfold State.countStr
  repeat' first
    | refine Tame.pending ?_
    | refine Tame.fuse ?_
    | refine Tame.emgHost ?_
    | refine Tame.active ?_
    | refine Tame.maint ?_
    | (intro x; refine Tame.cut (s := s0) (t := x) ?_ (fun hx => ?_); subst x; rotate_left; (first | clear_value x | skip))
    | (lift_lets; intro x; refine Tame.cut (s := s0) (t := x) ?_ (fun hx => ?_); subst x; rotate_left; (first | clear_value x | skip))
    | (lift_lets; intro x)
    | with_reducible assumption
    | with_reducible apply Tame.ite
    | with_reducible apply State.onStr_tame
    | intro x
    | split
    | (clear_value *; split)
    | (with_reducible apply Tame.lit <;> (try dsimp only))

theorem State.currentTimes_tame {s0 s : State} (h : Tame s0 s) (p S : Nat) (i : Int) (clean : Bool) :
    Tame s0 (State.currentTimes s p S i clean) := by
  unfold State.currentTimes
  repeat' first
    | refine Tame.pending ?_
    | refine Tame.fuse ?_
    | refine Tame.emgHost ?_
    | refine Tame.active ?_
    | refine Tame.maint ?_
    | (intro x; refine Tame.cut (s := s0) (t := x) ?_ (fun hx => ?_); subst x; rotate_left; (first | clear_value x | skip))
    | (lift_lets; intro x; refine Tame.cut (s := s0) (t := x) ?_ (fun hx => ?_); subst x; rotate_left; (first | clear_value x | skip))
    | (lift_lets; intro x)
    | with_reducible assumption
    | with_reducible apply Tame.ite
    | with_reducible apply State.onStr_tame
    | with_reducible apply State.trueRest_tame
    | intro x
    | split
    | (clear_value *; split)
    | (with_reducible apply Tame.lit <;> (try dsimp only))

theorem State.currentFaults_tame {s0 s : State} (h : Tame s0 s) (p S : Nat) (i : Int) :
    Tame s0 (State.currentFaults s p S i) := by
  unfold State.currentFaults
  repeat' first
    | refine Tame.pending ?_
    | refine Tame.fuse ?_
    | refine Tame.emgHost ?_
    | refine Tame.active ?_
    | refine Tame.maint ?_
    | (intro x; refine Tame.cut (s := s0) (t := x) ?_ (fun hx => ?_); subst x; rotate_left; (first | clear_value x | skip))
    | (lift_lets; intro x; refine Tame.cut (s := s0) (t := x) ?_ (fun hx => ?_); subst x; rotate_left; (first | clear_value x | skip))
    | (lift_lets; intro x)
    | with_reducible assumption
    | with_reducible apply Tame.ite
    | with_reducible apply State.onStr_tame
    | with_reducible apply State.stand_tame
    | with_reducible apply State.cease_tame
    | with_reducible apply State.setCond_tame
    | intro x
    | split
    | (clear_value *; split)
    | (with_reducible apply Tame.lit <;> (try dsimp only))

theorem State.f17Step_tame {s0 s : State} (h : Tame s0 s) (i : Int) (dt : Nat) :
    Tame s0 (State.f17Step s i dt) := by
  unfold State.f17Step
  repeat' first
    | refine Tame.pending ?_
    | refine Tame.fuse ?_
    | refine Tame.emgHost ?_
    | refine Tame.active ?_
    | refine Tame.maint ?_
    | (intro x; refine Tame.cut (s := s0) (t := x) ?_ (fun hx => ?_); subst x; rotate_left; (first | clear_value x | skip))
    | (lift_lets; intro x; refine Tame.cut (s := s0) (t := x) ?_ (fun hx => ?_); subst x; rotate_left; (first | clear_value x | skip))
    | (lift_lets; intro x)
    | with_reducible assumption
    | with_reducible apply State.setCond_tame
    | intro x
    | split
    | (clear_value *; split)
    | (with_reducible apply Tame.lit <;> (try dsimp only))

theorem State.noPackFaults_tame {s0 s : State} (h : Tame s0 s) (p S : Nat) (i : Int) :
    Tame s0 (State.noPackFaults s p S i) := by
  unfold State.noPackFaults
  repeat' first
    | (intro x; refine Tame.cut (s := s0) (t := x) ?_ (fun hx => ?_); subst x; rotate_left; (first | clear_value x | skip))
    | (lift_lets; intro x; refine Tame.cut (s := s0) (t := x) ?_ (fun hx => ?_); subst x; rotate_left; (first | clear_value x | skip))
    | (lift_lets; intro x)
    | with_reducible assumption
    | with_reducible apply Tame.ite
    | with_reducible apply State.discSample_tame
    | with_reducible apply State.setCond_tame
    | with_reducible apply State.f17Step_tame
    | (with_reducible apply Tame.foldl; rotate_left; intro y z hy)
    | intro x
    | split
    | (clear_value *; split)

theorem State.strSample_tame {s0 s : State} (h : Tame s0 s) (p S : Nat) (raw : Option Int) (settling ow : Bool) :
    Tame s0 (State.strSample s p S raw settling ow).1 := by
  unfold State.strSample
  extract_lets x der t i
  have k : Tame s0 t := by
    unfold t
    cases raw with
    | none => exact h
    | some r => exact State.onStr_tame h _ _
  clear_value t i
  cases i with
  | none => exact k
  | some i =>
    dsimp only
    generalize t.strFilt p S i = w
    obtain ⟨fl, y⟩ := w
    dsimp only
    exact State.onStr_tame (State.currentFaults_tame (State.currentTimes_tame (State.countStr_tame
      (State.noPackFaults_tame k _ _ _) _ _ _) _ _ _ _) _ _ _) _ _

theorem State.isoSend_tame {s0 s : State} (h : Tame s0 s) (p : Nat) (on : Bool) :
    Tame s0 (State.isoSend s p on) := by
  unfold State.isoSend
  repeat' first
    | refine Tame.pending ?_
    | refine Tame.fuse ?_
    | refine Tame.emgHost ?_
    | refine Tame.active ?_
    | refine Tame.maint ?_
    | with_reducible assumption
    | with_reducible apply State.onNode_tame
    | with_reducible apply State.sendTo_tame
    | intro x
    | split
    | (clear_value *; split)
    | (with_reducible apply Tame.lit <;> (try dsimp only))

theorem State.isoStop_tame {s0 s : State} (h : Tame s0 s) (q : Nat) :
    Tame s0 (State.isoStop s q) := by
  unfold State.isoStop
  repeat' first
    | refine Tame.pending ?_
    | refine Tame.fuse ?_
    | refine Tame.emgHost ?_
    | refine Tame.active ?_
    | refine Tame.maint ?_
    | with_reducible assumption
    | with_reducible apply State.isoSend_tame
    | split
    | (clear_value *; split)
    | (with_reducible apply Tame.lit <;> (try dsimp only))

theorem State.isoStart_tame {s0 s : State} (h : Tame s0 s) (t : Nat) :
    Tame s0 (State.isoStart s t) := by
  unfold State.isoStart
  repeat' first
    | refine Tame.pending ?_
    | refine Tame.fuse ?_
    | refine Tame.emgHost ?_
    | refine Tame.active ?_
    | refine Tame.maint ?_
    | with_reducible assumption
    | with_reducible apply State.isoSend_tame
    | split
    | (clear_value *; split)
    | (with_reducible apply Tame.lit <;> (try dsimp only))

theorem State.isoNext_tame {s0 s : State} (h : Tame s0 s)  :
    Tame s0 (State.isoNext s) := by
  unfold State.isoNext
  repeat' first
    | (intro x; refine Tame.cut (s := s0) (t := x) ?_ (fun hx => ?_); subst x; rotate_left; (first | clear_value x | skip))
    | (lift_lets; intro x; refine Tame.cut (s := s0) (t := x) ?_ (fun hx => ?_); subst x; rotate_left; (first | clear_value x | skip))
    | (lift_lets; intro x)
    | with_reducible assumption
    | with_reducible apply Tame.ite
    | with_reducible apply State.isoStop_tame
    | with_reducible apply State.isoStart_tame
    | intro x
    | split
    | (clear_value *; split)

theorem State.isoReady_tame {s0 s : State} (h : Tame s0 s) (p : Nat) :
    Tame s0 (State.isoReady s p) := by
  unfold State.isoReady
  repeat' first
    | refine Tame.pending ?_
    | refine Tame.fuse ?_
    | refine Tame.emgHost ?_
    | refine Tame.active ?_
    | refine Tame.maint ?_
    | (intro x; refine Tame.cut (s := s0) (t := x) ?_ (fun hx => ?_); subst x; rotate_left; (first | clear_value x | skip))
    | (lift_lets; intro x; refine Tame.cut (s := s0) (t := x) ?_ (fun hx => ?_); subst x; rotate_left; (first | clear_value x | skip))
    | (lift_lets; intro x)
    | with_reducible assumption
    | with_reducible apply Tame.ite
    | with_reducible apply State.isoSend_tame
    | intro x
    | split
    | (clear_value *; split)
    | (with_reducible apply Tame.lit <;> (try dsimp only))

end Sys2Proof.Machine
end

