-- ==== Sys2Proof/Laws/TameMeas.lean ====
section
/-! SUPPORT. The operations of Machine.Meas are tame. -/

namespace Sys2Proof.Machine

open Sys2Proof

set_option linter.unreachableTactic false
set_option linter.unusedTactic false

theorem State.f22Check_tame {s0 s : State} (h : Tame s0 s) (i : Int) :
    Tame s0 (State.f22Check s i) := by
  unfold State.f22Check
  repeat' first
    | (intro x; refine Tame.cut (s := s0) (t := x) ?_ (fun hx => ?_); subst x; rotate_left; (first | clear_value x | skip))
    | (lift_lets; intro x; refine Tame.cut (s := s0) (t := x) ?_ (fun hx => ?_); subst x; rotate_left; (first | clear_value x | skip))
    | (lift_lets; intro x)
    | with_reducible assumption
    | with_reducible apply Tame.ite
    | with_reducible apply State.setCond_tame
    | (with_reducible apply Tame.foldl; rotate_left; intro y z hy)
    | intro x
    | split
    | (clear_value *; split)

theorem State.packTaken_tame {s0 s : State} (h : Tame s0 s) (S : Nat) (val : Int) :
    Tame s0 (State.packTaken s S val) := by
  unfold State.packTaken
  repeat' first
    | refine Tame.pending ?_
    | refine Tame.fuse ?_
    | refine Tame.emgHost ?_
    | refine Tame.active ?_
    | refine Tame.maint ?_
    | (intro x; refine Tame.cut (s := s0) (t := x) ?_ (fun hx => ?_); subst x; rotate_left; (first | clear_value x | skip))
    | (lift_lets; intro x; refine Tame.cut (s := s0) (t := x) ?_ (fun hx => ?_); subst x; rotate_left; (first | clear_value x | skip))
    | (lift_lets; intro x)
    | with_reducible assumption
    | with_reducible apply Tame.ite
    | intro x
    | split
    | (clear_value *; split)
    | (with_reducible apply Tame.lit <;> (try dsimp only))

theorem State.packActs_tame {s0 s : State} (h : Tame s0 s) (S : Nat) (dt : Nat) (own : Int) :
    Tame s0 (State.packActs s S dt own) := by
  unfold State.packActs
  repeat' first
    | (intro x; refine Tame.cut (s := s0) (t := x) ?_ (fun hx => ?_); subst x; rotate_left; (first | clear_value x | skip))
    | (lift_lets; intro x; refine Tame.cut (s := s0) (t := x) ?_ (fun hx => ?_); subst x; rotate_left; (first | clear_value x | skip))
    | (lift_lets; intro x)
    | with_reducible assumption
    | with_reducible apply Tame.ite
    | with_reducible apply State.sendMirror_tame
    | with_reducible apply State.discSample_tame
    | with_reducible apply State.cease_tame
    | with_reducible apply State.seqKick_tame
    | with_reducible apply State.f20_tame
    | with_reducible apply State.f17Step_tame
    | with_reducible apply State.f22Check_tame
    | (with_reducible apply Tame.foldl; rotate_left; intro y z hy)
    | intro x
    | split
    | (clear_value *; split)

theorem execPackCurrentSample_tame {s0 s t : State} (S : Nat) (val : Int) (h : Tame s0 s)
    (e : execPackCurrentSample S val s = .next t) : Tame s0 t := by
  unfold execPackCurrentSample at e
  injection e with e
  subst e
  repeat' first
    | (intro x; refine Tame.cut (s := s0) (t := x) ?_ (fun hx => ?_); subst x; rotate_left; (first | clear_value x | skip))
    | (lift_lets; intro x; refine Tame.cut (s := s0) (t := x) ?_ (fun hx => ?_); subst x; rotate_left; (first | clear_value x | skip))
    | (lift_lets; intro x)
    | with_reducible assumption
    | with_reducible apply Tame.ite
    | with_reducible apply State.at_tame
    | with_reducible apply State.packTaken_tame
    | with_reducible apply State.packActs_tame
    | intro x
    | split
    | (clear_value *; split)

theorem execFastOvercurrentTrip_tame {s0 s t : State}  (h : Tame s0 s)
    (e : execFastOvercurrentTrip s = .next t) : Tame s0 t := by
  unfold execFastOvercurrentTrip at e
  injection e with e
  subst e
  repeat' first
    | refine Tame.pending ?_
    | refine Tame.fuse ?_
    | refine Tame.emgHost ?_
    | refine Tame.active ?_
    | refine Tame.maint ?_
    | (intro x; refine Tame.cut (s := s0) (t := x) ?_ (fun hx => ?_); subst x; rotate_left; (first | clear_value x | skip))
    | (lift_lets; intro x; refine Tame.cut (s := s0) (t := x) ?_ (fun hx => ?_); subst x; rotate_left; (first | clear_value x | skip))
    | (lift_lets; intro x)
    | with_reducible assumption
    | with_reducible apply Tame.ite
    | with_reducible apply State.onFault_tame
    | with_reducible apply State.releaseLsw_tame
    | with_reducible apply State.openModule_tame
    | with_reducible apply State.openedRec_tame
    | with_reducible apply State.latch_tame
    | (with_reducible apply Tame.foldl; rotate_left; intro y z hy)
    | intro x
    | split
    | (clear_value *; split)
    | (with_reducible apply Tame.lit <;> (try dsimp only))

theorem State.witnessStr_tame {s0 s : State} (h : Tame s0 s) (p S : Nat) :
    Tame s0 (State.witnessStr s p S) := by
  unfold State.witnessStr
  repeat' first
    | refine Tame.pending ?_
    | refine Tame.fuse ?_
    | refine Tame.emgHost ?_
    | refine Tame.active ?_
    | refine Tame.maint ?_
    | (intro x; refine Tame.cut (s := s0) (t := x) ?_ (fun hx => ?_); subst x; rotate_left; (first | clear_value x | skip))
    | (lift_lets; intro x; refine Tame.cut (s := s0) (t := x) ?_ (fun hx => ?_); subst x; rotate_left; (first | clear_value x | skip))
    | (lift_lets; intro x)
    | with_reducible assumption
    | with_reducible apply State.onStr_tame
    | intro x
    | split
    | (clear_value *; split)
    | (with_reducible apply Tame.lit <;> (try dsimp only))

theorem State.witnesses_tame {s0 s : State} (h : Tame s0 s) (S : Nat) :
    Tame s0 (State.witnesses s S) := by
  unfold State.witnesses
  repeat' first
    | with_reducible assumption
    | with_reducible apply State.witnessStr_tame
    | (with_reducible apply Tame.foldl; rotate_left; intro y z hy)
    | intro x
    | split
    | (clear_value *; split)

theorem State.attribute__tame {s0 s : State} (h : Tame s0 s) (packBad : Bool) :
    Tame s0 (State.attribute_ s packBad) := by
  unfold State.attribute_
  repeat' first
    | (intro x; refine Tame.cut (s := s0) (t := x) ?_ (fun hx => ?_); subst x; rotate_left; (first | clear_value x | skip))
    | (lift_lets; intro x; refine Tame.cut (s := s0) (t := x) ?_ (fun hx => ?_); subst x; rotate_left; (first | clear_value x | skip))
    | (lift_lets; intro x)
    | with_reducible assumption
    | with_reducible apply Tame.ite
    | with_reducible apply State.f20_tame
    | with_reducible apply State.f21_tame
    | intro x
    | split
    | (clear_value *; split)

theorem State.attributeEnd_tame {s0 s : State} (h : Tame s0 s)  :
    Tame s0 (State.attributeEnd s) := by
  unfold State.attributeEnd
  repeat' first
    | (intro x; refine Tame.cut (s := s0) (t := x) ?_ (fun hx => ?_); subst x; rotate_left; (first | clear_value x | skip))
    | (lift_lets; intro x; refine Tame.cut (s := s0) (t := x) ?_ (fun hx => ?_); subst x; rotate_left; (first | clear_value x | skip))
    | (lift_lets; intro x)
    | with_reducible assumption
    | with_reducible apply Tame.ite
    | with_reducible apply State.f20_tame
    | with_reducible apply State.f21_tame
    | (with_reducible apply Tame.foldl; rotate_left; intro y z hy)
    | intro x
    | split
    | (clear_value *; split)

theorem State.partnerCheck_tame {s0 s : State} (h : Tame s0 s) (S : Nat) :
    Tame s0 (State.partnerCheck s S) := by
  unfold State.partnerCheck
  repeat' first
    | refine Tame.pending ?_
    | refine Tame.fuse ?_
    | refine Tame.emgHost ?_
    | refine Tame.active ?_
    | refine Tame.maint ?_
    | (intro x; refine Tame.cut (s := s0) (t := x) ?_ (fun hx => ?_); subst x; rotate_left; (first | clear_value x | skip))
    | (lift_lets; intro x; refine Tame.cut (s := s0) (t := x) ?_ (fun hx => ?_); subst x; rotate_left; (first | clear_value x | skip))
    | (lift_lets; intro x)
    | with_reducible assumption
    | with_reducible apply Tame.ite
    | with_reducible apply State.f20_tame
    | intro x
    | split
    | (clear_value *; split)
    | (with_reducible apply Tame.lit <;> (try dsimp only))

theorem State.kirchCheck_tame {s0 s : State} (h : Tame s0 s) (S : Nat) :
    Tame s0 (State.kirchCheck s S) := by
  unfold State.kirchCheck
  repeat' first
    | refine Tame.pending ?_
    | refine Tame.fuse ?_
    | refine Tame.emgHost ?_
    | refine Tame.active ?_
    | refine Tame.maint ?_
    | (intro x; refine Tame.cut (s := s0) (t := x) ?_ (fun hx => ?_); subst x; rotate_left; (first | clear_value x | skip))
    | (lift_lets; intro x; refine Tame.cut (s := s0) (t := x) ?_ (fun hx => ?_); subst x; rotate_left; (first | clear_value x | skip))
    | (lift_lets; intro x)
    | with_reducible assumption
    | with_reducible apply Tame.ite
    | with_reducible apply State.stand_tame
    | with_reducible apply State.cease_tame
    | with_reducible apply State.attribute__tame
    | intro x
    | split
    | (clear_value *; split)
    | (with_reducible apply Tame.lit <;> (try dsimp only))

theorem execKirchhoffEvaluation_tame {s0 s t : State} (S : Nat) (h : Tame s0 s)
    (e : execKirchhoffEvaluation S s = .next t) : Tame s0 t := by
  unfold execKirchhoffEvaluation at e
  injection e with e
  subst e
  repeat' first
    | refine Tame.pending ?_
    | refine Tame.fuse ?_
    | refine Tame.emgHost ?_
    | refine Tame.active ?_
    | refine Tame.maint ?_
    | (intro x; refine Tame.cut (s := s0) (t := x) ?_ (fun hx => ?_); subst x; rotate_left; (first | clear_value x | skip))
    | (lift_lets; intro x; refine Tame.cut (s := s0) (t := x) ?_ (fun hx => ?_); subst x; rotate_left; (first | clear_value x | skip))
    | (lift_lets; intro x)
    | with_reducible assumption
    | with_reducible apply Tame.ite
    | with_reducible apply State.at_tame
    | with_reducible apply State.witnesses_tame
    | with_reducible apply State.attributeEnd_tame
    | with_reducible apply State.partnerCheck_tame
    | with_reducible apply State.kirchCheck_tame
    | intro x
    | split
    | (clear_value *; split)
    | (with_reducible apply Tame.lit <;> (try dsimp only))

theorem State.offsetTake_tame {s0 s : State} (h : Tame s0 s) (sensor : Nat) (mean : Int) :
    Tame s0 (State.offsetTake s sensor mean) := by
  unfold State.offsetTake
  repeat' first
    | refine Tame.pending ?_
    | refine Tame.fuse ?_
    | refine Tame.emgHost ?_
    | refine Tame.active ?_
    | refine Tame.maint ?_
    | (intro x; refine Tame.cut (s := s0) (t := x) ?_ (fun hx => ?_); subst x; rotate_left; (first | clear_value x | skip))
    | (lift_lets; intro x; refine Tame.cut (s := s0) (t := x) ?_ (fun hx => ?_); subst x; rotate_left; (first | clear_value x | skip))
    | (lift_lets; intro x)
    | with_reducible assumption
    | with_reducible apply Tame.ite
    | with_reducible apply State.onStr_tame
    | with_reducible apply State.mirrorDue_tame
    | with_reducible apply State.f20_tame
    | with_reducible apply State.f21_tame
    | intro x
    | split
    | (clear_value *; split)
    | (with_reducible apply Tame.lit <;> (try dsimp only))

theorem execOffsetLearning_tame {s0 s fin : State} (sensor : Nat) (t : Nat) (h : Tame s0 s)
    (e : execOffsetLearning sensor t s = .next fin) : Tame s0 fin := by
  unfold execOffsetLearning at e
  injection e with e
  subst e
  repeat' first
    | (intro x; refine Tame.cut (s := s0) (t := x) ?_ (fun hx => ?_); subst x; rotate_left; (first | clear_value x | skip))
    | (lift_lets; intro x; refine Tame.cut (s := s0) (t := x) ?_ (fun hx => ?_); subst x; rotate_left; (first | clear_value x | skip))
    | (lift_lets; intro x)
    | with_reducible assumption
    | with_reducible apply Tame.ite
    | with_reducible apply State.at_tame
    | with_reducible apply State.offsetTake_tame
    | intro x
    | split
    | (clear_value *; split)

theorem execBackupHandOver_tame {s0 s t : State}  (h : Tame s0 s)
    (e : execBackupHandOver s = .next t) : Tame s0 t := by
  unfold execBackupHandOver at e
  injection e with e
  subst e
  repeat' first
    | with_reducible assumption
    | with_reducible apply State.at_tame
    | with_reducible apply State.isoNext_tame
    | intro x
    | split
    | (clear_value *; split)

end Sys2Proof.Machine
end

