-- ==== Sys2Proof/Laws/TameThermal.lean ====
section
/-! SUPPORT. The operations of Machine.Thermal are tame. -/

namespace Sys2Proof.Machine

open Sys2Proof

set_option linter.unreachableTactic false
set_option linter.unusedTactic false

theorem State.ntcIn_tame {s0 s : State} (h : Tame s0 s) (n ohm : Nat) :
    Tame s0 (State.ntcIn s n ohm) := by
  unfold State.ntcIn
  repeat' first
    | refine Tame.pending ?_
    | refine Tame.fuse ?_
    | refine Tame.emgHost ?_
    | refine Tame.active ?_
    | refine Tame.maint ?_
    | (intro x; refine Tame.cut (s := s0) (t := x) ?_ (fun hx => ?_); subst x; rotate_left; (first | clear_value x | skip))
    | (lift_lets; intro x; refine Tame.cut (s := s0) (t := x) ?_ (fun hx => ?_); subst x; rotate_left; (first | clear_value x | skip))
    | (lift_lets; intro x)
    | with_reducible assumption
    | with_reducible apply Tame.ite
    | with_reducible apply State.onCtr_tame
    | with_reducible apply State.tempIn_tame
    | (with_reducible apply Tame.foldl; rotate_left; intro y z hy)
    | intro x
    | split
    | (clear_value *; split)
    | (with_reducible apply Tame.lit <;> (try dsimp only))

theorem execNtcSample_tame {s0 s t : State} (ohms : List Nat) (h : Tame s0 s)
    (e : execNtcSample ohms s = .next t) : Tame s0 t := by
  unfold execNtcSample at e
  injection e with e
  subst e
  repeat' first
    | with_reducible assumption
    | with_reducible apply Tame.ite
    | with_reducible apply State.ntcIn_tame
    | (with_reducible apply Tame.foldl; rotate_left; intro y z hy)
    | intro x
    | split
    | (clear_value *; split)

theorem State.tempEvalOf_tame {s0 s : State} (h : Tame s0 s) (ps : List Nat) (ntc : Bool) :
    Tame s0 (State.tempEvalOf s ps ntc) := by
  unfold State.tempEvalOf
  repeat' first
    | refine Tame.pending ?_
    | refine Tame.fuse ?_
    | refine Tame.emgHost ?_
    | refine Tame.active ?_
    | refine Tame.maint ?_
    | (intro x; refine Tame.cut (s := s0) (t := x) ?_ (fun hx => ?_); subst x; rotate_left; (first | clear_value x | skip))
    | (lift_lets; intro x; refine Tame.cut (s := s0) (t := x) ?_ (fun hx => ?_); subst x; rotate_left; (first | clear_value x | skip))
    | (lift_lets; intro x)
    | with_reducible assumption
    | with_reducible apply Tame.ite
    | with_reducible apply State.onPort_tame
    | with_reducible apply State.setCond_tame
    | with_reducible apply State.sensorEval_tame
    | with_reducible apply State.f09Settle_tame
    | with_reducible apply State.zoneLevels_tame
    | with_reducible apply State.f08Settle_tame
    | with_reducible apply State.f10Settle_tame
    | with_reducible apply State.f12Settle_tame
    | with_reducible apply State.riseEval_tame
    | with_reducible apply State.f11End_tame
    | with_reducible apply State.demandStep_tame
    | (with_reducible apply Tame.foldl; rotate_left; intro y z hy)
    | intro x
    | split
    | (clear_value *; split)
    | (with_reducible apply Tame.lit <;> (try dsimp only))

theorem State.tempEval_tame {s0 s : State} (h : Tame s0 s)  :
    Tame s0 (State.tempEval s) := by
  unfold State.tempEval
  repeat' first
    | with_reducible assumption
    | with_reducible apply State.thermOuts_tame
    | with_reducible apply State.tempEvalOf_tame
    | split
    | (clear_value *; split)

theorem State.mossEval_tame {s0 s : State} (h : Tame s0 s) (p : Nat) :
    Tame s0 (State.mossEval s p) := by
  unfold State.mossEval
  repeat' first
    | (intro x; refine Tame.cut (s := s0) (t := x) ?_ (fun hx => ?_); subst x; rotate_left; (first | clear_value x | skip))
    | (lift_lets; intro x; refine Tame.cut (s := s0) (t := x) ?_ (fun hx => ?_); subst x; rotate_left; (first | clear_value x | skip))
    | (lift_lets; intro x)
    | with_reducible assumption
    | with_reducible apply Tame.ite
    | with_reducible apply State.wakeBy_tame
    | with_reducible apply State.tempEvalOf_tame
    | intro x
    | split
    | (clear_value *; split)

theorem execTemperatureEvaluation_tame {s0 s t : State}  (h : Tame s0 s)
    (e : execTemperatureEvaluation s = .next t) : Tame s0 t := by
  unfold execTemperatureEvaluation at e
  injection e with e
  subst e
  repeat' first
    | with_reducible assumption
    | with_reducible apply Tame.ite
    | with_reducible apply State.tempEval_tame
    | split
    | (clear_value *; split)

theorem execTemperatureDemandFall_tame {s0 s t : State} (p : Nat) (h : Tame s0 s)
    (e : execTemperatureDemandFall p s = .next t) : Tame s0 t := by
  unfold execTemperatureDemandFall at e
  injection e with e
  subst e
  repeat' first
    | refine Tame.pending ?_
    | refine Tame.fuse ?_
    | refine Tame.emgHost ?_
    | refine Tame.active ?_
    | refine Tame.maint ?_
    | (intro x; refine Tame.cut (s := s0) (t := x) ?_ (fun hx => ?_); subst x; rotate_left; (first | clear_value x | skip))
    | (lift_lets; intro x; refine Tame.cut (s := s0) (t := x) ?_ (fun hx => ?_); subst x; rotate_left; (first | clear_value x | skip))
    | (lift_lets; intro x)
    | with_reducible assumption
    | with_reducible apply Tame.ite
    | with_reducible apply State.onPort_tame
    | with_reducible apply State.at_tame
    | with_reducible apply State.planKick_tame
    | intro x
    | split
    | (clear_value *; split)
    | (with_reducible apply Tame.lit <;> (try dsimp only))

theorem execRiseConfirmationTimeout_tame {s0 s t : State} (sensor : Nat) (h : Tame s0 s)
    (e : execRiseConfirmationTimeout sensor s = .next t) : Tame s0 t := by
  unfold execRiseConfirmationTimeout at e
  injection e with e
  subst e
  repeat' first
    | refine Tame.pending ?_
    | refine Tame.fuse ?_
    | refine Tame.emgHost ?_
    | refine Tame.active ?_
    | refine Tame.maint ?_
    | (intro x; refine Tame.cut (s := s0) (t := x) ?_ (fun hx => ?_); subst x; rotate_left; (first | clear_value x | skip))
    | (lift_lets; intro x; refine Tame.cut (s := s0) (t := x) ?_ (fun hx => ?_); subst x; rotate_left; (first | clear_value x | skip))
    | (lift_lets; intro x)
    | with_reducible assumption
    | with_reducible apply Tame.ite
    | with_reducible apply State.onSensor_tame
    | with_reducible apply State.at_tame
    | with_reducible apply State.f11Raise_tame
    | with_reducible apply State.riseFlag_tame
    | intro x
    | split
    | (clear_value *; split)
    | (with_reducible apply Tame.lit <;> (try dsimp only))

theorem execThermalOutputSwitch_tame {s0 s t : State} (ch : Nat) (h : Tame s0 s)
    (e : execThermalOutputSwitch ch s = .next t) : Tame s0 t := by
  unfold execThermalOutputSwitch at e
  injection e with e
  subst e
  repeat' first
    | with_reducible assumption
    | with_reducible apply Tame.ite
    | with_reducible apply State.at_tame
    | with_reducible apply State.thermSwitch_tame
    | split
    | (clear_value *; split)

theorem State.junctionLevel_tame {s0 s : State} (h : Tame s0 s) (level : Nat) (was now_ : Bool) (tj : Int) :
    Tame s0 (State.junctionLevel s level was now_ tj) := by
  unfold State.junctionLevel
  repeat' first
    | (intro x; refine Tame.cut (s := s0) (t := x) ?_ (fun hx => ?_); subst x; rotate_left; (first | clear_value x | skip))
    | (lift_lets; intro x; refine Tame.cut (s := s0) (t := x) ?_ (fun hx => ?_); subst x; rotate_left; (first | clear_value x | skip))
    | (lift_lets; intro x)
    | with_reducible assumption
    | with_reducible apply Tame.ite
    | with_reducible apply State.event_tame
    | with_reducible apply State.eventRec_tame
    | intro x
    | split
    | (clear_value *; split)

end Sys2Proof.Machine
end

