-- ==== Sys2Proof/Laws/TameChainCore.lean ====
section
/-! SUPPORT. The operations of Machine.ChainCore are tame. -/

namespace Sys2Proof.Machine

open Sys2Proof

set_option linter.unreachableTactic false
set_option linter.unusedTactic false

theorem State.setLock_tame {s0 s : State} (h : Tame s0 s) (p e : Nat) (b : Bool) :
    Tame s0 (State.setLock s p e b) := by
  unfold State.setLock
  repeat' first
    | refine Tame.pending ?_
    | refine Tame.fuse ?_
    | refine Tame.emgHost ?_
    | refine Tame.active ?_
    | refine Tame.maint ?_
    | with_reducible assumption
    | with_reducible apply Tame.ite
    | with_reducible apply State.onPort_tame
    | intro x
    | split
    | (clear_value *; split)
    | (with_reducible apply Tame.lit <;> (try dsimp only))

theorem State.f27Settle_tame {s0 s : State} (h : Tame s0 s) (p : Nat) :
    Tame s0 (State.f27Settle s p) := by
  unfold State.f27Settle
  repeat' first
    | with_reducible assumption
    | with_reducible apply State.stand_tame
    | with_reducible apply State.cease_tame
    | intro x
    | split
    | (clear_value *; split)

theorem State.f31Settle_tame {s0 s : State} (h : Tame s0 s) (p : Nat) :
    Tame s0 (State.f31Settle s p) := by
  unfold State.f31Settle
  repeat' first
    | (intro x; refine Tame.cut (s := s0) (t := x) ?_ (fun hx => ?_); subst x; rotate_left; (first | clear_value x | skip))
    | (lift_lets; intro x; refine Tame.cut (s := s0) (t := x) ?_ (fun hx => ?_); subst x; rotate_left; (first | clear_value x | skip))
    | (lift_lets; intro x)
    | with_reducible assumption
    | with_reducible apply Tame.ite
    | with_reducible apply State.setCond_tame
    | with_reducible apply State.f31Node_tame
    | intro x
    | split
    | (clear_value *; split)

theorem State.f31Node_tame {s0 s : State} (h : Tame s0 s) (p a : Nat) :
    Tame s0 (State.f31Node s p a) := by
  unfold State.f31Node
  repeat' first
    | refine Tame.pending ?_
    | refine Tame.fuse ?_
    | refine Tame.emgHost ?_
    | refine Tame.active ?_
    | refine Tame.maint ?_
    | with_reducible assumption
    | with_reducible apply State.onPort_tame
    | with_reducible apply State.f31Settle_tame
    | with_reducible apply State.f31Node_tame
    | intro x
    | split
    | (clear_value *; split)
    | (with_reducible apply Tame.lit <;> (try dsimp only))

theorem State.nodeLost_tame {s0 s : State} (h : Tame s0 s) (p a : Nat) :
    Tame s0 (State.nodeLost s p a) := by
  unfold State.nodeLost
  repeat' first
    | refine Tame.pending ?_
    | refine Tame.fuse ?_
    | refine Tame.emgHost ?_
    | refine Tame.active ?_
    | refine Tame.maint ?_
    | with_reducible assumption
    | with_reducible apply State.onNode_tame
    | with_reducible apply State.f27Settle_tame
    | intro x
    | split
    | (clear_value *; split)
    | (with_reducible apply Tame.lit <;> (try dsimp only))

theorem State.f24On_tame {s0 s : State} (h : Tame s0 s) (p e : Nat) :
    Tame s0 (State.f24On s p e) := by
  unfold State.f24On
  repeat' first
    | refine Tame.pending ?_
    | refine Tame.fuse ?_
    | refine Tame.emgHost ?_
    | refine Tame.active ?_
    | refine Tame.maint ?_
    | (intro x; refine Tame.cut (s := s0) (t := x) ?_ (fun hx => ?_); subst x; rotate_left; (first | clear_value x | skip))
    | (lift_lets; intro x; refine Tame.cut (s := s0) (t := x) ?_ (fun hx => ?_); subst x; rotate_left; (first | clear_value x | skip))
    | (lift_lets; intro x)
    | with_reducible assumption
    | with_reducible apply State.onFault_tame
    | with_reducible apply State.stand_tame
    | with_reducible apply State.settleScope_tame
    | intro x
    | split
    | (clear_value *; split)
    | (with_reducible apply Tame.lit <;> (try dsimp only))

theorem State.f24Off_tame {s0 s : State} (h : Tame s0 s) (p e : Nat) :
    Tame s0 (State.f24Off s p e) := by
  unfold State.f24Off
  repeat' first
    | refine Tame.pending ?_
    | refine Tame.fuse ?_
    | refine Tame.emgHost ?_
    | refine Tame.active ?_
    | refine Tame.maint ?_
    | (intro x; refine Tame.cut (s := s0) (t := x) ?_ (fun hx => ?_); subst x; rotate_left; (first | clear_value x | skip))
    | (lift_lets; intro x; refine Tame.cut (s := s0) (t := x) ?_ (fun hx => ?_); subst x; rotate_left; (first | clear_value x | skip))
    | (lift_lets; intro x)
    | with_reducible assumption
    | with_reducible apply Tame.ite
    | with_reducible apply State.onFault_tame
    | with_reducible apply State.cease_tame
    | intro x
    | split
    | (clear_value *; split)
    | (with_reducible apply Tame.lit <;> (try dsimp only))

theorem State.f25Off_tame {s0 s : State} (h : Tame s0 s) (p e : Nat) :
    Tame s0 (State.f25Off s p e) := by
  unfold State.f25Off
  repeat' first
    | refine Tame.pending ?_
    | refine Tame.fuse ?_
    | refine Tame.emgHost ?_
    | refine Tame.active ?_
    | refine Tame.maint ?_
    | (intro x; refine Tame.cut (s := s0) (t := x) ?_ (fun hx => ?_); subst x; rotate_left; (first | clear_value x | skip))
    | (lift_lets; intro x; refine Tame.cut (s := s0) (t := x) ?_ (fun hx => ?_); subst x; rotate_left; (first | clear_value x | skip))
    | (lift_lets; intro x)
    | with_reducible assumption
    | with_reducible apply Tame.ite
    | with_reducible apply State.onFault_tame
    | with_reducible apply State.cease_tame
    | intro x
    | split
    | (clear_value *; split)
    | (with_reducible apply Tame.lit <;> (try dsimp only))

theorem State.endGone_tame {s0 s : State} (h : Tame s0 s) (p e : Nat) :
    Tame s0 (State.endGone s p e) := by
  unfold State.endGone
  repeat' first
    | refine Tame.pending ?_
    | refine Tame.fuse ?_
    | refine Tame.emgHost ?_
    | refine Tame.active ?_
    | refine Tame.maint ?_
    | (intro x; refine Tame.cut (s := s0) (t := x) ?_ (fun hx => ?_); subst x; rotate_left; (first | clear_value x | skip))
    | (lift_lets; intro x; refine Tame.cut (s := s0) (t := x) ?_ (fun hx => ?_); subst x; rotate_left; (first | clear_value x | skip))
    | (lift_lets; intro x)
    | with_reducible assumption
    | with_reducible apply State.onPort_tame
    | with_reducible apply State.setLock_tame
    | with_reducible apply State.f24Off_tame
    | with_reducible apply State.f25Off_tame
    | intro x
    | split
    | (clear_value *; split)
    | (with_reducible apply Tame.lit <;> (try dsimp only))

theorem State.endsSettle_tame {s0 s : State} (h : Tame s0 s) (was : List (Nat × Nat)) :
    Tame s0 (State.endsSettle s was) := by
  unfold State.endsSettle
  repeat' first
    | with_reducible assumption
    | with_reducible apply State.endGone_tame
    | (with_reducible apply Tame.foldl; rotate_left; intro y z hy)
    | intro x
    | split
    | (clear_value *; split)

theorem State.portSt_tame {s0 s : State} (h : Tame s0 s) (p : Nat) (st : PortSt) :
    Tame s0 (State.portSt s p st) := by
  unfold State.portSt
  repeat' first
    | refine Tame.pending ?_
    | refine Tame.fuse ?_
    | refine Tame.emgHost ?_
    | refine Tame.active ?_
    | refine Tame.maint ?_
    | (intro x; refine Tame.cut (s := s0) (t := x) ?_ (fun hx => ?_); subst x; rotate_left; (first | clear_value x | skip))
    | (lift_lets; intro x; refine Tame.cut (s := s0) (t := x) ?_ (fun hx => ?_); subst x; rotate_left; (first | clear_value x | skip))
    | (lift_lets; intro x)
    | with_reducible assumption
    | with_reducible apply Tame.ite
    | with_reducible apply State.onPort_tame
    | with_reducible apply State.cease_tame
    | with_reducible apply State.sedgeAbort_tame
    | with_reducible apply State.burstOff_tame
    | with_reducible apply State.f31Settle_tame
    | intro x
    | split
    | (clear_value *; split)
    | (with_reducible apply Tame.lit <;> (try dsimp only))

theorem State.onRun_tame {s0 s : State} (h : Tame s0 s) (r : CmdRef) (g : RunCmd → RunCmd) :
    Tame s0 (State.onRun s r g) := by
  unfold State.onRun
  repeat' first
    | refine Tame.pending ?_
    | refine Tame.fuse ?_
    | refine Tame.emgHost ?_
    | refine Tame.active ?_
    | refine Tame.maint ?_
    | with_reducible assumption
    | with_reducible apply Tame.ite
    | intro x
    | split
    | (clear_value *; split)
    | (with_reducible apply Tame.lit <;> (try dsimp only))

theorem State.codeDraw_tame {s0 s : State} (h : Tame s0 s)  :
    Tame s0 (State.codeDraw s).2 := by
  unfold State.codeDraw
  repeat' first
    | (intro x; refine Tame.cut (s := s0) (t := x) ?_ (fun hx => ?_); subst x; rotate_left; (first | clear_value x | skip))
    | (lift_lets; intro x; refine Tame.cut (s := s0) (t := x) ?_ (fun hx => ?_); subst x; rotate_left; (first | clear_value x | skip))
    | (lift_lets; intro x)
    | with_reducible assumption
    | with_reducible apply State.draw_tame
    | (refine State.draw_tame' ?_ ‹_›)
    | with_reducible apply Tame.mkSnd
    | intro x
    | split
    | (clear_value *; split)

theorem State.codeDraw_tame' {s0 s t : State} {a}  (h : Tame s0 s)
    (e : (State.codeDraw s) = (a, t)) : Tame s0 t := by
  have k := State.codeDraw_tame h 
  rw [e] at k
  exact k

theorem State.memberIn_tame {s0 s : State} (h : Tame s0 s) (r : CmdRef) (kind a code : Nat) :
    Tame s0 (State.memberIn s r kind a code) := by
  unfold State.memberIn
  repeat' first
    | refine Tame.pending ?_
    | refine Tame.fuse ?_
    | refine Tame.emgHost ?_
    | refine Tame.active ?_
    | refine Tame.maint ?_
    | (intro x; refine Tame.cut (s := s0) (t := x) ?_ (fun hx => ?_); subst x; rotate_left; (first | clear_value x | skip))
    | (lift_lets; intro x; refine Tame.cut (s := s0) (t := x) ?_ (fun hx => ?_); subst x; rotate_left; (first | clear_value x | skip))
    | (lift_lets; intro x)
    | with_reducible assumption
    | with_reducible apply Tame.ite
    | with_reducible apply State.finish_tame
    | with_reducible apply State.okay_tame
    | with_reducible apply State.onRun_tame
    | intro x
    | split
    | (clear_value *; split)
    | (with_reducible apply Tame.lit <;> (try dsimp only))

theorem State.restartSettle_tame {s0 s : State} (h : Tame s0 s) (p : Nat) :
    Tame s0 (State.restartSettle s p) := by
  unfold State.restartSettle
  repeat' first
    | refine Tame.pending ?_
    | refine Tame.fuse ?_
    | refine Tame.emgHost ?_
    | refine Tame.active ?_
    | refine Tame.maint ?_
    | (intro x; refine Tame.cut (s := s0) (t := x) ?_ (fun hx => ?_); subst x; rotate_left; (first | clear_value x | skip))
    | (lift_lets; intro x; refine Tame.cut (s := s0) (t := x) ?_ (fun hx => ?_); subst x; rotate_left; (first | clear_value x | skip))
    | (lift_lets; intro x)
    | with_reducible assumption
    | with_reducible apply Tame.ite
    | with_reducible apply State.onPort_tame
    | with_reducible apply State.codeDraw_tame
    | (refine State.codeDraw_tame' ?_ ‹_›)
    | with_reducible apply State.memberIn_tame
    | intro x
    | split
    | (clear_value *; split)
    | (with_reducible apply Tame.lit <;> (try dsimp only))

theorem State.heldEnter_tame {s0 s : State} (h : Tame s0 s) (p : Nat) :
    Tame s0 (State.heldEnter s p) := by
  unfold State.heldEnter
  repeat' first
    | with_reducible assumption
    | with_reducible apply State.portSt_tame
    | with_reducible apply State.restartSettle_tame
    | split
    | (clear_value *; split)

theorem State.readyEnter_tame {s0 s : State} (h : Tame s0 s) (p : Nat) :
    Tame s0 (State.readyEnter s p) := by
  unfold State.readyEnter
  repeat' first
    | refine Tame.pending ?_
    | refine Tame.fuse ?_
    | refine Tame.emgHost ?_
    | refine Tame.active ?_
    | refine Tame.maint ?_
    | (intro x; refine Tame.cut (s := s0) (t := x) ?_ (fun hx => ?_); subst x; rotate_left; (first | clear_value x | skip))
    | (lift_lets; intro x; refine Tame.cut (s := s0) (t := x) ?_ (fun hx => ?_); subst x; rotate_left; (first | clear_value x | skip))
    | (lift_lets; intro x)
    | with_reducible assumption
    | with_reducible apply State.onPort_tame
    | with_reducible apply State.onNode_tame
    | with_reducible apply State.onStr_tame
    | with_reducible apply State.broadcast_tame
    | with_reducible apply State.filtRestart_tame
    | with_reducible apply State.isoNext_tame
    | with_reducible apply State.isoReady_tame
    | with_reducible apply State.estClock_tame
    | with_reducible apply State.portSt_tame
    | with_reducible apply State.restartSettle_tame
    | (with_reducible apply Tame.foldl; rotate_left; intro y z hy)
    | intro x
    | split
    | (clear_value *; split)
    | (with_reducible apply Tame.lit <;> (try dsimp only))

theorem State.configCheck_tame {s0 s : State} (h : Tame s0 s) (p : Nat) :
    Tame s0 (State.configCheck s p) := by
  unfold State.configCheck
  repeat' first
    | with_reducible assumption
    | with_reducible apply Tame.ite
    | with_reducible apply State.readyEnter_tame
    | split
    | (clear_value *; split)

theorem State.writeDelays_tame {s0 s : State} (h : Tame s0 s) (p a : Nat) :
    Tame s0 (State.writeDelays s p a) := by
  unfold State.writeDelays
  repeat' first
    | refine Tame.pending ?_
    | refine Tame.fuse ?_
    | refine Tame.emgHost ?_
    | refine Tame.active ?_
    | refine Tame.maint ?_
    | with_reducible assumption
    | with_reducible apply State.onNode_tame
    | with_reducible apply State.sendTo_tame
    | intro x
    | split
    | (clear_value *; split)
    | (with_reducible apply Tame.lit <;> (try dsimp only))

theorem State.writeThresh_tame {s0 s : State} (h : Tame s0 s) (p a : Nat) :
    Tame s0 (State.writeThresh s p a) := by
  unfold State.writeThresh
  repeat' first
    | refine Tame.pending ?_
    | refine Tame.fuse ?_
    | refine Tame.emgHost ?_
    | refine Tame.active ?_
    | refine Tame.maint ?_
    | with_reducible assumption
    | with_reducible apply State.onNode_tame
    | with_reducible apply State.sendTo_tame
    | intro x
    | split
    | (clear_value *; split)
    | (with_reducible apply Tame.lit <;> (try dsimp only))

theorem State.writeMasks_tame {s0 s : State} (h : Tame s0 s) (p a : Nat) :
    Tame s0 (State.writeMasks s p a) := by
  unfold State.writeMasks
  repeat' first
    | with_reducible assumption
    | with_reducible apply State.sendTo_tame
    | (with_reducible apply Tame.foldl; rotate_left; intro y z hy)
    | intro x
    | split
    | (clear_value *; split)

theorem State.configStart_tame {s0 s : State} (h : Tame s0 s) (p : Nat) :
    Tame s0 (State.configStart s p) := by
  unfold State.configStart
  repeat' first
    | refine Tame.pending ?_
    | refine Tame.fuse ?_
    | refine Tame.emgHost ?_
    | refine Tame.active ?_
    | refine Tame.maint ?_
    | (intro x; refine Tame.cut (s := s0) (t := x) ?_ (fun hx => ?_); subst x; rotate_left; (first | clear_value x | skip))
    | (lift_lets; intro x; refine Tame.cut (s := s0) (t := x) ?_ (fun hx => ?_); subst x; rotate_left; (first | clear_value x | skip))
    | (lift_lets; intro x)
    | with_reducible assumption
    | with_reducible apply State.onNode_tame
    | with_reducible apply State.portSt_tame
    | with_reducible apply State.configCheck_tame
    | with_reducible apply State.writeDelays_tame
    | (with_reducible apply Tame.foldl; rotate_left; intro y z hy)
    | intro x
    | split
    | (clear_value *; split)
    | (with_reducible apply Tame.lit <;> (try dsimp only))

theorem State.recalCheck_tame {s0 s : State} (h : Tame s0 s) (p : Nat) :
    Tame s0 (State.recalCheck s p) := by
  unfold State.recalCheck
  repeat' first
    | refine Tame.pending ?_
    | refine Tame.fuse ?_
    | refine Tame.emgHost ?_
    | refine Tame.active ?_
    | refine Tame.maint ?_
    | (intro x; refine Tame.cut (s := s0) (t := x) ?_ (fun hx => ?_); subst x; rotate_left; (first | clear_value x | skip))
    | (lift_lets; intro x; refine Tame.cut (s := s0) (t := x) ?_ (fun hx => ?_); subst x; rotate_left; (first | clear_value x | skip))
    | (lift_lets; intro x)
    | with_reducible assumption
    | with_reducible apply Tame.ite
    | with_reducible apply State.onPort_tame
    | with_reducible apply State.onNode_tame
    | with_reducible apply State.cease_tame
    | (with_reducible apply Tame.foldl; rotate_left; intro y z hy)
    | intro x
    | split
    | (clear_value *; split)
    | (with_reducible apply Tame.lit <;> (try dsimp only))

theorem State.probeSend_tame {s0 s : State} (h : Tame s0 s) (p e a : Nat) :
    Tame s0 (State.probeSend s p e a) := by
  unfold State.probeSend
  repeat' first
    | with_reducible assumption
    | with_reducible apply State.sendCmd_tame
    | split
    | (clear_value *; split)

theorem State.probeNext_tame {s0 s : State} (h : Tame s0 s) (p : Nat) :
    Tame s0 (State.probeNext s p) := by
  unfold State.probeNext
  repeat' first
    | with_reducible assumption
    | with_reducible apply State.probeSend_tame
    | intro x
    | split
    | (clear_value *; split)

theorem State.calStart_tame {s0 s : State} (h : Tame s0 s) (p : Nat) :
    Tame s0 (State.calStart s p) := by
  unfold State.calStart
  repeat' first
    | refine Tame.pending ?_
    | refine Tame.fuse ?_
    | refine Tame.emgHost ?_
    | refine Tame.active ?_
    | refine Tame.maint ?_
    | (intro x; refine Tame.cut (s := s0) (t := x) ?_ (fun hx => ?_); subst x; rotate_left; (first | clear_value x | skip))
    | (lift_lets; intro x; refine Tame.cut (s := s0) (t := x) ?_ (fun hx => ?_); subst x; rotate_left; (first | clear_value x | skip))
    | (lift_lets; intro x)
    | with_reducible assumption
    | with_reducible apply Tame.ite
    | with_reducible apply State.onNode_tame
    | with_reducible apply State.sendEvt_tame
    | with_reducible apply State.probeNext_tame
    | (with_reducible apply Tame.foldl; rotate_left; intro y z hy)
    | intro x
    | split
    | (clear_value *; split)
    | (with_reducible apply Tame.lit <;> (try dsimp only))

theorem State.calDone_tame {s0 s : State} (h : Tame s0 s) (p : Nat) :
    Tame s0 (State.calDone s p) := by
  unfold State.calDone
  repeat' first
    | refine Tame.pending ?_
    | refine Tame.fuse ?_
    | refine Tame.emgHost ?_
    | refine Tame.active ?_
    | refine Tame.maint ?_
    | (intro x; refine Tame.cut (s := s0) (t := x) ?_ (fun hx => ?_); subst x; rotate_left; (first | clear_value x | skip))
    | (lift_lets; intro x; refine Tame.cut (s := s0) (t := x) ?_ (fun hx => ?_); subst x; rotate_left; (first | clear_value x | skip))
    | (lift_lets; intro x)
    | with_reducible assumption
    | with_reducible apply Tame.ite
    | with_reducible apply State.onPort_tame
    | with_reducible apply State.onNode_tame
    | with_reducible apply State.sendEvt_tame
    | with_reducible apply State.stand_tame
    | with_reducible apply State.cease_tame
    | with_reducible apply State.readyEnter_tame
    | with_reducible apply State.writeDelays_tame
    | with_reducible apply State.configStart_tame
    | with_reducible apply State.calStart_tame
    | (with_reducible apply Tame.foldl; rotate_left; intro y z hy)
    | intro x
    | split
    | (clear_value *; split)
    | (with_reducible apply Tame.lit <;> (try dsimp only))

theorem State.calEnter_tame {s0 s : State} (h : Tame s0 s) (p : Nat) :
    Tame s0 (State.calEnter s p) := by
  unfold State.calEnter
  repeat' first
    | refine Tame.pending ?_
    | refine Tame.fuse ?_
    | refine Tame.emgHost ?_
    | refine Tame.active ?_
    | refine Tame.maint ?_
    | (intro x; refine Tame.cut (s := s0) (t := x) ?_ (fun hx => ?_); subst x; rotate_left; (first | clear_value x | skip))
    | (lift_lets; intro x; refine Tame.cut (s := s0) (t := x) ?_ (fun hx => ?_); subst x; rotate_left; (first | clear_value x | skip))
    | (lift_lets; intro x)
    | with_reducible assumption
    | with_reducible apply Tame.ite
    | with_reducible apply State.onPort_tame
    | with_reducible apply State.portSt_tame
    | with_reducible apply State.calStart_tame
    | with_reducible apply State.calDone_tame
    | intro x
    | split
    | (clear_value *; split)
    | (with_reducible apply Tame.lit <;> (try dsimp only))

theorem State.classifyStep_tame {s0 s : State} (h : Tame s0 s) (p : Nat) :
    Tame s0 (State.classifyStep s p) := by
  unfold State.classifyStep
  repeat' first
    | (intro x; refine Tame.cut (s := s0) (t := x) ?_ (fun hx => ?_); subst x; rotate_left; (first | clear_value x | skip))
    | (lift_lets; intro x; refine Tame.cut (s := s0) (t := x) ?_ (fun hx => ?_); subst x; rotate_left; (first | clear_value x | skip))
    | (lift_lets; intro x)
    | with_reducible assumption
    | with_reducible apply Tame.ite
    | with_reducible apply State.cease_tame
    | with_reducible apply State.classified_tame
    | with_reducible apply State.heldEnter_tame
    | with_reducible apply State.calEnter_tame
    | intro x
    | split
    | (clear_value *; split)

theorem State.chainCheck_tame {s0 s : State} (h : Tame s0 s) (p : Nat) (accept : Bool) :
    Tame s0 (State.chainCheck s p accept) := by
  unfold State.chainCheck
  repeat' first
    | refine Tame.pending ?_
    | refine Tame.fuse ?_
    | refine Tame.emgHost ?_
    | refine Tame.active ?_
    | refine Tame.maint ?_
    | (intro x; refine Tame.cut (s := s0) (t := x) ?_ (fun hx => ?_); subst x; rotate_left; (first | clear_value x | skip))
    | (lift_lets; intro x; refine Tame.cut (s := s0) (t := x) ?_ (fun hx => ?_); subst x; rotate_left; (first | clear_value x | skip))
    | (lift_lets; intro x)
    | with_reducible assumption
    | with_reducible apply Tame.ite
    | with_reducible apply State.onPort_tame
    | with_reducible apply State.onNode_tame
    | with_reducible apply State.accept_tame
    | with_reducible apply State.sendTo_tame
    | with_reducible apply State.stand_tame
    | with_reducible apply State.classified_tame
    | with_reducible apply State.f27Settle_tame
    | with_reducible apply State.f31Node_tame
    | with_reducible apply State.portSt_tame
    | with_reducible apply State.heldEnter_tame
    | with_reducible apply State.calEnter_tame
    | with_reducible apply State.classifyStep_tame
    | (with_reducible apply Tame.foldl; rotate_left; intro y z hy)
    | intro x
    | split
    | (clear_value *; split)
    | (with_reducible apply Tame.lit <;> (try dsimp only))

theorem State.sweepTell_tame {s0 s : State} (h : Tame s0 s) (p : Nat) :
    Tame s0 (State.sweepTell s p) := by
  unfold State.sweepTell
  repeat' first
    | with_reducible assumption
    | with_reducible apply Tame.ite
    | with_reducible apply State.sendEvt_tame
    | split
    | (clear_value *; split)

theorem State.farDone_tame {s0 s : State} (h : Tame s0 s) (p : Nat) :
    Tame s0 (State.farDone s p) := by
  unfold State.farDone
  repeat' first
    | refine Tame.pending ?_
    | refine Tame.fuse ?_
    | refine Tame.emgHost ?_
    | refine Tame.active ?_
    | refine Tame.maint ?_
    | (intro x; refine Tame.cut (s := s0) (t := x) ?_ (fun hx => ?_); subst x; rotate_left; (first | clear_value x | skip))
    | (lift_lets; intro x; refine Tame.cut (s := s0) (t := x) ?_ (fun hx => ?_); subst x; rotate_left; (first | clear_value x | skip))
    | (lift_lets; intro x)
    | with_reducible assumption
    | with_reducible apply Tame.ite
    | with_reducible apply State.onPort_tame
    | with_reducible apply State.sendEvt_tame
    | with_reducible apply State.stand_tame
    | with_reducible apply State.f24On_tame
    | with_reducible apply State.portSt_tame
    | with_reducible apply State.configCheck_tame
    | with_reducible apply State.chainCheck_tame
    | with_reducible apply State.sweepTell_tame
    | (with_reducible apply Tame.foldl; rotate_left; intro y z hy)
    | intro x
    | split
    | (clear_value *; split)
    | (with_reducible apply Tame.lit <;> (try dsimp only))

theorem State.loopDone_tame {s0 s : State} (h : Tame s0 s) (p : Nat) :
    Tame s0 (State.loopDone s p) := by
  unfold State.loopDone
  repeat' first
    | refine Tame.pending ?_
    | refine Tame.fuse ?_
    | refine Tame.emgHost ?_
    | refine Tame.active ?_
    | refine Tame.maint ?_
    | (intro x; refine Tame.cut (s := s0) (t := x) ?_ (fun hx => ?_); subst x; rotate_left; (first | clear_value x | skip))
    | (lift_lets; intro x; refine Tame.cut (s := s0) (t := x) ?_ (fun hx => ?_); subst x; rotate_left; (first | clear_value x | skip))
    | (lift_lets; intro x)
    | with_reducible assumption
    | with_reducible apply Tame.ite
    | with_reducible apply State.onPort_tame
    | with_reducible apply State.onNode_tame
    | with_reducible apply State.wakePort_tame
    | with_reducible apply State.stand_tame
    | with_reducible apply State.classified_tame
    | with_reducible apply State.f27Settle_tame
    | with_reducible apply State.portSt_tame
    | with_reducible apply State.heldEnter_tame
    | with_reducible apply State.readyEnter_tame
    | with_reducible apply State.configCheck_tame
    | with_reducible apply State.calEnter_tame
    | with_reducible apply State.chainCheck_tame
    | (with_reducible apply Tame.foldl; rotate_left; intro y z hy)
    | intro x
    | split
    | (clear_value *; split)
    | (with_reducible apply Tame.lit <;> (try dsimp only))

theorem State.hopFailed_tame {s0 s : State} (h : Tame s0 s) (p : Nat) :
    Tame s0 (State.hopFailed s p) := by
  unfold State.hopFailed
  repeat' first
    | refine Tame.pending ?_
    | refine Tame.fuse ?_
    | refine Tame.emgHost ?_
    | refine Tame.active ?_
    | refine Tame.maint ?_
    | (intro x; refine Tame.cut (s := s0) (t := x) ?_ (fun hx => ?_); subst x; rotate_left; (first | clear_value x | skip))
    | (lift_lets; intro x; refine Tame.cut (s := s0) (t := x) ?_ (fun hx => ?_); subst x; rotate_left; (first | clear_value x | skip))
    | (lift_lets; intro x)
    | with_reducible assumption
    | with_reducible apply Tame.ite
    | with_reducible apply State.onPort_tame
    | with_reducible apply State.toneSend_tame
    | with_reducible apply State.portSt_tame
    | with_reducible apply State.configCheck_tame
    | with_reducible apply State.chainCheck_tame
    | with_reducible apply State.farDone_tame
    | with_reducible apply State.loopDone_tame
    | intro x
    | split
    | (clear_value *; split)
    | (with_reducible apply Tame.lit <;> (try dsimp only))

theorem State.identityOf_tame {s0 s : State} (h : Tame s0 s) (p a : Nat) (i : Identity) (st : NodeSt) :
    Tame s0 (State.identityOf s p a i st) := by
  unfold State.identityOf
  repeat' first
    | refine Tame.pending ?_
    | refine Tame.fuse ?_
    | refine Tame.emgHost ?_
    | refine Tame.active ?_
    | refine Tame.maint ?_
    | with_reducible assumption
    | with_reducible apply State.onNode_tame
    | intro x
    | split
    | (clear_value *; split)
    | (with_reducible apply Tame.lit <;> (try dsimp only))

theorem State.hopOn_tame {s0 s : State} (h : Tame s0 s) (p : Nat) :
    Tame s0 (State.hopOn s p) := by
  unfold State.hopOn
  repeat' first
    | refine Tame.pending ?_
    | refine Tame.fuse ?_
    | refine Tame.emgHost ?_
    | refine Tame.active ?_
    | refine Tame.maint ?_
    | (intro x; refine Tame.cut (s := s0) (t := x) ?_ (fun hx => ?_); subst x; rotate_left; (first | clear_value x | skip))
    | (lift_lets; intro x; refine Tame.cut (s := s0) (t := x) ?_ (fun hx => ?_); subst x; rotate_left; (first | clear_value x | skip))
    | (lift_lets; intro x)
    | with_reducible assumption
    | with_reducible apply Tame.ite
    | with_reducible apply State.onPort_tame
    | with_reducible apply State.portSt_tame
    | with_reducible apply State.farDone_tame
    | intro x
    | split
    | (clear_value *; split)
    | (with_reducible apply Tame.lit <;> (try dsimp only))

theorem State.enumReply_tame {s0 s : State} (h : Tame s0 s) (p a : Nat) (i : Identity) :
    Tame s0 (State.enumReply s p a i) := by
  unfold State.enumReply
  repeat' first
    | refine Tame.pending ?_
    | refine Tame.fuse ?_
    | refine Tame.emgHost ?_
    | refine Tame.active ?_
    | refine Tame.maint ?_
    | (intro x; refine Tame.cut (s := s0) (t := x) ?_ (fun hx => ?_); subst x; rotate_left; (first | clear_value x | skip))
    | (lift_lets; intro x; refine Tame.cut (s := s0) (t := x) ?_ (fun hx => ?_); subst x; rotate_left; (first | clear_value x | skip))
    | (lift_lets; intro x)
    | with_reducible assumption
    | with_reducible apply Tame.ite
    | with_reducible apply State.onPort_tame
    | with_reducible apply State.onNode_tame
    | with_reducible apply State.sendTo_tame
    | with_reducible apply State.stand_tame
    | with_reducible apply State.f27Settle_tame
    | with_reducible apply State.writeDelays_tame
    | with_reducible apply State.identityOf_tame
    | with_reducible apply State.hopOn_tame
    | intro x
    | split
    | (clear_value *; split)
    | (with_reducible apply Tame.lit <;> (try dsimp only))

theorem State.identifyReply_tame {s0 s : State} (h : Tame s0 s) (p a : Nat) (i : Identity) :
    Tame s0 (State.identifyReply s p a i) := by
  unfold State.identifyReply
  repeat' first
    | with_reducible assumption
    | with_reducible apply Tame.ite
    | with_reducible apply State.f27Settle_tame
    | with_reducible apply State.identityOf_tame
    | split
    | (clear_value *; split)

theorem State.seekLost_tame {s0 s : State} (h : Tame s0 s) (p : Nat) :
    Tame s0 (State.seekLost s p) := by
  unfold State.seekLost
  repeat' first
    | with_reducible assumption
    | with_reducible apply State.sendTo_tame
    | (with_reducible apply Tame.foldl; rotate_left; intro y z hy)
    | intro x
    | split
    | (clear_value *; split)

theorem State.writeBad_tame {s0 s : State} (h : Tame s0 s) (p : Nat) (r : ChainReq) (status : Nat) :
    Tame s0 (State.writeBad s p r status) := by
  unfold State.writeBad
  repeat' first
    | refine Tame.pending ?_
    | refine Tame.fuse ?_
    | refine Tame.emgHost ?_
    | refine Tame.active ?_
    | refine Tame.maint ?_
    | (intro x; refine Tame.cut (s := s0) (t := x) ?_ (fun hx => ?_); subst x; rotate_left; (first | clear_value x | skip))
    | (lift_lets; intro x; refine Tame.cut (s := s0) (t := x) ?_ (fun hx => ?_); subst x; rotate_left; (first | clear_value x | skip))
    | (lift_lets; intro x)
    | with_reducible assumption
    | with_reducible apply Tame.ite
    | with_reducible apply State.onNode_tame
    | with_reducible apply State.sendTo_tame
    | with_reducible apply State.f31Node_tame
    | with_reducible apply State.heldEnter_tame
    | with_reducible apply State.writeDelays_tame
    | with_reducible apply State.writeThresh_tame
    | intro x
    | split
    | (clear_value *; split)
    | (with_reducible apply Tame.lit <;> (try dsimp only))

theorem State.maskEcho_tame {s0 s : State} (h : Tame s0 s) (p : Nat) (r : ChainReq) (ok : Bool) :
    Tame s0 (State.maskEcho s p r ok) := by
  unfold State.maskEcho
  repeat' first
    | refine Tame.pending ?_
    | refine Tame.fuse ?_
    | refine Tame.emgHost ?_
    | refine Tame.active ?_
    | refine Tame.maint ?_
    | (intro x; refine Tame.cut (s := s0) (t := x) ?_ (fun hx => ?_); subst x; rotate_left; (first | clear_value x | skip))
    | (lift_lets; intro x; refine Tame.cut (s := s0) (t := x) ?_ (fun hx => ?_); subst x; rotate_left; (first | clear_value x | skip))
    | (lift_lets; intro x)
    | with_reducible assumption
    | with_reducible apply Tame.ite
    | with_reducible apply State.onNode_tame
    | with_reducible apply State.onCell_tame
    | with_reducible apply State.sendTo_tame
    | with_reducible apply State.f31Settle_tame
    | with_reducible apply State.configCheck_tame
    | intro x
    | split
    | (clear_value *; split)
    | (with_reducible apply Tame.lit <;> (try dsimp only))

theorem State.delaysEcho_tame {s0 s : State} (h : Tame s0 s) (p a : Nat) :
    Tame s0 (State.delaysEcho s p a) := by
  unfold State.delaysEcho
  repeat' first
    | refine Tame.pending ?_
    | refine Tame.fuse ?_
    | refine Tame.emgHost ?_
    | refine Tame.active ?_
    | refine Tame.maint ?_
    | (intro x; refine Tame.cut (s := s0) (t := x) ?_ (fun hx => ?_); subst x; rotate_left; (first | clear_value x | skip))
    | (lift_lets; intro x; refine Tame.cut (s := s0) (t := x) ?_ (fun hx => ?_); subst x; rotate_left; (first | clear_value x | skip))
    | (lift_lets; intro x)
    | with_reducible assumption
    | with_reducible apply Tame.ite
    | with_reducible apply State.onNode_tame
    | with_reducible apply State.configCheck_tame
    | with_reducible apply State.writeThresh_tame
    | with_reducible apply State.recalCheck_tame
    | intro x
    | split
    | (clear_value *; split)
    | (with_reducible apply Tame.lit <;> (try dsimp only))

theorem State.threshEcho_tame {s0 s : State} (h : Tame s0 s) (p a : Nat) :
    Tame s0 (State.threshEcho s p a) := by
  unfold State.threshEcho
  repeat' first
    | refine Tame.pending ?_
    | refine Tame.fuse ?_
    | refine Tame.emgHost ?_
    | refine Tame.active ?_
    | refine Tame.maint ?_
    | (intro x; refine Tame.cut (s := s0) (t := x) ?_ (fun hx => ?_); subst x; rotate_left; (first | clear_value x | skip))
    | (lift_lets; intro x; refine Tame.cut (s := s0) (t := x) ?_ (fun hx => ?_); subst x; rotate_left; (first | clear_value x | skip))
    | (lift_lets; intro x)
    | with_reducible assumption
    | with_reducible apply State.onNode_tame
    | with_reducible apply State.configCheck_tame
    | with_reducible apply State.writeMasks_tame
    | intro x
    | split
    | (clear_value *; split)
    | (with_reducible apply Tame.lit <;> (try dsimp only))

theorem State.balanceEcho_tame {s0 s : State} (h : Tame s0 s) (p : Nat) (r : ChainReq) (ok : Bool) :
    Tame s0 (State.balanceEcho s p r ok) := by
  unfold State.balanceEcho
  repeat' first
    | refine Tame.pending ?_
    | refine Tame.fuse ?_
    | refine Tame.emgHost ?_
    | refine Tame.active ?_
    | refine Tame.maint ?_
    | (intro x; refine Tame.cut (s := s0) (t := x) ?_ (fun hx => ?_); subst x; rotate_left; (first | clear_value x | skip))
    | (lift_lets; intro x; refine Tame.cut (s := s0) (t := x) ?_ (fun hx => ?_); subst x; rotate_left; (first | clear_value x | skip))
    | (lift_lets; intro x)
    | with_reducible assumption
    | with_reducible apply Tame.ite
    | with_reducible apply State.onNode_tame
    | with_reducible apply State.onCell_tame
    | with_reducible apply State.eventRec_tame
    | with_reducible apply State.draw_tame
    | (refine State.draw_tame' ?_ ‹_›)
    | with_reducible apply State.sendTo_tame
    | with_reducible apply State.balHold_tame
    | (with_reducible apply Tame.foldl; rotate_left; intro y z hy)
    | intro x
    | split
    | (clear_value *; split)
    | (with_reducible apply Tame.lit <;> (try dsimp only))

theorem State.sedgeDrop_tame {s0 s : State} (h : Tame s0 s) (p a : Nat) :
    Tame s0 (State.sedgeDrop s p a) := by
  unfold State.sedgeDrop
  repeat' first
    | refine Tame.pending ?_
    | refine Tame.fuse ?_
    | refine Tame.emgHost ?_
    | refine Tame.active ?_
    | refine Tame.maint ?_
    | (intro x; refine Tame.cut (s := s0) (t := x) ?_ (fun hx => ?_); subst x; rotate_left; (first | clear_value x | skip))
    | (lift_lets; intro x; refine Tame.cut (s := s0) (t := x) ?_ (fun hx => ?_); subst x; rotate_left; (first | clear_value x | skip))
    | (lift_lets; intro x)
    | with_reducible assumption
    | with_reducible apply State.onPort_tame
    | with_reducible apply State.sendTo_tame
    | intro x
    | split
    | (clear_value *; split)
    | (with_reducible apply Tame.lit <;> (try dsimp only))

theorem State.isoEcho_tame {s0 s : State} (h : Tame s0 s) (p : Nat) (r : ChainReq) (ok : Bool) :
    Tame s0 (State.isoEcho s p r ok) := by
  unfold State.isoEcho
  repeat' first
    | refine Tame.pending ?_
    | refine Tame.fuse ?_
    | refine Tame.emgHost ?_
    | refine Tame.active ?_
    | refine Tame.maint ?_
    | with_reducible assumption
    | with_reducible apply Tame.ite
    | with_reducible apply State.isoNext_tame
    | split
    | (clear_value *; split)
    | (with_reducible apply Tame.lit <;> (try dsimp only))

theorem State.statusIn_tame {s0 s : State} (h : Tame s0 s) (p a : Nat) (b : List Byte) :
    Tame s0 (State.statusIn s p a b) := by
  unfold State.statusIn
  repeat' first
    | refine Tame.pending ?_
    | refine Tame.fuse ?_
    | refine Tame.emgHost ?_
    | refine Tame.active ?_
    | refine Tame.maint ?_
    | (intro x; refine Tame.cut (s := s0) (t := x) ?_ (fun hx => ?_); subst x; rotate_left; (first | clear_value x | skip))
    | (lift_lets; intro x; refine Tame.cut (s := s0) (t := x) ?_ (fun hx => ?_); subst x; rotate_left; (first | clear_value x | skip))
    | (lift_lets; intro x)
    | with_reducible assumption
    | with_reducible apply Tame.ite
    | with_reducible apply State.onNode_tame
    | with_reducible apply State.configCheck_tame
    | with_reducible apply State.writeDelays_tame
    | intro x
    | split
    | (clear_value *; split)
    | (with_reducible apply Tame.lit <;> (try dsimp only))

theorem State.hostAnswer_tame {s0 s : State} (h : Tame s0 s) (r : ChainReq) (c : CmdRef) (rsp : Rsp) :
    Tame s0 (State.hostAnswer s r c rsp) := by
  unfold State.hostAnswer
  repeat' first
    | (intro x; refine Tame.cut (s := s0) (t := x) ?_ (fun hx => ?_); subst x; rotate_left; (first | clear_value x | skip))
    | (lift_lets; intro x; refine Tame.cut (s := s0) (t := x) ?_ (fun hx => ?_); subst x; rotate_left; (first | clear_value x | skip))
    | (lift_lets; intro x)
    | with_reducible assumption
    | with_reducible apply Tame.ite
    | with_reducible apply State.okay_tame
    | with_reducible apply State.fail_tame
    | with_reducible apply State.codeDraw_tame
    | (refine State.codeDraw_tame' ?_ ‹_›)
    | with_reducible apply State.memberIn_tame
    | intro x
    | split
    | (clear_value *; split)

theorem State.answer_tame {s0 s : State} (h : Tame s0 s) (p : Nat) (r : ChainReq) (rsp : Rsp) :
    Tame s0 (State.answer s p r rsp) := by
  unfold State.answer
  repeat' first
    | refine Tame.pending ?_
    | refine Tame.fuse ?_
    | refine Tame.emgHost ?_
    | refine Tame.active ?_
    | refine Tame.maint ?_
    | (intro x; refine Tame.cut (s := s0) (t := x) ?_ (fun hx => ?_); subst x; rotate_left; (first | clear_value x | skip))
    | (lift_lets; intro x; refine Tame.cut (s := s0) (t := x) ?_ (fun hx => ?_); subst x; rotate_left; (first | clear_value x | skip))
    | (lift_lets; intro x)
    | with_reducible assumption
    | with_reducible apply Tame.ite
    | with_reducible apply State.onNode_tame
    | with_reducible apply State.emit_tame
    | with_reducible apply State.f31Settle_tame
    | with_reducible apply State.classifyStep_tame
    | with_reducible apply State.enumReply_tame
    | with_reducible apply State.identifyReply_tame
    | with_reducible apply State.writeBad_tame
    | with_reducible apply State.maskEcho_tame
    | with_reducible apply State.delaysEcho_tame
    | with_reducible apply State.threshEcho_tame
    | with_reducible apply State.balanceEcho_tame
    | with_reducible apply State.sedgeDrop_tame
    | with_reducible apply State.isoEcho_tame
    | with_reducible apply State.statusIn_tame
    | with_reducible apply State.hostAnswer_tame
    | intro x
    | split
    | (clear_value *; split)
    | (with_reducible apply Tame.lit <;> (try dsimp only))

theorem State.hostSilent_tame {s0 s : State} (h : Tame s0 s) (r : ChainReq) (c : CmdRef) :
    Tame s0 (State.hostSilent s r c) := by
  unfold State.hostSilent
  repeat' first
    | (intro x; refine Tame.cut (s := s0) (t := x) ?_ (fun hx => ?_); subst x; rotate_left; (first | clear_value x | skip))
    | (lift_lets; intro x; refine Tame.cut (s := s0) (t := x) ?_ (fun hx => ?_); subst x; rotate_left; (first | clear_value x | skip))
    | (lift_lets; intro x)
    | with_reducible assumption
    | with_reducible apply Tame.ite
    | with_reducible apply State.fail_tame
    | with_reducible apply State.codeDraw_tame
    | (refine State.codeDraw_tame' ?_ ‹_›)
    | with_reducible apply State.memberIn_tame
    | intro x
    | split
    | (clear_value *; split)

theorem State.silent_tame {s0 s : State} (h : Tame s0 s) (p : Nat) (r : ChainReq) :
    Tame s0 (State.silent s p r) := by
  unfold State.silent
  repeat' first
    | refine Tame.pending ?_
    | refine Tame.fuse ?_
    | refine Tame.emgHost ?_
    | refine Tame.active ?_
    | refine Tame.maint ?_
    | (intro x; refine Tame.cut (s := s0) (t := x) ?_ (fun hx => ?_); subst x; rotate_left; (first | clear_value x | skip))
    | (lift_lets; intro x; refine Tame.cut (s := s0) (t := x) ?_ (fun hx => ?_); subst x; rotate_left; (first | clear_value x | skip))
    | (lift_lets; intro x)
    | with_reducible assumption
    | with_reducible apply Tame.ite
    | with_reducible apply State.onNode_tame
    | with_reducible apply State.enumerate_tame
    | with_reducible apply State.stand_tame
    | with_reducible apply State.finding_tame
    | with_reducible apply State.isoNext_tame
    | with_reducible apply State.nodeLost_tame
    | with_reducible apply State.configCheck_tame
    | with_reducible apply State.probeNext_tame
    | with_reducible apply State.calDone_tame
    | with_reducible apply State.classifyStep_tame
    | with_reducible apply State.writeBad_tame
    | with_reducible apply State.maskEcho_tame
    | with_reducible apply State.balanceEcho_tame
    | with_reducible apply State.sedgeDrop_tame
    | with_reducible apply State.hostSilent_tame
    | intro x
    | split
    | (clear_value *; split)
    | (with_reducible apply Tame.lit <;> (try dsimp only))

theorem State.frameCount_tame {s0 s : State} (h : Tame s0 s) (p e n bad : Nat) :
    Tame s0 (State.frameCount s p e n bad) := by
  unfold State.frameCount
  repeat' first
    | refine Tame.pending ?_
    | refine Tame.fuse ?_
    | refine Tame.emgHost ?_
    | refine Tame.active ?_
    | refine Tame.maint ?_
    | (intro x; refine Tame.cut (s := s0) (t := x) ?_ (fun hx => ?_); subst x; rotate_left; (first | clear_value x | skip))
    | (lift_lets; intro x; refine Tame.cut (s := s0) (t := x) ?_ (fun hx => ?_); subst x; rotate_left; (first | clear_value x | skip))
    | (lift_lets; intro x)
    | with_reducible assumption
    | with_reducible apply Tame.ite
    | with_reducible apply State.onPort_tame
    | with_reducible apply State.keep_tame
    | with_reducible apply State.setCond_tame
    | intro x
    | split
    | (clear_value *; split)
    | (with_reducible apply Tame.lit <;> (try dsimp only))

end Sys2Proof.Machine
end

