-- ==== Sys2Proof/Laws/TameChain.lean ====
section
/-! SUPPORT. The operations of Machine.Chain are tame. -/

namespace Sys2Proof.Machine

open Sys2Proof

set_option linter.unreachableTactic false
set_option linter.unusedTactic false

theorem execWakeToneDetected_tame {s0 s t : State} (p : Nat) (e : Nat) (h : Tame s0 s)
    (e : execWakeToneDetected p e s = .next t) : Tame s0 t := by
  unfold execWakeToneDetected at e
  injection e with e
  subst e
  repeat' first
    | refine Tame.pending ?_
    | refine Tame.fuse ?_
    | refine Tame.emgHost ?_
    | refine Tame.active ?_
    | refine Tame.maint ?_
    | with_reducible assumption
    | with_reducible apply Tame.ite
    | with_reducible apply State.onPort_tame
    | intro x
    | split
    | (clear_value *; split)
    | (with_reducible apply Tame.lit <;> (try dsimp only))

theorem State.nodeTone_tame {s0 s : State} (h : Tame s0 s) (p a : Nat) (t : Bool) :
    Tame s0 (State.nodeTone s p a t) := by
  unfold State.nodeTone
  repeat' first
    | refine Tame.pending ?_
    | refine Tame.fuse ?_
    | refine Tame.emgHost ?_
    | refine Tame.active ?_
    | refine Tame.maint ?_
    | (intro x; refine Tame.cut (s := s0) (t := x) ?_ (fun hx => ?_); subst x; rotate_left; (first | clear_value x | skip))
    | (lift_lets; intro x; refine Tame.cut (s := s0) (t := x) ?_ (fun hx => ?_); subst x; rotate_left; (first | clear_value x | skip))
    | (lift_lets; intro x)
    | with_reducible assumption
    | with_reducible apply Tame.ite
    | with_reducible apply State.onNode_tame
    | with_reducible apply State.balHold_tame
    | with_reducible apply State.sedgeAbort_tame
    | intro x
    | split
    | (clear_value *; split)
    | (with_reducible apply Tame.lit <;> (try dsimp only))

theorem State.frameIn_tame {s0 s : State} (h : Tame s0 s) (p e : Nat) (f : RawFrame) (k : State → Frame → State)
    (hk : ∀ x g, Tame s0 x → Tame s0 (k x g)) : Tame s0 (State.frameIn s p e f k) := by
  unfold State.frameIn
  refine Tame.ite h ?_
  cases frameParse f with
  | error _ => exact State.frameCount_tame h _ _ _ _
  | ok g => exact hk _ _ (State.frameCount_tame h _ _ _ _)

theorem State.nodeFrame_tame {s0 s : State} (h : Tame s0 s) (p : Nat) (f : Frame) (k : State → State)
    (hk : ∀ x, Tame s0 x → Tame s0 (k x)) : Tame s0 (State.nodeFrame s p f k) :=
  hk _ (Tame.ite (State.nodeTone_tame h _ _ _) h)

theorem State.evtIn_tame {s0 s : State} (h : Tame s0 s) (p e : Nat) (f : RawFrame) (n : Nat) (k : State → Nat → List Byte → State)
    (hk : ∀ x a l, Tame s0 x → Tame s0 (k x a l)) : Tame s0 (State.evtIn s p e f n k) :=
  State.frameIn_tame h _ _ _ _ (fun _ _ hx => Tame.ite (State.nodeFrame_tame hx _ _ _ (fun _ hy => hk _ _ _ hy)) hx)

theorem State.hopLock_tame {s0 s : State} (h : Tame s0 s) (p e h : Nat) :
    Tame s0 (State.hopLock s p e h) := by
  unfold State.hopLock
  repeat' first
    | (intro x; refine Tame.cut (s := s0) (t := x) ?_ (fun hx => ?_); subst x; rotate_left; (first | clear_value x | skip))
    | (lift_lets; intro x; refine Tame.cut (s := s0) (t := x) ?_ (fun hx => ?_); subst x; rotate_left; (first | clear_value x | skip))
    | (lift_lets; intro x)
    | with_reducible assumption
    | with_reducible apply Tame.ite
    | with_reducible apply State.enumerate_tame
    | with_reducible apply State.stand_tame
    | with_reducible apply State.heldEnter_tame
    | intro x
    | split
    | (clear_value *; split)

theorem State.standbyLock_tame {s0 s : State} (h : Tame s0 s) (p e : Nat) :
    Tame s0 (State.standbyLock s p e) := by
  unfold State.standbyLock
  repeat' first
    | (intro x; refine Tame.cut (s := s0) (t := x) ?_ (fun hx => ?_); subst x; rotate_left; (first | clear_value x | skip))
    | (lift_lets; intro x; refine Tame.cut (s := s0) (t := x) ?_ (fun hx => ?_); subst x; rotate_left; (first | clear_value x | skip))
    | (lift_lets; intro x)
    | with_reducible assumption
    | with_reducible apply State.sendEvt_tame
    | with_reducible apply State.setLock_tame
    | with_reducible apply State.portSt_tame
    | intro x
    | split
    | (clear_value *; split)

theorem execSymbolLock_tame {s0 s t : State} (p : Nat) (e : Nat) (h : Tame s0 s)
    (e : execSymbolLock p e s = .next t) : Tame s0 t := by
  unfold execSymbolLock at e
  injection e with e
  subst e
  repeat' first
    | refine Tame.pending ?_
    | refine Tame.fuse ?_
    | refine Tame.emgHost ?_
    | refine Tame.active ?_
    | refine Tame.maint ?_
    | (intro x; refine Tame.cut (s := s0) (t := x) ?_ (fun hx => ?_); subst x; rotate_left; (first | clear_value x | skip))
    | (lift_lets; intro x; refine Tame.cut (s := s0) (t := x) ?_ (fun hx => ?_); subst x; rotate_left; (first | clear_value x | skip))
    | (lift_lets; intro x)
    | with_reducible assumption
    | with_reducible apply Tame.ite
    | with_reducible apply State.onPort_tame
    | with_reducible apply State.setLock_tame
    | with_reducible apply State.portSt_tame
    | with_reducible apply State.seekLost_tame
    | with_reducible apply State.hopLock_tame
    | with_reducible apply State.standbyLock_tame
    | intro x
    | split
    | (clear_value *; split)
    | (with_reducible apply Tame.lit <;> (try dsimp only))

theorem execLoopClosure_tame {s0 s t : State} (p : Nat) (h : Tame s0 s)
    (e : execLoopClosure p s = .next t) : Tame s0 t := by
  unfold execLoopClosure at e
  injection e with e
  subst e
  repeat' first
    | (intro x; refine Tame.cut (s := s0) (t := x) ?_ (fun hx => ?_); subst x; rotate_left; (first | clear_value x | skip))
    | (lift_lets; intro x; refine Tame.cut (s := s0) (t := x) ?_ (fun hx => ?_); subst x; rotate_left; (first | clear_value x | skip))
    | (lift_lets; intro x)
    | with_reducible assumption
    | with_reducible apply Tame.ite
    | with_reducible apply State.setLock_tame
    | with_reducible apply State.portSt_tame
    | with_reducible apply State.loopDone_tame
    | intro x
    | split
    | (clear_value *; split)

theorem State.hopRetry_tame {s0 s : State} (h : Tame s0 s) (p e : Nat) (first : Bool) (st : PortSt) :
    Tame s0 (State.hopRetry s p e first st) := by
  unfold State.hopRetry
  repeat' first
    | refine Tame.pending ?_
    | refine Tame.fuse ?_
    | refine Tame.emgHost ?_
    | refine Tame.active ?_
    | refine Tame.maint ?_
    | (intro x; refine Tame.cut (s := s0) (t := x) ?_ (fun hx => ?_); subst x; rotate_left; (first | clear_value x | skip))
    | (lift_lets; intro x; refine Tame.cut (s := s0) (t := x) ?_ (fun hx => ?_); subst x; rotate_left; (first | clear_value x | skip))
    | (lift_lets; intro x)
    | with_reducible assumption
    | with_reducible apply Tame.ite
    | with_reducible apply State.onPort_tame
    | with_reducible apply State.toneSend_tame
    | intro x
    | split
    | (clear_value *; split)
    | (with_reducible apply Tame.lit <;> (try dsimp only))

theorem execHopTimeout_tame {s0 s t : State} (p : Nat) (h : Tame s0 s)
    (e : execHopTimeout p s = .next t) : Tame s0 t := by
  unfold execHopTimeout at e
  injection e with e
  subst e
  repeat' first
    | (intro x; refine Tame.cut (s := s0) (t := x) ?_ (fun hx => ?_); subst x; rotate_left; (first | clear_value x | skip))
    | (lift_lets; intro x; refine Tame.cut (s := s0) (t := x) ?_ (fun hx => ?_); subst x; rotate_left; (first | clear_value x | skip))
    | (lift_lets; intro x)
    | with_reducible assumption
    | with_reducible apply Tame.ite
    | with_reducible apply State.onReq_tame
    | with_reducible apply State.at_tame
    | with_reducible apply State.farDone_tame
    | with_reducible apply State.hopFailed_tame
    | with_reducible apply State.hopRetry_tame
    | intro x
    | split
    | (clear_value *; split)

theorem State.delaysHeard_tame {s0 s : State} (h : Tame s0 s) (p a : Nat) (b : List Byte) :
    Tame s0 (State.delaysHeard s p a b) := by
  unfold State.delaysHeard
  repeat' first
    | refine Tame.pending ?_
    | refine Tame.fuse ?_
    | refine Tame.emgHost ?_
    | refine Tame.active ?_
    | refine Tame.maint ?_
    | (intro x; refine Tame.cut (s := s0) (t := x) ?_ (fun hx => ?_); subst x; rotate_left; (first | clear_value x | skip))
    | (lift_lets; intro x; refine Tame.cut (s := s0) (t := x) ?_ (fun hx => ?_); subst x; rotate_left; (first | clear_value x | skip))
    | (lift_lets; intro x)
    | with_reducible assumption
    | with_reducible apply Tame.ite
    | with_reducible apply State.onPort_tame
    | with_reducible apply State.onNode_tame
    | (with_reducible apply Tame.foldl; rotate_left; intro y z hy)
    | intro x
    | split
    | (clear_value *; split)
    | (with_reducible apply Tame.lit <;> (try dsimp only))

theorem State.overhear_tame {s0 s : State} (h : Tame s0 s) (p : Nat) (rsp : Rsp) :
    Tame s0 (State.overhear s p rsp) := by
  unfold State.overhear
  repeat' first
    | with_reducible assumption
    | with_reducible apply Tame.ite
    | with_reducible apply State.identityOf_tame
    | with_reducible apply State.delaysHeard_tame
    | intro x
    | split
    | (clear_value *; split)

theorem State.rspTake_tame {s0 s : State} (h : Tame s0 s) (p : Nat) (rsp : Rsp) :
    Tame s0 (State.rspTake s p rsp) := by
  unfold State.rspTake
  repeat' first
    | (intro x; refine Tame.cut (s := s0) (t := x) ?_ (fun hx => ?_); subst x; rotate_left; (first | clear_value x | skip))
    | (lift_lets; intro x; refine Tame.cut (s := s0) (t := x) ?_ (fun hx => ?_); subst x; rotate_left; (first | clear_value x | skip))
    | (lift_lets; intro x)
    | with_reducible assumption
    | with_reducible apply Tame.ite
    | with_reducible apply State.onReq_tame
    | with_reducible apply State.sendEvt_tame
    | with_reducible apply State.answer_tame
    | with_reducible apply State.overhear_tame
    | intro x
    | split
    | (clear_value *; split)

theorem execRspFrameReceived_tame {s0 s t : State} (p : Nat) (e : Nat) (f : RawFrame) (h : Tame s0 s)
    (e : execRspFrameReceived p e f s = .next t) : Tame s0 t := by
  unfold execRspFrameReceived at e
  injection e with e
  subst e
  repeat' first
    | with_reducible assumption
    | with_reducible apply Tame.ite
    | with_reducible refine State.nodeFrame_tame ?_ _ _ _ (fun x hx => ?_)
    | with_reducible refine State.frameIn_tame ?_ _ _ _ _ (fun x g hx => ?_)
    | with_reducible apply State.rspTake_tame
    | intro x
    | split
    | (clear_value *; split)

theorem State.cmdAgain_tame {s0 s : State} (h : Tame s0 s) (p : Nat) (r : ChainReq) :
    Tame s0 (State.cmdAgain s p r) := by
  unfold State.cmdAgain
  repeat' first
    | refine Tame.pending ?_
    | refine Tame.fuse ?_
    | refine Tame.emgHost ?_
    | refine Tame.active ?_
    | refine Tame.maint ?_
    | (intro x; refine Tame.cut (s := s0) (t := x) ?_ (fun hx => ?_); subst x; rotate_left; (first | clear_value x | skip))
    | (lift_lets; intro x; refine Tame.cut (s := s0) (t := x) ?_ (fun hx => ?_); subst x; rotate_left; (first | clear_value x | skip))
    | (lift_lets; intro x)
    | with_reducible assumption
    | with_reducible apply Tame.ite
    | with_reducible apply State.onReq_tame
    | with_reducible apply State.emit_tame
    | with_reducible apply State.sendEvt_tame
    | intro x
    | split
    | (clear_value *; split)
    | (with_reducible apply Tame.lit <;> (try dsimp only))

theorem execCmdResponseTimeout_tame {s0 s t : State} (p : Nat) (addr : Nat) (h : Tame s0 s)
    (e : execCmdResponseTimeout p addr s = .next t) : Tame s0 t := by
  unfold execCmdResponseTimeout at e
  injection e with e
  subst e
  repeat' first
    | (intro x; refine Tame.cut (s := s0) (t := x) ?_ (fun hx => ?_); subst x; rotate_left; (first | clear_value x | skip))
    | (lift_lets; intro x; refine Tame.cut (s := s0) (t := x) ?_ (fun hx => ?_); subst x; rotate_left; (first | clear_value x | skip))
    | (lift_lets; intro x)
    | with_reducible assumption
    | with_reducible apply Tame.ite
    | with_reducible apply State.onReq_tame
    | with_reducible apply State.at_tame
    | with_reducible apply State.silent_tame
    | with_reducible apply State.cmdAgain_tame
    | intro x
    | split
    | (clear_value *; split)

theorem State.probeAdd_tame {s0 s : State} (h : Tame s0 s) (p e a rtt : Nat) :
    Tame s0 (State.probeAdd s p e a rtt) := by
  unfold State.probeAdd
  repeat' first
    | refine Tame.pending ?_
    | refine Tame.fuse ?_
    | refine Tame.emgHost ?_
    | refine Tame.active ?_
    | refine Tame.maint ?_
    | (intro x; refine Tame.cut (s := s0) (t := x) ?_ (fun hx => ?_); subst x; rotate_left; (first | clear_value x | skip))
    | (lift_lets; intro x; refine Tame.cut (s := s0) (t := x) ?_ (fun hx => ?_); subst x; rotate_left; (first | clear_value x | skip))
    | (lift_lets; intro x)
    | with_reducible assumption
    | with_reducible apply Tame.ite
    | with_reducible apply State.onNode_tame
    | intro x
    | split
    | (clear_value *; split)
    | (with_reducible apply Tame.lit <;> (try dsimp only))

theorem State.probeDiff_tame {s0 s : State} (h : Tame s0 s) (p a diff : Nat) :
    Tame s0 (State.probeDiff s p a diff) := by
  unfold State.probeDiff
  repeat' first
    | refine Tame.pending ?_
    | refine Tame.fuse ?_
    | refine Tame.emgHost ?_
    | refine Tame.active ?_
    | refine Tame.maint ?_
    | (intro x; refine Tame.cut (s := s0) (t := x) ?_ (fun hx => ?_); subst x; rotate_left; (first | clear_value x | skip))
    | (lift_lets; intro x; refine Tame.cut (s := s0) (t := x) ?_ (fun hx => ?_); subst x; rotate_left; (first | clear_value x | skip))
    | (lift_lets; intro x)
    | with_reducible assumption
    | with_reducible apply Tame.ite
    | with_reducible apply State.onPort_tame
    | with_reducible apply State.onNode_tame
    | with_reducible apply State.stand_tame
    | intro x
    | split
    | (clear_value *; split)
    | (with_reducible apply Tame.lit <;> (try dsimp only))

theorem State.probeCompare_tame {s0 s : State} (h : Tame s0 s) (p e a rtt : Nat) :
    Tame s0 (State.probeCompare s p e a rtt) := by
  unfold State.probeCompare
  repeat' first
    | (intro x; refine Tame.cut (s := s0) (t := x) ?_ (fun hx => ?_); subst x; rotate_left; (first | clear_value x | skip))
    | (lift_lets; intro x; refine Tame.cut (s := s0) (t := x) ?_ (fun hx => ?_); subst x; rotate_left; (first | clear_value x | skip))
    | (lift_lets; intro x)
    | with_reducible assumption
    | with_reducible apply Tame.ite
    | with_reducible apply State.sendEvt_tame
    | with_reducible apply State.probeDiff_tame
    | intro x
    | split
    | (clear_value *; split)

theorem State.probeTaken_tame {s0 s : State} (h : Tame s0 s) (p e addr rtt : Nat) :
    Tame s0 (State.probeTaken s p e addr rtt) := by
  unfold State.probeTaken
  repeat' first
    | (intro x; refine Tame.cut (s := s0) (t := x) ?_ (fun hx => ?_); subst x; rotate_left; (first | clear_value x | skip))
    | (lift_lets; intro x; refine Tame.cut (s := s0) (t := x) ?_ (fun hx => ?_); subst x; rotate_left; (first | clear_value x | skip))
    | (lift_lets; intro x)
    | with_reducible assumption
    | with_reducible apply Tame.ite
    | with_reducible apply State.sendMirror_tame
    | with_reducible apply State.probeNext_tame
    | with_reducible apply State.calDone_tame
    | with_reducible apply State.probeAdd_tame
    | intro x
    | split
    | (clear_value *; split)

theorem execProbeReply_tame {s0 s t : State} (p : Nat) (e : Nat) (addr : Nat) (rtt : Nat) (h : Tame s0 s)
    (e : execProbeReply p e addr rtt s = .next t) : Tame s0 t := by
  unfold execProbeReply at e
  injection e with e
  subst e
  repeat' first
    | (intro x; refine Tame.cut (s := s0) (t := x) ?_ (fun hx => ?_); subst x; rotate_left; (first | clear_value x | skip))
    | (lift_lets; intro x; refine Tame.cut (s := s0) (t := x) ?_ (fun hx => ?_); subst x; rotate_left; (first | clear_value x | skip))
    | (lift_lets; intro x)
    | with_reducible assumption
    | with_reducible apply Tame.ite
    | with_reducible apply State.probeCompare_tame
    | with_reducible apply State.probeTaken_tame
    | intro x
    | split
    | (clear_value *; split)

theorem execDelayProbeCycle_tame {s0 s t : State} (p : Nat) (h : Tame s0 s)
    (e : execDelayProbeCycle p s = .next t) : Tame s0 t := by
  unfold execDelayProbeCycle at e
  injection e with e
  subst e
  repeat' first
    | refine Tame.pending ?_
    | refine Tame.fuse ?_
    | refine Tame.emgHost ?_
    | refine Tame.active ?_
    | refine Tame.maint ?_
    | (intro x; refine Tame.cut (s := s0) (t := x) ?_ (fun hx => ?_); subst x; rotate_left; (first | clear_value x | skip))
    | (lift_lets; intro x; refine Tame.cut (s := s0) (t := x) ?_ (fun hx => ?_); subst x; rotate_left; (first | clear_value x | skip))
    | (lift_lets; intro x)
    | with_reducible assumption
    | with_reducible apply Tame.ite
    | with_reducible apply State.onPort_tame
    | with_reducible apply State.probeSend_tame
    | (with_reducible apply Tame.foldl; rotate_left; intro y z hy)
    | intro x
    | split
    | (clear_value *; split)
    | (with_reducible apply Tame.lit <;> (try dsimp only))

theorem execInterpolatorPhaseReached_tame {s0 s t : State} (p : Nat) (h : Tame s0 s)
    (e : execInterpolatorPhaseReached p s = .next t) : Tame s0 t := by
  unfold execInterpolatorPhaseReached at e
  injection e with e
  subst e
  repeat' first
    | refine Tame.pending ?_
    | refine Tame.fuse ?_
    | refine Tame.emgHost ?_
    | refine Tame.active ?_
    | refine Tame.maint ?_
    | (intro x; refine Tame.cut (s := s0) (t := x) ?_ (fun hx => ?_); subst x; rotate_left; (first | clear_value x | skip))
    | (lift_lets; intro x; refine Tame.cut (s := s0) (t := x) ?_ (fun hx => ?_); subst x; rotate_left; (first | clear_value x | skip))
    | (lift_lets; intro x)
    | with_reducible assumption
    | with_reducible apply Tame.ite
    | with_reducible apply State.onPort_tame
    | with_reducible apply State.writeDelays_tame
    | (with_reducible apply Tame.foldl; rotate_left; intro y z hy)
    | intro x
    | split
    | (clear_value *; split)
    | (with_reducible apply Tame.lit <;> (try dsimp only))

theorem execIdleOrderedSet_tame {s0 s t : State} (p : Nat) (e : Nat) (isFault : Bool) (h : Tame s0 s)
    (e : execIdleOrderedSet p e isFault s = .next t) : Tame s0 t := by
  unfold execIdleOrderedSet at e
  injection e with e
  subst e
  repeat' first
    | refine Tame.pending ?_
    | refine Tame.fuse ?_
    | refine Tame.emgHost ?_
    | refine Tame.active ?_
    | refine Tame.maint ?_
    | (intro x; refine Tame.cut (s := s0) (t := x) ?_ (fun hx => ?_); subst x; rotate_left; (first | clear_value x | skip))
    | (lift_lets; intro x; refine Tame.cut (s := s0) (t := x) ?_ (fun hx => ?_); subst x; rotate_left; (first | clear_value x | skip))
    | (lift_lets; intro x)
    | with_reducible assumption
    | with_reducible apply Tame.ite
    | with_reducible apply State.onPort_tame
    | with_reducible apply State.toneTrip_tame
    | with_reducible apply State.f24Off_tame
    | with_reducible apply State.f25Off_tame
    | intro x
    | split
    | (clear_value *; split)
    | (with_reducible apply Tame.lit <;> (try dsimp only))

theorem State.toneOver_tame {s0 s : State} (h : Tame s0 s) (p e : Nat) :
    Tame s0 (State.toneOver s p e) := by
  unfold State.toneOver
  repeat' first
    | refine Tame.pending ?_
    | refine Tame.fuse ?_
    | refine Tame.emgHost ?_
    | refine Tame.active ?_
    | refine Tame.maint ?_
    | with_reducible assumption
    | with_reducible apply State.onPort_tame
    | intro x
    | split
    | (clear_value *; split)
    | (with_reducible apply Tame.lit <;> (try dsimp only))

theorem execLossOfSymbolLock_tame {s0 s t : State} (p : Nat) (e : Nat) (h : Tame s0 s)
    (e : execLossOfSymbolLock p e s = .next t) : Tame s0 t := by
  unfold execLossOfSymbolLock at e
  injection e with e
  subst e
  repeat' first
    | with_reducible assumption
    | with_reducible apply Tame.ite
    | with_reducible apply State.setLock_tame
    | with_reducible apply State.f24On_tame
    | with_reducible apply State.toneOver_tame
    | split
    | (clear_value *; split)

theorem execIdleSetTimeout_tame {s0 s t : State} (p : Nat) (e : Nat) (h : Tame s0 s)
    (e : execIdleSetTimeout p e s = .next t) : Tame s0 t := by
  unfold execIdleSetTimeout at e
  injection e with e
  subst e
  repeat' first
    | with_reducible assumption
    | with_reducible apply Tame.ite
    | with_reducible apply State.f24On_tame
    | with_reducible apply State.toneOver_tame
    | split
    | (clear_value *; split)

theorem execAlarmToneDetected_tame {s0 s t : State} (p : Nat) (e : Nat) (h : Tame s0 s)
    (e : execAlarmToneDetected p e s = .next t) : Tame s0 t := by
  unfold execAlarmToneDetected at e
  injection e with e
  subst e
  repeat' first
    | refine Tame.pending ?_
    | refine Tame.fuse ?_
    | refine Tame.emgHost ?_
    | refine Tame.active ?_
    | refine Tame.maint ?_
    | (intro x; refine Tame.cut (s := s0) (t := x) ?_ (fun hx => ?_); subst x; rotate_left; (first | clear_value x | skip))
    | (lift_lets; intro x; refine Tame.cut (s := s0) (t := x) ?_ (fun hx => ?_); subst x; rotate_left; (first | clear_value x | skip))
    | (lift_lets; intro x)
    | with_reducible assumption
    | with_reducible apply Tame.ite
    | with_reducible apply State.onPort_tame
    | with_reducible apply State.toneTrip_tame
    | intro x
    | split
    | (clear_value *; split)
    | (with_reducible apply Tame.lit <;> (try dsimp only))

theorem State.breakAt_tame {s0 s : State} (h : Tame s0 s) (p b : Nat) :
    Tame s0 (State.breakAt s p b) := by
  unfold State.breakAt
  repeat' first
    | refine Tame.pending ?_
    | refine Tame.fuse ?_
    | refine Tame.emgHost ?_
    | refine Tame.active ?_
    | refine Tame.maint ?_
    | (intro x; refine Tame.cut (s := s0) (t := x) ?_ (fun hx => ?_); subst x; rotate_left; (first | clear_value x | skip))
    | (lift_lets; intro x; refine Tame.cut (s := s0) (t := x) ?_ (fun hx => ?_); subst x; rotate_left; (first | clear_value x | skip))
    | (lift_lets; intro x)
    | with_reducible assumption
    | with_reducible apply Tame.ite
    | with_reducible apply State.onPort_tame
    | with_reducible apply State.stand_tame
    | with_reducible apply State.nodeLost_tame
    | (with_reducible apply Tame.foldl; rotate_left; intro y z hy)
    | intro x
    | split
    | (clear_value *; split)
    | (with_reducible apply Tame.lit <;> (try dsimp only))

theorem execBreakEvent_tame {s0 s t : State} (p : Nat) (e : Nat) (f : RawFrame) (h : Tame s0 s)
    (e : execBreakEvent p e f s = .next t) : Tame s0 t := by
  unfold execBreakEvent at e
  injection e with e
  subst e
  repeat' first
    | (intro x; refine Tame.cut (s := s0) (t := x) ?_ (fun hx => ?_); subst x; rotate_left; (first | clear_value x | skip))
    | (lift_lets; intro x; refine Tame.cut (s := s0) (t := x) ?_ (fun hx => ?_); subst x; rotate_left; (first | clear_value x | skip))
    | (lift_lets; intro x)
    | with_reducible assumption
    | with_reducible apply Tame.ite
    | with_reducible refine State.evtIn_tame ?_ _ _ _ _ _ (fun x a l hx => ?_)
    | with_reducible apply State.sendEvt_tame
    | with_reducible apply State.breakAt_tame
    | intro x
    | split
    | (clear_value *; split)

theorem State.hopRestored_tame {s0 s : State} (h : Tame s0 s) (p b : Nat) :
    Tame s0 (State.hopRestored s p b) := by
  unfold State.hopRestored
  repeat' first
    | refine Tame.pending ?_
    | refine Tame.fuse ?_
    | refine Tame.emgHost ?_
    | refine Tame.active ?_
    | refine Tame.maint ?_
    | (intro x; refine Tame.cut (s := s0) (t := x) ?_ (fun hx => ?_); subst x; rotate_left; (first | clear_value x | skip))
    | (lift_lets; intro x; refine Tame.cut (s := s0) (t := x) ?_ (fun hx => ?_); subst x; rotate_left; (first | clear_value x | skip))
    | (lift_lets; intro x)
    | with_reducible assumption
    | with_reducible apply Tame.ite
    | with_reducible apply State.onPort_tame
    | with_reducible apply State.probeSend_tame
    | with_reducible apply State.seekLost_tame
    | intro x
    | split
    | (clear_value *; split)
    | (with_reducible apply Tame.lit <;> (try dsimp only))

theorem execRestoredEvent_tame {s0 s t : State} (p : Nat) (e : Nat) (f : RawFrame) (h : Tame s0 s)
    (e : execRestoredEvent p e f s = .next t) : Tame s0 t := by
  unfold execRestoredEvent at e
  injection e with e
  subst e
  repeat' first
    | with_reducible assumption
    | with_reducible refine State.evtIn_tame ?_ _ _ _ _ _ (fun x a l hx => ?_)
    | with_reducible apply State.hopRestored_tame
    | intro x
    | split
    | (clear_value *; split)

theorem execSplitModeEntry_tame {s0 s t : State} (p : Nat) (h : Tame s0 s)
    (e : execSplitModeEntry p s = .next t) : Tame s0 t := by
  unfold execSplitModeEntry at e
  injection e with e
  subst e
  repeat' first
    | refine Tame.pending ?_
    | refine Tame.fuse ?_
    | refine Tame.emgHost ?_
    | refine Tame.active ?_
    | refine Tame.maint ?_
    | with_reducible assumption
    | with_reducible apply Tame.ite
    | with_reducible apply State.onPort_tame
    | with_reducible apply State.sweepTell_tame
    | intro x
    | split
    | (clear_value *; split)
    | (with_reducible apply Tame.lit <;> (try dsimp only))

theorem execSplitModeEnd_tame {s0 s t : State} (p : Nat) (h : Tame s0 s)
    (e : execSplitModeEnd p s = .next t) : Tame s0 t := by
  unfold execSplitModeEnd at e
  injection e with e
  subst e
  repeat' first
    | refine Tame.pending ?_
    | refine Tame.fuse ?_
    | refine Tame.emgHost ?_
    | refine Tame.active ?_
    | refine Tame.maint ?_
    | (intro x; refine Tame.cut (s := s0) (t := x) ?_ (fun hx => ?_); subst x; rotate_left; (first | clear_value x | skip))
    | (lift_lets; intro x; refine Tame.cut (s := s0) (t := x) ?_ (fun hx => ?_); subst x; rotate_left; (first | clear_value x | skip))
    | (lift_lets; intro x)
    | with_reducible assumption
    | with_reducible apply Tame.ite
    | with_reducible apply State.onPort_tame
    | with_reducible apply State.at_tame
    | with_reducible apply State.cease_tame
    | intro x
    | split
    | (clear_value *; split)
    | (with_reducible apply Tame.lit <;> (try dsimp only))

theorem State.toneOrigin_tame {s0 s : State} (h : Tame s0 s) (p a ov uv ot : Nat) :
    Tame s0 (State.toneOrigin s p a ov uv ot) := by
  unfold State.toneOrigin
  repeat' first
    | (intro x; refine Tame.cut (s := s0) (t := x) ?_ (fun hx => ?_); subst x; rotate_left; (first | clear_value x | skip))
    | (lift_lets; intro x; refine Tame.cut (s := s0) (t := x) ?_ (fun hx => ?_); subst x; rotate_left; (first | clear_value x | skip))
    | (lift_lets; intro x)
    | with_reducible assumption
    | with_reducible apply Tame.ite
    | with_reducible apply State.stand_tame
    | with_reducible apply State.finding_tame
    | with_reducible apply State.nodeTone_tame
    | intro x
    | split
    | (clear_value *; split)

theorem execToneOriginEvent_tame {s0 s fin : State} (p : Nat) (e : Nat) (bytes : List Byte) (lineErr : Bool) (t : Nat) (h : Tame s0 s)
    (e : execToneOriginEvent p e bytes lineErr t s = .next fin) : Tame s0 fin := by
  unfold execToneOriginEvent at e
  injection e with e
  subst e
  repeat' first
    | with_reducible assumption
    | with_reducible refine State.evtIn_tame ?_ _ _ _ _ _ (fun x a l hx => ?_)
    | with_reducible apply State.at_tame
    | with_reducible apply State.toneOrigin_tame
    | intro x
    | split
    | (clear_value *; split)

theorem execSelfTestFailEvent_tame {s0 s t : State} (p : Nat) (e : Nat) (f : RawFrame) (h : Tame s0 s)
    (e : execSelfTestFailEvent p e f s = .next t) : Tame s0 t := by
  unfold execSelfTestFailEvent at e
  injection e with e
  subst e
  repeat' first
    | refine Tame.pending ?_
    | refine Tame.fuse ?_
    | refine Tame.emgHost ?_
    | refine Tame.active ?_
    | refine Tame.maint ?_
    | with_reducible assumption
    | with_reducible apply Tame.ite
    | with_reducible refine State.evtIn_tame ?_ _ _ _ _ _ (fun x a l hx => ?_)
    | with_reducible apply State.onNode_tame
    | with_reducible apply State.f31Settle_tame
    | intro x
    | split
    | (clear_value *; split)
    | (with_reducible apply Tame.lit <;> (try dsimp only))

theorem execNvFailEvent_tame {s0 s t : State} (pe : Nat) (f : RawFrame) (h : Tame s0 s)
    (e : execNvFailEvent pe f s = .next t) : Tame s0 t := by
  unfold execNvFailEvent at e
  injection e with e
  subst e
  repeat' first
    | refine Tame.pending ?_
    | refine Tame.fuse ?_
    | refine Tame.emgHost ?_
    | refine Tame.active ?_
    | refine Tame.maint ?_
    | with_reducible assumption
    | with_reducible refine State.evtIn_tame ?_ _ _ _ _ _ (fun x a l hx => ?_)
    | with_reducible apply State.onNode_tame
    | intro x
    | split
    | (clear_value *; split)
    | (with_reducible apply Tame.lit <;> (try dsimp only))

theorem State.f07Settle_tame {s0 s : State} (h : Tame s0 s) (p : Nat) :
    Tame s0 (State.f07Settle s p) := by
  unfold State.f07Settle
  repeat' first
    | with_reducible assumption
    | with_reducible apply State.stand_tame
    | with_reducible apply State.cease_tame
    | intro x
    | split
    | (clear_value *; split)

theorem State.noEngine_tame {s0 s : State} (h : Tame s0 s) (p : Nat) :
    Tame s0 (State.noEngine s p) := by
  unfold State.noEngine
  repeat' first
    | refine Tame.pending ?_
    | refine Tame.fuse ?_
    | refine Tame.emgHost ?_
    | refine Tame.active ?_
    | refine Tame.maint ?_
    | (intro x; refine Tame.cut (s := s0) (t := x) ?_ (fun hx => ?_); subst x; rotate_left; (first | clear_value x | skip))
    | (lift_lets; intro x; refine Tame.cut (s := s0) (t := x) ?_ (fun hx => ?_); subst x; rotate_left; (first | clear_value x | skip))
    | (lift_lets; intro x)
    | with_reducible assumption
    | with_reducible apply State.onPort_tame
    | with_reducible apply State.onCell_tame
    | with_reducible apply State.f07Settle_tame
    | (with_reducible apply Tame.foldl; rotate_left; intro y z hy)
    | intro x
    | split
    | (clear_value *; split)
    | (with_reducible apply Tame.lit <;> (try dsimp only))

theorem State.engineFail_tame {s0 s : State} (h : Tame s0 s) (eng : Nat) :
    Tame s0 (State.engineFail s eng) := by
  unfold State.engineFail
  repeat' first
    | refine Tame.pending ?_
    | refine Tame.fuse ?_
    | refine Tame.emgHost ?_
    | refine Tame.active ?_
    | refine Tame.maint ?_
    | (intro x; refine Tame.cut (s := s0) (t := x) ?_ (fun hx => ?_); subst x; rotate_left; (first | clear_value x | skip))
    | (lift_lets; intro x; refine Tame.cut (s := s0) (t := x) ?_ (fun hx => ?_); subst x; rotate_left; (first | clear_value x | skip))
    | (lift_lets; intro x)
    | with_reducible assumption
    | with_reducible apply Tame.ite
    | with_reducible apply State.onPort_tame
    | with_reducible apply State.noEngine_tame
    | intro x
    | split
    | (clear_value *; split)
    | (with_reducible apply Tame.lit <;> (try dsimp only))

theorem execEngineLoopbackTest_tame {s0 s t : State} (eng : Nat) (ok : Bool) (h : Tame s0 s)
    (e : execEngineLoopbackTest eng ok s = .next t) : Tame s0 t := by
  unfold execEngineLoopbackTest at e
  injection e with e
  subst e
  repeat' first
    | with_reducible assumption
    | with_reducible apply Tame.ite
    | with_reducible apply State.engineFail_tame
    | split
    | (clear_value *; split)

theorem State.engineTake_tame {s0 s : State} (h : Tame s0 s) (p : Nat) :
    Tame s0 (State.engineTake s p) := by
  unfold State.engineTake
  repeat' first
    | refine Tame.pending ?_
    | refine Tame.fuse ?_
    | refine Tame.emgHost ?_
    | refine Tame.active ?_
    | refine Tame.maint ?_
    | (intro x; refine Tame.cut (s := s0) (t := x) ?_ (fun hx => ?_); subst x; rotate_left; (first | clear_value x | skip))
    | (lift_lets; intro x; refine Tame.cut (s := s0) (t := x) ?_ (fun hx => ?_); subst x; rotate_left; (first | clear_value x | skip))
    | (lift_lets; intro x)
    | with_reducible assumption
    | with_reducible apply Tame.ite
    | with_reducible apply State.onPort_tame
    | with_reducible apply State.repaired_tame
    | with_reducible apply State.repairPend_tame
    | with_reducible apply State.saveWindow_tame
    | intro x
    | split
    | (clear_value *; split)
    | (with_reducible apply Tame.lit <;> (try dsimp only))

theorem execEngineSubstitution_tame {s0 s t : State} (p : Nat) (h : Tame s0 s)
    (e : execEngineSubstitution p s = .next t) : Tame s0 t := by
  unfold execEngineSubstitution at e
  injection e with e
  subst e
  repeat' first
    | with_reducible assumption
    | with_reducible apply Tame.ite
    | with_reducible apply State.engineFail_tame
    | with_reducible apply State.engineTake_tame
    | split
    | (clear_value *; split)

end Sys2Proof.Machine
end

