-- ==== Sys2Proof/Laws/TameReset.lean ====
section
/-! SUPPORT. The operations of Machine.Reset are tame. -/

namespace Sys2Proof.Machine

open Sys2Proof

set_option linter.unreachableTactic false
set_option linter.unusedTactic false

theorem State.maintEnd_tame {s0 s : State} (h : Tame s0 s) (cause : Nat) :
    Tame s0 (State.maintEnd s cause) := by
  unfold State.maintEnd
  repeat' first
    | refine Tame.pending ?_
    | refine Tame.fuse ?_
    | refine Tame.emgHost ?_
    | refine Tame.active ?_
    | refine Tame.maint ?_
    | (intro x; refine Tame.cut (s := s0) (t := x) ?_ (fun hx => ?_); subst x; rotate_left; (first | clear_value x | skip))
    | (lift_lets; intro x; refine Tame.cut (s := s0) (t := x) ?_ (fun hx => ?_); subst x; rotate_left; (first | clear_value x | skip))
    | (lift_lets; intro x)
    | with_reducible assumption
    | with_reducible exact Tame.refl _
    | with_reducible apply Tame.ite
    | with_reducible apply State.cause_tame
    | with_reducible apply State.eventRec_tame
    | intro x
    | split
    | (clear_value *; split)
    | (with_reducible apply Tame.lit <;> (try dsimp only))
    | contradiction

theorem State.holdStart_tame {s0 s : State} (h : Tame s0 s)  :
    Tame s0 (State.holdStart s) := by
  unfold State.holdStart
  repeat' first
    | refine Tame.pending ?_
    | refine Tame.fuse ?_
    | refine Tame.emgHost ?_
    | refine Tame.active ?_
    | refine Tame.maint ?_
    | (intro x; refine Tame.cut (s := s0) (t := x) ?_ (fun hx => ?_); subst x; rotate_left; (first | clear_value x | skip))
    | (lift_lets; intro x; refine Tame.cut (s := s0) (t := x) ?_ (fun hx => ?_); subst x; rotate_left; (first | clear_value x | skip))
    | (lift_lets; intro x)
    | with_reducible assumption
    | with_reducible apply Tame.ite
    | with_reducible apply State.event_tame
    | with_reducible apply State.eventRec_tame
    | with_reducible apply State.maintEnd_tame
    | intro x
    | split
    | (clear_value *; split)
    | (with_reducible apply Tame.lit <;> (try dsimp only))

theorem State.safeReset_tame {s0 s : State} (h : Tame s0 s) (cause : Nat) :
    Tame s0 (State.safeReset s cause) := by
  unfold State.safeReset
  repeat' first
    | with_reducible assumption
    | with_reducible apply State.cause_tame
    | with_reducible apply State.resetCause_tame
    | with_reducible apply State.holdStart_tame
    | split
    | (clear_value *; split)

theorem State.fwRevert_tame {s0 s : State} (h : Tame s0 s)  :
    Tame s0 (State.fwRevert s) := by
  unfold State.fwRevert
  repeat' first
    | refine Tame.pending ?_
    | refine Tame.fuse ?_
    | refine Tame.emgHost ?_
    | refine Tame.active ?_
    | refine Tame.maint ?_
    | (intro x; refine Tame.cut (s := s0) (t := x) ?_ (fun hx => ?_); subst x; rotate_left; (first | clear_value x | skip))
    | (lift_lets; intro x; refine Tame.cut (s := s0) (t := x) ?_ (fun hx => ?_); subst x; rotate_left; (first | clear_value x | skip))
    | (lift_lets; intro x)
    | with_reducible assumption
    | with_reducible apply State.bbEvent_tame
    | intro x
    | split
    | (clear_value *; split)
    | (with_reducible apply Tame.lit <;> (try dsimp only))

theorem State.watchReset_tame {s0 s : State} (h : Tame s0 s) (cause : Nat) :
    Tame s0 (State.watchReset s cause) := by
  unfold State.watchReset
  repeat' first
    | refine Tame.pending ?_
    | refine Tame.fuse ?_
    | refine Tame.emgHost ?_
    | refine Tame.active ?_
    | refine Tame.maint ?_
    | (intro x; refine Tame.cut (s := s0) (t := x) ?_ (fun hx => ?_); subst x; rotate_left; (first | clear_value x | skip))
    | (lift_lets; intro x; refine Tame.cut (s := s0) (t := x) ?_ (fun hx => ?_); subst x; rotate_left; (first | clear_value x | skip))
    | (lift_lets; intro x)
    | with_reducible assumption
    | with_reducible apply Tame.ite
    | with_reducible apply State.cause_tame
    | with_reducible apply State.repairRec_tame
    | with_reducible apply State.safeReset_tame
    | with_reducible apply State.fwRevert_tame
    | intro x
    | split
    | (clear_value *; split)
    | (with_reducible apply Tame.lit <;> (try dsimp only))

theorem State.svcReset_tame {s0 s : State} (h : Tame s0 s) (cause : Nat) :
    Tame s0 (State.svcReset s cause) := by
  unfold State.svcReset
  repeat' first
    | refine Tame.pending ?_
    | refine Tame.fuse ?_
    | refine Tame.emgHost ?_
    | refine Tame.active ?_
    | refine Tame.maint ?_
    | (intro x; refine Tame.cut (s := s0) (t := x) ?_ (fun hx => ?_); subst x; rotate_left; (first | clear_value x | skip))
    | (lift_lets; intro x; refine Tame.cut (s := s0) (t := x) ?_ (fun hx => ?_); subst x; rotate_left; (first | clear_value x | skip))
    | (lift_lets; intro x)
    | with_reducible assumption
    | with_reducible apply Tame.ite
    | with_reducible apply State.onRing_tame
    | with_reducible apply State.cause_tame
    | with_reducible apply State.resetCause_tame
    | with_reducible apply State.fail_tame
    | (with_reducible apply Tame.foldl; rotate_left; intro y z hy)
    | intro x
    | split
    | (clear_value *; split)
    | (with_reducible apply Tame.lit <;> (try dsimp only))

theorem State.coilLost_tame {s0 s : State} (h : Tame s0 s) (ch : Nat) :
    Tame s0 (State.coilLost s ch) := by
  unfold State.coilLost
  repeat' first
    | refine Tame.pending ?_
    | refine Tame.fuse ?_
    | refine Tame.emgHost ?_
    | refine Tame.active ?_
    | refine Tame.maint ?_
    | (intro x; refine Tame.cut (s := s0) (t := x) ?_ (fun hx => ?_); subst x; rotate_left; (first | clear_value x | skip))
    | (lift_lets; intro x; refine Tame.cut (s := s0) (t := x) ?_ (fun hx => ?_); subst x; rotate_left; (first | clear_value x | skip))
    | (lift_lets; intro x)
    | with_reducible assumption
    | with_reducible apply Tame.ite
    | with_reducible apply State.onCtr_tame
    | with_reducible apply State.onOpn_tame
    | with_reducible apply State.setCtr_tame
    | with_reducible apply State.coil_tame
    | (with_reducible apply Tame.foldl; rotate_left; intro y z hy)
    | intro x
    | split
    | (clear_value *; split)
    | (with_reducible apply Tame.lit <;> (try dsimp only))

theorem State.coilCut_tame {s0 s : State} (h : Tame s0 s) (ch : Nat) :
    Tame s0 (State.coilCut s ch) := by
  unfold State.coilCut
  repeat' first
    | with_reducible assumption
    | with_reducible apply Tame.ite
    | with_reducible apply State.coilLost_tame
    | split
    | (clear_value *; split)

theorem State.limpChannel_tame {s0 s : State} (h : Tame s0 s) (ch : Nat) :
    Tame s0 (State.limpChannel s ch) := by
  unfold State.limpChannel
  repeat' first
    | refine Tame.pending ?_
    | refine Tame.fuse ?_
    | refine Tame.emgHost ?_
    | refine Tame.active ?_
    | refine Tame.maint ?_
    | (intro x; refine Tame.cut (s := s0) (t := x) ?_ (fun hx => ?_); subst x; rotate_left; (first | clear_value x | skip))
    | (lift_lets; intro x; refine Tame.cut (s := s0) (t := x) ?_ (fun hx => ?_); subst x; rotate_left; (first | clear_value x | skip))
    | (lift_lets; intro x)
    | with_reducible assumption
    | with_reducible apply Tame.ite
    | with_reducible apply State.onCtr_tame
    | with_reducible apply State.onOutc_tame
    | with_reducible apply State.setCtr_tame
    | with_reducible apply State.coil_tame
    | (with_reducible apply Tame.foldl; rotate_left; intro y z hy)
    | intro x
    | split
    | (clear_value *; split)
    | (with_reducible apply Tame.lit <;> (try dsimp only))

theorem State.limpCheck_tame {s0 s : State} (h : Tame s0 s) (p : Nat) :
    Tame s0 (State.limpCheck s p) := by
  unfold State.limpCheck
  repeat' first
    | refine Tame.pending ?_
    | refine Tame.fuse ?_
    | refine Tame.emgHost ?_
    | refine Tame.active ?_
    | refine Tame.maint ?_
    | (intro x; refine Tame.cut (s := s0) (t := x) ?_ (fun hx => ?_); subst x; rotate_left; (first | clear_value x | skip))
    | (lift_lets; intro x; refine Tame.cut (s := s0) (t := x) ?_ (fun hx => ?_); subst x; rotate_left; (first | clear_value x | skip))
    | (lift_lets; intro x)
    | with_reducible assumption
    | with_reducible apply Tame.ite
    | with_reducible apply State.onOpn_tame
    | with_reducible apply State.ctrOff_tame
    | with_reducible apply State.openDone_tame
    | intro x
    | split
    | (clear_value *; split)
    | (with_reducible apply Tame.lit <;> (try dsimp only))

theorem State.limpDead_tame {s0 s : State} (h : Tame s0 s)  :
    Tame s0 (State.limpDead s) := by
  unfold State.limpDead
  repeat' first
    | with_reducible assumption
    | with_reducible apply Tame.ite
    | with_reducible apply State.channel_tame
    | with_reducible apply State.coilCut_tame
    | (with_reducible apply Tame.foldl; rotate_left; intro y z hy)
    | intro x
    | split
    | (clear_value *; split)

theorem State.limpEnter_tame {s0 s : State} (h : Tame s0 s) (by_ : Nat) :
    Tame s0 (State.limpEnter s by_) := by
  unfold State.limpEnter
  repeat' first
    | refine Tame.pending ?_
    | refine Tame.fuse ?_
    | refine Tame.emgHost ?_
    | refine Tame.active ?_
    | refine Tame.maint ?_
    | (intro x; refine Tame.cut (s := s0) (t := x) ?_ (fun hx => ?_); subst x; rotate_left; (first | clear_value x | skip))
    | (lift_lets; intro x; refine Tame.cut (s := s0) (t := x) ?_ (fun hx => ?_); subst x; rotate_left; (first | clear_value x | skip))
    | (lift_lets; intro x)
    | with_reducible assumption
    | with_reducible apply Tame.ite
    | with_reducible apply State.onOutc_tame
    | with_reducible apply State.event_tame
    | with_reducible apply State.eventRec_tame
    | with_reducible apply State.seqAbort_tame
    | with_reducible apply State.limpChannel_tame
    | with_reducible apply State.limpCheck_tame
    | with_reducible apply State.limpDead_tame
    | (with_reducible apply Tame.foldl; rotate_left; intro y z hy)
    | intro x
    | split
    | (clear_value *; split)
    | (with_reducible apply Tame.lit <;> (try dsimp only))

theorem State.limpExit_tame {s0 s : State} (h : Tame s0 s)  :
    Tame s0 (State.limpExit s) := by
  unfold State.limpExit
  repeat' first
    | refine Tame.pending ?_
    | refine Tame.fuse ?_
    | refine Tame.emgHost ?_
    | refine Tame.active ?_
    | refine Tame.maint ?_
    | (intro x; refine Tame.cut (s := s0) (t := x) ?_ (fun hx => ?_); subst x; rotate_left; (first | clear_value x | skip))
    | (lift_lets; intro x; refine Tame.cut (s := s0) (t := x) ?_ (fun hx => ?_); subst x; rotate_left; (first | clear_value x | skip))
    | (lift_lets; intro x)
    | with_reducible assumption
    | with_reducible apply Tame.ite
    | with_reducible apply State.onCtr_tame
    | with_reducible apply State.event_tame
    | with_reducible apply State.eventRec_tame
    | with_reducible apply State.channel_tame
    | with_reducible apply State.coil_tame
    | with_reducible apply State.coilLost_tame
    | (with_reducible apply Tame.foldl; rotate_left; intro y z hy)
    | intro x
    | split
    | (clear_value *; split)
    | (with_reducible apply Tame.lit <;> (try dsimp only))

end Sys2Proof.Machine
end

