-- ==== Sys2Proof/Laws/TameOutput.lean ====
section
/-! SUPPORT. The operations of Machine.Output are tame. -/

namespace Sys2Proof.Machine

open Sys2Proof

set_option linter.unreachableTactic false
set_option linter.unusedTactic false

theorem State.coilTrip_tame {s0 s : State} (h : Tame s0 s) (ch : Nat) :
    Tame s0 (State.coilTrip s ch) := by
  unfold State.coilTrip
  repeat' first
    | (intro x; refine Tame.cut (s := s0) (t := x) ?_ (fun hx => ?_); subst x; rotate_left; (first | clear_value x | skip))
    | (lift_lets; intro x; refine Tame.cut (s := s0) (t := x) ?_ (fun hx => ?_); subst x; rotate_left; (first | clear_value x | skip))
    | (lift_lets; intro x)
    | with_reducible assumption
    | with_reducible apply Tame.ite
    | with_reducible apply State.coil_tame
    | with_reducible apply State.coilLost_tame
    | intro x
    | split
    | (clear_value *; split)

theorem execChannelTrip_tame {s0 s t : State} (ch : Nat) (cause : TripCause) (cur : Int) (h : Tame s0 s)
    (e : execChannelTrip ch cause cur s = .next t) : Tame s0 t := by
  unfold execChannelTrip at e
  injection e with e
  subst e
  repeat' first
    | refine Tame.pending ?_
    | refine Tame.fuse ?_
    | refine Tame.emgHost ?_
    | refine Tame.active ?_
    | refine Tame.maint ?_
    | (intro x; refine Tame.cut (s := s0) (t := x) ?_ (fun hx => ?_); subst x; rotate_left; (first | clear_value x | skip))
    | (lift_lets; intro x; refine Tame.cut (s := s0) (t := x) ?_ (fun hx => ?_); subst x; rotate_left; (first | clear_value x | skip))
    | (lift_lets; intro x)
    | with_reducible assumption
    | with_reducible apply Tame.ite
    | with_reducible apply State.onOutc_tame
    | with_reducible apply State.cause_tame
    | with_reducible apply State.event_tame
    | with_reducible apply State.eventRec_tame
    | with_reducible apply State.coil_tame
    | with_reducible apply State.seqAbort_tame
    | with_reducible apply State.latch_tame
    | with_reducible apply State.f37Settle_tame
    | with_reducible apply State.limpChannel_tame
    | with_reducible apply State.coilTrip_tame
    | intro x
    | split
    | (clear_value *; split)
    | (with_reducible apply Tame.lit <;> (try dsimp only))

theorem State.tripOver_tame {s0 s : State} (h : Tame s0 s) (ch : Nat) :
    Tame s0 (State.tripOver s ch) := by
  unfold State.tripOver
  repeat' first
    | refine Tame.pending ?_
    | refine Tame.fuse ?_
    | refine Tame.emgHost ?_
    | refine Tame.active ?_
    | refine Tame.maint ?_
    | (intro x; refine Tame.cut (s := s0) (t := x) ?_ (fun hx => ?_); subst x; rotate_left; (first | clear_value x | skip))
    | (lift_lets; intro x; refine Tame.cut (s := s0) (t := x) ?_ (fun hx => ?_); subst x; rotate_left; (first | clear_value x | skip))
    | (lift_lets; intro x)
    | with_reducible assumption
    | with_reducible apply Tame.ite
    | with_reducible apply State.onOutc_tame
    | with_reducible apply State.f37Settle_tame
    | intro x
    | split
    | (clear_value *; split)
    | (with_reducible apply Tame.lit <;> (try dsimp only))

theorem execAutomaticRestart_tame {s0 s t : State} (ch : Nat) (temp : Int) (h : Tame s0 s)
    (e : execAutomaticRestart ch temp s = .next t) : Tame s0 t := by
  unfold execAutomaticRestart at e
  injection e with e
  subst e
  repeat' first
    | refine Tame.pending ?_
    | refine Tame.fuse ?_
    | refine Tame.emgHost ?_
    | refine Tame.active ?_
    | refine Tame.maint ?_
    | (intro x; refine Tame.cut (s := s0) (t := x) ?_ (fun hx => ?_); subst x; rotate_left; (first | clear_value x | skip))
    | (lift_lets; intro x; refine Tame.cut (s := s0) (t := x) ?_ (fun hx => ?_); subst x; rotate_left; (first | clear_value x | skip))
    | (lift_lets; intro x)
    | with_reducible assumption
    | with_reducible apply Tame.ite
    | with_reducible apply State.onOutc_tame
    | with_reducible apply State.at_tame
    | with_reducible apply State.cause_tame
    | with_reducible apply State.event_tame
    | with_reducible apply State.eventRec_tame
    | with_reducible apply State.tripOver_tame
    | intro x
    | split
    | (clear_value *; split)
    | (with_reducible apply Tame.lit <;> (try dsimp only))

theorem execRetryRestore_tame {s0 s t : State} (ch : Nat) (h : Tame s0 s)
    (e : execRetryRestore ch s = .next t) : Tame s0 t := by
  unfold execRetryRestore at e
  injection e with e
  subst e
  repeat' first
    | refine Tame.pending ?_
    | refine Tame.fuse ?_
    | refine Tame.emgHost ?_
    | refine Tame.active ?_
    | refine Tame.maint ?_
    | (intro x; refine Tame.cut (s := s0) (t := x) ?_ (fun hx => ?_); subst x; rotate_left; (first | clear_value x | skip))
    | (lift_lets; intro x; refine Tame.cut (s := s0) (t := x) ?_ (fun hx => ?_); subst x; rotate_left; (first | clear_value x | skip))
    | (lift_lets; intro x)
    | with_reducible assumption
    | with_reducible apply Tame.ite
    | with_reducible apply State.onOutc_tame
    | with_reducible apply State.at_tame
    | intro x
    | split
    | (clear_value *; split)
    | (with_reducible apply Tame.lit <;> (try dsimp only))

theorem execOpenLoad_tame {s0 s t : State} (ch : Nat) (cur : Int) (h : Tame s0 s)
    (e : execOpenLoad ch cur s = .next t) : Tame s0 t := by
  unfold execOpenLoad at e
  injection e with e
  subst e
  repeat' first
    | refine Tame.pending ?_
    | refine Tame.fuse ?_
    | refine Tame.emgHost ?_
    | refine Tame.active ?_
    | refine Tame.maint ?_
    | (intro x; refine Tame.cut (s := s0) (t := x) ?_ (fun hx => ?_); subst x; rotate_left; (first | clear_value x | skip))
    | (lift_lets; intro x; refine Tame.cut (s := s0) (t := x) ?_ (fun hx => ?_); subst x; rotate_left; (first | clear_value x | skip))
    | (lift_lets; intro x)
    | with_reducible assumption
    | with_reducible apply Tame.ite
    | with_reducible apply State.onOutc_tame
    | with_reducible apply State.at_tame
    | with_reducible apply State.event_tame
    | with_reducible apply State.eventRec_tame
    | with_reducible apply State.f37Settle_tame
    | intro x
    | split
    | (clear_value *; split)
    | (with_reducible apply Tame.lit <;> (try dsimp only))

theorem execLswFault_tame {s0 s t : State} (j : Nat) (read : LswRead) (h : Tame s0 s)
    (e : execLswFault j read s = .next t) : Tame s0 t := by
  unfold execLswFault at e
  injection e with e
  subst e
  repeat' first
    | refine Tame.pending ?_
    | refine Tame.fuse ?_
    | refine Tame.emgHost ?_
    | refine Tame.active ?_
    | refine Tame.maint ?_
    | (intro x; refine Tame.cut (s := s0) (t := x) ?_ (fun hx => ?_); subst x; rotate_left; (first | clear_value x | skip))
    | (lift_lets; intro x; refine Tame.cut (s := s0) (t := x) ?_ (fun hx => ?_); subst x; rotate_left; (first | clear_value x | skip))
    | (lift_lets; intro x)
    | with_reducible assumption
    | with_reducible apply Tame.ite
    | with_reducible apply State.onLsw_tame
    | with_reducible apply State.stand_tame
    | intro x
    | split
    | (clear_value *; split)
    | (with_reducible apply Tame.lit <;> (try dsimp only))

theorem execSafetyWatchdog_tame {s0 s t : State}  (h : Tame s0 s)
    (e : execSafetyWatchdog s = .next t) : Tame s0 t := by
  unfold execSafetyWatchdog at e
  injection e with e
  subst e
  repeat' first
    | with_reducible assumption
    | with_reducible apply State.watchReset_tame
    | split
    | (clear_value *; split)

theorem execServiceWatchdog_tame {s0 s t : State}  (h : Tame s0 s)
    (e : execServiceWatchdog s = .next t) : Tame s0 t := by
  unfold execServiceWatchdog at e
  injection e with e
  subst e
  repeat' first
    | with_reducible assumption
    | with_reducible apply State.svcReset_tame
    | split
    | (clear_value *; split)

theorem execLockstepMismatch_tame {s0 s t : State}  (h : Tame s0 s)
    (e : execLockstepMismatch s = .next t) : Tame s0 t := by
  unfold execLockstepMismatch at e
  injection e with e
  subst e
  repeat' first
    | refine Tame.pending ?_
    | refine Tame.fuse ?_
    | refine Tame.emgHost ?_
    | refine Tame.active ?_
    | refine Tame.maint ?_
    | with_reducible assumption
    | with_reducible apply State.event_tame
    | with_reducible apply State.watchReset_tame
    | split
    | (clear_value *; split)
    | (with_reducible apply Tame.lit <;> (try dsimp only))

theorem State.closeOut_tame {s0 s : State} (h : Tame s0 s)  :
    Tame s0 (State.closeOut s) := by
  unfold State.closeOut
  repeat' first
    | (intro x; refine Tame.cut (s := s0) (t := x) ?_ (fun hx => ?_); subst x; rotate_left; (first | clear_value x | skip))
    | (lift_lets; intro x; refine Tame.cut (s := s0) (t := x) ?_ (fun hx => ?_); subst x; rotate_left; (first | clear_value x | skip))
    | (lift_lets; intro x)
    | with_reducible assumption
    | with_reducible apply Tame.ite
    | with_reducible apply State.ctrOff_tame
    | with_reducible apply State.beginOpen_tame
    | with_reducible apply State.memberEnd_tame
    | intro x
    | split
    | (clear_value *; split)

theorem State.openDueNow_tame {s0 s : State} (h : Tame s0 s)  :
    Tame s0 (State.openDueNow s) := by
  unfold State.openDueNow
  repeat' first
    | with_reducible assumption
    | with_reducible apply Tame.ite
    | with_reducible apply State.openScope_tame
    | (with_reducible apply Tame.foldl; rotate_left; intro y z hy)
    | intro x
    | split
    | (clear_value *; split)

theorem State.coresResume_tame {s0 s : State} (h : Tame s0 s)  :
    Tame s0 (State.coresResume s) := by
  unfold State.coresResume
  repeat' first
    | refine Tame.pending ?_
    | refine Tame.fuse ?_
    | refine Tame.emgHost ?_
    | refine Tame.active ?_
    | refine Tame.maint ?_
    | (intro x; refine Tame.cut (s := s0) (t := x) ?_ (fun hx => ?_); subst x; rotate_left; (first | clear_value x | skip))
    | (lift_lets; intro x; refine Tame.cut (s := s0) (t := x) ?_ (fun hx => ?_); subst x; rotate_left; (first | clear_value x | skip))
    | (lift_lets; intro x)
    | with_reducible assumption
    | with_reducible apply Tame.ite
    | with_reducible apply State.event_tame
    | with_reducible apply State.eventRec_tame
    | with_reducible apply State.wadeOpens_tame
    | with_reducible apply State.cease_tame
    | with_reducible apply State.settle_tame
    | with_reducible apply State.seqKick_tame
    | with_reducible apply State.rejoin_tame
    | with_reducible apply State.limpExit_tame
    | with_reducible apply State.closeOut_tame
    | with_reducible apply State.openDueNow_tame
    | intro x
    | split
    | (clear_value *; split)
    | (with_reducible apply Tame.lit <;> (try dsimp only))

theorem execSupervisionResumed_tame {s0 s t : State}  (h : Tame s0 s)
    (e : execSupervisionResumed s = .next t) : Tame s0 t := by
  unfold execSupervisionResumed at e
  injection e with e
  subst e
  repeat' first
    | (intro x; refine Tame.cut (s := s0) (t := x) ?_ (fun hx => ?_); subst x; rotate_left; (first | clear_value x | skip))
    | (lift_lets; intro x; refine Tame.cut (s := s0) (t := x) ?_ (fun hx => ?_); subst x; rotate_left; (first | clear_value x | skip))
    | (lift_lets; intro x)
    | with_reducible assumption
    | with_reducible apply Tame.ite
    | with_reducible apply State.hbSend_tame
    | with_reducible apply State.coresResume_tame
    | intro x
    | split
    | (clear_value *; split)

theorem execHoldWindowExpiry_tame {s0 s t : State}  (h : Tame s0 s)
    (e : execHoldWindowExpiry s = .next t) : Tame s0 t := by
  unfold execHoldWindowExpiry at e
  injection e with e
  subst e
  repeat' first
    | refine Tame.pending ?_
    | refine Tame.fuse ?_
    | refine Tame.emgHost ?_
    | refine Tame.active ?_
    | refine Tame.maint ?_
    | (intro x; refine Tame.cut (s := s0) (t := x) ?_ (fun hx => ?_); subst x; rotate_left; (first | clear_value x | skip))
    | (lift_lets; intro x; refine Tame.cut (s := s0) (t := x) ?_ (fun hx => ?_); subst x; rotate_left; (first | clear_value x | skip))
    | (lift_lets; intro x)
    | with_reducible assumption
    | with_reducible apply Tame.ite
    | with_reducible apply State.at_tame
    | with_reducible apply State.event_tame
    | with_reducible apply State.eventRec_tame
    | with_reducible apply State.stand_tame
    | intro x
    | split
    | (clear_value *; split)
    | (with_reducible apply Tame.lit <;> (try dsimp only))

theorem execHoldSwitchOff_tame {s0 s t : State}  (h : Tame s0 s)
    (e : execHoldSwitchOff s = .next t) : Tame s0 t := by
  unfold execHoldSwitchOff at e
  injection e with e
  subst e
  repeat' first
    | refine Tame.pending ?_
    | refine Tame.fuse ?_
    | refine Tame.emgHost ?_
    | refine Tame.active ?_
    | refine Tame.maint ?_
    | (intro x; refine Tame.cut (s := s0) (t := x) ?_ (fun hx => ?_); subst x; rotate_left; (first | clear_value x | skip))
    | (lift_lets; intro x; refine Tame.cut (s := s0) (t := x) ?_ (fun hx => ?_); subst x; rotate_left; (first | clear_value x | skip))
    | (lift_lets; intro x)
    | with_reducible assumption
    | with_reducible apply Tame.ite
    | with_reducible apply State.at_tame
    | with_reducible apply State.channel_tame
    | with_reducible apply State.coilCut_tame
    | with_reducible apply State.limpEnter_tame
    | (with_reducible apply Tame.foldl; rotate_left; intro y z hy)
    | intro x
    | split
    | (clear_value *; split)
    | (with_reducible apply Tame.lit <;> (try dsimp only))

theorem execLimpNLow_tame {s0 s t : State}  (h : Tame s0 s)
    (e : execLimpNLow s = .next t) : Tame s0 t := by
  unfold execLimpNLow at e
  injection e with e
  subst e
  repeat' first
    | refine Tame.pending ?_
    | refine Tame.fuse ?_
    | refine Tame.emgHost ?_
    | refine Tame.active ?_
    | refine Tame.maint ?_
    | (intro x; refine Tame.cut (s := s0) (t := x) ?_ (fun hx => ?_); subst x; rotate_left; (first | clear_value x | skip))
    | (lift_lets; intro x; refine Tame.cut (s := s0) (t := x) ?_ (fun hx => ?_); subst x; rotate_left; (first | clear_value x | skip))
    | (lift_lets; intro x)
    | with_reducible assumption
    | with_reducible apply Tame.ite
    | with_reducible apply State.seqKick_tame
    | with_reducible apply State.limpEnter_tame
    | intro x
    | split
    | (clear_value *; split)
    | (with_reducible apply Tame.lit <;> (try dsimp only))

theorem execLimpNHigh_tame {s0 s t : State}  (h : Tame s0 s)
    (e : execLimpNHigh s = .next t) : Tame s0 t := by
  unfold execLimpNHigh at e
  injection e with e
  subst e
  repeat' first
    | refine Tame.pending ?_
    | refine Tame.fuse ?_
    | refine Tame.emgHost ?_
    | refine Tame.active ?_
    | refine Tame.maint ?_
    | (intro x; refine Tame.cut (s := s0) (t := x) ?_ (fun hx => ?_); subst x; rotate_left; (first | clear_value x | skip))
    | (lift_lets; intro x; refine Tame.cut (s := s0) (t := x) ?_ (fun hx => ?_); subst x; rotate_left; (first | clear_value x | skip))
    | (lift_lets; intro x)
    | with_reducible assumption
    | with_reducible apply Tame.ite
    | with_reducible apply State.limpExit_tame
    | intro x
    | split
    | (clear_value *; split)
    | (with_reducible apply Tame.lit <;> (try dsimp only))

theorem execDinEdge_tame {s0 s t : State} (n : Nat) (high : Bool) (h : Tame s0 s)
    (e : execDinEdge n high s = .next t) : Tame s0 t := by
  unfold execDinEdge at e
  injection e with e
  subst e
  repeat' first
    | refine Tame.pending ?_
    | refine Tame.fuse ?_
    | refine Tame.emgHost ?_
    | refine Tame.active ?_
    | refine Tame.maint ?_
    | (intro x; refine Tame.cut (s := s0) (t := x) ?_ (fun hx => ?_); subst x; rotate_left; (first | clear_value x | skip))
    | (lift_lets; intro x; refine Tame.cut (s := s0) (t := x) ?_ (fun hx => ?_); subst x; rotate_left; (first | clear_value x | skip))
    | (lift_lets; intro x)
    | with_reducible assumption
    | with_reducible apply Tame.ite
    | with_reducible apply State.onOutc_tame
    | with_reducible apply State.limpChannel_tame
    | (with_reducible apply Tame.foldl; rotate_left; intro y z hy)
    | intro x
    | split
    | (clear_value *; split)
    | (with_reducible apply Tame.lit <;> (try dsimp only))

end Sys2Proof.Machine
end

