-- ==== Sys2Proof/Laws/TameSafetyIn.lean ====
section
/-! SUPPORT. The operations of Machine.SafetyIn are tame. -/

namespace Sys2Proof.Machine

open Sys2Proof

set_option linter.unreachableTactic false
set_option linter.unusedTactic false

theorem execHvilCodePeriod_tame {s0 s t : State} (n : Nat) (chips : List HvilChip) (cur : Nat) (h : Tame s0 s)
    (e : execHvilCodePeriod n chips cur s = .next t) : Tame s0 t := by
  unfold execHvilCodePeriod at e
  injection e with e
  subst e
  repeat' first
    | refine Tame.pending ?_
    | refine Tame.fuse ?_
    | refine Tame.emgHost ?_
    | refine Tame.active ?_
    | refine Tame.maint ?_
    | (intro x; refine Tame.cut (s := s0) (t := x) ?_ (fun hx => ?_); subst x; rotate_left; (first | clear_value x | skip))
    | (lift_lets; intro x; refine Tame.cut (s := s0) (t := x) ?_ (fun hx => ?_); subst x; rotate_left; (first | clear_value x | skip))
    | (lift_lets; intro x)
    | with_reducible assumption
    | with_reducible apply Tame.ite
    | with_reducible apply State.onLoop_tame
    | with_reducible apply State.event_tame
    | with_reducible apply State.wakeBy_tame
    | with_reducible apply State.stand_tame
    | with_reducible apply State.cease_tame
    | intro x
    | split
    | (clear_value *; split)
    | (with_reducible apply Tame.lit <;> (try dsimp only))

theorem State.onDual_tame {s0 s : State} (h : Tame s0 s) (isLid : Bool) (g : DualIn → DualIn) :
    Tame s0 (State.onDual s isLid g) := by
  unfold State.onDual
  repeat' first
    | refine Tame.pending ?_
    | refine Tame.fuse ?_
    | refine Tame.emgHost ?_
    | refine Tame.active ?_
    | refine Tame.maint ?_
    | with_reducible assumption
    | with_reducible apply Tame.ite
    | split
    | (clear_value *; split)
    | (with_reducible apply Tame.lit <;> (try dsimp only))

theorem State.dualEval_tame {s0 s : State} (h : Tame s0 s) (isLid : Bool) (before : DualIn) :
    Tame s0 (State.dualEval s isLid before) := by
  unfold State.dualEval
  repeat' first
    | refine Tame.pending ?_
    | refine Tame.fuse ?_
    | refine Tame.emgHost ?_
    | refine Tame.active ?_
    | refine Tame.maint ?_
    | (intro x; refine Tame.cut (s := s0) (t := x) ?_ (fun hx => ?_); subst x; rotate_left; (first | clear_value x | skip))
    | (lift_lets; intro x; refine Tame.cut (s := s0) (t := x) ?_ (fun hx => ?_); subst x; rotate_left; (first | clear_value x | skip))
    | (lift_lets; intro x)
    | with_reducible assumption
    | with_reducible apply Tame.ite
    | with_reducible apply State.stand_tame
    | with_reducible apply State.cease_tame
    | with_reducible apply State.onDual_tame
    | intro x
    | split
    | (clear_value *; split)
    | (with_reducible apply Tame.lit <;> (try dsimp only))

theorem execPulseCheckPeriod_tame {s0 s t : State} (isLid : Bool) (ok0 : Bool) (ok1 : Bool) (h : Tame s0 s)
    (e : execPulseCheckPeriod isLid ok0 ok1 s = .next t) : Tame s0 t := by
  unfold execPulseCheckPeriod at e
  injection e with e
  subst e
  repeat' first
    | refine Tame.pending ?_
    | refine Tame.fuse ?_
    | refine Tame.emgHost ?_
    | refine Tame.active ?_
    | refine Tame.maint ?_
    | (intro x; refine Tame.cut (s := s0) (t := x) ?_ (fun hx => ?_); subst x; rotate_left; (first | clear_value x | skip))
    | (lift_lets; intro x; refine Tame.cut (s := s0) (t := x) ?_ (fun hx => ?_); subst x; rotate_left; (first | clear_value x | skip))
    | (lift_lets; intro x)
    | with_reducible assumption
    | with_reducible apply Tame.ite
    | with_reducible apply State.event_tame
    | with_reducible apply State.onDual_tame
    | with_reducible apply State.dualEval_tame
    | intro x
    | split
    | (clear_value *; split)
    | (with_reducible apply Tame.lit <;> (try dsimp only))

theorem execDebounceExpiry_tame {s0 s t : State} (isLid : Bool) (ch : Bool) (closed : Bool) (h : Tame s0 s)
    (e : execDebounceExpiry isLid ch closed s = .next t) : Tame s0 t := by
  unfold execDebounceExpiry at e
  injection e with e
  subst e
  repeat' first
    | refine Tame.pending ?_
    | refine Tame.fuse ?_
    | refine Tame.emgHost ?_
    | refine Tame.active ?_
    | refine Tame.maint ?_
    | (intro x; refine Tame.cut (s := s0) (t := x) ?_ (fun hx => ?_); subst x; rotate_left; (first | clear_value x | skip))
    | (lift_lets; intro x; refine Tame.cut (s := s0) (t := x) ?_ (fun hx => ?_); subst x; rotate_left; (first | clear_value x | skip))
    | (lift_lets; intro x)
    | with_reducible assumption
    | with_reducible apply Tame.ite
    | with_reducible apply State.event_tame
    | with_reducible apply State.onDual_tame
    | with_reducible apply State.dualEval_tame
    | intro x
    | split
    | (clear_value *; split)
    | (with_reducible apply Tame.lit <;> (try dsimp only))

theorem execDiscrepancyTimeExpiry_tame {s0 s t : State} (isLid : Bool) (h : Tame s0 s)
    (e : execDiscrepancyTimeExpiry isLid s = .next t) : Tame s0 t := by
  unfold execDiscrepancyTimeExpiry at e
  injection e with e
  subst e
  repeat' first
    | (intro x; refine Tame.cut (s := s0) (t := x) ?_ (fun hx => ?_); subst x; rotate_left; (first | clear_value x | skip))
    | (lift_lets; intro x; refine Tame.cut (s := s0) (t := x) ?_ (fun hx => ?_); subst x; rotate_left; (first | clear_value x | skip))
    | (lift_lets; intro x)
    | with_reducible assumption
    | with_reducible apply Tame.ite
    | with_reducible apply State.at_tame
    | with_reducible apply State.event_tame
    | with_reducible apply State.stand_tame
    | intro x
    | split
    | (clear_value *; split)

theorem execMossInputRead_tame {s0 s t : State} (isLid : Bool) (c0 : Bool) (c1 : Bool) (h : Tame s0 s)
    (e : execMossInputRead isLid c0 c1 s = .next t) : Tame s0 t := by
  unfold execMossInputRead at e
  injection e with e
  subst e
  repeat' first
    | refine Tame.pending ?_
    | refine Tame.fuse ?_
    | refine Tame.emgHost ?_
    | refine Tame.active ?_
    | refine Tame.maint ?_
    | (intro x; refine Tame.cut (s := s0) (t := x) ?_ (fun hx => ?_); subst x; rotate_left; (first | clear_value x | skip))
    | (lift_lets; intro x; refine Tame.cut (s := s0) (t := x) ?_ (fun hx => ?_); subst x; rotate_left; (first | clear_value x | skip))
    | (lift_lets; intro x)
    | with_reducible assumption
    | with_reducible apply Tame.ite
    | with_reducible apply State.event_tame
    | with_reducible apply State.wakeBy_tame
    | with_reducible apply State.onDual_tame
    | with_reducible apply State.dualEval_tame
    | intro x
    | split
    | (clear_value *; split)
    | (with_reducible apply Tame.lit <;> (try dsimp only))

theorem execStandstillDeclared_tame {s0 s t : State}  (h : Tame s0 s)
    (e : execStandstillDeclared s = .next t) : Tame s0 t := by
  unfold execStandstillDeclared at e
  injection e with e
  subst e
  repeat' first
    | refine Tame.pending ?_
    | refine Tame.fuse ?_
    | refine Tame.emgHost ?_
    | refine Tame.active ?_
    | refine Tame.maint ?_
    | (intro x; refine Tame.cut (s := s0) (t := x) ?_ (fun hx => ?_); subst x; rotate_left; (first | clear_value x | skip))
    | (lift_lets; intro x; refine Tame.cut (s := s0) (t := x) ?_ (fun hx => ?_); subst x; rotate_left; (first | clear_value x | skip))
    | (lift_lets; intro x)
    | with_reducible assumption
    | with_reducible apply Tame.ite
    | with_reducible apply State.at_tame
    | with_reducible apply State.event_tame
    | with_reducible apply State.startWindow_tame
    | (with_reducible apply Tame.foldl; rotate_left; intro y z hy)
    | intro x
    | split
    | (clear_value *; split)
    | (with_reducible apply Tame.lit <;> (try dsimp only))

end Sys2Proof.Machine
end

