-- ==== Sys2Proof/Laws/TameAxle.lean ====
section
/-! SUPPORT. The operations of Machine.Axle are tame. -/

namespace Sys2Proof.Machine

open Sys2Proof

set_option linter.unreachableTactic false
set_option linter.unusedTactic false

theorem State.axleEvent_tame {s0 s : State} (h : Tame s0 s) (ch e t : Nat) (v : Int) :
    Tame s0 (State.axleEvent s ch e t v) := by
  unfold State.axleEvent
  repeat' first
    | (intro x; refine Tame.cut (s := s0) (t := x) ?_ (fun hx => ?_); subst x; rotate_left; (first | clear_value x | skip))
    | (lift_lets; intro x; refine Tame.cut (s := s0) (t := x) ?_ (fun hx => ?_); subst x; rotate_left; (first | clear_value x | skip))
    | (lift_lets; intro x)
    | with_reducible assumption
    | with_reducible apply Tame.ite
    | with_reducible apply State.event_tame
    | with_reducible apply State.record_tame
    | intro x
    | split
    | (clear_value *; split)

theorem State.f47Settle_tame {s0 s : State} (h : Tame s0 s) (ch : Nat) :
    Tame s0 (State.f47Settle s ch) := by
  unfold State.f47Settle
  repeat' first
    | with_reducible assumption
    | with_reducible apply State.setCond_tame
    | split
    | (clear_value *; split)

theorem State.axleBad_tame {s0 s : State} (h : Tame s0 s) (ch : Nat) :
    Tame s0 (State.axleBad s ch) := by
  unfold State.axleBad
  repeat' first
    | refine Tame.pending ?_
    | refine Tame.fuse ?_
    | refine Tame.emgHost ?_
    | refine Tame.active ?_
    | refine Tame.maint ?_
    | with_reducible assumption
    | with_reducible apply State.onAxle_tame
    | with_reducible apply State.f47Settle_tame
    | intro x
    | split
    | (clear_value *; split)
    | (with_reducible apply Tame.lit <;> (try dsimp only))

theorem State.axleGlitch_tame {s0 s : State} (h : Tame s0 s) (ch t : Nat) :
    Tame s0 (State.axleGlitch s ch t) := by
  unfold State.axleGlitch
  repeat' first
    | refine Tame.pending ?_
    | refine Tame.fuse ?_
    | refine Tame.emgHost ?_
    | refine Tame.active ?_
    | refine Tame.maint ?_
    | (intro x; refine Tame.cut (s := s0) (t := x) ?_ (fun hx => ?_); subst x; rotate_left; (first | clear_value x | skip))
    | (lift_lets; intro x; refine Tame.cut (s := s0) (t := x) ?_ (fun hx => ?_); subst x; rotate_left; (first | clear_value x | skip))
    | (lift_lets; intro x)
    | with_reducible assumption
    | with_reducible apply Tame.ite
    | with_reducible apply State.onAxle_tame
    | with_reducible apply State.axleBad_tame
    | intro x
    | split
    | (clear_value *; split)
    | (with_reducible apply Tame.lit <;> (try dsimp only))

theorem State.closingEdge_tame {s0 s : State} (h : Tame s0 s) (ch : Nat) (c : AxleCfg) (t : Nat) (rev : Bool) :
    Tame s0 (State.closingEdge s ch c t rev) := by
  unfold State.closingEdge
  repeat' first
    | refine Tame.pending ?_
    | refine Tame.fuse ?_
    | refine Tame.emgHost ?_
    | refine Tame.active ?_
    | refine Tame.maint ?_
    | (intro x; refine Tame.cut (s := s0) (t := x) ?_ (fun hx => ?_); subst x; rotate_left; (first | clear_value x | skip))
    | (lift_lets; intro x; refine Tame.cut (s := s0) (t := x) ?_ (fun hx => ?_); subst x; rotate_left; (first | clear_value x | skip))
    | (lift_lets; intro x)
    | with_reducible assumption
    | with_reducible apply Tame.ite
    | with_reducible apply State.onAxle_tame
    | with_reducible apply State.axleEvent_tame
    | with_reducible apply State.axleBad_tame
    | intro x
    | split
    | (clear_value *; split)
    | (with_reducible apply Tame.lit <;> (try dsimp only))

theorem State.axleAccept_tame {s0 s : State} (h : Tame s0 s) (ch : Nat) (c : AxleCfg) (phaseB a b : Bool) (t : Nat) :
    Tame s0 (State.axleAccept s ch c phaseB a b t) := by
  unfold State.axleAccept
  repeat' first
    | refine Tame.pending ?_
    | refine Tame.fuse ?_
    | refine Tame.emgHost ?_
    | refine Tame.active ?_
    | refine Tame.maint ?_
    | (intro x; refine Tame.cut (s := s0) (t := x) ?_ (fun hx => ?_); subst x; rotate_left; (first | clear_value x | skip))
    | (lift_lets; intro x; refine Tame.cut (s := s0) (t := x) ?_ (fun hx => ?_); subst x; rotate_left; (first | clear_value x | skip))
    | (lift_lets; intro x)
    | with_reducible assumption
    | with_reducible apply Tame.ite
    | with_reducible apply State.onAxle_tame
    | with_reducible apply State.event_tame
    | with_reducible apply State.keep_tame
    | with_reducible apply State.axleEvent_tame
    | with_reducible apply State.closingEdge_tame
    | intro x
    | split
    | (clear_value *; split)
    | (with_reducible apply Tame.lit <;> (try dsimp only))

theorem State.axleStill_tame {s0 s : State} (h : Tame s0 s) (ch : Nat) (c : AxleCfg) :
    Tame s0 (State.axleStill s ch c) := by
  unfold State.axleStill
  repeat' first
    | refine Tame.pending ?_
    | refine Tame.fuse ?_
    | refine Tame.emgHost ?_
    | refine Tame.active ?_
    | refine Tame.maint ?_
    | (intro x; refine Tame.cut (s := s0) (t := x) ?_ (fun hx => ?_); subst x; rotate_left; (first | clear_value x | skip))
    | (lift_lets; intro x; refine Tame.cut (s := s0) (t := x) ?_ (fun hx => ?_); subst x; rotate_left; (first | clear_value x | skip))
    | (lift_lets; intro x)
    | with_reducible assumption
    | with_reducible apply State.onAxle_tame
    | with_reducible apply State.axleEvent_tame
    | intro x
    | split
    | (clear_value *; split)
    | (with_reducible apply Tame.lit <;> (try dsimp only))

theorem State.stillBy_tame {s0 s : State} (h : Tame s0 s) (ch : Nat) (c : AxleCfg) (t : Nat) :
    Tame s0 (State.stillBy s ch c t) := by
  unfold State.stillBy
  repeat' first
    | with_reducible assumption
    | with_reducible apply Tame.ite
    | with_reducible apply State.axleStill_tame
    | split
    | (clear_value *; split)

theorem State.wireEnd_tame {s0 s : State} (h : Tame s0 s) (ch : Nat) (a b : Bool) :
    Tame s0 (State.wireEnd s ch a b) := by
  unfold State.wireEnd
  repeat' first
    | refine Tame.pending ?_
    | refine Tame.fuse ?_
    | refine Tame.emgHost ?_
    | refine Tame.active ?_
    | refine Tame.maint ?_
    | (intro x; refine Tame.cut (s := s0) (t := x) ?_ (fun hx => ?_); subst x; rotate_left; (first | clear_value x | skip))
    | (lift_lets; intro x; refine Tame.cut (s := s0) (t := x) ?_ (fun hx => ?_); subst x; rotate_left; (first | clear_value x | skip))
    | (lift_lets; intro x)
    | with_reducible assumption
    | with_reducible apply State.onAxle_tame
    | intro x
    | split
    | (clear_value *; split)
    | (with_reducible apply Tame.lit <;> (try dsimp only))

theorem execAxleEdge_tame {s0 s fin : State} (ch : Nat) (a : Bool) (b : Bool) (t : Nat) (h : Tame s0 s)
    (e : execAxleEdge ch a b t s = .next fin) : Tame s0 fin := by
  unfold execAxleEdge at e
  injection e with e
  subst e
  repeat' first
    | refine Tame.pending ?_
    | refine Tame.fuse ?_
    | refine Tame.emgHost ?_
    | refine Tame.active ?_
    | refine Tame.maint ?_
    | (intro x; refine Tame.cut (s := s0) (t := x) ?_ (fun hx => ?_); subst x; rotate_left; (first | clear_value x | skip))
    | (lift_lets; intro x; refine Tame.cut (s := s0) (t := x) ?_ (fun hx => ?_); subst x; rotate_left; (first | clear_value x | skip))
    | (lift_lets; intro x)
    | with_reducible assumption
    | with_reducible apply Tame.ite
    | with_reducible apply State.onAxle_tame
    | with_reducible apply State.at_tame
    | with_reducible apply State.axleGlitch_tame
    | with_reducible apply State.axleAccept_tame
    | with_reducible apply State.stillBy_tame
    | with_reducible apply State.wireEnd_tame
    | intro x
    | split
    | (clear_value *; split)
    | (with_reducible apply Tame.lit <;> (try dsimp only))

theorem execEdgeReread_tame {s0 s fin : State} (ch : Nat) (a : Bool) (b : Bool) (t : Nat) (h : Tame s0 s)
    (e : execEdgeReread ch a b t s = .next fin) : Tame s0 fin := by
  unfold execEdgeReread at e
  injection e with e
  subst e
  repeat' first
    | (intro x; refine Tame.cut (s := s0) (t := x) ?_ (fun hx => ?_); subst x; rotate_left; (first | clear_value x | skip))
    | (lift_lets; intro x; refine Tame.cut (s := s0) (t := x) ?_ (fun hx => ?_); subst x; rotate_left; (first | clear_value x | skip))
    | (lift_lets; intro x)
    | with_reducible assumption
    | with_reducible apply Tame.ite
    | with_reducible apply State.at_tame
    | with_reducible apply State.axleAccept_tame
    | with_reducible apply State.stillBy_tame
    | intro x
    | split
    | (clear_value *; split)

theorem execAxleStandstill_tame {s0 s t : State} (ch : Nat) (h : Tame s0 s)
    (e : execAxleStandstill ch s = .next t) : Tame s0 t := by
  unfold execAxleStandstill at e
  injection e with e
  subst e
  repeat' first
    | with_reducible assumption
    | with_reducible apply Tame.ite
    | with_reducible apply State.at_tame
    | with_reducible apply State.axleStill_tame
    | intro x
    | split
    | (clear_value *; split)

theorem execWireDisagreement_tame {s0 s t : State} (ch : Nat) (phaseB : Bool) (h : Tame s0 s)
    (e : execWireDisagreement ch phaseB s = .next t) : Tame s0 t := by
  unfold execWireDisagreement at e
  injection e with e
  subst e
  repeat' first
    | refine Tame.pending ?_
    | refine Tame.fuse ?_
    | refine Tame.emgHost ?_
    | refine Tame.active ?_
    | refine Tame.maint ?_
    | (intro x; refine Tame.cut (s := s0) (t := x) ?_ (fun hx => ?_); subst x; rotate_left; (first | clear_value x | skip))
    | (lift_lets; intro x; refine Tame.cut (s := s0) (t := x) ?_ (fun hx => ?_); subst x; rotate_left; (first | clear_value x | skip))
    | (lift_lets; intro x)
    | with_reducible assumption
    | with_reducible apply Tame.ite
    | with_reducible apply State.onAxle_tame
    | with_reducible apply State.axleEvent_tame
    | with_reducible apply State.axleBad_tame
    | intro x
    | split
    | (clear_value *; split)
    | (with_reducible apply Tame.lit <;> (try dsimp only))

theorem execSpdSupplyFault_tame {s0 s t : State} (ch : Nat) (h : Tame s0 s)
    (e : execSpdSupplyFault ch s = .next t) : Tame s0 t := by
  unfold execSpdSupplyFault at e
  injection e with e
  subst e
  repeat' first
    | refine Tame.pending ?_
    | refine Tame.fuse ?_
    | refine Tame.emgHost ?_
    | refine Tame.active ?_
    | refine Tame.maint ?_
    | with_reducible assumption
    | with_reducible apply Tame.ite
    | with_reducible apply State.onAxle_tame
    | with_reducible apply State.axleEvent_tame
    | with_reducible apply State.axleBad_tame
    | intro x
    | split
    | (clear_value *; split)
    | (with_reducible apply Tame.lit <;> (try dsimp only))

theorem State.axleCheck_tame {s0 s : State} (h : Tame s0 s) (ch : Nat) :
    Tame s0 (State.axleCheck s ch) := by
  unfold State.axleCheck
  repeat' first
    | refine Tame.pending ?_
    | refine Tame.fuse ?_
    | refine Tame.emgHost ?_
    | refine Tame.active ?_
    | refine Tame.maint ?_
    | (intro x; refine Tame.cut (s := s0) (t := x) ?_ (fun hx => ?_); subst x; rotate_left; (first | clear_value x | skip))
    | (lift_lets; intro x; refine Tame.cut (s := s0) (t := x) ?_ (fun hx => ?_); subst x; rotate_left; (first | clear_value x | skip))
    | (lift_lets; intro x)
    | with_reducible assumption
    | with_reducible apply Tame.ite
    | with_reducible apply State.onAxle_tame
    | with_reducible apply State.f47Settle_tame
    | with_reducible apply State.axleBad_tame
    | intro x
    | split
    | (clear_value *; split)
    | (with_reducible apply Tame.lit <;> (try dsimp only))

theorem State.axleCompare_tame {s0 s : State} (h : Tame s0 s)  :
    Tame s0 (State.axleCompare s) := by
  unfold State.axleCompare
  repeat' first
    | refine Tame.pending ?_
    | refine Tame.fuse ?_
    | refine Tame.emgHost ?_
    | refine Tame.active ?_
    | refine Tame.maint ?_
    | (intro x; refine Tame.cut (s := s0) (t := x) ?_ (fun hx => ?_); subst x; rotate_left; (first | clear_value x | skip))
    | (lift_lets; intro x; refine Tame.cut (s := s0) (t := x) ?_ (fun hx => ?_); subst x; rotate_left; (first | clear_value x | skip))
    | (lift_lets; intro x)
    | with_reducible assumption
    | with_reducible apply Tame.ite
    | with_reducible apply State.f47Settle_tame
    | intro x
    | split
    | (clear_value *; split)
    | (with_reducible apply Tame.lit <;> (try dsimp only))

theorem State.axleRecs_tame {s0 s : State} (h : Tame s0 s) (S : Nat) :
    Tame s0 (State.axleRecs s S) := by
  unfold State.axleRecs
  repeat' first
    | refine Tame.pending ?_
    | refine Tame.fuse ?_
    | refine Tame.emgHost ?_
    | refine Tame.active ?_
    | refine Tame.maint ?_
    | (intro x; refine Tame.cut (s := s0) (t := x) ?_ (fun hx => ?_); subst x; rotate_left; (first | clear_value x | skip))
    | (lift_lets; intro x; refine Tame.cut (s := s0) (t := x) ?_ (fun hx => ?_); subst x; rotate_left; (first | clear_value x | skip))
    | (lift_lets; intro x)
    | with_reducible assumption
    | with_reducible apply Tame.ite
    | with_reducible apply State.onAxle_tame
    | with_reducible apply State.sendMirror_tame
    | with_reducible apply State.record_tame
    | with_reducible apply State.axleCheck_tame
    | with_reducible apply State.axleCompare_tame
    | (with_reducible apply Tame.foldl; rotate_left; intro y z hy)
    | intro x
    | split
    | (clear_value *; split)
    | (with_reducible apply Tame.lit <;> (try dsimp only))

theorem execAxleRecord_tame {s0 s t : State} (S : Nat) (h : Tame s0 s)
    (e : execAxleRecord S s = .next t) : Tame s0 t := by
  unfold execAxleRecord at e
  injection e with e
  subst e
  repeat' first
    | refine Tame.pending ?_
    | refine Tame.fuse ?_
    | refine Tame.emgHost ?_
    | refine Tame.active ?_
    | refine Tame.maint ?_
    | with_reducible assumption
    | with_reducible apply Tame.ite
    | with_reducible apply State.at_tame
    | with_reducible apply State.axleRecs_tame
    | split
    | (clear_value *; split)
    | (with_reducible apply Tame.lit <;> (try dsimp only))

end Sys2Proof.Machine
end

