-- ==== Sys2Proof/Laws/TameCan.lean ====
section
/-! SUPPORT. The operations of Machine.Can are tame. -/

namespace Sys2Proof.Machine

open Sys2Proof

set_option linter.unreachableTactic false
set_option linter.unusedTactic false

theorem State.loadTx_tame {s0 s : State} (h : Tame s0 s) (c : Nat) :
    Tame s0 (State.loadTx s c) := by
  unfold State.loadTx
  repeat' first
    | refine Tame.pending ?_
    | refine Tame.fuse ?_
    | refine Tame.emgHost ?_
    | refine Tame.active ?_
    | refine Tame.maint ?_
    | (intro x; refine Tame.cut (s := s0) (t := x) ?_ (fun hx => ?_); subst x; rotate_left; (first | clear_value x | skip))
    | (lift_lets; intro x; refine Tame.cut (s := s0) (t := x) ?_ (fun hx => ?_); subst x; rotate_left; (first | clear_value x | skip))
    | (lift_lets; intro x)
    | with_reducible assumption
    | with_reducible apply Tame.ite
    | with_reducible apply State.onCan_tame
    | intro x
    | split
    | (clear_value *; split)
    | (with_reducible apply Tame.lit <;> (try dsimp only))

theorem State.loadTb0_tame {s0 s : State} (h : Tame s0 s) (c : Nat) :
    Tame s0 (State.loadTb0 s c) := by
  unfold State.loadTb0
  repeat' first
    | refine Tame.pending ?_
    | refine Tame.fuse ?_
    | refine Tame.emgHost ?_
    | refine Tame.active ?_
    | refine Tame.maint ?_
    | with_reducible assumption
    | with_reducible apply State.onCan_tame
    | intro x
    | split
    | (clear_value *; split)
    | (with_reducible apply Tame.lit <;> (try dsimp only))

theorem State.txResult_tame {s0 s : State} (h : Tame s0 s) (b : TxBuf) (code tSof : Nat) :
    Tame s0 (State.txResult s b code tSof) := by
  unfold State.txResult
  repeat' first
    | with_reducible assumption
    | with_reducible apply Tame.ite
    | with_reducible apply State.okay_tame
    | split
    | (clear_value *; split)

theorem State.dropBuf_tame {s0 s : State} (h : Tame s0 s) (c b code tSof : Nat) :
    Tame s0 (State.dropBuf s c b code tSof) := by
  unfold State.dropBuf
  repeat' first
    | refine Tame.pending ?_
    | refine Tame.fuse ?_
    | refine Tame.emgHost ?_
    | refine Tame.active ?_
    | refine Tame.maint ?_
    | (intro x; refine Tame.cut (s := s0) (t := x) ?_ (fun hx => ?_); subst x; rotate_left; (first | clear_value x | skip))
    | (lift_lets; intro x; refine Tame.cut (s := s0) (t := x) ?_ (fun hx => ?_); subst x; rotate_left; (first | clear_value x | skip))
    | (lift_lets; intro x)
    | with_reducible assumption
    | with_reducible apply Tame.ite
    | with_reducible apply State.onCan_tame
    | with_reducible apply State.loadTx_tame
    | with_reducible apply State.loadTb0_tame
    | with_reducible apply State.txResult_tame
    | intro x
    | split
    | (clear_value *; split)
    | (with_reducible apply Tame.lit <;> (try dsimp only))

theorem State.flushCan_tame {s0 s : State} (h : Tame s0 s) (c code : Nat) :
    Tame s0 (State.flushCan s c code) := by
  unfold State.flushCan
  repeat' first
    | refine Tame.pending ?_
    | refine Tame.fuse ?_
    | refine Tame.emgHost ?_
    | refine Tame.active ?_
    | refine Tame.maint ?_
    | (intro x; refine Tame.cut (s := s0) (t := x) ?_ (fun hx => ?_); subst x; rotate_left; (first | clear_value x | skip))
    | (lift_lets; intro x; refine Tame.cut (s := s0) (t := x) ?_ (fun hx => ?_); subst x; rotate_left; (first | clear_value x | skip))
    | (lift_lets; intro x)
    | with_reducible assumption
    | with_reducible apply State.onCan_tame
    | with_reducible apply State.loadTx_tame
    | with_reducible apply State.txResult_tame
    | (with_reducible apply Tame.foldl; rotate_left; intro y z hy)
    | intro x
    | split
    | (clear_value *; split)
    | (with_reducible apply Tame.lit <;> (try dsimp only))

theorem State.canState_tame {s0 s : State} (h : Tame s0 s) (c : Nat) :
    Tame s0 (State.canState s c) := by
  unfold State.canState
  repeat' first
    | refine Tame.pending ?_
    | refine Tame.fuse ?_
    | refine Tame.emgHost ?_
    | refine Tame.active ?_
    | refine Tame.maint ?_
    | (intro x; refine Tame.cut (s := s0) (t := x) ?_ (fun hx => ?_); subst x; rotate_left; (first | clear_value x | skip))
    | (lift_lets; intro x; refine Tame.cut (s := s0) (t := x) ?_ (fun hx => ?_); subst x; rotate_left; (first | clear_value x | skip))
    | (lift_lets; intro x)
    | with_reducible assumption
    | with_reducible apply Tame.ite
    | with_reducible apply State.onCan_tame
    | with_reducible apply State.event_tame
    | with_reducible apply State.canRec_tame
    | with_reducible apply State.flushCan_tame
    | intro x
    | split
    | (clear_value *; split)
    | (with_reducible apply Tame.lit <;> (try dsimp only))

theorem State.aloneClear_tame {s0 s : State} (h : Tame s0 s) (c : Nat) :
    Tame s0 (State.aloneClear s c) := by
  unfold State.aloneClear
  repeat' first
    | refine Tame.pending ?_
    | refine Tame.fuse ?_
    | refine Tame.emgHost ?_
    | refine Tame.active ?_
    | refine Tame.maint ?_
    | (intro x; refine Tame.cut (s := s0) (t := x) ?_ (fun hx => ?_); subst x; rotate_left; (first | clear_value x | skip))
    | (lift_lets; intro x; refine Tame.cut (s := s0) (t := x) ?_ (fun hx => ?_); subst x; rotate_left; (first | clear_value x | skip))
    | (lift_lets; intro x)
    | with_reducible assumption
    | with_reducible apply Tame.ite
    | with_reducible apply State.onCan_tame
    | with_reducible apply State.canRec_tame
    | intro x
    | split
    | (clear_value *; split)
    | (with_reducible apply Tame.lit <;> (try dsimp only))

theorem State.attemptFailed_tame {s0 s : State} (h : Tame s0 s) (c b : Nat) (alone : Bool) :
    Tame s0 (State.attemptFailed s c b alone) := by
  unfold State.attemptFailed
  repeat' first
    | refine Tame.pending ?_
    | refine Tame.fuse ?_
    | refine Tame.emgHost ?_
    | refine Tame.active ?_
    | refine Tame.maint ?_
    | (intro x; refine Tame.cut (s := s0) (t := x) ?_ (fun hx => ?_); subst x; rotate_left; (first | clear_value x | skip))
    | (lift_lets; intro x; refine Tame.cut (s := s0) (t := x) ?_ (fun hx => ?_); subst x; rotate_left; (first | clear_value x | skip))
    | (lift_lets; intro x)
    | with_reducible assumption
    | with_reducible apply Tame.ite
    | with_reducible apply State.onCan_tame
    | with_reducible apply State.dropBuf_tame
    | intro x
    | split
    | (clear_value *; split)
    | (with_reducible apply Tame.lit <;> (try dsimp only))

theorem State.attemptEnd_tame {s0 s : State} (h : Tame s0 s) (c b : Nat) (f : CanFrame) (e : TxEnd) (tSof : Nat) :
    Tame s0 (State.attemptEnd s c b f e tSof) := by
  unfold State.attemptEnd
  repeat' first
    | refine Tame.pending ?_
    | refine Tame.fuse ?_
    | refine Tame.emgHost ?_
    | refine Tame.active ?_
    | refine Tame.maint ?_
    | (intro x; refine Tame.cut (s := s0) (t := x) ?_ (fun hx => ?_); subst x; rotate_left; (first | clear_value x | skip))
    | (lift_lets; intro x; refine Tame.cut (s := s0) (t := x) ?_ (fun hx => ?_); subst x; rotate_left; (first | clear_value x | skip))
    | (lift_lets; intro x)
    | with_reducible assumption
    | with_reducible apply Tame.ite
    | with_reducible apply State.onCan_tame
    | with_reducible apply State.emit_tame
    | with_reducible apply State.event_tame
    | with_reducible apply State.canRec_tame
    | with_reducible apply State.dropBuf_tame
    | with_reducible apply State.canState_tame
    | with_reducible apply State.aloneClear_tame
    | with_reducible apply State.attemptFailed_tame
    | intro x
    | split
    | (clear_value *; split)
    | (with_reducible apply Tame.lit <;> (try dsimp only))

theorem execTransmitAttemptEnd_tame {s0 s t : State} (c : Nat) (e : TxEnd) (tSof : Nat) (h : Tame s0 s)
    (e : execTransmitAttemptEnd c e tSof s = .next t) : Tame s0 t := by
  unfold execTransmitAttemptEnd at e
  injection e with e
  subst e
  repeat' first
    | (intro x; refine Tame.cut (s := s0) (t := x) ?_ (fun hx => ?_); subst x; rotate_left; (first | clear_value x | skip))
    | (lift_lets; intro x; refine Tame.cut (s := s0) (t := x) ?_ (fun hx => ?_); subst x; rotate_left; (first | clear_value x | skip))
    | (lift_lets; intro x)
    | with_reducible assumption
    | with_reducible apply Tame.ite
    | with_reducible apply State.at_tame
    | with_reducible apply State.attemptEnd_tame
    | intro x
    | split
    | (clear_value *; split)

theorem execBusOffRecovery_tame {s0 s t : State} (c : Nat) (h : Tame s0 s)
    (e : execBusOffRecovery c s = .next t) : Tame s0 t := by
  unfold execBusOffRecovery at e
  injection e with e
  subst e
  repeat' first
    | refine Tame.pending ?_
    | refine Tame.fuse ?_
    | refine Tame.emgHost ?_
    | refine Tame.active ?_
    | refine Tame.maint ?_
    | (intro x; refine Tame.cut (s := s0) (t := x) ?_ (fun hx => ?_); subst x; rotate_left; (first | clear_value x | skip))
    | (lift_lets; intro x; refine Tame.cut (s := s0) (t := x) ?_ (fun hx => ?_); subst x; rotate_left; (first | clear_value x | skip))
    | (lift_lets; intro x)
    | with_reducible assumption
    | with_reducible apply Tame.ite
    | with_reducible apply State.onCan_tame
    | with_reducible apply State.event_tame
    | with_reducible apply State.canRec_tame
    | intro x
    | split
    | (clear_value *; split)
    | (with_reducible apply Tame.lit <;> (try dsimp only))

theorem execCanReceiveError_tame {s0 s t : State} (c : Nat) (inFlag : Bool) (h : Tame s0 s)
    (e : execCanReceiveError c inFlag s = .next t) : Tame s0 t := by
  unfold execCanReceiveError at e
  injection e with e
  subst e
  repeat' first
    | refine Tame.pending ?_
    | refine Tame.fuse ?_
    | refine Tame.emgHost ?_
    | refine Tame.active ?_
    | refine Tame.maint ?_
    | (intro x; refine Tame.cut (s := s0) (t := x) ?_ (fun hx => ?_); subst x; rotate_left; (first | clear_value x | skip))
    | (lift_lets; intro x; refine Tame.cut (s := s0) (t := x) ?_ (fun hx => ?_); subst x; rotate_left; (first | clear_value x | skip))
    | (lift_lets; intro x)
    | with_reducible assumption
    | with_reducible apply Tame.ite
    | with_reducible apply State.onCan_tame
    | with_reducible apply State.canState_tame
    | intro x
    | split
    | (clear_value *; split)
    | (with_reducible apply Tame.lit <;> (try dsimp only))

theorem State.f46Settle_tame {s0 s : State} (h : Tame s0 s) (m : Nat) :
    Tame s0 (State.f46Settle s m) := by
  unfold State.f46Settle
  repeat' first
    | with_reducible assumption
    | with_reducible apply State.setCond_tame
    | intro x
    | split
    | (clear_value *; split)

theorem State.deliver_tame {s0 s : State} (h : Tame s0 s) (m : Nat) (c : MsgCfg) (q : Nat) (data : List Byte) :
    Tame s0 (State.deliver s m c q data) := by
  unfold State.deliver
  repeat' first
    | refine Tame.pending ?_
    | refine Tame.fuse ?_
    | refine Tame.emgHost ?_
    | refine Tame.active ?_
    | refine Tame.maint ?_
    | (intro x; refine Tame.cut (s := s0) (t := x) ?_ (fun hx => ?_); subst x; rotate_left; (first | clear_value x | skip))
    | (lift_lets; intro x; refine Tame.cut (s := s0) (t := x) ?_ (fun hx => ?_); subst x; rotate_left; (first | clear_value x | skip))
    | (lift_lets; intro x)
    | with_reducible assumption
    | with_reducible apply Tame.ite
    | with_reducible apply State.onMsg_tame
    | intro x
    | split
    | (clear_value *; split)
    | (with_reducible apply Tame.lit <;> (try dsimp only))

theorem State.badCopy_tame {s0 s : State} (h : Tame s0 s) (m bus : Nat) :
    Tame s0 (State.badCopy s m bus) := by
  unfold State.badCopy
  repeat' first
    | refine Tame.pending ?_
    | refine Tame.fuse ?_
    | refine Tame.emgHost ?_
    | refine Tame.active ?_
    | refine Tame.maint ?_
    | with_reducible assumption
    | with_reducible apply State.onMsg_tame
    | intro x
    | split
    | (clear_value *; split)
    | (with_reducible apply Tame.lit <;> (try dsimp only))

theorem State.matched_tame {s0 s : State} (h : Tame s0 s) (m : Nat) (c : MsgCfg) (fc : SafeCopy) (q : Nat) (data : List Byte) :
    Tame s0 (State.matched s m c fc q data) := by
  unfold State.matched
  repeat' first
    | refine Tame.pending ?_
    | refine Tame.fuse ?_
    | refine Tame.emgHost ?_
    | refine Tame.active ?_
    | refine Tame.maint ?_
    | (intro x; refine Tame.cut (s := s0) (t := x) ?_ (fun hx => ?_); subst x; rotate_left; (first | clear_value x | skip))
    | (lift_lets; intro x; refine Tame.cut (s := s0) (t := x) ?_ (fun hx => ?_); subst x; rotate_left; (first | clear_value x | skip))
    | (lift_lets; intro x)
    | with_reducible assumption
    | with_reducible apply Tame.ite
    | with_reducible apply State.onMsg_tame
    | with_reducible apply State.f46Settle_tame
    | with_reducible apply State.deliver_tame
    | intro x
    | split
    | (clear_value *; split)
    | (with_reducible apply Tame.lit <;> (try dsimp only))

theorem State.copyIn_tame {s0 s : State} (h : Tame s0 s) (m : Nat) (c : MsgCfg) (bus : Nat) (f : CanFrame) :
    Tame s0 (State.copyIn s m c bus f) := by
  unfold State.copyIn
  repeat' first
    | refine Tame.pending ?_
    | refine Tame.fuse ?_
    | refine Tame.emgHost ?_
    | refine Tame.active ?_
    | refine Tame.maint ?_
    | (intro x; refine Tame.cut (s := s0) (t := x) ?_ (fun hx => ?_); subst x; rotate_left; (first | clear_value x | skip))
    | (lift_lets; intro x; refine Tame.cut (s := s0) (t := x) ?_ (fun hx => ?_); subst x; rotate_left; (first | clear_value x | skip))
    | (lift_lets; intro x)
    | with_reducible assumption
    | with_reducible apply Tame.ite
    | with_reducible apply State.onMsg_tame
    | with_reducible apply State.event_tame
    | with_reducible apply State.f46Settle_tame
    | with_reducible apply State.deliver_tame
    | with_reducible apply State.badCopy_tame
    | with_reducible apply State.matched_tame
    | intro x
    | split
    | (clear_value *; split)
    | (with_reducible apply Tame.lit <;> (try dsimp only))

theorem State.safeCheck_tame {s0 s : State} (h : Tame s0 s) (bus : Nat) (f : CanFrame) :
    Tame s0 (State.safeCheck s bus f).1 := by
  unfold State.safeCheck
  refine Tame.foldlFst h (fun y m hy => ?_)
  obtain ⟨y1, y2⟩ := y
  dsimp only at hy ⊢
  generalize y1.msgCfg m = o
  cases o with
  | none => exact hy
  | some c =>
    dsimp only
    refine Tame.iteFst hy (Tame.iteFst hy ?_)
    exact Tame.ite (State.proofOfLife_tame (State.copyIn_tame hy _ _ _ _) _) (State.copyIn_tame hy _ _ _ _)

theorem State.safeCheck_tame' {s0 s t : State} {a} {bus : Nat} {f : CanFrame} (h : Tame s0 s)
    (e : State.safeCheck s bus f = (t, a)) : Tame s0 t := by
  have k := State.safeCheck_tame h bus f
  rw [e] at k
  exact k

theorem execSkewWindowExpiry_tame {s0 s t : State} (m : Nat) (h : Tame s0 s)
    (e : execSkewWindowExpiry m s = .next t) : Tame s0 t := by
  unfold execSkewWindowExpiry at e
  injection e with e
  subst e
  repeat' first
    | refine Tame.pending ?_
    | refine Tame.fuse ?_
    | refine Tame.emgHost ?_
    | refine Tame.active ?_
    | refine Tame.maint ?_
    | (intro x; refine Tame.cut (s := s0) (t := x) ?_ (fun hx => ?_); subst x; rotate_left; (first | clear_value x | skip))
    | (lift_lets; intro x; refine Tame.cut (s := s0) (t := x) ?_ (fun hx => ?_); subst x; rotate_left; (first | clear_value x | skip))
    | (lift_lets; intro x)
    | with_reducible assumption
    | with_reducible apply Tame.ite
    | with_reducible apply State.onMsg_tame
    | with_reducible apply State.at_tame
    | with_reducible apply State.badCopy_tame
    | intro x
    | split
    | (clear_value *; split)
    | (with_reducible apply Tame.lit <;> (try dsimp only))

theorem execSafeMessageTimeout_tame {s0 s t : State} (m : Nat) (h : Tame s0 s)
    (e : execSafeMessageTimeout m s = .next t) : Tame s0 t := by
  unfold execSafeMessageTimeout at e
  injection e with e
  subst e
  repeat' first
    | refine Tame.pending ?_
    | refine Tame.fuse ?_
    | refine Tame.emgHost ?_
    | refine Tame.active ?_
    | refine Tame.maint ?_
    | (intro x; refine Tame.cut (s := s0) (t := x) ?_ (fun hx => ?_); subst x; rotate_left; (first | clear_value x | skip))
    | (lift_lets; intro x; refine Tame.cut (s := s0) (t := x) ?_ (fun hx => ?_); subst x; rotate_left; (first | clear_value x | skip))
    | (lift_lets; intro x)
    | with_reducible assumption
    | with_reducible apply Tame.ite
    | with_reducible apply State.onMsg_tame
    | with_reducible apply State.at_tame
    | with_reducible apply State.event_tame
    | with_reducible apply State.f46Settle_tame
    | intro x
    | split
    | (clear_value *; split)
    | (with_reducible apply Tame.lit <;> (try dsimp only))

theorem execStatusMessageSend_tame {s0 s t : State}  (h : Tame s0 s)
    (e : execStatusMessageSend s = .next t) : Tame s0 t := by
  unfold execStatusMessageSend at e
  injection e with e
  subst e
  repeat' first
    | refine Tame.pending ?_
    | refine Tame.fuse ?_
    | refine Tame.emgHost ?_
    | refine Tame.active ?_
    | refine Tame.maint ?_
    | (intro x; refine Tame.cut (s := s0) (t := x) ?_ (fun hx => ?_); subst x; rotate_left; (first | clear_value x | skip))
    | (lift_lets; intro x; refine Tame.cut (s := s0) (t := x) ?_ (fun hx => ?_); subst x; rotate_left; (first | clear_value x | skip))
    | (lift_lets; intro x)
    | with_reducible assumption
    | with_reducible apply Tame.ite
    | with_reducible apply State.at_tame
    | with_reducible apply State.sendSafe_tame
    | intro x
    | split
    | (clear_value *; split)
    | (with_reducible apply Tame.lit <;> (try dsimp only))

theorem execReferenceMessageSend_tame {s0 s t : State}  (h : Tame s0 s)
    (e : execReferenceMessageSend s = .next t) : Tame s0 t := by
  unfold execReferenceMessageSend at e
  injection e with e
  subst e
  repeat' first
    | refine Tame.pending ?_
    | refine Tame.fuse ?_
    | refine Tame.emgHost ?_
    | refine Tame.active ?_
    | refine Tame.maint ?_
    | (intro x; refine Tame.cut (s := s0) (t := x) ?_ (fun hx => ?_); subst x; rotate_left; (first | clear_value x | skip))
    | (lift_lets; intro x; refine Tame.cut (s := s0) (t := x) ?_ (fun hx => ?_); subst x; rotate_left; (first | clear_value x | skip))
    | (lift_lets; intro x)
    | with_reducible assumption
    | with_reducible apply Tame.ite
    | with_reducible apply State.at_tame
    | with_reducible apply State.originate_tame
    | (with_reducible apply Tame.foldl; rotate_left; intro y z hy)
    | intro x
    | split
    | (clear_value *; split)
    | (with_reducible apply Tame.lit <;> (try dsimp only))

theorem State.netUpdate_tame {s0 s : State} (h : Tame s0 s) (c master tSof : Nat) :
    Tame s0 (State.netUpdate s c master tSof) := by
  unfold State.netUpdate
  repeat' first
    | refine Tame.pending ?_
    | refine Tame.fuse ?_
    | refine Tame.emgHost ?_
    | refine Tame.active ?_
    | refine Tame.maint ?_
    | (intro x; refine Tame.cut (s := s0) (t := x) ?_ (fun hx => ?_); subst x; rotate_left; (first | clear_value x | skip))
    | (lift_lets; intro x; refine Tame.cut (s := s0) (t := x) ?_ (fun hx => ?_); subst x; rotate_left; (first | clear_value x | skip))
    | (lift_lets; intro x)
    | with_reducible assumption
    | with_reducible apply Tame.ite
    | with_reducible apply State.event_tame
    | with_reducible apply State.canRec_tame
    | intro x
    | split
    | (clear_value *; split)
    | (with_reducible apply Tame.lit <;> (try dsimp only))

theorem execNetworkTimeInvalid_tame {s0 s t : State}  (h : Tame s0 s)
    (e : execNetworkTimeInvalid s = .next t) : Tame s0 t := by
  unfold execNetworkTimeInvalid at e
  injection e with e
  subst e
  repeat' first
    | refine Tame.pending ?_
    | refine Tame.fuse ?_
    | refine Tame.emgHost ?_
    | refine Tame.active ?_
    | refine Tame.maint ?_
    | (intro x; refine Tame.cut (s := s0) (t := x) ?_ (fun hx => ?_); subst x; rotate_left; (first | clear_value x | skip))
    | (lift_lets; intro x; refine Tame.cut (s := s0) (t := x) ?_ (fun hx => ?_); subst x; rotate_left; (first | clear_value x | skip))
    | (lift_lets; intro x)
    | with_reducible assumption
    | with_reducible apply Tame.ite
    | with_reducible apply State.at_tame
    | with_reducible apply State.event_tame
    | with_reducible apply State.canRec_tame
    | intro x
    | split
    | (clear_value *; split)
    | (with_reducible apply Tame.lit <;> (try dsimp only))

theorem State.hpOverrun_tame {s0 s : State} (h : Tame s0 s) (c id : Nat) :
    Tame s0 (State.hpOverrun s c id) := by
  unfold State.hpOverrun
  repeat' first
    | refine Tame.pending ?_
    | refine Tame.fuse ?_
    | refine Tame.emgHost ?_
    | refine Tame.active ?_
    | refine Tame.maint ?_
    | with_reducible assumption
    | with_reducible apply State.onCan_tame
    | with_reducible apply State.event_tame
    | with_reducible apply State.canRec_tame
    | intro x
    | split
    | (clear_value *; split)
    | (with_reducible apply Tame.lit <;> (try dsimp only))

theorem State.hpPut_tame {s0 s : State} (h : Tame s0 s) (c : Nat) (h : HpFrame) :
    Tame s0 (State.hpPut s c h) := by
  unfold State.hpPut
  repeat' first
    | refine Tame.pending ?_
    | refine Tame.fuse ?_
    | refine Tame.emgHost ?_
    | refine Tame.active ?_
    | refine Tame.maint ?_
    | with_reducible assumption
    | with_reducible apply Tame.ite
    | with_reducible apply State.onCan_tame
    | with_reducible apply State.raiseIrq_tame
    | intro x
    | split
    | (clear_value *; split)
    | (with_reducible apply Tame.lit <;> (try dsimp only))

theorem State.hpFrame_tame {s0 s : State} (h : Tame s0 s) (c : Nat) (h : HpFrame) :
    Tame s0 (State.hpFrame s c h) := by
  unfold State.hpFrame
  repeat' first
    | refine Tame.pending ?_
    | refine Tame.fuse ?_
    | refine Tame.emgHost ?_
    | refine Tame.active ?_
    | refine Tame.maint ?_
    | (intro x; refine Tame.cut (s := s0) (t := x) ?_ (fun hx => ?_); subst x; rotate_left; (first | clear_value x | skip))
    | (lift_lets; intro x; refine Tame.cut (s := s0) (t := x) ?_ (fun hx => ?_); subst x; rotate_left; (first | clear_value x | skip))
    | (lift_lets; intro x)
    | with_reducible assumption
    | with_reducible apply Tame.ite
    | with_reducible apply State.onCan_tame
    | with_reducible apply State.hpOverrun_tame
    | with_reducible apply State.hpPut_tame
    | intro x
    | split
    | (clear_value *; split)
    | (with_reducible apply Tame.lit <;> (try dsimp only))

theorem State.hpRelease_tame {s0 s : State} (h : Tame s0 s) (c : Nat) :
    Tame s0 (State.hpRelease s c) := by
  unfold State.hpRelease
  repeat' first
    | refine Tame.pending ?_
    | refine Tame.fuse ?_
    | refine Tame.emgHost ?_
    | refine Tame.active ?_
    | refine Tame.maint ?_
    | (intro x; refine Tame.cut (s := s0) (t := x) ?_ (fun hx => ?_); subst x; rotate_left; (first | clear_value x | skip))
    | (lift_lets; intro x; refine Tame.cut (s := s0) (t := x) ?_ (fun hx => ?_); subst x; rotate_left; (first | clear_value x | skip))
    | (lift_lets; intro x)
    | with_reducible assumption
    | with_reducible apply Tame.ite
    | with_reducible apply State.onCan_tame
    | with_reducible apply State.hpOverrun_tame
    | with_reducible apply State.hpPut_tame
    | intro x
    | split
    | (clear_value *; split)
    | (with_reducible apply Tame.lit <;> (try dsimp only))

theorem State.rxDropped_tame {s0 s : State} (h : Tame s0 s) (c : Nat) :
    Tame s0 (State.rxDropped s c) := by
  unfold State.rxDropped
  repeat' first
    | refine Tame.pending ?_
    | refine Tame.fuse ?_
    | refine Tame.emgHost ?_
    | refine Tame.active ?_
    | refine Tame.maint ?_
    | with_reducible assumption
    | with_reducible apply State.onCan_tame
    | with_reducible apply State.event_tame
    | intro x
    | split
    | (clear_value *; split)
    | (with_reducible apply Tame.lit <;> (try dsimp only))

theorem State.recGood_tame {s0 s : State} (h : Tame s0 s) (c : Nat) :
    Tame s0 (State.recGood s c) := by
  unfold State.recGood
  repeat' first
    | refine Tame.pending ?_
    | refine Tame.fuse ?_
    | refine Tame.emgHost ?_
    | refine Tame.active ?_
    | refine Tame.maint ?_
    | (intro x; refine Tame.cut (s := s0) (t := x) ?_ (fun hx => ?_); subst x; rotate_left; (first | clear_value x | skip))
    | (lift_lets; intro x; refine Tame.cut (s := s0) (t := x) ?_ (fun hx => ?_); subst x; rotate_left; (first | clear_value x | skip))
    | (lift_lets; intro x)
    | with_reducible assumption
    | with_reducible apply Tame.ite
    | with_reducible apply State.onCan_tame
    | with_reducible apply State.draw_tame
    | (refine State.draw_tame' ?_ ‹_›)
    | intro x
    | split
    | (clear_value *; split)
    | (with_reducible apply Tame.lit <;> (try dsimp only))

theorem State.frameTake_tame {s0 s : State} (h : Tame s0 s) (c : Nat) (frame : CanFrame) (tSof : Nat) :
    Tame s0 (State.frameTake s c frame tSof) := by
  unfold State.frameTake
  repeat' first
    | (intro x; refine Tame.cut (s := s0) (t := x) ?_ (fun hx => ?_); subst x; rotate_left; (first | clear_value x | skip))
    | (lift_lets; intro x; refine Tame.cut (s := s0) (t := x) ?_ (fun hx => ?_); subst x; rotate_left; (first | clear_value x | skip))
    | (lift_lets; intro x)
    | with_reducible assumption
    | with_reducible apply Tame.ite
    | with_reducible apply State.at_tame
    | with_reducible apply State.record_tame
    | with_reducible apply State.act_tame
    | with_reducible apply State.canState_tame
    | with_reducible apply State.aloneClear_tame
    | with_reducible apply State.safeCheck_tame
    | (refine State.safeCheck_tame' ?_ ‹_›)
    | with_reducible apply State.netUpdate_tame
    | with_reducible apply State.hpFrame_tame
    | with_reducible apply State.rxDropped_tame
    | with_reducible apply State.recGood_tame
    | intro x
    | split
    | (clear_value *; split)

theorem execCanFrameReceived_tame {s0 s t : State} (c : Nat) (frame : CanFrame) (tSof : Nat) (h : Tame s0 s)
    (e : execCanFrameReceived c frame tSof s = .next t) : Tame s0 t := by
  unfold execCanFrameReceived at e
  injection e with e
  subst e
  repeat' first
    | (intro x; refine Tame.cut (s := s0) (t := x) ?_ (fun hx => ?_); subst x; rotate_left; (first | clear_value x | skip))
    | (lift_lets; intro x; refine Tame.cut (s := s0) (t := x) ?_ (fun hx => ?_); subst x; rotate_left; (first | clear_value x | skip))
    | (lift_lets; intro x)
    | with_reducible assumption
    | with_reducible apply Tame.ite
    | with_reducible apply State.frameTake_tame
    | intro x
    | split
    | (clear_value *; split)

theorem State.canStop_tame {s0 s : State} (h : Tame s0 s) (c : Nat) :
    Tame s0 (State.canStop s c) := by
  unfold State.canStop
  repeat' first
    | refine Tame.pending ?_
    | refine Tame.fuse ?_
    | refine Tame.emgHost ?_
    | refine Tame.active ?_
    | refine Tame.maint ?_
    | (intro x; refine Tame.cut (s := s0) (t := x) ?_ (fun hx => ?_); subst x; rotate_left; (first | clear_value x | skip))
    | (lift_lets; intro x; refine Tame.cut (s := s0) (t := x) ?_ (fun hx => ?_); subst x; rotate_left; (first | clear_value x | skip))
    | (lift_lets; intro x)
    | with_reducible assumption
    | with_reducible apply State.onCan_tame
    | with_reducible apply State.fail_tame
    | with_reducible apply State.flushCan_tame
    | (with_reducible apply Tame.foldl; rotate_left; intro y z hy)
    | intro x
    | split
    | (clear_value *; split)
    | (with_reducible apply Tame.lit <;> (try dsimp only))

end Sys2Proof.Machine
end

