-- ==== Sys2Proof/Laws/TameRingCmds.lean ====
section
/-! SUPPORT. The operations of Machine.RingCmds are tame. -/

namespace Sys2Proof.Machine

open Sys2Proof

set_option linter.unreachableTactic false
set_option linter.unusedTactic false

theorem execDoorbell_tame {s0 s t : State} (ring : Nat) (v : Word) (h : Tame s0 s)
    (e : execDoorbell ring v s = .next t) : Tame s0 t := by
  unfold execDoorbell at e
  injection e with e
  subst e
  repeat' first
    | with_reducible assumption
    | with_reducible apply Tame.ite
    | with_reducible apply State.doorbell_tame
    | split
    | (clear_value *; split)

theorem execDescriptorFetch_tame {s0 s t : State} (ring : Nat) (opcode : Nat) (d : Desc) (h : Tame s0 s)
    (e : execDescriptorFetch ring opcode d s = .next t) : Tame s0 t := by
  unfold execDescriptorFetch at e
  injection e with e
  subst e
  repeat' first
    | refine Tame.pending ?_
    | refine Tame.fuse ?_
    | refine Tame.emgHost ?_
    | refine Tame.active ?_
    | refine Tame.maint ?_
    | (intro x; refine Tame.cut (s := s0) (t := x) ?_ (fun hx => ?_); subst x; rotate_left; (first | clear_value x | skip))
    | (lift_lets; intro x; refine Tame.cut (s := s0) (t := x) ?_ (fun hx => ?_); subst x; rotate_left; (first | clear_value x | skip))
    | (lift_lets; intro x)
    | with_reducible assumption
    | with_reducible apply Tame.ite
    | with_reducible apply State.onRing_tame
    | with_reducible apply State.finish_tame
    | with_reducible apply State.shadow_tame
    | with_reducible apply State.ringErr_tame
    | intro x
    | split
    | (clear_value *; split)
    | (with_reducible apply Tame.lit <;> (try dsimp only))

theorem State.complete_tame {s0 s : State} (h : Tame s0 s) (cq : Nat) :
    Tame s0 (State.complete s cq) := by
  unfold State.complete
  repeat' first
    | refine Tame.pending ?_
    | refine Tame.fuse ?_
    | refine Tame.emgHost ?_
    | refine Tame.active ?_
    | refine Tame.maint ?_
    | (intro x; refine Tame.cut (s := s0) (t := x) ?_ (fun hx => ?_); subst x; rotate_left; (first | clear_value x | skip))
    | (lift_lets; intro x; refine Tame.cut (s := s0) (t := x) ?_ (fun hx => ?_); subst x; rotate_left; (first | clear_value x | skip))
    | (lift_lets; intro x)
    | with_reducible assumption
    | with_reducible apply Tame.ite
    | with_reducible apply State.onRing_tame
    | with_reducible apply State.emit_tame
    | with_reducible apply State.logMod_tame
    | with_reducible apply State.release_tame
    | with_reducible apply State.shadow_tame
    | with_reducible apply State.signal_tame
    | intro x
    | split
    | (clear_value *; split)
    | (with_reducible apply Tame.lit <;> (try dsimp only))

theorem execCompletionWrite_tame {s0 s t : State} (cq : Nat) (h : Tame s0 s)
    (e : execCompletionWrite cq s = .next t) : Tame s0 t := by
  unfold execCompletionWrite at e
  injection e with e
  subst e
  repeat' first
    | with_reducible assumption
    | with_reducible apply State.complete_tame
    | split
    | (clear_value *; split)

theorem State.recordLost_tame {s0 s : State} (h : Tame s0 s) (n : Nat) :
    Tame s0 (State.recordLost s n) := by
  unfold State.recordLost
  repeat' first
    | refine Tame.pending ?_
    | refine Tame.fuse ?_
    | refine Tame.emgHost ?_
    | refine Tame.active ?_
    | refine Tame.maint ?_
    | with_reducible assumption
    | with_reducible apply State.onRing_tame
    | with_reducible apply State.ringErr_tame
    | intro x
    | split
    | (clear_value *; split)
    | (with_reducible apply Tame.lit <;> (try dsimp only))

theorem State.recordWrite_tame {s0 s : State} (h : Tame s0 s) (fn : Nat) (post : Option BufPost) :
    Tame s0 (State.recordWrite s fn post) := by
  unfold State.recordWrite
  repeat' first
    | refine Tame.pending ?_
    | refine Tame.fuse ?_
    | refine Tame.emgHost ?_
    | refine Tame.active ?_
    | refine Tame.maint ?_
    | (intro x; refine Tame.cut (s := s0) (t := x) ?_ (fun hx => ?_); subst x; rotate_left; (first | clear_value x | skip))
    | (lift_lets; intro x; refine Tame.cut (s := s0) (t := x) ?_ (fun hx => ?_); subst x; rotate_left; (first | clear_value x | skip))
    | (lift_lets; intro x)
    | with_reducible assumption
    | with_reducible apply Tame.ite
    | with_reducible apply State.onRing_tame
    | with_reducible apply State.emit_tame
    | with_reducible apply State.rxDropped_tame
    | with_reducible apply State.shadow_tame
    | with_reducible apply State.signal_tame
    | with_reducible apply State.recordLost_tame
    | intro x
    | split
    | (clear_value *; split)
    | (with_reducible apply Tame.lit <;> (try dsimp only))

theorem execStreamRecordWrite_tame {s0 s t : State} (fn : Nat) (post : Option BufPost) (h : Tame s0 s)
    (e : execStreamRecordWrite fn post s = .next t) : Tame s0 t := by
  unfold execStreamRecordWrite at e
  injection e with e
  subst e
  repeat' first
    | with_reducible assumption
    | with_reducible apply State.streamsDone_tame
    | with_reducible apply State.recordWrite_tame
    | split
    | (clear_value *; split)

theorem execInterruptModerationTimeout_tame {s0 s t : State} (ring : Nat) (h : Tame s0 s)
    (e : execInterruptModerationTimeout ring s = .next t) : Tame s0 t := by
  unfold execInterruptModerationTimeout at e
  injection e with e
  subst e
  repeat' first
    | (intro x; refine Tame.cut (s := s0) (t := x) ?_ (fun hx => ?_); subst x; rotate_left; (first | clear_value x | skip))
    | (lift_lets; intro x; refine Tame.cut (s := s0) (t := x) ?_ (fun hx => ?_); subst x; rotate_left; (first | clear_value x | skip))
    | (lift_lets; intro x)
    | with_reducible assumption
    | with_reducible apply Tame.ite
    | with_reducible apply State.at_tame
    | with_reducible apply State.ringMessage_tame
    | intro x
    | split
    | (clear_value *; split)

theorem execMsixTableWrite_tame {s0 s t : State} (vec : Nat) (entry : MsixEntry) (h : Tame s0 s)
    (e : execMsixTableWrite vec entry s = .next t) : Tame s0 t := by
  unfold execMsixTableWrite at e
  injection e with e
  subst e
  repeat' first
    | refine Tame.pending ?_
    | refine Tame.fuse ?_
    | refine Tame.emgHost ?_
    | refine Tame.active ?_
    | refine Tame.maint ?_
    | (intro x; refine Tame.cut (s := s0) (t := x) ?_ (fun hx => ?_); subst x; rotate_left; (first | clear_value x | skip))
    | (lift_lets; intro x; refine Tame.cut (s := s0) (t := x) ?_ (fun hx => ?_); subst x; rotate_left; (first | clear_value x | skip))
    | (lift_lets; intro x)
    | with_reducible assumption
    | with_reducible apply Tame.ite
    | with_reducible apply State.emit_tame
    | with_reducible apply State.msix_tame
    | intro x
    | split
    | (clear_value *; split)
    | (with_reducible apply Tame.lit <;> (try dsimp only))

theorem execRingEnable_tame {s0 s t : State} (ring : Nat) (ctrl : Word) (h : Tame s0 s)
    (e : execRingEnable ring ctrl s = .next t) : Tame s0 t := by
  unfold execRingEnable at e
  injection e with e
  subst e
  repeat' first
    | with_reducible assumption
    | with_reducible apply Tame.ite
    | with_reducible apply State.ringCtrl_tame
    | split
    | (clear_value *; split)

theorem execRingDisable_tame {s0 s t : State} (ring : Nat) (ctrl : Word) (h : Tame s0 s)
    (e : execRingDisable ring ctrl s = .next t) : Tame s0 t := by
  unfold execRingDisable at e
  injection e with e
  subst e
  repeat' first
    | with_reducible assumption
    | with_reducible apply Tame.ite
    | with_reducible apply State.ringCtrl_tame
    | split
    | (clear_value *; split)

theorem execRingReset_tame {s0 s t : State} (ring : Nat) (ctrl : Word) (h : Tame s0 s)
    (e : execRingReset ring ctrl s = .next t) : Tame s0 t := by
  unfold execRingReset at e
  injection e with e
  subst e
  repeat' first
    | with_reducible assumption
    | with_reducible apply Tame.ite
    | with_reducible apply State.ringCtrl_tame
    | split
    | (clear_value *; split)

theorem execRingStatusClear_tame {s0 s t : State} (ring : Nat) (v : Word) (h : Tame s0 s)
    (e : execRingStatusClear ring v s = .next t) : Tame s0 t := by
  unfold execRingStatusClear at e
  injection e with e
  subst e
  repeat' first
    | refine Tame.pending ?_
    | refine Tame.fuse ?_
    | refine Tame.emgHost ?_
    | refine Tame.active ?_
    | refine Tame.maint ?_
    | with_reducible assumption
    | with_reducible apply Tame.ite
    | with_reducible apply State.onRing_tame
    | intro x
    | split
    | (clear_value *; split)
    | (with_reducible apply Tame.lit <;> (try dsimp only))

theorem execDmaError_tame {s0 s t : State} (ring : Nat) (h : Tame s0 s)
    (e : execDmaError ring s = .next t) : Tame s0 t := by
  unfold execDmaError at e
  injection e with e
  subst e
  repeat' first
    | with_reducible assumption
    | with_reducible apply Tame.ite
    | with_reducible apply State.ringErr_tame
    | with_reducible apply State.ringHalt_tame
    | split
    | (clear_value *; split)

theorem execPcieConfigRequest_tame {s0 s t : State} (q : CfgReq) (h : Tame s0 s)
    (e : execPcieConfigRequest q s = .next t) : Tame s0 t := by
  unfold execPcieConfigRequest at e
  injection e with e
  subst e
  repeat' first
    | refine Tame.pending ?_
    | refine Tame.fuse ?_
    | refine Tame.emgHost ?_
    | refine Tame.active ?_
    | refine Tame.maint ?_
    | (intro x; refine Tame.cut (s := s0) (t := x) ?_ (fun hx => ?_); subst x; rotate_left; (first | clear_value x | skip))
    | (lift_lets; intro x; refine Tame.cut (s := s0) (t := x) ?_ (fun hx => ?_); subst x; rotate_left; (first | clear_value x | skip))
    | (lift_lets; intro x)
    | with_reducible assumption
    | with_reducible apply Tame.ite
    | with_reducible apply State.driveIrq_tame
    | with_reducible apply State.msix_tame
    | intro x
    | split
    | (clear_value *; split)
    | (with_reducible apply Tame.lit <;> (try dsimp only))

theorem execHostInterfaceReady_tame {s0 s t : State}  (h : Tame s0 s)
    (e : execHostInterfaceReady s = .next t) : Tame s0 t := by
  unfold execHostInterfaceReady at e
  injection e with e
  subst e
  repeat' first
    | refine Tame.pending ?_
    | refine Tame.fuse ?_
    | refine Tame.emgHost ?_
    | refine Tame.active ?_
    | refine Tame.maint ?_
    | with_reducible assumption
    | with_reducible apply Tame.ite
    | split
    | (clear_value *; split)
    | (with_reducible apply Tame.lit <;> (try dsimp only))

theorem execPerstNAssert_tame {s0 s t : State}  (h : Tame s0 s)
    (e : execPerstNAssert s = .next t) : Tame s0 t := by
  unfold execPerstNAssert at e
  injection e with e
  subst e
  repeat' first
    | refine Tame.pending ?_
    | refine Tame.fuse ?_
    | refine Tame.emgHost ?_
    | refine Tame.active ?_
    | refine Tame.maint ?_
    | with_reducible assumption
    | with_reducible apply State.resetCause_tame
    | with_reducible apply State.hostReset_tame
    | split
    | (clear_value *; split)
    | (with_reducible apply Tame.lit <;> (try dsimp only))

theorem execLinkReset_tame {s0 s t : State}  (h : Tame s0 s)
    (e : execLinkReset s = .next t) : Tame s0 t := by
  unfold execLinkReset at e
  injection e with e
  subst e
  repeat' first
    | with_reducible assumption
    | with_reducible apply State.resetCause_tame
    | with_reducible apply State.hostReset_tame
    | split
    | (clear_value *; split)

theorem execD3hotEntry_tame {s0 s t : State}  (h : Tame s0 s)
    (e : execD3hotEntry s = .next t) : Tame s0 t := by
  unfold execD3hotEntry at e
  injection e with e
  subst e
  repeat' first
    | refine Tame.pending ?_
    | refine Tame.fuse ?_
    | refine Tame.emgHost ?_
    | refine Tame.active ?_
    | refine Tame.maint ?_
    | with_reducible assumption
    | with_reducible apply Tame.ite
    | with_reducible apply State.driveIrq_tame
    | split
    | (clear_value *; split)
    | (with_reducible apply Tame.lit <;> (try dsimp only))

theorem execD0Return_tame {s0 s t : State}  (h : Tame s0 s)
    (e : execD0Return s = .next t) : Tame s0 t := by
  unfold execD0Return at e
  injection e with e
  subst e
  repeat' first
    | refine Tame.pending ?_
    | refine Tame.fuse ?_
    | refine Tame.emgHost ?_
    | refine Tame.active ?_
    | refine Tame.maint ?_
    | (intro x; refine Tame.cut (s := s0) (t := x) ?_ (fun hx => ?_); subst x; rotate_left; (first | clear_value x | skip))
    | (lift_lets; intro x; refine Tame.cut (s := s0) (t := x) ?_ (fun hx => ?_); subst x; rotate_left; (first | clear_value x | skip))
    | (lift_lets; intro x)
    | with_reducible assumption
    | with_reducible apply Tame.ite
    | with_reducible apply State.emit_tame
    | with_reducible apply State.driveIrq_tame
    | with_reducible apply State.msix_tame
    | (with_reducible apply Tame.foldl; rotate_left; intro y z hy)
    | intro x
    | split
    | (clear_value *; split)
    | (with_reducible apply Tame.lit <;> (try dsimp only))

theorem State.softSafe_tame {s0 s : State} (h : Tame s0 s)  :
    Tame s0 (State.softSafe s) := by
  unfold State.softSafe
  repeat' first
    | with_reducible assumption
    | with_reducible apply Tame.ite
    | with_reducible apply State.safeReset_tame
    | split
    | (clear_value *; split)

theorem execSoftwareResetSvc_tame {s0 s t : State}  (h : Tame s0 s)
    (e : execSoftwareResetSvc s = .next t) : Tame s0 t := by
  unfold execSoftwareResetSvc at e
  injection e with e
  subst e
  repeat' first
    | with_reducible assumption
    | with_reducible apply Tame.ite
    | with_reducible apply State.svcReset_tame
    | split
    | (clear_value *; split)

theorem execSoftwareResetSafe_tame {s0 s t : State}  (h : Tame s0 s)
    (e : execSoftwareResetSafe s = .next t) : Tame s0 t := by
  unfold execSoftwareResetSafe at e
  injection e with e
  subst e
  repeat' first
    | with_reducible assumption
    | with_reducible apply Tame.ite
    | with_reducible apply State.softSafe_tame
    | split
    | (clear_value *; split)

theorem execSoftwareResetBoth_tame {s0 s t : State}  (h : Tame s0 s)
    (e : execSoftwareResetBoth s = .next t) : Tame s0 t := by
  unfold execSoftwareResetBoth at e
  injection e with e
  subst e
  repeat' first
    | with_reducible assumption
    | with_reducible apply Tame.ite
    | with_reducible apply State.svcReset_tame
    | with_reducible apply State.softSafe_tame
    | split
    | (clear_value *; split)

theorem execIrqStatusAck_tame {s0 s t : State} (v : Word) (h : Tame s0 s)
    (e : execIrqStatusAck v s = .next t) : Tame s0 t := by
  unfold execIrqStatusAck at e
  injection e with e
  subst e
  repeat' first
    | with_reducible assumption
    | with_reducible apply Tame.ite
    | with_reducible apply State.evClear_tame
    | split
    | (clear_value *; split)

theorem execRingPendAck_tame {s0 s t : State} (hi : Bool) (v : Word) (h : Tame s0 s)
    (e : execRingPendAck hi v s = .next t) : Tame s0 t := by
  unfold execRingPendAck at e
  injection e with e
  subst e
  repeat' first
    | with_reducible assumption
    | with_reducible apply Tame.ite
    | with_reducible apply State.evClear_tame
    | split
    | (clear_value *; split)

theorem execEventRegisterClear_tame {s0 s t : State} (reg : EvReg) (v : Word) (h : Tame s0 s)
    (e : execEventRegisterClear reg v s = .next t) : Tame s0 t := by
  unfold execEventRegisterClear at e
  injection e with e
  subst e
  repeat' first
    | with_reducible assumption
    | with_reducible apply Tame.ite
    | with_reducible apply State.evClear_tame
    | split
    | (clear_value *; split)

theorem execEventCounterClear_tame {s0 s t : State} (reg : EvReg) (h : Tame s0 s)
    (e : execEventCounterClear reg s = .next t) : Tame s0 t := by
  unfold execEventCounterClear at e
  injection e with e
  subst e
  repeat' first
    | with_reducible assumption
    | with_reducible apply Tame.ite
    | with_reducible apply State.cntClear_tame
    | split
    | (clear_value *; split)

theorem State.readOut_tame {s0 s : State} (h : Tame s0 s) (v : Nat) :
    Tame s0 (State.readOut s v) := by
  unfold State.readOut
  repeat' first
    | refine Tame.pending ?_
    | refine Tame.fuse ?_
    | refine Tame.emgHost ?_
    | refine Tame.active ?_
    | refine Tame.maint ?_
    | with_reducible assumption
    | split
    | (clear_value *; split)
    | (with_reducible apply Tame.lit <;> (try dsimp only))

theorem State.hpRead_tame {s0 s : State} (h : Tame s0 s) (c o : Nat) :
    Tame s0 (State.hpRead s c o) := by
  unfold State.hpRead
  repeat' first
    | refine Tame.pending ?_
    | refine Tame.fuse ?_
    | refine Tame.emgHost ?_
    | refine Tame.active ?_
    | refine Tame.maint ?_
    | (intro x; refine Tame.cut (s := s0) (t := x) ?_ (fun hx => ?_); subst x; rotate_left; (first | clear_value x | skip))
    | (lift_lets; intro x; refine Tame.cut (s := s0) (t := x) ?_ (fun hx => ?_); subst x; rotate_left; (first | clear_value x | skip))
    | (lift_lets; intro x)
    | with_reducible assumption
    | with_reducible apply Tame.ite
    | with_reducible apply State.onCan_tame
    | with_reducible apply State.readOut_tame
    | intro x
    | split
    | (clear_value *; split)
    | (with_reducible apply Tame.lit <;> (try dsimp only))

theorem execLoHalfRead_tame {s0 s t : State} (off : Nat) (h : Tame s0 s)
    (e : execLoHalfRead off s = .next t) : Tame s0 t := by
  unfold execLoHalfRead at e
  injection e with e
  subst e
  repeat' first
    | refine Tame.pending ?_
    | refine Tame.fuse ?_
    | refine Tame.emgHost ?_
    | refine Tame.active ?_
    | refine Tame.maint ?_
    | (intro x; refine Tame.cut (s := s0) (t := x) ?_ (fun hx => ?_); subst x; rotate_left; (first | clear_value x | skip))
    | (lift_lets; intro x; refine Tame.cut (s := s0) (t := x) ?_ (fun hx => ?_); subst x; rotate_left; (first | clear_value x | skip))
    | (lift_lets; intro x)
    | with_reducible assumption
    | with_reducible apply Tame.ite
    | with_reducible apply State.readOut_tame
    | with_reducible apply State.hpRead_tame
    | intro x
    | split
    | (clear_value *; split)
    | (with_reducible apply Tame.lit <;> (try dsimp only))

theorem execSpdCaptureRead_tame {s0 s t : State} (ch : Nat) (isIndex : Bool) (h : Tame s0 s)
    (e : execSpdCaptureRead ch isIndex s = .next t) : Tame s0 t := by
  unfold execSpdCaptureRead at e
  injection e with e
  subst e
  repeat' first
    | refine Tame.pending ?_
    | refine Tame.fuse ?_
    | refine Tame.emgHost ?_
    | refine Tame.active ?_
    | refine Tame.maint ?_
    | (intro x; refine Tame.cut (s := s0) (t := x) ?_ (fun hx => ?_); subst x; rotate_left; (first | clear_value x | skip))
    | (lift_lets; intro x; refine Tame.cut (s := s0) (t := x) ?_ (fun hx => ?_); subst x; rotate_left; (first | clear_value x | skip))
    | (lift_lets; intro x)
    | with_reducible assumption
    | with_reducible apply Tame.ite
    | with_reducible apply State.readOut_tame
    | intro x
    | split
    | (clear_value *; split)
    | (with_reducible apply Tame.lit <;> (try dsimp only))

theorem execCollCntRead_tame {s0 s t : State} (c : Nat) (h : Tame s0 s)
    (e : execCollCntRead c s = .next t) : Tame s0 t := by
  unfold execCollCntRead at e
  injection e with e
  subst e
  repeat' first
    | refine Tame.pending ?_
    | refine Tame.fuse ?_
    | refine Tame.emgHost ?_
    | refine Tame.active ?_
    | refine Tame.maint ?_
    | with_reducible assumption
    | with_reducible apply Tame.ite
    | with_reducible apply State.onCan_tame
    | with_reducible apply State.readOut_tame
    | intro x
    | split
    | (clear_value *; split)
    | (with_reducible apply Tame.lit <;> (try dsimp only))

theorem execHpWindowRead_tame {s0 s t : State} (c : Nat) (off : Nat) (h : Tame s0 s)
    (e : execHpWindowRead c off s = .next t) : Tame s0 t := by
  unfold execHpWindowRead at e
  injection e with e
  subst e
  repeat' first
    | with_reducible assumption
    | with_reducible apply Tame.ite
    | with_reducible apply State.hpRead_tame
    | split
    | (clear_value *; split)

theorem execHpStatRead_tame {s0 s t : State} (c : Nat) (h : Tame s0 s)
    (e : execHpStatRead c s = .next t) : Tame s0 t := by
  unfold execHpStatRead at e
  injection e with e
  subst e
  repeat' first
    | refine Tame.pending ?_
    | refine Tame.fuse ?_
    | refine Tame.emgHost ?_
    | refine Tame.active ?_
    | refine Tame.maint ?_
    | (intro x; refine Tame.cut (s := s0) (t := x) ?_ (fun hx => ?_); subst x; rotate_left; (first | clear_value x | skip))
    | (lift_lets; intro x; refine Tame.cut (s := s0) (t := x) ?_ (fun hx => ?_); subst x; rotate_left; (first | clear_value x | skip))
    | (lift_lets; intro x)
    | with_reducible assumption
    | with_reducible apply Tame.ite
    | with_reducible apply State.onCan_tame
    | with_reducible apply State.hpRelease_tame
    | with_reducible apply State.readOut_tame
    | intro x
    | split
    | (clear_value *; split)
    | (with_reducible apply Tame.lit <;> (try dsimp only))

theorem execHpLockTimeout_tame {s0 s t : State} (c : Nat) (h : Tame s0 s)
    (e : execHpLockTimeout c s = .next t) : Tame s0 t := by
  unfold execHpLockTimeout at e
  injection e with e
  subst e
  repeat' first
    | refine Tame.pending ?_
    | refine Tame.fuse ?_
    | refine Tame.emgHost ?_
    | refine Tame.active ?_
    | refine Tame.maint ?_
    | (intro x; refine Tame.cut (s := s0) (t := x) ?_ (fun hx => ?_); subst x; rotate_left; (first | clear_value x | skip))
    | (lift_lets; intro x; refine Tame.cut (s := s0) (t := x) ?_ (fun hx => ?_); subst x; rotate_left; (first | clear_value x | skip))
    | (lift_lets; intro x)
    | with_reducible assumption
    | with_reducible apply Tame.ite
    | with_reducible apply State.onCan_tame
    | with_reducible apply State.at_tame
    | with_reducible apply State.hpRelease_tame
    | intro x
    | split
    | (clear_value *; split)
    | (with_reducible apply Tame.lit <;> (try dsimp only))

theorem State.ringWrite_tame {s0 s : State} (h : Tame s0 s) (n o : Nat) (v : Word) :
    Tame s0 (State.ringWrite s n o v) := by
  unfold State.ringWrite
  repeat' first
    | refine Tame.pending ?_
    | refine Tame.fuse ?_
    | refine Tame.emgHost ?_
    | refine Tame.active ?_
    | refine Tame.maint ?_
    | (intro x; refine Tame.cut (s := s0) (t := x) ?_ (fun hx => ?_); subst x; rotate_left; (first | clear_value x | skip))
    | (lift_lets; intro x; refine Tame.cut (s := s0) (t := x) ?_ (fun hx => ?_); subst x; rotate_left; (first | clear_value x | skip))
    | (lift_lets; intro x)
    | with_reducible assumption
    | with_reducible apply Tame.ite
    | with_reducible apply State.onRing_tame
    | with_reducible apply State.shadow_tame
    | with_reducible apply State.ringCtrl_tame
    | intro x
    | split
    | (clear_value *; split)
    | (with_reducible apply Tame.lit <;> (try dsimp only))

theorem execRegisterWrite_tame {s0 s t : State} (off : Nat) (v : Word) (h : Tame s0 s)
    (e : execRegisterWrite off v s = .next t) : Tame s0 t := by
  unfold execRegisterWrite at e
  injection e with e
  subst e
  repeat' first
    | refine Tame.pending ?_
    | refine Tame.fuse ?_
    | refine Tame.emgHost ?_
    | refine Tame.active ?_
    | refine Tame.maint ?_
    | with_reducible assumption
    | with_reducible apply Tame.ite
    | with_reducible apply State.onIrqc_tame
    | with_reducible apply State.onAxle_tame
    | with_reducible apply State.driveIrq_tame
    | with_reducible apply State.svcReset_tame
    | with_reducible apply State.evClear_tame
    | with_reducible apply State.cntClear_tame
    | with_reducible apply State.doorbell_tame
    | with_reducible apply State.softSafe_tame
    | with_reducible apply State.ringWrite_tame
    | intro x
    | split
    | (clear_value *; split)
    | (with_reducible apply Tame.lit <;> (try dsimp only))

end Sys2Proof.Machine
end

