-- ==== Sys2Proof/Laws/TameSweepCore.lean ====
section
/-! SUPPORT. The operations of Machine.SweepCore are tame. -/

namespace Sys2Proof.Machine

open Sys2Proof

set_option linter.unreachableTactic false
set_option linter.unusedTactic false

theorem State.sweepBegin_tame {s0 s : State} (h : Tame s0 s) (p S seq mode : Nat) (temps stack ow : Bool) (c t : Nat) :
    Tame s0 (State.sweepBegin s p S seq mode temps stack ow c t) := by
  unfold State.sweepBegin
  repeat' first
    | refine Tame.pending ?_
    | refine Tame.fuse ?_
    | refine Tame.emgHost ?_
    | refine Tame.active ?_
    | refine Tame.maint ?_
    | (intro x; refine Tame.cut (s := s0) (t := x) ?_ (fun hx => ?_); subst x; rotate_left; (first | clear_value x | skip))
    | (lift_lets; intro x; refine Tame.cut (s := s0) (t := x) ?_ (fun hx => ?_); subst x; rotate_left; (first | clear_value x | skip))
    | (lift_lets; intro x)
    | with_reducible assumption
    | with_reducible apply Tame.ite
    | with_reducible apply State.onPort_tame
    | with_reducible apply State.onStr_tame
    | with_reducible apply State.fMinStep_tame
    | with_reducible apply State.takeover_tame
    | intro x
    | split
    | (clear_value *; split)
    | (with_reducible apply Tame.lit <;> (try dsimp only))

theorem State.cellIn_tame {s0 s : State} (h : Tame s0 s) (p a o ch : Nat) (x : Nat × Bool × Bool) :
    Tame s0 (State.cellIn s p a o ch x) := by
  unfold State.cellIn
  repeat' first
    | refine Tame.pending ?_
    | refine Tame.fuse ?_
    | refine Tame.emgHost ?_
    | refine Tame.active ?_
    | refine Tame.maint ?_
    | (intro x; refine Tame.cut (s := s0) (t := x) ?_ (fun hx => ?_); subst x; rotate_left; (first | clear_value x | skip))
    | (lift_lets; intro x; refine Tame.cut (s := s0) (t := x) ?_ (fun hx => ?_); subst x; rotate_left; (first | clear_value x | skip))
    | (lift_lets; intro x)
    | with_reducible assumption
    | with_reducible apply Tame.ite
    | with_reducible apply State.onCell_tame
    | with_reducible apply State.onEst_tame
    | intro x
    | split
    | (clear_value *; split)
    | (with_reducible apply Tame.lit <;> (try dsimp only))

theorem State.blockData_tame {s0 s : State} (h : Tame s0 s) (p : Nat) (b : Block) :
    Tame s0 (State.blockData s p b) := by
  unfold State.blockData
  repeat' first
    | refine Tame.pending ?_
    | refine Tame.fuse ?_
    | refine Tame.emgHost ?_
    | refine Tame.active ?_
    | refine Tame.maint ?_
    | (intro x; refine Tame.cut (s := s0) (t := x) ?_ (fun hx => ?_); subst x; rotate_left; (first | clear_value x | skip))
    | (lift_lets; intro x; refine Tame.cut (s := s0) (t := x) ?_ (fun hx => ?_); subst x; rotate_left; (first | clear_value x | skip))
    | (lift_lets; intro x)
    | with_reducible assumption
    | with_reducible apply Tame.ite
    | with_reducible apply State.onNode_tame
    | with_reducible apply State.onStr_tame
    | with_reducible apply State.setCond_tame
    | with_reducible apply State.tempIn_tame
    | with_reducible apply State.cellIn_tame
    | (with_reducible apply Tame.foldl; rotate_left; intro y z hy)
    | intro x
    | split
    | (clear_value *; split)
    | (with_reducible apply Tame.lit <;> (try dsimp only))

theorem State.blockIn_tame {s0 s : State} (h : Tame s0 s) (p : Nat) (b : Block) :
    Tame s0 (State.blockIn s p b) := by
  unfold State.blockIn
  repeat' first
    | refine Tame.pending ?_
    | refine Tame.fuse ?_
    | refine Tame.emgHost ?_
    | refine Tame.active ?_
    | refine Tame.maint ?_
    | (intro x; refine Tame.cut (s := s0) (t := x) ?_ (fun hx => ?_); subst x; rotate_left; (first | clear_value x | skip))
    | (lift_lets; intro x; refine Tame.cut (s := s0) (t := x) ?_ (fun hx => ?_); subst x; rotate_left; (first | clear_value x | skip))
    | (lift_lets; intro x)
    | with_reducible assumption
    | with_reducible apply Tame.ite
    | with_reducible apply State.onPort_tame
    | with_reducible apply State.onNode_tame
    | with_reducible apply State.f31Settle_tame
    | with_reducible apply State.nodeTone_tame
    | with_reducible apply State.blockData_tame
    | intro x
    | split
    | (clear_value *; split)
    | (with_reducible apply Tame.lit <;> (try dsimp only))

theorem State.judge_tame {s0 s : State} (h : Tame s0 s) (n p : Nat) (us_ : List (Nat × Nat × Bool)) (hit : Nat × Nat × Bool → Bool) :
    Tame s0 (State.judge s n p us_ hit) := by
  unfold State.judge
  repeat' first
    | with_reducible assumption
    | with_reducible apply Tame.ite
    | with_reducible apply State.stand_tame
    | with_reducible apply State.cease_tame
    | intro x
    | split
    | (clear_value *; split)

theorem State.voltFaults_tame {s0 s : State} (h : Tame s0 s) (p S : Nat) :
    Tame s0 (State.voltFaults s p S) := by
  unfold State.voltFaults
  repeat' first
    | (intro x; refine Tame.cut (s := s0) (t := x) ?_ (fun hx => ?_); subst x; rotate_left; (first | clear_value x | skip))
    | (lift_lets; intro x; refine Tame.cut (s := s0) (t := x) ?_ (fun hx => ?_); subst x; rotate_left; (first | clear_value x | skip))
    | (lift_lets; intro x)
    | with_reducible assumption
    | with_reducible apply State.judge_tame
    | intro x
    | split
    | (clear_value *; split)

theorem State.stackFault_tame {s0 s : State} (h : Tame s0 s) (p : Nat) :
    Tame s0 (State.stackFault s p) := by
  unfold State.stackFault
  repeat' first
    | (intro x; refine Tame.cut (s := s0) (t := x) ?_ (fun hx => ?_); subst x; rotate_left; (first | clear_value x | skip))
    | (lift_lets; intro x; refine Tame.cut (s := s0) (t := x) ?_ (fun hx => ?_); subst x; rotate_left; (first | clear_value x | skip))
    | (lift_lets; intro x)
    | with_reducible assumption
    | with_reducible apply Tame.ite
    | with_reducible apply State.stand_tame
    | with_reducible apply State.cease_tame
    | intro x
    | split
    | (clear_value *; split)

theorem State.tempFaults_tame {s0 s : State} (h : Tame s0 s) (p : Nat) :
    Tame s0 (State.tempFaults s p) := by
  unfold State.tempFaults
  repeat' first
    | with_reducible assumption
    | with_reducible apply State.f09Settle_tame
    | with_reducible apply State.zoneDerate_tame
    | (with_reducible apply Tame.foldl; rotate_left; intro y z hy)
    | intro x
    | split
    | (clear_value *; split)

theorem State.suspect_tame {s0 s : State} (h : Tame s0 s) (g : Nat) :
    Tame s0 (State.suspect s g) := by
  unfold State.suspect
  repeat' first
    | refine Tame.pending ?_
    | refine Tame.fuse ?_
    | refine Tame.emgHost ?_
    | refine Tame.active ?_
    | refine Tame.maint ?_
    | with_reducible assumption
    | with_reducible apply State.onCell_tame
    | with_reducible apply State.suspect_tame
    | intro x
    | split
    | (clear_value *; split)
    | (with_reducible apply Tame.lit <;> (try dsimp only))

theorem State.owRequested_tame {s0 s : State} (h : Tame s0 s) (p : Nat) :
    Tame s0 (State.owRequested s p) := by
  unfold State.owRequested
  repeat' first
    | refine Tame.pending ?_
    | refine Tame.fuse ?_
    | refine Tame.emgHost ?_
    | refine Tame.active ?_
    | refine Tame.maint ?_
    | (intro x; refine Tame.cut (s := s0) (t := x) ?_ (fun hx => ?_); subst x; rotate_left; (first | clear_value x | skip))
    | (lift_lets; intro x; refine Tame.cut (s := s0) (t := x) ?_ (fun hx => ?_); subst x; rotate_left; (first | clear_value x | skip))
    | (lift_lets; intro x)
    | with_reducible assumption
    | with_reducible apply Tame.ite
    | with_reducible apply State.onPort_tame
    | with_reducible apply State.sendEvt_tame
    | with_reducible apply State.sedgeAbort_tame
    | intro x
    | split
    | (clear_value *; split)
    | (with_reducible apply Tame.lit <;> (try dsimp only))

theorem State.signatureNode_tame {s0 s : State} (h : Tame s0 s) (p o : Nat) :
    Tame s0 (State.signatureNode s p o) := by
  unfold State.signatureNode
  repeat' first
    | refine Tame.pending ?_
    | refine Tame.fuse ?_
    | refine Tame.emgHost ?_
    | refine Tame.active ?_
    | refine Tame.maint ?_
    | (intro x; refine Tame.cut (s := s0) (t := x) ?_ (fun hx => ?_); subst x; rotate_left; (first | clear_value x | skip))
    | (lift_lets; intro x; refine Tame.cut (s := s0) (t := x) ?_ (fun hx => ?_); subst x; rotate_left; (first | clear_value x | skip))
    | (lift_lets; intro x)
    | with_reducible assumption
    | with_reducible apply Tame.ite
    | with_reducible apply State.onNode_tame
    | with_reducible apply State.onCell_tame
    | with_reducible apply State.suspect_tame
    | with_reducible apply State.owRequested_tame
    | (with_reducible apply Tame.foldl; rotate_left; intro y z hy)
    | intro x
    | split
    | (clear_value *; split)
    | (with_reducible apply Tame.lit <;> (try dsimp only))

theorem State.signature_tame {s0 s : State} (h : Tame s0 s) (p : Nat) :
    Tame s0 (State.signature s p) := by
  unfold State.signature
  repeat' first
    | with_reducible assumption
    | with_reducible apply State.signatureNode_tame
    | (with_reducible apply Tame.foldl; rotate_left; intro y z hy)
    | intro x
    | split
    | (clear_value *; split)

theorem State.owSet_tame {s0 s : State} (h : Tame s0 s) (p mask : Nat) :
    Tame s0 (State.owSet s p mask) := by
  unfold State.owSet
  repeat' first
    | refine Tame.pending ?_
    | refine Tame.fuse ?_
    | refine Tame.emgHost ?_
    | refine Tame.active ?_
    | refine Tame.maint ?_
    | with_reducible assumption
    | with_reducible apply Tame.ite
    | with_reducible apply State.onPort_tame
    | with_reducible apply State.broadcast_tame
    | intro x
    | split
    | (clear_value *; split)
    | (with_reducible apply Tame.lit <;> (try dsimp only))

theorem State.owBegin_tame {s0 s : State} (h : Tame s0 s) (p S : Nat) :
    Tame s0 (State.owBegin s p S) := by
  unfold State.owBegin
  repeat' first
    | refine Tame.pending ?_
    | refine Tame.fuse ?_
    | refine Tame.emgHost ?_
    | refine Tame.active ?_
    | refine Tame.maint ?_
    | (intro x; refine Tame.cut (s := s0) (t := x) ?_ (fun hx => ?_); subst x; rotate_left; (first | clear_value x | skip))
    | (lift_lets; intro x; refine Tame.cut (s := s0) (t := x) ?_ (fun hx => ?_); subst x; rotate_left; (first | clear_value x | skip))
    | (lift_lets; intro x)
    | with_reducible assumption
    | with_reducible apply State.onPort_tame
    | with_reducible apply State.onNode_tame
    | (with_reducible apply Tame.foldl; rotate_left; intro y z hy)
    | intro x
    | split
    | (clear_value *; split)
    | (with_reducible apply Tame.lit <;> (try dsimp only))

theorem State.owStart_tame {s0 s : State} (h : Tame s0 s) (p : Nat) :
    Tame s0 (State.owStart s p) := by
  unfold State.owStart
  repeat' first
    | (intro x; refine Tame.cut (s := s0) (t := x) ?_ (fun hx => ?_); subst x; rotate_left; (first | clear_value x | skip))
    | (lift_lets; intro x; refine Tame.cut (s := s0) (t := x) ?_ (fun hx => ?_); subst x; rotate_left; (first | clear_value x | skip))
    | (lift_lets; intro x)
    | with_reducible assumption
    | with_reducible apply State.planTell_tame
    | with_reducible apply State.owSet_tame
    | with_reducible apply State.owBegin_tame
    | intro x
    | split
    | (clear_value *; split)

theorem State.owMissed_tame {s0 s : State} (h : Tame s0 s) (p S : Nat) :
    Tame s0 (State.owMissed s p S) := by
  unfold State.owMissed
  repeat' first
    | refine Tame.pending ?_
    | refine Tame.fuse ?_
    | refine Tame.emgHost ?_
    | refine Tame.active ?_
    | refine Tame.maint ?_
    | (intro x; refine Tame.cut (s := s0) (t := x) ?_ (fun hx => ?_); subst x; rotate_left; (first | clear_value x | skip))
    | (lift_lets; intro x; refine Tame.cut (s := s0) (t := x) ?_ (fun hx => ?_); subst x; rotate_left; (first | clear_value x | skip))
    | (lift_lets; intro x)
    | with_reducible assumption
    | with_reducible apply Tame.ite
    | with_reducible apply State.onPort_tame
    | with_reducible apply State.owRequested_tame
    | intro x
    | split
    | (clear_value *; split)
    | (with_reducible apply Tame.lit <;> (try dsimp only))

theorem State.owTry_tame {s0 s : State} (h : Tame s0 s) (p : Nat) :
    Tame s0 (State.owTry s p) := by
  unfold State.owTry
  repeat' first
    | (intro x; refine Tame.cut (s := s0) (t := x) ?_ (fun hx => ?_); subst x; rotate_left; (first | clear_value x | skip))
    | (lift_lets; intro x; refine Tame.cut (s := s0) (t := x) ?_ (fun hx => ?_); subst x; rotate_left; (first | clear_value x | skip))
    | (lift_lets; intro x)
    | with_reducible assumption
    | with_reducible apply Tame.ite
    | with_reducible apply State.sedgeAbort_tame
    | with_reducible apply State.burstOff_tame
    | with_reducible apply State.owStart_tame
    | with_reducible apply State.burstDue_tame
    | with_reducible apply State.takeover_tame
    | intro x
    | split
    | (clear_value *; split)

theorem State.degradedRec_tame {s0 s : State} (h : Tame s0 s) (g pos code n : Nat) :
    Tame s0 (State.degradedRec s g pos code n) := by
  unfold State.degradedRec
  repeat' first
    | with_reducible assumption
    | with_reducible apply State.eventRec_tame
    | split
    | (clear_value *; split)

theorem State.owApply_tame {s0 s : State} (h : Tame s0 s) (g r : Nat) :
    Tame s0 (State.owApply s g r) := by
  unfold State.owApply
  repeat' first
    | refine Tame.pending ?_
    | refine Tame.fuse ?_
    | refine Tame.emgHost ?_
    | refine Tame.active ?_
    | refine Tame.maint ?_
    | (intro x; refine Tame.cut (s := s0) (t := x) ?_ (fun hx => ?_); subst x; rotate_left; (first | clear_value x | skip))
    | (lift_lets; intro x; refine Tame.cut (s := s0) (t := x) ?_ (fun hx => ?_); subst x; rotate_left; (first | clear_value x | skip))
    | (lift_lets; intro x)
    | with_reducible assumption
    | with_reducible apply Tame.ite
    | with_reducible apply State.onCell_tame
    | with_reducible apply State.suspect_tame
    | with_reducible apply State.degradedRec_tame
    | intro x
    | split
    | (clear_value *; split)
    | (with_reducible apply Tame.lit <;> (try dsimp only))

theorem State.tapNew_tame {s0 s : State} (h : Tame s0 s) (p o ch : Nat) :
    Tame s0 (State.tapNew s p o ch) := by
  unfold State.tapNew
  repeat' first
    | refine Tame.pending ?_
    | refine Tame.fuse ?_
    | refine Tame.emgHost ?_
    | refine Tame.active ?_
    | refine Tame.maint ?_
    | (intro x; refine Tame.cut (s := s0) (t := x) ?_ (fun hx => ?_); subst x; rotate_left; (first | clear_value x | skip))
    | (lift_lets; intro x; refine Tame.cut (s := s0) (t := x) ?_ (fun hx => ?_); subst x; rotate_left; (first | clear_value x | skip))
    | (lift_lets; intro x)
    | with_reducible assumption
    | with_reducible apply Tame.ite
    | with_reducible apply State.onCell_tame
    | with_reducible apply State.sendEvt_tame
    | with_reducible apply State.mirrorDue_tame
    | with_reducible apply State.sendTo_tame
    | intro x
    | split
    | (clear_value *; split)
    | (with_reducible apply Tame.lit <;> (try dsimp only))

theorem State.f05Settle_tame {s0 s : State} (h : Tame s0 s) (p : Nat) :
    Tame s0 (State.f05Settle s p) := by
  unfold State.f05Settle
  repeat' first
    | (intro x; refine Tame.cut (s := s0) (t := x) ?_ (fun hx => ?_); subst x; rotate_left; (first | clear_value x | skip))
    | (lift_lets; intro x; refine Tame.cut (s := s0) (t := x) ?_ (fun hx => ?_); subst x; rotate_left; (first | clear_value x | skip))
    | (lift_lets; intro x)
    | with_reducible assumption
    | with_reducible apply State.setCond_tame
    | intro x
    | split
    | (clear_value *; split)

theorem State.owNode_tame {s0 s : State} (h : Tame s0 s) (p o : Nat) :
    Tame s0 (State.owNode s p o) := by
  unfold State.owNode
  repeat' first
    | refine Tame.pending ?_
    | refine Tame.fuse ?_
    | refine Tame.emgHost ?_
    | refine Tame.active ?_
    | refine Tame.maint ?_
    | (intro x; refine Tame.cut (s := s0) (t := x) ?_ (fun hx => ?_); subst x; rotate_left; (first | clear_value x | skip))
    | (lift_lets; intro x; refine Tame.cut (s := s0) (t := x) ?_ (fun hx => ?_); subst x; rotate_left; (first | clear_value x | skip))
    | (lift_lets; intro x)
    | with_reducible assumption
    | with_reducible apply Tame.ite
    | with_reducible apply State.onCell_tame
    | with_reducible apply State.owApply_tame
    | with_reducible apply State.tapNew_tame
    | (with_reducible apply Tame.foldl; rotate_left; intro y z hy)
    | intro x
    | split
    | (clear_value *; split)
    | (with_reducible apply Tame.lit <;> (try dsimp only))

theorem State.owClassify_tame {s0 s : State} (h : Tame s0 s) (p : Nat) :
    Tame s0 (State.owClassify s p) := by
  unfold State.owClassify
  repeat' first
    | refine Tame.pending ?_
    | refine Tame.fuse ?_
    | refine Tame.emgHost ?_
    | refine Tame.active ?_
    | refine Tame.maint ?_
    | (intro x; refine Tame.cut (s := s0) (t := x) ?_ (fun hx => ?_); subst x; rotate_left; (first | clear_value x | skip))
    | (lift_lets; intro x; refine Tame.cut (s := s0) (t := x) ?_ (fun hx => ?_); subst x; rotate_left; (first | clear_value x | skip))
    | (lift_lets; intro x)
    | with_reducible assumption
    | with_reducible apply Tame.ite
    | with_reducible apply State.onPort_tame
    | with_reducible apply State.okay_tame
    | with_reducible apply State.owRequested_tame
    | with_reducible apply State.f05Settle_tame
    | with_reducible apply State.owNode_tame
    | (with_reducible apply Tame.foldl; rotate_left; intro y z hy)
    | intro x
    | split
    | (clear_value *; split)
    | (with_reducible apply Tame.lit <;> (try dsimp only))

theorem State.owAdvance_tame {s0 s : State} (h : Tame s0 s) (p : Nat) :
    Tame s0 (State.owAdvance s p) := by
  unfold State.owAdvance
  repeat' first
    | refine Tame.pending ?_
    | refine Tame.fuse ?_
    | refine Tame.emgHost ?_
    | refine Tame.active ?_
    | refine Tame.maint ?_
    | (intro x; refine Tame.cut (s := s0) (t := x) ?_ (fun hx => ?_); subst x; rotate_left; (first | clear_value x | skip))
    | (lift_lets; intro x; refine Tame.cut (s := s0) (t := x) ?_ (fun hx => ?_); subst x; rotate_left; (first | clear_value x | skip))
    | (lift_lets; intro x)
    | with_reducible assumption
    | with_reducible apply Tame.ite
    | with_reducible apply State.onPort_tame
    | with_reducible apply State.onNode_tame
    | with_reducible apply State.owSet_tame
    | with_reducible apply State.owClassify_tame
    | (with_reducible apply Tame.foldl; rotate_left; intro y z hy)
    | intro x
    | split
    | (clear_value *; split)
    | (with_reducible apply Tame.lit <;> (try dsimp only))

theorem State.burstTry_tame {s0 s : State} (h : Tame s0 s) (p : Nat) :
    Tame s0 (State.burstTry s p) := by
  unfold State.burstTry
  repeat' first
    | refine Tame.pending ?_
    | refine Tame.fuse ?_
    | refine Tame.emgHost ?_
    | refine Tame.active ?_
    | refine Tame.maint ?_
    | (intro x; refine Tame.cut (s := s0) (t := x) ?_ (fun hx => ?_); subst x; rotate_left; (first | clear_value x | skip))
    | (lift_lets; intro x; refine Tame.cut (s := s0) (t := x) ?_ (fun hx => ?_); subst x; rotate_left; (first | clear_value x | skip))
    | (lift_lets; intro x)
    | with_reducible assumption
    | with_reducible apply Tame.ite
    | with_reducible apply State.onPort_tame
    | with_reducible apply State.planKick_tame
    | with_reducible apply State.planTell_tame
    | with_reducible apply State.burstDue_tame
    | intro x
    | split
    | (clear_value *; split)
    | (with_reducible apply Tame.lit <;> (try dsimp only))

theorem State.stage_tame {s0 s : State} (h : Tame s0 s) (p : Nat) :
    Tame s0 (State.stage s p) := by
  unfold State.stage
  repeat' first
    | refine Tame.pending ?_
    | refine Tame.fuse ?_
    | refine Tame.emgHost ?_
    | refine Tame.active ?_
    | refine Tame.maint ?_
    | (intro x; refine Tame.cut (s := s0) (t := x) ?_ (fun hx => ?_); subst x; rotate_left; (first | clear_value x | skip))
    | (lift_lets; intro x; refine Tame.cut (s := s0) (t := x) ?_ (fun hx => ?_); subst x; rotate_left; (first | clear_value x | skip))
    | (lift_lets; intro x)
    | with_reducible assumption
    | with_reducible apply Tame.ite
    | intro x
    | split
    | (clear_value *; split)
    | (with_reducible apply Tame.lit <;> (try dsimp only))

theorem State.staleMarks_tame {s0 s : State} (h : Tame s0 s) (p : Nat) :
    Tame s0 (State.staleMarks s p) := by
  unfold State.staleMarks
  repeat' first
    | refine Tame.pending ?_
    | refine Tame.fuse ?_
    | refine Tame.emgHost ?_
    | refine Tame.active ?_
    | refine Tame.maint ?_
    | (intro x; refine Tame.cut (s := s0) (t := x) ?_ (fun hx => ?_); subst x; rotate_left; (first | clear_value x | skip))
    | (lift_lets; intro x; refine Tame.cut (s := s0) (t := x) ?_ (fun hx => ?_); subst x; rotate_left; (first | clear_value x | skip))
    | (lift_lets; intro x)
    | with_reducible assumption
    | with_reducible apply Tame.ite
    | with_reducible apply State.onNode_tame
    | with_reducible apply State.onCell_tame
    | (with_reducible apply Tame.foldl; rotate_left; intro y z hy)
    | intro x
    | split
    | (clear_value *; split)
    | (with_reducible apply Tame.lit <;> (try dsimp only))

theorem State.blocksSeen_tame {s0 s : State} (h : Tame s0 s) (p : Nat) :
    Tame s0 (State.blocksSeen s p) := by
  unfold State.blocksSeen
  repeat' first
    | refine Tame.pending ?_
    | refine Tame.fuse ?_
    | refine Tame.emgHost ?_
    | refine Tame.active ?_
    | refine Tame.maint ?_
    | (intro x; refine Tame.cut (s := s0) (t := x) ?_ (fun hx => ?_); subst x; rotate_left; (first | clear_value x | skip))
    | (lift_lets; intro x; refine Tame.cut (s := s0) (t := x) ?_ (fun hx => ?_); subst x; rotate_left; (first | clear_value x | skip))
    | (lift_lets; intro x)
    | with_reducible assumption
    | with_reducible apply Tame.ite
    | with_reducible apply State.onNode_tame
    | with_reducible apply State.seekLost_tame
    | (with_reducible apply Tame.foldl; rotate_left; intro y z hy)
    | intro x
    | split
    | (clear_value *; split)
    | (with_reducible apply Tame.lit <;> (try dsimp only))

theorem State.firstSweeps_tame {s0 s : State} (h : Tame s0 s) (p : Nat) :
    Tame s0 (State.firstSweeps s p) := by
  unfold State.firstSweeps
  repeat' first
    | refine Tame.pending ?_
    | refine Tame.fuse ?_
    | refine Tame.emgHost ?_
    | refine Tame.active ?_
    | refine Tame.maint ?_
    | (intro x; refine Tame.cut (s := s0) (t := x) ?_ (fun hx => ?_); subst x; rotate_left; (first | clear_value x | skip))
    | (lift_lets; intro x; refine Tame.cut (s := s0) (t := x) ?_ (fun hx => ?_); subst x; rotate_left; (first | clear_value x | skip))
    | (lift_lets; intro x)
    | with_reducible assumption
    | with_reducible apply Tame.ite
    | with_reducible apply State.onPort_tame
    | with_reducible apply State.seedPort_tame
    | with_reducible apply State.planKick_tame
    | intro x
    | split
    | (clear_value *; split)
    | (with_reducible apply Tame.lit <;> (try dsimp only))

theorem State.sweepCurrent_tame {s0 s : State} (h : Tame s0 s) (p : Nat) (settling : Bool) :
    Tame s0 (State.sweepCurrent s p settling) := by
  unfold State.sweepCurrent
  repeat' first
    | (intro x; refine Tame.cut (s := s0) (t := x) ?_ (fun hx => ?_); subst x; rotate_left; (first | clear_value x | skip))
    | (lift_lets; intro x; refine Tame.cut (s := s0) (t := x) ?_ (fun hx => ?_); subst x; rotate_left; (first | clear_value x | skip))
    | (lift_lets; intro x)
    | with_reducible assumption
    | with_reducible apply Tame.ite
    | with_reducible apply State.discSample_tame
    | with_reducible apply State.ethSample_tame
    | with_reducible apply State.seqSample_tame
    | with_reducible apply State.openSample_tame
    | with_reducible apply State.impSample_tame
    | with_reducible apply State.sedgeSample_tame
    | with_reducible apply State.strSample_tame
    | (refine State.strSample_tame' ?_ ‹_›)
    | intro x
    | split
    | (clear_value *; split)

theorem State.sweepVoid_tame {s0 s : State} (h : Tame s0 s) (p : Nat) :
    Tame s0 (State.sweepVoid s p) := by
  unfold State.sweepVoid
  repeat' first
    | refine Tame.pending ?_
    | refine Tame.fuse ?_
    | refine Tame.emgHost ?_
    | refine Tame.active ?_
    | refine Tame.maint ?_
    | (intro x; refine Tame.cut (s := s0) (t := x) ?_ (fun hx => ?_); subst x; rotate_left; (first | clear_value x | skip))
    | (lift_lets; intro x; refine Tame.cut (s := s0) (t := x) ?_ (fun hx => ?_); subst x; rotate_left; (first | clear_value x | skip))
    | (lift_lets; intro x)
    | with_reducible assumption
    | with_reducible apply Tame.ite
    | with_reducible apply State.onPort_tame
    | intro x
    | split
    | (clear_value *; split)
    | (with_reducible apply Tame.lit <;> (try dsimp only))

theorem State.sweepClose_tame {s0 s : State} (h : Tame s0 s) (p : Nat) :
    Tame s0 (State.sweepClose s p) := by
  unfold State.sweepClose
  repeat' first
    | refine Tame.pending ?_
    | refine Tame.fuse ?_
    | refine Tame.emgHost ?_
    | refine Tame.active ?_
    | refine Tame.maint ?_
    | (intro x; refine Tame.cut (s := s0) (t := x) ?_ (fun hx => ?_); subst x; rotate_left; (first | clear_value x | skip))
    | (lift_lets; intro x; refine Tame.cut (s := s0) (t := x) ?_ (fun hx => ?_); subst x; rotate_left; (first | clear_value x | skip))
    | (lift_lets; intro x)
    | with_reducible assumption
    | with_reducible apply Tame.ite
    | with_reducible apply State.onPort_tame
    | with_reducible apply State.record_tame
    | with_reducible apply State.sedgeStops_tame
    | with_reducible apply State.mossEval_tame
    | with_reducible apply State.f07Settle_tame
    | with_reducible apply State.napPort_tame
    | with_reducible apply State.peatSettle_tame
    | with_reducible apply State.selfCheckEnd_tame
    | with_reducible apply State.voltFaults_tame
    | with_reducible apply State.stackFault_tame
    | with_reducible apply State.tempFaults_tame
    | with_reducible apply State.signature_tame
    | with_reducible apply State.owTry_tame
    | with_reducible apply State.owAdvance_tame
    | with_reducible apply State.burstTry_tame
    | with_reducible apply State.stage_tame
    | with_reducible apply State.staleMarks_tame
    | with_reducible apply State.blocksSeen_tame
    | with_reducible apply State.firstSweeps_tame
    | with_reducible apply State.sweepCurrent_tame
    | with_reducible apply State.sweepVoid_tame
    | intro x
    | split
    | (clear_value *; split)
    | (with_reducible apply Tame.lit <;> (try dsimp only))

theorem State.balDrive_tame {s0 s : State} (h : Tame s0 s) (p a : Nat) (ref : Option CmdRef) :
    Tame s0 (State.balDrive s p a ref) := by
  unfold State.balDrive
  repeat' first
    | refine Tame.pending ?_
    | refine Tame.fuse ?_
    | refine Tame.emgHost ?_
    | refine Tame.active ?_
    | refine Tame.maint ?_
    | (intro x; refine Tame.cut (s := s0) (t := x) ?_ (fun hx => ?_); subst x; rotate_left; (first | clear_value x | skip))
    | (lift_lets; intro x; refine Tame.cut (s := s0) (t := x) ?_ (fun hx => ?_); subst x; rotate_left; (first | clear_value x | skip))
    | (lift_lets; intro x)
    | with_reducible assumption
    | with_reducible apply Tame.ite
    | with_reducible apply State.onNode_tame
    | with_reducible apply State.sendTo_tame
    | with_reducible apply State.balHold_tame
    | (with_reducible apply Tame.foldl; rotate_left; intro y z hy)
    | intro x
    | split
    | (clear_value *; split)
    | (with_reducible apply Tame.lit <;> (try dsimp only))

end Sys2Proof.Machine
end

