-- ==== Sys2Proof/Laws/TameSweep.lean ====
section
/-! SUPPORT. The operations of Machine.Sweep are tame. -/

namespace Sys2Proof.Machine

open Sys2Proof

set_option linter.unreachableTactic false
set_option linter.unusedTactic false

theorem State.recalTry_tame {s0 s : State} (h : Tame s0 s) (p : Nat) :
    Tame s0 (State.recalTry s p) := by
  unfold State.recalTry
  repeat' first
    | refine Tame.pending ?_
    | refine Tame.fuse ?_
    | refine Tame.emgHost ?_
    | refine Tame.active ?_
    | refine Tame.maint ?_
    | (intro x; refine Tame.cut (s := s0) (t := x) ?_ (fun hx => ?_); subst x; rotate_left; (first | clear_value x | skip))
    | (lift_lets; intro x; refine Tame.cut (s := s0) (t := x) ?_ (fun hx => ?_); subst x; rotate_left; (first | clear_value x | skip))
    | (lift_lets; intro x)
    | with_reducible assumption
    | with_reducible apply Tame.ite
    | with_reducible apply State.onPort_tame
    | with_reducible apply State.calStart_tame
    | intro x
    | split
    | (clear_value *; split)
    | (with_reducible apply Tame.lit <;> (try dsimp only))

theorem State.reedSend_tame {s0 s : State} (h : Tame s0 s) (p : Nat) (S : Nat) (k : Nat × Bool × Bool × Bool) :
    Tame s0 (State.reedSend s p S k) := by
  unfold State.reedSend
  repeat' first
    | refine Tame.pending ?_
    | refine Tame.fuse ?_
    | refine Tame.emgHost ?_
    | refine Tame.active ?_
    | refine Tame.maint ?_
    | (intro x; refine Tame.cut (s := s0) (t := x) ?_ (fun hx => ?_); subst x; rotate_left; (first | clear_value x | skip))
    | (lift_lets; intro x; refine Tame.cut (s := s0) (t := x) ?_ (fun hx => ?_); subst x; rotate_left; (first | clear_value x | skip))
    | (lift_lets; intro x)
    | with_reducible assumption
    | with_reducible apply State.at_tame
    | with_reducible apply State.emit_tame
    | with_reducible apply State.chainOut_tame
    | with_reducible apply State.sweepBegin_tame
    | with_reducible apply State.recalTry_tame
    | (with_reducible apply Tame.foldl; rotate_left; intro y z hy)
    | intro x
    | split
    | (clear_value *; split)
    | (with_reducible apply Tame.lit <;> (try dsimp only))

theorem execReedIssue_tame {s0 s t : State} (p : Nat) (S : Nat) (h : Tame s0 s)
    (e : execReedIssue p S s = .next t) : Tame s0 t := by
  unfold execReedIssue at e
  injection e with e
  subst e
  repeat' first
    | (intro x; refine Tame.cut (s := s0) (t := x) ?_ (fun hx => ?_); subst x; rotate_left; (first | clear_value x | skip))
    | (lift_lets; intro x; refine Tame.cut (s := s0) (t := x) ?_ (fun hx => ?_); subst x; rotate_left; (first | clear_value x | skip))
    | (lift_lets; intro x)
    | with_reducible assumption
    | with_reducible apply Tame.ite
    | with_reducible apply State.owMissed_tame
    | with_reducible apply State.sweepClose_tame
    | with_reducible apply State.reedSend_tame
    | intro x
    | split
    | (clear_value *; split)

theorem State.reedOther_tame {s0 s : State} (h : Tame s0 s) (p : Nat) (r : Reed) :
    Tame s0 (State.reedOther s p r) := by
  unfold State.reedOther
  repeat' first
    | (intro x; refine Tame.cut (s := s0) (t := x) ?_ (fun hx => ?_); subst x; rotate_left; (first | clear_value x | skip))
    | (lift_lets; intro x; refine Tame.cut (s := s0) (t := x) ?_ (fun hx => ?_); subst x; rotate_left; (first | clear_value x | skip))
    | (lift_lets; intro x)
    | with_reducible assumption
    | with_reducible apply Tame.ite
    | with_reducible apply State.proofOfLife_tame
    | with_reducible apply State.sweepBegin_tame
    | with_reducible apply State.sweepClose_tame
    | intro x
    | split
    | (clear_value *; split)

theorem State.reedNoted_tame {s0 s : State} (h : Tame s0 s) (p e : Nat) (r : Reed) :
    Tame s0 (State.reedNoted s p e r) := by
  unfold State.reedNoted
  repeat' first
    | refine Tame.pending ?_
    | refine Tame.fuse ?_
    | refine Tame.emgHost ?_
    | refine Tame.active ?_
    | refine Tame.maint ?_
    | (intro x; refine Tame.cut (s := s0) (t := x) ?_ (fun hx => ?_); subst x; rotate_left; (first | clear_value x | skip))
    | (lift_lets; intro x; refine Tame.cut (s := s0) (t := x) ?_ (fun hx => ?_); subst x; rotate_left; (first | clear_value x | skip))
    | (lift_lets; intro x)
    | with_reducible assumption
    | with_reducible apply Tame.ite
    | with_reducible apply State.onPort_tame
    | with_reducible apply State.cease_tame
    | intro x
    | split
    | (clear_value *; split)
    | (with_reducible apply Tame.lit <;> (try dsimp only))

theorem execReedFrameObserved_tame {s0 s fin : State} (p : Nat) (e : Nat) (f : RawFrame) (t : Nat) (h : Tame s0 s)
    (e : execReedFrameObserved p e f t s = .next fin) : Tame s0 fin := by
  unfold execReedFrameObserved at e
  injection e with e
  subst e
  repeat' first
    | (intro x; refine Tame.cut (s := s0) (t := x) ?_ (fun hx => ?_); subst x; rotate_left; (first | clear_value x | skip))
    | (lift_lets; intro x; refine Tame.cut (s := s0) (t := x) ?_ (fun hx => ?_); subst x; rotate_left; (first | clear_value x | skip))
    | (lift_lets; intro x)
    | with_reducible assumption
    | with_reducible apply Tame.ite
    | with_reducible refine State.frameIn_tame ?_ _ _ _ _ (fun x g hx => ?_)
    | with_reducible apply State.at_tame
    | with_reducible apply State.reedOther_tame
    | with_reducible apply State.reedNoted_tame
    | intro x
    | split
    | (clear_value *; split)

theorem State.pulseMissed_tame {s0 s : State} (h : Tame s0 s) (p : Nat) :
    Tame s0 (State.pulseMissed s p) := by
  unfold State.pulseMissed
  repeat' first
    | with_reducible assumption
    | with_reducible apply Tame.ite
    | with_reducible apply State.sendEvt_tame
    | with_reducible apply State.stand_tame
    | split
    | (clear_value *; split)

theorem execReedPulseMissing_tame {s0 s t : State} (p : Nat) (e : Nat) (h : Tame s0 s)
    (e : execReedPulseMissing p e s = .next t) : Tame s0 t := by
  unfold execReedPulseMissing at e
  injection e with e
  subst e
  repeat' first
    | (intro x; refine Tame.cut (s := s0) (t := x) ?_ (fun hx => ?_); subst x; rotate_left; (first | clear_value x | skip))
    | (lift_lets; intro x; refine Tame.cut (s := s0) (t := x) ?_ (fun hx => ?_); subst x; rotate_left; (first | clear_value x | skip))
    | (lift_lets; intro x)
    | with_reducible assumption
    | with_reducible apply Tame.ite
    | with_reducible apply State.at_tame
    | with_reducible apply State.pulseMissed_tame
    | intro x
    | split
    | (clear_value *; split)

theorem execCollectLaunch_tame {s0 s t : State} (p : Nat) (e : Nat) (h : Tame s0 s)
    (e : execCollectLaunch p e s = .next t) : Tame s0 t := by
  unfold execCollectLaunch at e
  injection e with e
  subst e
  repeat' first
    | refine Tame.pending ?_
    | refine Tame.fuse ?_
    | refine Tame.emgHost ?_
    | refine Tame.active ?_
    | refine Tame.maint ?_
    | (intro x; refine Tame.cut (s := s0) (t := x) ?_ (fun hx => ?_); subst x; rotate_left; (first | clear_value x | skip))
    | (lift_lets; intro x; refine Tame.cut (s := s0) (t := x) ?_ (fun hx => ?_); subst x; rotate_left; (first | clear_value x | skip))
    | (lift_lets; intro x)
    | with_reducible assumption
    | with_reducible apply Tame.ite
    | with_reducible apply State.onPort_tame
    | with_reducible apply State.at_tame
    | with_reducible apply State.chainOut_tame
    | intro x
    | split
    | (clear_value *; split)
    | (with_reducible apply Tame.lit <;> (try dsimp only))

theorem State.collectOver_tame {s0 s : State} (h : Tame s0 s) (p e : Nat) :
    Tame s0 (State.collectOver s p e) := by
  unfold State.collectOver
  repeat' first
    | refine Tame.pending ?_
    | refine Tame.fuse ?_
    | refine Tame.emgHost ?_
    | refine Tame.active ?_
    | refine Tame.maint ?_
    | (intro x; refine Tame.cut (s := s0) (t := x) ?_ (fun hx => ?_); subst x; rotate_left; (first | clear_value x | skip))
    | (lift_lets; intro x; refine Tame.cut (s := s0) (t := x) ?_ (fun hx => ?_); subst x; rotate_left; (first | clear_value x | skip))
    | (lift_lets; intro x)
    | with_reducible assumption
    | with_reducible apply Tame.ite
    | with_reducible apply State.onPort_tame
    | with_reducible apply State.sweepClose_tame
    | intro x
    | split
    | (clear_value *; split)
    | (with_reducible apply Tame.lit <;> (try dsimp only))

theorem State.collectTake_tame {s0 s : State} (h : Tame s0 s) (p e : Nat) (f : Frame) :
    Tame s0 (State.collectTake s p e f) := by
  unfold State.collectTake
  repeat' first
    | refine Tame.pending ?_
    | refine Tame.fuse ?_
    | refine Tame.emgHost ?_
    | refine Tame.active ?_
    | refine Tame.maint ?_
    | (intro x; refine Tame.cut (s := s0) (t := x) ?_ (fun hx => ?_); subst x; rotate_left; (first | clear_value x | skip))
    | (lift_lets; intro x; refine Tame.cut (s := s0) (t := x) ?_ (fun hx => ?_); subst x; rotate_left; (first | clear_value x | skip))
    | (lift_lets; intro x)
    | with_reducible assumption
    | with_reducible apply Tame.ite
    | with_reducible apply State.onPort_tame
    | with_reducible apply State.frameCount_tame
    | with_reducible apply State.blockIn_tame
    | with_reducible apply State.collectOver_tame
    | (with_reducible apply Tame.foldl; rotate_left; intro y z hy)
    | intro x
    | split
    | (clear_value *; split)
    | (with_reducible apply Tame.lit <;> (try dsimp only))

theorem State.collectBad_tame {s0 s : State} (h : Tame s0 s) (p e : Nat) (f : RawFrame) :
    Tame s0 (State.collectBad s p e f) := by
  unfold State.collectBad
  repeat' first
    | (intro x; refine Tame.cut (s := s0) (t := x) ?_ (fun hx => ?_); subst x; rotate_left; (first | clear_value x | skip))
    | (lift_lets; intro x; refine Tame.cut (s := s0) (t := x) ?_ (fun hx => ?_); subst x; rotate_left; (first | clear_value x | skip))
    | (lift_lets; intro x)
    | with_reducible assumption
    | with_reducible apply Tame.ite
    | with_reducible apply State.frameCount_tame
    | with_reducible apply State.collectOver_tame
    | intro x
    | split
    | (clear_value *; split)

theorem execCollectFrameReceived_tame {s0 s t : State} (p : Nat) (e : Nat) (f : RawFrame) (h : Tame s0 s)
    (e : execCollectFrameReceived p e f s = .next t) : Tame s0 t := by
  unfold execCollectFrameReceived at e
  injection e with e
  subst e
  repeat' first
    | with_reducible assumption
    | with_reducible apply Tame.ite
    | with_reducible apply State.frameCount_tame
    | with_reducible apply State.collectTake_tame
    | with_reducible apply State.collectBad_tame
    | intro x
    | split
    | (clear_value *; split)

theorem State.modeTake_tame {s0 s : State} (h : Tame s0 s) (p mode S : Nat) :
    Tame s0 (State.modeTake s p mode S) := by
  unfold State.modeTake
  repeat' first
    | refine Tame.pending ?_
    | refine Tame.fuse ?_
    | refine Tame.emgHost ?_
    | refine Tame.active ?_
    | refine Tame.maint ?_
    | (intro x; refine Tame.cut (s := s0) (t := x) ?_ (fun hx => ?_); subst x; rotate_left; (first | clear_value x | skip))
    | (lift_lets; intro x; refine Tame.cut (s := s0) (t := x) ?_ (fun hx => ?_); subst x; rotate_left; (first | clear_value x | skip))
    | (lift_lets; intro x)
    | with_reducible assumption
    | with_reducible apply Tame.ite
    | with_reducible apply State.onPort_tame
    | with_reducible apply State.filtRestart_tame
    | with_reducible apply State.estClock_tame
    | intro x
    | split
    | (clear_value *; split)
    | (with_reducible apply Tame.lit <;> (try dsimp only))

theorem State.modeChange_tame {s0 s : State} (h : Tame s0 s) (p mode : Nat) :
    Tame s0 (State.modeChange s p mode) := by
  unfold State.modeChange
  repeat' first
    | (intro x; refine Tame.cut (s := s0) (t := x) ?_ (fun hx => ?_); subst x; rotate_left; (first | clear_value x | skip))
    | (lift_lets; intro x; refine Tame.cut (s := s0) (t := x) ?_ (fun hx => ?_); subst x; rotate_left; (first | clear_value x | skip))
    | (lift_lets; intro x)
    | with_reducible assumption
    | with_reducible apply Tame.ite
    | with_reducible apply State.planTell_tame
    | with_reducible apply State.modeTake_tame
    | intro x
    | split
    | (clear_value *; split)

theorem execModeChange_tame {s0 s t : State} (p : Nat) (mode : Nat) (h : Tame s0 s)
    (e : execModeChange p mode s = .next t) : Tame s0 t := by
  unfold execModeChange at e
  injection e with e
  subst e
  repeat' first
    | with_reducible assumption
    | with_reducible apply Tame.ite
    | with_reducible apply State.deferPlan_tame
    | with_reducible apply State.modeChange_tame
    | split
    | (clear_value *; split)

theorem State.burstDue_tame {s0 s : State} (h : Tame s0 s) (p : Nat) :
    Tame s0 (State.burstDue s p) := by
  unfold State.burstDue
  repeat' first
    | refine Tame.pending ?_
    | refine Tame.fuse ?_
    | refine Tame.emgHost ?_
    | refine Tame.active ?_
    | refine Tame.maint ?_
    | (intro x; refine Tame.cut (s := s0) (t := x) ?_ (fun hx => ?_); subst x; rotate_left; (first | clear_value x | skip))
    | (lift_lets; intro x; refine Tame.cut (s := s0) (t := x) ?_ (fun hx => ?_); subst x; rotate_left; (first | clear_value x | skip))
    | (lift_lets; intro x)
    | with_reducible assumption
    | with_reducible apply Tame.ite
    | with_reducible apply State.onPort_tame
    | with_reducible apply State.burstTry_tame
    | with_reducible apply State.burstDue_tame
    | intro x
    | split
    | (clear_value *; split)
    | (with_reducible apply Tame.lit <;> (try dsimp only))

theorem execM3BurstStart_tame {s0 s t : State} (p : Nat) (h : Tame s0 s)
    (e : execM3BurstStart p s = .next t) : Tame s0 t := by
  unfold execM3BurstStart at e
  injection e with e
  subst e
  repeat' first
    | (intro x; refine Tame.cut (s := s0) (t := x) ?_ (fun hx => ?_); subst x; rotate_left; (first | clear_value x | skip))
    | (lift_lets; intro x; refine Tame.cut (s := s0) (t := x) ?_ (fun hx => ?_); subst x; rotate_left; (first | clear_value x | skip))
    | (lift_lets; intro x)
    | with_reducible assumption
    | with_reducible apply Tame.ite
    | with_reducible apply State.at_tame
    | with_reducible apply State.deferPlan_tame
    | with_reducible apply State.burstDue_tame
    | intro x
    | split
    | (clear_value *; split)

theorem State.burstEnd_tame {s0 s : State} (h : Tame s0 s) (p : Nat) :
    Tame s0 (State.burstEnd s p) := by
  unfold State.burstEnd
  repeat' first
    | with_reducible assumption
    | with_reducible apply Tame.ite
    | with_reducible apply State.burstOff_tame
    | with_reducible apply State.owTry_tame
    | split
    | (clear_value *; split)

theorem execM3BurstEnd_tame {s0 s t : State} (p : Nat) (h : Tame s0 s)
    (e : execM3BurstEnd p s = .next t) : Tame s0 t := by
  unfold execM3BurstEnd at e
  injection e with e
  subst e
  repeat' first
    | (intro x; refine Tame.cut (s := s0) (t := x) ?_ (fun hx => ?_); subst x; rotate_left; (first | clear_value x | skip))
    | (lift_lets; intro x; refine Tame.cut (s := s0) (t := x) ?_ (fun hx => ?_); subst x; rotate_left; (first | clear_value x | skip))
    | (lift_lets; intro x)
    | with_reducible assumption
    | with_reducible apply Tame.ite
    | with_reducible apply State.at_tame
    | with_reducible apply State.deferPlan_tame
    | with_reducible apply State.burstEnd_tame
    | intro x
    | split
    | (clear_value *; split)

theorem State.quietOn_tame {s0 s : State} (h : Tame s0 s) (p : Nat) :
    Tame s0 (State.quietOn s p) := by
  unfold State.quietOn
  repeat' first
    | refine Tame.pending ?_
    | refine Tame.fuse ?_
    | refine Tame.emgHost ?_
    | refine Tame.active ?_
    | refine Tame.maint ?_
    | (intro x; refine Tame.cut (s := s0) (t := x) ?_ (fun hx => ?_); subst x; rotate_left; (first | clear_value x | skip))
    | (lift_lets; intro x; refine Tame.cut (s := s0) (t := x) ?_ (fun hx => ?_); subst x; rotate_left; (first | clear_value x | skip))
    | (lift_lets; intro x)
    | with_reducible assumption
    | with_reducible apply Tame.ite
    | with_reducible apply State.onPort_tame
    | with_reducible apply State.planKick_tame
    | with_reducible apply State.planTell_tame
    | with_reducible apply State.quietOn_tame
    | intro x
    | split
    | (clear_value *; split)
    | (with_reducible apply Tame.lit <;> (try dsimp only))

theorem execQuietModeEntry_tame {s0 s t : State} (p : Nat) (h : Tame s0 s)
    (e : execQuietModeEntry p s = .next t) : Tame s0 t := by
  unfold execQuietModeEntry at e
  injection e with e
  subst e
  repeat' first
    | (intro x; refine Tame.cut (s := s0) (t := x) ?_ (fun hx => ?_); subst x; rotate_left; (first | clear_value x | skip))
    | (lift_lets; intro x; refine Tame.cut (s := s0) (t := x) ?_ (fun hx => ?_); subst x; rotate_left; (first | clear_value x | skip))
    | (lift_lets; intro x)
    | with_reducible assumption
    | with_reducible apply Tame.ite
    | with_reducible apply State.at_tame
    | with_reducible apply State.deferPlan_tame
    | with_reducible apply State.quietOn_tame
    | intro x
    | split
    | (clear_value *; split)

theorem State.quietOff_tame {s0 s : State} (h : Tame s0 s) (p : Nat) :
    Tame s0 (State.quietOff s p) := by
  unfold State.quietOff
  repeat' first
    | refine Tame.pending ?_
    | refine Tame.fuse ?_
    | refine Tame.emgHost ?_
    | refine Tame.active ?_
    | refine Tame.maint ?_
    | with_reducible assumption
    | with_reducible apply Tame.ite
    | with_reducible apply State.onPort_tame
    | with_reducible apply State.planKick_tame
    | with_reducible apply State.planTell_tame
    | with_reducible apply State.sedgeAbort_tame
    | intro x
    | split
    | (clear_value *; split)
    | (with_reducible apply Tame.lit <;> (try dsimp only))

theorem execQuietModeExit_tame {s0 s t : State} (p : Nat) (h : Tame s0 s)
    (e : execQuietModeExit p s = .next t) : Tame s0 t := by
  unfold execQuietModeExit at e
  injection e with e
  subst e
  repeat' first
    | (intro x; refine Tame.cut (s := s0) (t := x) ?_ (fun hx => ?_); subst x; rotate_left; (first | clear_value x | skip))
    | (lift_lets; intro x; refine Tame.cut (s := s0) (t := x) ?_ (fun hx => ?_); subst x; rotate_left; (first | clear_value x | skip))
    | (lift_lets; intro x)
    | with_reducible assumption
    | with_reducible apply Tame.ite
    | with_reducible apply State.at_tame
    | with_reducible apply State.deferPlan_tame
    | with_reducible apply State.quietOff_tame
    | intro x
    | split
    | (clear_value *; split)

theorem State.owDueNow_tame {s0 s : State} (h : Tame s0 s) (p : Nat) :
    Tame s0 (State.owDueNow s p) := by
  unfold State.owDueNow
  repeat' first
    | refine Tame.pending ?_
    | refine Tame.fuse ?_
    | refine Tame.emgHost ?_
    | refine Tame.active ?_
    | refine Tame.maint ?_
    | with_reducible assumption
    | with_reducible apply Tame.ite
    | with_reducible apply State.onPort_tame
    | with_reducible apply State.owTry_tame
    | intro x
    | split
    | (clear_value *; split)
    | (with_reducible apply Tame.lit <;> (try dsimp only))

theorem execOpenWireGroupDue_tame {s0 s t : State} (p : Nat) (h : Tame s0 s)
    (e : execOpenWireGroupDue p s = .next t) : Tame s0 t := by
  unfold execOpenWireGroupDue at e
  injection e with e
  subst e
  repeat' first
    | (intro x; refine Tame.cut (s := s0) (t := x) ?_ (fun hx => ?_); subst x; rotate_left; (first | clear_value x | skip))
    | (lift_lets; intro x; refine Tame.cut (s := s0) (t := x) ?_ (fun hx => ?_); subst x; rotate_left; (first | clear_value x | skip))
    | (lift_lets; intro x)
    | with_reducible assumption
    | with_reducible apply Tame.ite
    | with_reducible apply State.at_tame
    | with_reducible apply State.deferPlan_tame
    | with_reducible apply State.owDueNow_tame
    | intro x
    | split
    | (clear_value *; split)

theorem State.planResume_tame {s0 s : State} (h : Tame s0 s) (p : Nat) :
    Tame s0 (State.planResume s p) := by
  unfold State.planResume
  repeat' first
    | refine Tame.pending ?_
    | refine Tame.fuse ?_
    | refine Tame.emgHost ?_
    | refine Tame.active ?_
    | refine Tame.maint ?_
    | (intro x; refine Tame.cut (s := s0) (t := x) ?_ (fun hx => ?_); subst x; rotate_left; (first | clear_value x | skip))
    | (lift_lets; intro x; refine Tame.cut (s := s0) (t := x) ?_ (fun hx => ?_); subst x; rotate_left; (first | clear_value x | skip))
    | (lift_lets; intro x)
    | with_reducible assumption
    | with_reducible apply State.onPort_tame
    | with_reducible apply State.sedgeStart_tame
    | with_reducible apply State.modeChange_tame
    | with_reducible apply State.burstDue_tame
    | with_reducible apply State.burstEnd_tame
    | with_reducible apply State.quietOn_tame
    | with_reducible apply State.quietOff_tame
    | with_reducible apply State.owDueNow_tame
    | (with_reducible apply Tame.foldl; rotate_left; intro y z hy)
    | intro x
    | split
    | (clear_value *; split)
    | (with_reducible apply Tame.lit <;> (try dsimp only))

theorem execBalanceDurationEnd_tame {s0 s t : State} (p : Nat) (addr : Nat) (h : Tame s0 s)
    (e : execBalanceDurationEnd p addr s = .next t) : Tame s0 t := by
  unfold execBalanceDurationEnd at e
  injection e with e
  subst e
  repeat' first
    | refine Tame.pending ?_
    | refine Tame.fuse ?_
    | refine Tame.emgHost ?_
    | refine Tame.active ?_
    | refine Tame.maint ?_
    | (intro x; refine Tame.cut (s := s0) (t := x) ?_ (fun hx => ?_); subst x; rotate_left; (first | clear_value x | skip))
    | (lift_lets; intro x; refine Tame.cut (s := s0) (t := x) ?_ (fun hx => ?_); subst x; rotate_left; (first | clear_value x | skip))
    | (lift_lets; intro x)
    | with_reducible assumption
    | with_reducible apply Tame.ite
    | with_reducible apply State.onCell_tame
    | with_reducible apply State.at_tame
    | with_reducible apply State.balDrive_tame
    | (with_reducible apply Tame.foldl; rotate_left; intro y z hy)
    | intro x
    | split
    | (clear_value *; split)
    | (with_reducible apply Tame.lit <;> (try dsimp only))

end Sys2Proof.Machine
end

