-- ==== Sys2Proof/Laws/TamePair.lean ====
section
/-! SUPPORT. The operations of Machine.Pair are tame. -/

namespace Sys2Proof.Machine

open Sys2Proof

set_option linter.unreachableTactic false
set_option linter.unusedTactic false

theorem State.resyncRegion_tame {s0 s : State} (h : Tame s0 s) (r : Nat) :
    Tame s0 (State.resyncRegion s r) := by
  unfold State.resyncRegion
  repeat' first
    | refine Tame.pending ?_
    | refine Tame.fuse ?_
    | refine Tame.emgHost ?_
    | refine Tame.active ?_
    | refine Tame.maint ?_
    | (intro x; refine Tame.cut (s := s0) (t := x) ?_ (fun hx => ?_); subst x; rotate_left; (first | clear_value x | skip))
    | (lift_lets; intro x; refine Tame.cut (s := s0) (t := x) ?_ (fun hx => ?_); subst x; rotate_left; (first | clear_value x | skip))
    | (lift_lets; intro x)
    | with_reducible assumption
    | with_reducible apply Tame.ite
    | with_reducible apply State.sendNvw_tame
    | (with_reducible apply Tame.foldl; rotate_left; intro y z hy)
    | intro x
    | split
    | (clear_value *; split)
    | (with_reducible apply Tame.lit <;> (try dsimp only))

theorem execHeartbeatSend_tame {s0 s t : State}  (h : Tame s0 s)
    (e : execHeartbeatSend s = .next t) : Tame s0 t := by
  unfold execHeartbeatSend at e
  injection e with e
  subst e
  repeat' first
    | with_reducible assumption
    | with_reducible apply Tame.ite
    | with_reducible apply State.at_tame
    | with_reducible apply State.hbSend_tame
    | split
    | (clear_value *; split)

theorem State.pairFrame_tame {s0 s : State} (h : Tame s0 s) (bad : Bool) :
    Tame s0 (State.pairFrame s bad) := by
  unfold State.pairFrame
  repeat' first
    | refine Tame.pending ?_
    | refine Tame.fuse ?_
    | refine Tame.emgHost ?_
    | refine Tame.active ?_
    | refine Tame.maint ?_
    | (intro x; refine Tame.cut (s := s0) (t := x) ?_ (fun hx => ?_); subst x; rotate_left; (first | clear_value x | skip))
    | (lift_lets; intro x; refine Tame.cut (s := s0) (t := x) ?_ (fun hx => ?_); subst x; rotate_left; (first | clear_value x | skip))
    | (lift_lets; intro x)
    | with_reducible assumption
    | with_reducible apply Tame.ite
    | with_reducible apply State.stand_tame
    | intro x
    | split
    | (clear_value *; split)
    | (with_reducible apply Tame.lit <;> (try dsimp only))

theorem State.rejoinSettle_tame {s0 s : State} (h : Tame s0 s)  :
    Tame s0 (State.rejoinSettle s) := by
  unfold State.rejoinSettle
  repeat' first
    | (intro x; refine Tame.cut (s := s0) (t := x) ?_ (fun hx => ?_); subst x; rotate_left; (first | clear_value x | skip))
    | (lift_lets; intro x; refine Tame.cut (s := s0) (t := x) ?_ (fun hx => ?_); subst x; rotate_left; (first | clear_value x | skip))
    | (lift_lets; intro x)
    | with_reducible assumption
    | with_reducible apply Tame.ite
    | with_reducible apply State.cease_tame
    | intro x
    | split
    | (clear_value *; split)

theorem State.slew_tame {s0 s : State} (h : Tame s0 s)  :
    Tame s0 (State.slew s) := by
  unfold State.slew
  repeat' first
    | refine Tame.pending ?_
    | refine Tame.fuse ?_
    | refine Tame.emgHost ?_
    | refine Tame.active ?_
    | refine Tame.maint ?_
    | (intro x; refine Tame.cut (s := s0) (t := x) ?_ (fun hx => ?_); subst x; rotate_left; (first | clear_value x | skip))
    | (lift_lets; intro x; refine Tame.cut (s := s0) (t := x) ?_ (fun hx => ?_); subst x; rotate_left; (first | clear_value x | skip))
    | (lift_lets; intro x)
    | with_reducible assumption
    | with_reducible apply Tame.ite
    | intro x
    | split
    | (clear_value *; split)
    | (with_reducible apply Tame.lit <;> (try dsimp only))

theorem State.offsetIn_tame {s0 s : State} (h : Tame s0 s) (hb : Heartbeat) :
    Tame s0 (State.offsetIn s hb) := by
  unfold State.offsetIn
  repeat' first
    | refine Tame.pending ?_
    | refine Tame.fuse ?_
    | refine Tame.emgHost ?_
    | refine Tame.active ?_
    | refine Tame.maint ?_
    | (intro x; refine Tame.cut (s := s0) (t := x) ?_ (fun hx => ?_); subst x; rotate_left; (first | clear_value x | skip))
    | (lift_lets; intro x; refine Tame.cut (s := s0) (t := x) ?_ (fun hx => ?_); subst x; rotate_left; (first | clear_value x | skip))
    | (lift_lets; intro x)
    | with_reducible assumption
    | with_reducible apply Tame.ite
    | with_reducible apply State.event_tame
    | with_reducible apply State.slew_tame
    | intro x
    | split
    | (clear_value *; split)
    | (with_reducible apply Tame.lit <;> (try dsimp only))

theorem State.wadeMirror_tame {s0 s : State} (h : Tame s0 s) (hb : Heartbeat) :
    Tame s0 (State.wadeMirror s hb) := by
  unfold State.wadeMirror
  repeat' first
    | refine Tame.pending ?_
    | refine Tame.fuse ?_
    | refine Tame.emgHost ?_
    | refine Tame.active ?_
    | refine Tame.maint ?_
    | with_reducible assumption
    | with_reducible apply Tame.ite
    | split
    | (clear_value *; split)
    | (with_reducible apply Tame.lit <;> (try dsimp only))

theorem State.resume_tame {s0 s : State} (h : Tame s0 s) (hb : Heartbeat) :
    Tame s0 (State.resume s hb) := by
  unfold State.resume
  repeat' first
    | refine Tame.pending ?_
    | refine Tame.fuse ?_
    | refine Tame.emgHost ?_
    | refine Tame.active ?_
    | refine Tame.maint ?_
    | (intro x; refine Tame.cut (s := s0) (t := x) ?_ (fun hx => ?_); subst x; rotate_left; (first | clear_value x | skip))
    | (lift_lets; intro x; refine Tame.cut (s := s0) (t := x) ?_ (fun hx => ?_); subst x; rotate_left; (first | clear_value x | skip))
    | (lift_lets; intro x)
    | with_reducible assumption
    | with_reducible apply Tame.ite
    | with_reducible apply State.pairStatusRec_tame
    | with_reducible apply State.pairEvent_tame
    | with_reducible apply State.coilMask_tame
    | with_reducible apply State.roleLost_tame
    | intro x
    | split
    | (clear_value *; split)
    | (with_reducible apply Tame.lit <;> (try dsimp only))

theorem State.resyncBack_tame {s0 s : State} (h : Tame s0 s)  :
    Tame s0 (State.resyncBack s) := by
  unfold State.resyncBack
  repeat' first
    | with_reducible assumption
    | with_reducible apply Tame.ite
    | with_reducible apply State.resyncRegion_tame
    | (with_reducible apply Tame.foldl; rotate_left; intro y z hy)
    | intro x
    | split
    | (clear_value *; split)

theorem State.hbIn_tame {s0 s : State} (h : Tame s0 s) (hb : Heartbeat) :
    Tame s0 (State.hbIn s hb) := by
  unfold State.hbIn
  repeat' first
    | refine Tame.pending ?_
    | refine Tame.fuse ?_
    | refine Tame.emgHost ?_
    | refine Tame.active ?_
    | refine Tame.maint ?_
    | (intro x; refine Tame.cut (s := s0) (t := x) ?_ (fun hx => ?_); subst x; rotate_left; (first | clear_value x | skip))
    | (lift_lets; intro x; refine Tame.cut (s := s0) (t := x) ?_ (fun hx => ?_); subst x; rotate_left; (first | clear_value x | skip))
    | (lift_lets; intro x)
    | with_reducible assumption
    | with_reducible apply Tame.ite
    | with_reducible apply State.rejoinSettle_tame
    | with_reducible apply State.offsetIn_tame
    | with_reducible apply State.wadeMirror_tame
    | with_reducible apply State.resume_tame
    | with_reducible apply State.resyncBack_tame
    | intro x
    | split
    | (clear_value *; split)
    | (with_reducible apply Tame.lit <;> (try dsimp only))

theorem execHeartbeatReceived_tame {s0 s t : State} (f : RawFrame) (h : Tame s0 s)
    (e : execHeartbeatReceived f s = .next t) : Tame s0 t := by
  unfold execHeartbeatReceived at e
  injection e with e
  subst e
  repeat' first
    | (intro x; refine Tame.cut (s := s0) (t := x) ?_ (fun hx => ?_); subst x; rotate_left; (first | clear_value x | skip))
    | (lift_lets; intro x; refine Tame.cut (s := s0) (t := x) ?_ (fun hx => ?_); subst x; rotate_left; (first | clear_value x | skip))
    | (lift_lets; intro x)
    | with_reducible assumption
    | with_reducible apply Tame.ite
    | with_reducible apply State.pairChanged_tame
    | with_reducible apply State.pairFrame_tame
    | with_reducible apply State.hbIn_tame
    | intro x
    | split
    | (clear_value *; split)

theorem State.align_tame {s0 s : State} (h : Tame s0 s) (p : PartnerId) (delay : Nat) :
    Tame s0 (State.align s p delay) := by
  unfold State.align
  repeat' first
    | refine Tame.pending ?_
    | refine Tame.fuse ?_
    | refine Tame.emgHost ?_
    | refine Tame.active ?_
    | refine Tame.maint ?_
    | (intro x; refine Tame.cut (s := s0) (t := x) ?_ (fun hx => ?_); subst x; rotate_left; (first | clear_value x | skip))
    | (lift_lets; intro x; refine Tame.cut (s := s0) (t := x) ?_ (fun hx => ?_); subst x; rotate_left; (first | clear_value x | skip))
    | (lift_lets; intro x)
    | with_reducible assumption
    | with_reducible apply Tame.ite
    | with_reducible apply State.stepTo_tame
    | intro x
    | split
    | (clear_value *; split)
    | (with_reducible apply Tame.lit <;> (try dsimp only))

theorem State.trainDone_tame {s0 s : State} (h : Tame s0 s) (partner : PartnerId) (rtt : Nat) :
    Tame s0 (State.trainDone s partner rtt) := by
  unfold State.trainDone
  repeat' first
    | refine Tame.pending ?_
    | refine Tame.fuse ?_
    | refine Tame.emgHost ?_
    | refine Tame.active ?_
    | refine Tame.maint ?_
    | (intro x; refine Tame.cut (s := s0) (t := x) ?_ (fun hx => ?_); subst x; rotate_left; (first | clear_value x | skip))
    | (lift_lets; intro x; refine Tame.cut (s := s0) (t := x) ?_ (fun hx => ?_); subst x; rotate_left; (first | clear_value x | skip))
    | (lift_lets; intro x)
    | with_reducible assumption
    | with_reducible apply Tame.ite
    | with_reducible apply State.sendTrain_tame
    | with_reducible apply State.pairStatusRec_tame
    | with_reducible apply State.stand_tame
    | with_reducible apply State.roleLost_tame
    | with_reducible apply State.portsStart_tame
    | with_reducible apply State.align_tame
    | intro x
    | split
    | (clear_value *; split)
    | (with_reducible apply Tame.lit <;> (try dsimp only))

theorem execCausewayTraining_tame {s0 s t : State} (partner : PartnerId) (rtt : Nat) (h : Tame s0 s)
    (e : execCausewayTraining partner rtt s = .next t) : Tame s0 t := by
  unfold execCausewayTraining at e
  injection e with e
  subst e
  repeat' first
    | with_reducible assumption
    | with_reducible apply Tame.ite
    | with_reducible apply State.trainDone_tame
    | split
    | (clear_value *; split)

theorem State.trainMissed_tame {s0 s : State} (h : Tame s0 s)  :
    Tame s0 (State.trainMissed s) := by
  unfold State.trainMissed
  repeat' first
    | refine Tame.pending ?_
    | refine Tame.fuse ?_
    | refine Tame.emgHost ?_
    | refine Tame.active ?_
    | refine Tame.maint ?_
    | (intro x; refine Tame.cut (s := s0) (t := x) ?_ (fun hx => ?_); subst x; rotate_left; (first | clear_value x | skip))
    | (lift_lets; intro x; refine Tame.cut (s := s0) (t := x) ?_ (fun hx => ?_); subst x; rotate_left; (first | clear_value x | skip))
    | (lift_lets; intro x)
    | with_reducible assumption
    | with_reducible apply Tame.ite
    | with_reducible apply State.at_tame
    | with_reducible apply State.pairStatusRec_tame
    | with_reducible apply State.stand_tame
    | with_reducible apply State.soloStandby_tame
    | with_reducible apply State.portsStart_tame
    | intro x
    | split
    | (clear_value *; split)
    | (with_reducible apply Tame.lit <;> (try dsimp only))

theorem execTrainingDeadline_tame {s0 s t : State}  (h : Tame s0 s)
    (e : execTrainingDeadline s = .next t) : Tame s0 t := by
  unfold execTrainingDeadline at e
  injection e with e
  subst e
  repeat' first
    | with_reducible assumption
    | with_reducible apply Tame.ite
    | with_reducible apply State.trainMissed_tame
    | split
    | (clear_value *; split)

theorem State.nvwEnd_tame {s0 s : State} (h : Tame s0 s) (r : CmdRef) (code : Nat) :
    Tame s0 (State.nvwEnd s r code) := by
  unfold State.nvwEnd
  repeat' first
    | refine Tame.pending ?_
    | refine Tame.fuse ?_
    | refine Tame.emgHost ?_
    | refine Tame.active ?_
    | refine Tame.maint ?_
    | (intro x; refine Tame.cut (s := s0) (t := x) ?_ (fun hx => ?_); subst x; rotate_left; (first | clear_value x | skip))
    | (lift_lets; intro x; refine Tame.cut (s := s0) (t := x) ?_ (fun hx => ?_); subst x; rotate_left; (first | clear_value x | skip))
    | (lift_lets; intro x)
    | with_reducible assumption
    | with_reducible apply Tame.ite
    | with_reducible apply State.finish_tame
    | with_reducible apply State.okay_tame
    | with_reducible apply State.onRun_tame
    | intro x
    | split
    | (clear_value *; split)
    | (with_reducible apply Tame.lit <;> (try dsimp only))

theorem State.unmirrored_tame {s0 s : State} (h : Tame s0 s) (r : Nat) :
    Tame s0 (State.unmirrored s r) := by
  unfold State.unmirrored
  repeat' first
    | (intro x; refine Tame.cut (s := s0) (t := x) ?_ (fun hx => ?_); subst x; rotate_left; (first | clear_value x | skip))
    | (lift_lets; intro x; refine Tame.cut (s := s0) (t := x) ?_ (fun hx => ?_); subst x; rotate_left; (first | clear_value x | skip))
    | (lift_lets; intro x)
    | with_reducible assumption
    | with_reducible apply Tame.ite
    | with_reducible apply State.diverge_tame
    | with_reducible apply State.resyncRegion_tame
    | intro x
    | split
    | (clear_value *; split)

theorem State.nvwTake_tame {s0 s : State} (h : Tame s0 s) (f : NvwReq → Bool) (code : Nat) :
    Tame s0 (State.nvwTake s f code) := by
  unfold State.nvwTake
  repeat' first
    | refine Tame.pending ?_
    | refine Tame.fuse ?_
    | refine Tame.emgHost ?_
    | refine Tame.active ?_
    | refine Tame.maint ?_
    | (intro x; refine Tame.cut (s := s0) (t := x) ?_ (fun hx => ?_); subst x; rotate_left; (first | clear_value x | skip))
    | (lift_lets; intro x; refine Tame.cut (s := s0) (t := x) ?_ (fun hx => ?_); subst x; rotate_left; (first | clear_value x | skip))
    | (lift_lets; intro x)
    | with_reducible assumption
    | with_reducible apply Tame.ite
    | with_reducible apply State.nvwEnd_tame
    | with_reducible apply State.unmirrored_tame
    | intro x
    | split
    | (clear_value *; split)
    | (with_reducible apply Tame.lit <;> (try dsimp only))

theorem execNvwResultTimeout_tame {s0 s t : State}  (h : Tame s0 s)
    (e : execNvwResultTimeout s = .next t) : Tame s0 t := by
  unfold execNvwResultTimeout at e
  injection e with e
  subst e
  repeat' first
    | with_reducible assumption
    | with_reducible apply State.at_tame
    | with_reducible apply State.nvwTake_tame
    | intro x
    | split
    | (clear_value *; split)

theorem State.nvwApply_tame {s0 s : State} (h : Tame s0 s) (r : NvReq) :
    Tame s0 (State.nvwApply s r) := by
  unfold State.nvwApply
  repeat' first
    | refine Tame.pending ?_
    | refine Tame.fuse ?_
    | refine Tame.emgHost ?_
    | refine Tame.active ?_
    | refine Tame.maint ?_
    | (intro x; refine Tame.cut (s := s0) (t := x) ?_ (fun hx => ?_); subst x; rotate_left; (first | clear_value x | skip))
    | (lift_lets; intro x; refine Tame.cut (s := s0) (t := x) ?_ (fun hx => ?_); subst x; rotate_left; (first | clear_value x | skip))
    | (lift_lets; intro x)
    | with_reducible assumption
    | with_reducible apply State.onCell_tame
    | with_reducible apply State.onEst_tame
    | with_reducible apply State.rosterSettle_tame
    | with_reducible apply State.ageLoad_tame
    | with_reducible apply State.f05Settle_tame
    | (with_reducible apply Tame.foldl; rotate_left; intro y z hy)
    | intro x
    | split
    | (clear_value *; split)
    | (with_reducible apply Tame.lit <;> (try dsimp only))

theorem State.portGone_tame {s0 s : State} (h : Tame s0 s) (p : Nat) :
    Tame s0 (State.portGone s p) := by
  unfold State.portGone
  repeat' first
    | refine Tame.pending ?_
    | refine Tame.fuse ?_
    | refine Tame.emgHost ?_
    | refine Tame.active ?_
    | refine Tame.maint ?_
    | (intro x; refine Tame.cut (s := s0) (t := x) ?_ (fun hx => ?_); subst x; rotate_left; (first | clear_value x | skip))
    | (lift_lets; intro x; refine Tame.cut (s := s0) (t := x) ?_ (fun hx => ?_); subst x; rotate_left; (first | clear_value x | skip))
    | (lift_lets; intro x)
    | with_reducible assumption
    | with_reducible apply State.onPort_tame
    | with_reducible apply State.onReq_tame
    | with_reducible apply State.cease_tame
    | (with_reducible apply Tame.foldl; rotate_left; intro y z hy)
    | intro x
    | split
    | (clear_value *; split)
    | (with_reducible apply Tame.lit <;> (try dsimp only))

theorem State.sealTake_tame {s0 s : State} (h : Tame s0 s) (b : Blob) (v : Word) :
    Tame s0 (State.sealTake s b v) := by
  unfold State.sealTake
  repeat' first
    | refine Tame.pending ?_
    | refine Tame.fuse ?_
    | refine Tame.emgHost ?_
    | refine Tame.active ?_
    | refine Tame.maint ?_
    | (intro x; refine Tame.cut (s := s0) (t := x) ?_ (fun hx => ?_); subst x; rotate_left; (first | clear_value x | skip))
    | (lift_lets; intro x; refine Tame.cut (s := s0) (t := x) ?_ (fun hx => ?_); subst x; rotate_left; (first | clear_value x | skip))
    | (lift_lets; intro x)
    | with_reducible assumption
    | with_reducible apply Tame.ite
    | with_reducible apply State.raiseIrq_tame
    | with_reducible apply State.bbEvent_tame
    | with_reducible apply State.retriesTake_tame
    | with_reducible apply State.wakePort_tame
    | with_reducible apply State.cease_tame
    | with_reducible apply State.tableLoad_tame
    | with_reducible apply State.endsSettle_tame
    | with_reducible apply State.portSt_tame
    | with_reducible apply State.configStart_tame
    | with_reducible apply State.copyWrite_tame
    | with_reducible apply State.canConf_tame
    | with_reducible apply State.preInit_tame
    | with_reducible apply State.tapsLoad_tame
    | with_reducible apply State.offsLoad_tame
    | with_reducible apply State.portGone_tame
    | (with_reducible apply Tame.foldl; rotate_left; intro y z hy)
    | intro x
    | split
    | (clear_value *; split)
    | (with_reducible apply Tame.lit <;> (try dsimp only))

theorem State.nvwIn_tame {s0 s : State} (h : Tame s0 s) (fr : NvwFrame) :
    Tame s0 (State.nvwIn s fr) := by
  unfold State.nvwIn
  repeat' first
    | refine Tame.pending ?_
    | refine Tame.fuse ?_
    | refine Tame.emgHost ?_
    | refine Tame.active ?_
    | refine Tame.maint ?_
    | with_reducible assumption
    | with_reducible apply Tame.ite
    | with_reducible apply State.sendNvw_tame
    | with_reducible apply State.raiseIrq_tame
    | with_reducible apply State.nvCommit_tame
    | with_reducible apply State.nvDue_tame
    | with_reducible apply State.nvwTake_tame
    | with_reducible apply State.nvwApply_tame
    | with_reducible apply State.sealTake_tame
    | intro x
    | split
    | (clear_value *; split)
    | (with_reducible apply Tame.lit <;> (try dsimp only))

theorem execNvwFrameReceived_tame {s0 s t : State} (fr : NvwFrame) (h : Tame s0 s)
    (e : execNvwFrameReceived fr s = .next t) : Tame s0 t := by
  unfold execNvwFrameReceived at e
  injection e with e
  subst e
  repeat' first
    | with_reducible assumption
    | with_reducible apply Tame.ite
    | with_reducible apply State.pairChanged_tame
    | with_reducible apply State.pairFrame_tame
    | with_reducible apply State.nvwIn_tame
    | split
    | (clear_value *; split)

theorem State.takeoverClose_tame {s0 s : State} (h : Tame s0 s)  :
    Tame s0 (State.takeoverClose s) := by
  unfold State.takeoverClose
  repeat' first
    | refine Tame.pending ?_
    | refine Tame.fuse ?_
    | refine Tame.emgHost ?_
    | refine Tame.active ?_
    | refine Tame.maint ?_
    | (intro x; refine Tame.cut (s := s0) (t := x) ?_ (fun hx => ?_); subst x; rotate_left; (first | clear_value x | skip))
    | (lift_lets; intro x; refine Tame.cut (s := s0) (t := x) ?_ (fun hx => ?_); subst x; rotate_left; (first | clear_value x | skip))
    | (lift_lets; intro x)
    | with_reducible assumption
    | with_reducible apply State.onOpn_tame
    | with_reducible apply State.coil_tame
    | with_reducible apply State.ctrOff_tame
    | with_reducible apply State.beginOpen_tame
    | (with_reducible apply Tame.foldl; rotate_left; intro y z hy)
    | intro x
    | split
    | (clear_value *; split)
    | (with_reducible apply Tame.lit <;> (try dsimp only))

theorem State.knAsked_tame {s0 s : State} (h : Tame s0 s)  :
    Tame s0 (State.knAsked s) := by
  unfold State.knAsked
  repeat' first
    | refine Tame.pending ?_
    | refine Tame.fuse ?_
    | refine Tame.emgHost ?_
    | refine Tame.active ?_
    | refine Tame.maint ?_
    | (intro x; refine Tame.cut (s := s0) (t := x) ?_ (fun hx => ?_); subst x; rotate_left; (first | clear_value x | skip))
    | (lift_lets; intro x; refine Tame.cut (s := s0) (t := x) ?_ (fun hx => ?_); subst x; rotate_left; (first | clear_value x | skip))
    | (lift_lets; intro x)
    | with_reducible assumption
    | with_reducible apply Tame.ite
    | with_reducible apply State.onCtr_tame
    | with_reducible apply State.coil_tame
    | (with_reducible apply Tame.foldl; rotate_left; intro y z hy)
    | intro x
    | split
    | (clear_value *; split)
    | (with_reducible apply Tame.lit <;> (try dsimp only))

theorem State.takeover_tame {s0 s : State} (h : Tame s0 s) (seq tRef : Nat) :
    Tame s0 (State.takeover s seq tRef) := by
  unfold State.takeover
  repeat' first
    | refine Tame.pending ?_
    | refine Tame.fuse ?_
    | refine Tame.emgHost ?_
    | refine Tame.active ?_
    | refine Tame.maint ?_
    | (intro x; refine Tame.cut (s := s0) (t := x) ?_ (fun hx => ?_); subst x; rotate_left; (first | clear_value x | skip))
    | (lift_lets; intro x; refine Tame.cut (s := s0) (t := x) ?_ (fun hx => ?_); subst x; rotate_left; (first | clear_value x | skip))
    | (lift_lets; intro x)
    | with_reducible assumption
    | with_reducible apply Tame.ite
    | with_reducible apply State.onPort_tame
    | with_reducible apply State.pairEvent_tame
    | with_reducible apply State.wadeAdopt_tame
    | with_reducible apply State.settle_tame
    | with_reducible apply State.calDone_tame
    | with_reducible apply State.takeoverClose_tame
    | with_reducible apply State.knAsked_tame
    | with_reducible apply State.takeover_tame
    | (with_reducible apply Tame.foldl; rotate_left; intro y z hy)
    | intro x
    | split
    | (clear_value *; split)
    | (with_reducible apply Tame.lit <;> (try dsimp only))

theorem State.partnerLose_tame {s0 s : State} (h : Tame s0 s)  :
    Tame s0 (State.partnerLose s) := by
  unfold State.partnerLose
  repeat' first
    | refine Tame.pending ?_
    | refine Tame.fuse ?_
    | refine Tame.emgHost ?_
    | refine Tame.active ?_
    | refine Tame.maint ?_
    | (intro x; refine Tame.cut (s := s0) (t := x) ?_ (fun hx => ?_); subst x; rotate_left; (first | clear_value x | skip))
    | (lift_lets; intro x; refine Tame.cut (s := s0) (t := x) ?_ (fun hx => ?_); subst x; rotate_left; (first | clear_value x | skip))
    | (lift_lets; intro x)
    | with_reducible assumption
    | with_reducible apply Tame.ite
    | with_reducible apply State.at_tame
    | with_reducible apply State.pairEvent_tame
    | with_reducible apply State.fail_tame
    | with_reducible apply State.nvwTake_tame
    | with_reducible apply State.takeover_tame
    | (with_reducible apply Tame.foldl; rotate_left; intro y z hy)
    | intro x
    | split
    | (clear_value *; split)
    | (with_reducible apply Tame.lit <;> (try dsimp only))

theorem execPartnerLost_tame {s0 s t : State}  (h : Tame s0 s)
    (e : execPartnerLost s = .next t) : Tame s0 t := by
  unfold execPartnerLost at e
  injection e with e
  subst e
  repeat' first
    | with_reducible assumption
    | with_reducible apply Tame.ite
    | with_reducible apply State.partnerLose_tame
    | split
    | (clear_value *; split)

theorem State.proofOver_tame {s0 s : State} (h : Tame s0 s)  :
    Tame s0 (State.proofOver s) := by
  unfold State.proofOver
  repeat' first
    | refine Tame.pending ?_
    | refine Tame.fuse ?_
    | refine Tame.emgHost ?_
    | refine Tame.active ?_
    | refine Tame.maint ?_
    | (intro x; refine Tame.cut (s := s0) (t := x) ?_ (fun hx => ?_); subst x; rotate_left; (first | clear_value x | skip))
    | (lift_lets; intro x; refine Tame.cut (s := s0) (t := x) ?_ (fun hx => ?_); subst x; rotate_left; (first | clear_value x | skip))
    | (lift_lets; intro x)
    | with_reducible assumption
    | with_reducible apply State.at_tame
    | with_reducible apply State.pairStatusRec_tame
    | with_reducible apply State.stand_tame
    | intro x
    | split
    | (clear_value *; split)
    | (with_reducible apply Tame.lit <;> (try dsimp only))

theorem execProofWindowEnd_tame {s0 s t : State}  (h : Tame s0 s)
    (e : execProofWindowEnd s = .next t) : Tame s0 t := by
  unfold execProofWindowEnd at e
  injection e with e
  subst e
  repeat' first
    | with_reducible assumption
    | with_reducible apply Tame.ite
    | with_reducible apply State.proofOver_tame
    | split
    | (clear_value *; split)

theorem execCoilFrameReceived_tame {s0 s t : State} (f : CoilFrame) (h : Tame s0 s)
    (e : execCoilFrameReceived f s = .next t) : Tame s0 t := by
  unfold execCoilFrameReceived at e
  injection e with e
  subst e
  repeat' first
    | refine Tame.pending ?_
    | refine Tame.fuse ?_
    | refine Tame.emgHost ?_
    | refine Tame.active ?_
    | refine Tame.maint ?_
    | (intro x; refine Tame.cut (s := s0) (t := x) ?_ (fun hx => ?_); subst x; rotate_left; (first | clear_value x | skip))
    | (lift_lets; intro x; refine Tame.cut (s := s0) (t := x) ?_ (fun hx => ?_); subst x; rotate_left; (first | clear_value x | skip))
    | (lift_lets; intro x)
    | with_reducible assumption
    | with_reducible apply Tame.ite
    | with_reducible apply State.onCtr_tame
    | with_reducible apply State.sendCoil_tame
    | with_reducible apply State.channel_tame
    | with_reducible apply State.coil_tame
    | with_reducible apply State.rearm_tame
    | with_reducible apply State.cease_tame
    | with_reducible apply State.pairFrame_tame
    | (with_reducible apply Tame.foldl; rotate_left; intro y z hy)
    | intro x
    | split
    | (clear_value *; split)
    | (with_reducible apply Tame.lit <;> (try dsimp only))

theorem State.ctrTold_tame {s0 s : State} (h : Tame s0 s) (c st : Nat) :
    Tame s0 (State.ctrTold s c st) := by
  unfold State.ctrTold
  repeat' first
    | refine Tame.pending ?_
    | refine Tame.fuse ?_
    | refine Tame.emgHost ?_
    | refine Tame.active ?_
    | refine Tame.maint ?_
    | (intro x; refine Tame.cut (s := s0) (t := x) ?_ (fun hx => ?_); subst x; rotate_left; (first | clear_value x | skip))
    | (lift_lets; intro x; refine Tame.cut (s := s0) (t := x) ?_ (fun hx => ?_); subst x; rotate_left; (first | clear_value x | skip))
    | (lift_lets; intro x)
    | with_reducible assumption
    | with_reducible apply Tame.ite
    | with_reducible apply State.onStr_tame
    | with_reducible apply State.setCtr_tame
    | (with_reducible apply Tame.foldl; rotate_left; intro y z hy)
    | intro x
    | split
    | (clear_value *; split)
    | (with_reducible apply Tame.lit <;> (try dsimp only))

theorem State.relayCmd_tame {s0 s : State} (h : Tame s0 s) (p addr tag : Nat) (rtx : Bool) (payload : List Byte) :
    Tame s0 (State.relayCmd s p addr tag rtx payload) := by
  unfold State.relayCmd
  repeat' first
    | (intro x; refine Tame.cut (s := s0) (t := x) ?_ (fun hx => ?_); subst x; rotate_left; (first | clear_value x | skip))
    | (lift_lets; intro x; refine Tame.cut (s := s0) (t := x) ?_ (fun hx => ?_); subst x; rotate_left; (first | clear_value x | skip))
    | (lift_lets; intro x)
    | with_reducible assumption
    | with_reducible apply Tame.ite
    | with_reducible apply State.onReq_tame
    | with_reducible apply State.emit_tame
    | with_reducible apply State.chainOut_tame
    | intro x
    | split
    | (clear_value *; split)

theorem State.chainBroken_tame {s0 s : State} (h : Tame s0 s) (p b : Nat) :
    Tame s0 (State.chainBroken s p b) := by
  unfold State.chainBroken
  repeat' first
    | refine Tame.pending ?_
    | refine Tame.fuse ?_
    | refine Tame.emgHost ?_
    | refine Tame.active ?_
    | refine Tame.maint ?_
    | with_reducible assumption
    | with_reducible apply Tame.ite
    | with_reducible apply State.onPort_tame
    | with_reducible apply State.calEnter_tame
    | with_reducible apply State.breakAt_tame
    | intro x
    | split
    | (clear_value *; split)
    | (with_reducible apply Tame.lit <;> (try dsimp only))

theorem State.chainEvt_tame {s0 s : State} (h : Tame s0 s) (p : Nat) (ev : PairEvt) :
    Tame s0 (State.chainEvt s p ev) := by
  unfold State.chainEvt
  repeat' first
    | refine Tame.pending ?_
    | refine Tame.fuse ?_
    | refine Tame.emgHost ?_
    | refine Tame.active ?_
    | refine Tame.maint ?_
    | (intro x; refine Tame.cut (s := s0) (t := x) ?_ (fun hx => ?_); subst x; rotate_left; (first | clear_value x | skip))
    | (lift_lets; intro x; refine Tame.cut (s := s0) (t := x) ?_ (fun hx => ?_); subst x; rotate_left; (first | clear_value x | skip))
    | (lift_lets; intro x)
    | with_reducible assumption
    | with_reducible apply Tame.ite
    | with_reducible apply State.onPort_tame
    | with_reducible apply State.emit_tame
    | with_reducible apply State.portSt_tame
    | with_reducible apply State.calStart_tame
    | with_reducible apply State.hopLock_tame
    | with_reducible apply State.pulseMissed_tame
    | intro x
    | split
    | (clear_value *; split)
    | (with_reducible apply Tame.lit <;> (try dsimp only))

theorem State.evtTake_tame {s0 s : State} (h : Tame s0 s) (ev : PairEvt) :
    Tame s0 (State.evtTake s ev) := by
  unfold State.evtTake
  repeat' first
    | refine Tame.pending ?_
    | refine Tame.fuse ?_
    | refine Tame.emgHost ?_
    | refine Tame.active ?_
    | refine Tame.maint ?_
    | (intro x; refine Tame.cut (s := s0) (t := x) ?_ (fun hx => ?_); subst x; rotate_left; (first | clear_value x | skip))
    | (lift_lets; intro x; refine Tame.cut (s := s0) (t := x) ?_ (fun hx => ?_); subst x; rotate_left; (first | clear_value x | skip))
    | (lift_lets; intro x)
    | with_reducible assumption
    | with_reducible apply Tame.ite
    | with_reducible apply State.onMark_tame
    | with_reducible apply State.onPort_tame
    | with_reducible apply State.onNode_tame
    | with_reducible apply State.sendEvt_tame
    | with_reducible apply State.powerState_tame
    | with_reducible apply State.wadeAdopt_tame
    | with_reducible apply State.latch_tame
    | with_reducible apply State.unlatch_tame
    | with_reducible apply State.settle_tame
    | with_reducible apply State.okay_tame
    | with_reducible apply State.seqKick_tame
    | with_reducible apply State.rspTake_tame
    | with_reducible apply State.probeDiff_tame
    | with_reducible apply State.takeRole_tame
    | with_reducible apply State.roleLost_tame
    | with_reducible apply State.mossEnter_tame
    | with_reducible apply State.peatEnter_tame
    | with_reducible apply State.owRequested_tame
    | with_reducible apply State.owBegin_tame
    | with_reducible apply State.tapNew_tame
    | with_reducible apply State.f05Settle_tame
    | with_reducible apply State.modeTake_tame
    | with_reducible apply State.knAsked_tame
    | with_reducible apply State.ctrTold_tame
    | with_reducible apply State.relayCmd_tame
    | with_reducible apply State.chainBroken_tame
    | with_reducible apply State.chainEvt_tame
    | (with_reducible apply Tame.foldl; rotate_left; intro y z hy)
    | intro x
    | split
    | (clear_value *; split)
    | (with_reducible apply Tame.lit <;> (try dsimp only))

theorem execPairEvtFrameReceived_tame {s0 s t : State} (ev : PairEvt) (h : Tame s0 s)
    (e : execPairEvtFrameReceived ev s = .next t) : Tame s0 t := by
  unfold execPairEvtFrameReceived at e
  injection e with e
  subst e
  repeat' first
    | with_reducible assumption
    | with_reducible apply Tame.ite
    | with_reducible apply State.pairChanged_tame
    | with_reducible apply State.pairFrame_tame
    | with_reducible apply State.evtTake_tame
    | split
    | (clear_value *; split)

theorem State.limitsTold_tame {s0 s : State} (h : Tame s0 s) (body : List Byte) (lim : List Nat) :
    Tame s0 (State.limitsTold s body lim) := by
  unfold State.limitsTold
  repeat' first
    | refine Tame.pending ?_
    | refine Tame.fuse ?_
    | refine Tame.emgHost ?_
    | refine Tame.active ?_
    | refine Tame.maint ?_
    | (intro x; refine Tame.cut (s := s0) (t := x) ?_ (fun hx => ?_); subst x; rotate_left; (first | clear_value x | skip))
    | (lift_lets; intro x; refine Tame.cut (s := s0) (t := x) ?_ (fun hx => ?_); subst x; rotate_left; (first | clear_value x | skip))
    | (lift_lets; intro x)
    | with_reducible assumption
    | with_reducible apply Tame.ite
    | with_reducible apply State.onStr_tame
    | with_reducible apply State.record_tame
    | (with_reducible apply Tame.foldl; rotate_left; intro y z hy)
    | intro x
    | split
    | (clear_value *; split)
    | (with_reducible apply Tame.lit <;> (try dsimp only))

theorem State.cellTold_tame {s0 s : State} (h : Tame s0 s) (g : Nat) (soc : Int) (sigma rep : Nat) (h v1 v2 : Int) (b : List Byte) :
    Tame s0 (State.cellTold s g soc sigma rep h v1 v2 b) := by
  unfold State.cellTold
  repeat' first
    | refine Tame.pending ?_
    | refine Tame.fuse ?_
    | refine Tame.emgHost ?_
    | refine Tame.active ?_
    | refine Tame.maint ?_
    | with_reducible assumption
    | with_reducible apply State.onEst_tame
    | intro x
    | split
    | (clear_value *; split)
    | (with_reducible apply Tame.lit <;> (try dsimp only))

theorem State.strTold_tame {s0 s : State} (h : Tame s0 s) (p rep : Nat) (turn extreme : Int) (b : List Byte) :
    Tame s0 (State.strTold s p rep turn extreme b) := by
  unfold State.strTold
  repeat' first
    | refine Tame.pending ?_
    | refine Tame.fuse ?_
    | refine Tame.emgHost ?_
    | refine Tame.active ?_
    | refine Tame.maint ?_
    | with_reducible assumption
    | with_reducible apply Tame.ite
    | with_reducible apply State.onStr_tame
    | intro x
    | split
    | (clear_value *; split)
    | (with_reducible apply Tame.lit <;> (try dsimp only))

theorem State.digests_tame {s0 s : State} (h : Tame s0 s) (mask : BitVec 7) :
    Tame s0 (State.digests s mask) := by
  unfold State.digests
  repeat' first
    | refine Tame.pending ?_
    | refine Tame.fuse ?_
    | refine Tame.emgHost ?_
    | refine Tame.active ?_
    | refine Tame.maint ?_
    | (intro x; refine Tame.cut (s := s0) (t := x) ?_ (fun hx => ?_); subst x; rotate_left; (first | clear_value x | skip))
    | (lift_lets; intro x; refine Tame.cut (s := s0) (t := x) ?_ (fun hx => ?_); subst x; rotate_left; (first | clear_value x | skip))
    | (lift_lets; intro x)
    | with_reducible assumption
    | with_reducible apply Tame.ite
    | with_reducible apply State.diverge_tame
    | with_reducible apply State.resyncRegion_tame
    | (with_reducible apply Tame.foldl; rotate_left; intro y z hy)
    | intro x
    | split
    | (clear_value *; split)
    | (with_reducible apply Tame.lit <;> (try dsimp only))

theorem State.mirrorTake_tame {s0 s : State} (h : Tame s0 s) (item : MirrorItem) :
    Tame s0 (State.mirrorTake s item) := by
  unfold State.mirrorTake
  repeat' first
    | refine Tame.pending ?_
    | refine Tame.fuse ?_
    | refine Tame.emgHost ?_
    | refine Tame.active ?_
    | refine Tame.maint ?_
    | (intro x; refine Tame.cut (s := s0) (t := x) ?_ (fun hx => ?_); subst x; rotate_left; (first | clear_value x | skip))
    | (lift_lets; intro x; refine Tame.cut (s := s0) (t := x) ?_ (fun hx => ?_); subst x; rotate_left; (first | clear_value x | skip))
    | (lift_lets; intro x)
    | with_reducible assumption
    | with_reducible apply Tame.ite
    | with_reducible apply State.onPre_tame
    | with_reducible apply State.onNode_tame
    | with_reducible apply State.onStr_tame
    | with_reducible apply State.record_tame
    | with_reducible apply State.tableSet_tame
    | with_reducible apply State.calDone_tame
    | with_reducible apply State.limitsTold_tame
    | with_reducible apply State.cellTold_tame
    | with_reducible apply State.strTold_tame
    | with_reducible apply State.digests_tame
    | intro x
    | split
    | (clear_value *; split)
    | (with_reducible apply Tame.lit <;> (try dsimp only))

theorem execMirrorFrameReceived_tame {s0 s t : State} (item : MirrorItem) (h : Tame s0 s)
    (e : execMirrorFrameReceived item s = .next t) : Tame s0 t := by
  unfold execMirrorFrameReceived at e
  injection e with e
  subst e
  repeat' first
    | with_reducible assumption
    | with_reducible apply Tame.ite
    | with_reducible apply State.pairChanged_tame
    | with_reducible apply State.pairFrame_tame
    | with_reducible apply State.mirrorTake_tame
    | split
    | (clear_value *; split)

theorem State.digestBegin_tame {s0 s : State} (h : Tame s0 s)  :
    Tame s0 (State.digestBegin s) := by
  unfold State.digestBegin
  repeat' first
    | refine Tame.pending ?_
    | refine Tame.fuse ?_
    | refine Tame.emgHost ?_
    | refine Tame.active ?_
    | refine Tame.maint ?_
    | (intro x; refine Tame.cut (s := s0) (t := x) ?_ (fun hx => ?_); subst x; rotate_left; (first | clear_value x | skip))
    | (lift_lets; intro x; refine Tame.cut (s := s0) (t := x) ?_ (fun hx => ?_); subst x; rotate_left; (first | clear_value x | skip))
    | (lift_lets; intro x)
    | with_reducible assumption
    | with_reducible apply Tame.ite
    | with_reducible apply State.at_tame
    | with_reducible apply State.sendMirror_tame
    | intro x
    | split
    | (clear_value *; split)
    | (with_reducible apply Tame.lit <;> (try dsimp only))

theorem State.digestEnd_tame {s0 s : State} (h : Tame s0 s) (mask : BitVec 7) :
    Tame s0 (State.digestEnd s mask) := by
  unfold State.digestEnd
  repeat' first
    | refine Tame.pending ?_
    | refine Tame.fuse ?_
    | refine Tame.emgHost ?_
    | refine Tame.active ?_
    | refine Tame.maint ?_
    | (intro x; refine Tame.cut (s := s0) (t := x) ?_ (fun hx => ?_); subst x; rotate_left; (first | clear_value x | skip))
    | (lift_lets; intro x; refine Tame.cut (s := s0) (t := x) ?_ (fun hx => ?_); subst x; rotate_left; (first | clear_value x | skip))
    | (lift_lets; intro x)
    | with_reducible assumption
    | with_reducible apply Tame.ite
    | with_reducible apply State.finish_tame
    | with_reducible apply State.okay_tame
    | with_reducible apply State.digests_tame
    | intro x
    | split
    | (clear_value *; split)
    | (with_reducible apply Tame.lit <;> (try dsimp only))

theorem execDigestExchange_tame {s0 s t : State} (partner : List Word) (h : Tame s0 s)
    (e : execDigestExchange partner s = .next t) : Tame s0 t := by
  unfold execDigestExchange at e
  injection e with e
  subst e
  repeat' first
    | refine Tame.pending ?_
    | refine Tame.fuse ?_
    | refine Tame.emgHost ?_
    | refine Tame.active ?_
    | refine Tame.maint ?_
    | with_reducible assumption
    | with_reducible exact Tame.refl _
    | with_reducible apply Tame.ite
    | with_reducible apply State.digestBegin_tame
    | with_reducible apply State.digestEnd_tame
    | intro x
    | split
    | (clear_value *; split)
    | contradiction

theorem State.resyncDone_tame {s0 s : State} (h : Tame s0 s)  :
    Tame s0 (State.resyncDone s) := by
  unfold State.resyncDone
  repeat' first
    | refine Tame.pending ?_
    | refine Tame.fuse ?_
    | refine Tame.emgHost ?_
    | refine Tame.active ?_
    | refine Tame.maint ?_
    | (intro x; refine Tame.cut (s := s0) (t := x) ?_ (fun hx => ?_); subst x; rotate_left; (first | clear_value x | skip))
    | (lift_lets; intro x; refine Tame.cut (s := s0) (t := x) ?_ (fun hx => ?_); subst x; rotate_left; (first | clear_value x | skip))
    | (lift_lets; intro x)
    | with_reducible assumption
    | with_reducible apply Tame.ite
    | with_reducible apply State.pairEvent_tame
    | with_reducible apply State.rejoinSettle_tame
    | intro x
    | split
    | (clear_value *; split)
    | (with_reducible apply Tame.lit <;> (try dsimp only))

theorem execResyncComplete_tame {s0 s t : State}  (h : Tame s0 s)
    (e : execResyncComplete s = .next t) : Tame s0 t := by
  unfold execResyncComplete at e
  injection e with e
  subst e
  repeat' first
    | with_reducible assumption
    | with_reducible apply Tame.ite
    | with_reducible apply State.resyncDone_tame
    | split
    | (clear_value *; split)

theorem execPairOffsetFault_tame {s0 s t : State}  (h : Tame s0 s)
    (e : execPairOffsetFault s = .next t) : Tame s0 t := by
  unfold execPairOffsetFault at e
  injection e with e
  subst e
  repeat' first
    | with_reducible assumption
    | with_reducible apply State.at_tame
    | with_reducible apply State.pairChanged_tame
    | with_reducible apply State.stand_tame
    | intro x
    | split
    | (clear_value *; split)

end Sys2Proof.Machine
end

