-- ==== Sys2Proof/Laws/TameFaultCmds.lean ====
section
/-! SUPPORT. The operations of Machine.FaultCmds are tame. -/

namespace Sys2Proof.Machine

open Sys2Proof

set_option linter.unreachableTactic false
set_option linter.unusedTactic false

theorem State.lswSettle_tame {s0 s : State} (h : Tame s0 s)  :
    Tame s0 (State.lswSettle s) := by
  unfold State.lswSettle
  repeat' first
    | refine Tame.pending ?_
    | refine Tame.fuse ?_
    | refine Tame.emgHost ?_
    | refine Tame.active ?_
    | refine Tame.maint ?_
    | (intro x; refine Tame.cut (s := s0) (t := x) ?_ (fun hx => ?_); subst x; rotate_left; (first | clear_value x | skip))
    | (lift_lets; intro x; refine Tame.cut (s := s0) (t := x) ?_ (fun hx => ?_); subst x; rotate_left; (first | clear_value x | skip))
    | (lift_lets; intro x)
    | with_reducible assumption
    | with_reducible apply Tame.ite
    | with_reducible apply State.onLsw_tame
    | with_reducible apply State.cease_tame
    | (with_reducible apply Tame.foldl; rotate_left; intro y z hy)
    | intro x
    | split
    | (clear_value *; split)
    | (with_reducible apply Tame.lit <;> (try dsimp only))

theorem State.matrixEval_tame {s0 s : State} (h : Tame s0 s)  :
    Tame s0 (State.matrixEval s) := by
  unfold State.matrixEval
  repeat' first
    | (intro x; refine Tame.cut (s := s0) (t := x) ?_ (fun hx => ?_); subst x; rotate_left; (first | clear_value x | skip))
    | (lift_lets; intro x; refine Tame.cut (s := s0) (t := x) ?_ (fun hx => ?_); subst x; rotate_left; (first | clear_value x | skip))
    | (lift_lets; intro x)
    | with_reducible assumption
    | with_reducible apply State.settle_tame
    | with_reducible apply State.seqKick_tame
    | with_reducible apply State.f39Settle_tame
    | with_reducible apply State.shutStep_tame
    | with_reducible apply State.lswSettle_tame
    | intro x
    | split
    | (clear_value *; split)

theorem execFaultMatrixEvaluation_tame {s0 s t : State}  (h : Tame s0 s)
    (e : execFaultMatrixEvaluation s = .next t) : Tame s0 t := by
  unfold execFaultMatrixEvaluation at e
  injection e with e
  subst e
  repeat' first
    | with_reducible assumption
    | with_reducible apply State.matrixEval_tame
    | split
    | (clear_value *; split)

theorem execPersistenceExpiry_tame {s0 s t : State} (src : Nat) (scope : Nat) (h : Tame s0 s)
    (e : execPersistenceExpiry src scope s = .next t) : Tame s0 t := by
  unfold execPersistenceExpiry at e
  injection e with e
  subst e
  repeat' first
    | (intro x; refine Tame.cut (s := s0) (t := x) ?_ (fun hx => ?_); subst x; rotate_left; (first | clear_value x | skip))
    | (lift_lets; intro x; refine Tame.cut (s := s0) (t := x) ?_ (fun hx => ?_); subst x; rotate_left; (first | clear_value x | skip))
    | (lift_lets; intro x)
    | with_reducible assumption
    | with_reducible apply Tame.ite
    | with_reducible apply State.at_tame
    | with_reducible apply State.latch_tame
    | with_reducible apply State.seqKick_tame
    | intro x
    | split
    | (clear_value *; split)

theorem execClassBWaitExpiry_tame {s0 s t : State} (scope : Nat) (h : Tame s0 s)
    (e : execClassBWaitExpiry scope s = .next t) : Tame s0 t := by
  unfold execClassBWaitExpiry at e
  injection e with e
  subst e
  repeat' first
    | (intro x; refine Tame.cut (s := s0) (t := x) ?_ (fun hx => ?_); subst x; rotate_left; (first | clear_value x | skip))
    | (lift_lets; intro x; refine Tame.cut (s := s0) (t := x) ?_ (fun hx => ?_); subst x; rotate_left; (first | clear_value x | skip))
    | (lift_lets; intro x)
    | with_reducible assumption
    | with_reducible apply Tame.ite
    | with_reducible apply State.at_tame
    | with_reducible apply State.openScope_tame
    | with_reducible apply State.seqKick_tame
    | with_reducible apply State.shutStep_tame
    | (with_reducible apply Tame.foldl; rotate_left; intro y z hy)
    | intro x
    | split
    | (clear_value *; split)

theorem execLowCurrentWindow_tame {s0 s t : State} (scope : Nat) (h : Tame s0 s)
    (e : execLowCurrentWindow scope s = .next t) : Tame s0 t := by
  unfold execLowCurrentWindow at e
  injection e with e
  subst e
  repeat' first
    | with_reducible assumption
    | with_reducible apply Tame.ite
    | with_reducible apply State.at_tame
    | with_reducible apply State.startWindow_tame
    | intro x
    | split
    | (clear_value *; split)

theorem State.escalateB_tame {s0 s : State} (h : Tame s0 s) (scope : Nat) :
    Tame s0 (State.escalateB s scope) := by
  unfold State.escalateB
  repeat' first
    | refine Tame.pending ?_
    | refine Tame.fuse ?_
    | refine Tame.emgHost ?_
    | refine Tame.active ?_
    | refine Tame.maint ?_
    | (intro x; refine Tame.cut (s := s0) (t := x) ?_ (fun hx => ?_); subst x; rotate_left; (first | clear_value x | skip))
    | (lift_lets; intro x; refine Tame.cut (s := s0) (t := x) ?_ (fun hx => ?_); subst x; rotate_left; (first | clear_value x | skip))
    | (lift_lets; intro x)
    | with_reducible assumption
    | with_reducible apply State.onFault_tame
    | with_reducible apply State.faultRec_tame
    | (with_reducible apply Tame.foldl; rotate_left; intro y z hy)
    | intro x
    | split
    | (clear_value *; split)
    | (with_reducible apply Tame.lit <;> (try dsimp only))

theorem execClassCDeadline_tame {s0 s t : State} (scope : Nat) (h : Tame s0 s)
    (e : execClassCDeadline scope s = .next t) : Tame s0 t := by
  unfold execClassCDeadline at e
  injection e with e
  subst e
  repeat' first
    | (intro x; refine Tame.cut (s := s0) (t := x) ?_ (fun hx => ?_); subst x; rotate_left; (first | clear_value x | skip))
    | (lift_lets; intro x; refine Tame.cut (s := s0) (t := x) ?_ (fun hx => ?_); subst x; rotate_left; (first | clear_value x | skip))
    | (lift_lets; intro x)
    | with_reducible assumption
    | with_reducible apply Tame.ite
    | with_reducible apply State.at_tame
    | with_reducible apply State.startB_tame
    | with_reducible apply State.escalateB_tame
    | intro x
    | split
    | (clear_value *; split)

theorem execClassDRelease_tame {s0 s t : State} (src : Nat) (scope : Nat) (h : Tame s0 s)
    (e : execClassDRelease src scope s = .next t) : Tame s0 t := by
  unfold execClassDRelease at e
  injection e with e
  subst e
  repeat' first
    | with_reducible assumption
    | with_reducible apply Tame.ite
    | with_reducible apply State.at_tame
    | with_reducible apply State.unlatch_tame
    | split
    | (clear_value *; split)

theorem State.wadeOut_tame {s0 s : State} (h : Tame s0 s)  :
    Tame s0 (State.wadeOut s) := by
  unfold State.wadeOut
  repeat' first
    | refine Tame.pending ?_
    | refine Tame.fuse ?_
    | refine Tame.emgHost ?_
    | refine Tame.active ?_
    | refine Tame.maint ?_
    | (intro x; refine Tame.cut (s := s0) (t := x) ?_ (fun hx => ?_); subst x; rotate_left; (first | clear_value x | skip))
    | (lift_lets; intro x; refine Tame.cut (s := s0) (t := x) ?_ (fun hx => ?_); subst x; rotate_left; (first | clear_value x | skip))
    | (lift_lets; intro x)
    | with_reducible assumption
    | with_reducible apply State.at_tame
    | intro x
    | split
    | (clear_value *; split)
    | (with_reducible apply Tame.lit <;> (try dsimp only))

theorem execWadeTimerExpiry_tame {s0 s t : State}  (h : Tame s0 s)
    (e : execWadeTimerExpiry s = .next t) : Tame s0 t := by
  unfold execWadeTimerExpiry at e
  injection e with e
  subst e
  repeat' first
    | with_reducible assumption
    | with_reducible apply Tame.ite
    | with_reducible apply State.wadeOpens_tame
    | with_reducible apply State.wadeOut_tame
    | split
    | (clear_value *; split)

end Sys2Proof.Machine
end

