-- ==== Sys2Proof/Laws/TamePower.lean ====
section
/-! SUPPORT. The operations of Machine.Power are tame. -/

namespace Sys2Proof.Machine

open Sys2Proof

set_option linter.unreachableTactic false
set_option linter.unusedTactic false

theorem State.rstPower_tame {s0 s : State} (h : Tame s0 s) (d : Tab Nat Disc) :
    Tame s0 (State.rstPower s d) := by
  unfold State.rstPower
  repeat' first
    | refine Tame.pending ?_
    | refine Tame.fuse ?_
    | refine Tame.emgHost ?_
    | refine Tame.active ?_
    | refine Tame.maint ?_
    | with_reducible assumption
    | split
    | (clear_value *; split)
    | (with_reducible apply Tame.lit <;> (try dsimp only))

theorem State.partHold_tame {s0 s : State} (h : Tame s0 s)  :
    Tame s0 (State.partHold s) := by
  unfold State.partHold
  repeat' first
    | refine Tame.pending ?_
    | refine Tame.fuse ?_
    | refine Tame.emgHost ?_
    | refine Tame.active ?_
    | refine Tame.maint ?_
    | with_reducible assumption
    | split
    | (clear_value *; split)
    | (with_reducible apply Tame.lit <;> (try dsimp only))

theorem State.rstReset_tame {s0 s : State} (h : Tame s0 s)  :
    Tame s0 (State.rstReset s) := by
  unfold State.rstReset
  repeat' first
    | refine Tame.pending ?_
    | refine Tame.fuse ?_
    | refine Tame.emgHost ?_
    | refine Tame.active ?_
    | refine Tame.maint ?_
    | (intro x; refine Tame.cut (s := s0) (t := x) ?_ (fun hx => ?_); subst x; rotate_left; (first | clear_value x | skip))
    | (lift_lets; intro x; refine Tame.cut (s := s0) (t := x) ?_ (fun hx => ?_); subst x; rotate_left; (first | clear_value x | skip))
    | (lift_lets; intro x)
    | with_reducible assumption
    | with_reducible exact Tame.refl _
    | with_reducible apply Tame.ite
    | with_reducible apply State.keeperOn_tame
    | with_reducible apply State.resetCause_tame
    | with_reducible apply State.holdStart_tame
    | with_reducible apply State.flushCan_tame
    | with_reducible apply State.hostReset_tame
    | with_reducible apply State.sramLost_tame
    | with_reducible apply State.rstPower_tame
    | with_reducible apply State.partHold_tame
    | intro x
    | split
    | (clear_value *; split)
    | (with_reducible apply Tame.lit <;> (try dsimp only))
    | contradiction

theorem execRstNReset_tame {s0 s t : State} (lowUs : Nat) (h : Tame s0 s)
    (e : execRstNReset lowUs s = .next t) : Tame s0 t := by
  unfold execRstNReset at e
  injection e with e
  subst e
  repeat' first
    | refine Tame.pending ?_
    | refine Tame.fuse ?_
    | refine Tame.emgHost ?_
    | refine Tame.active ?_
    | refine Tame.maint ?_
    | (intro x; refine Tame.cut (s := s0) (t := x) ?_ (fun hx => ?_); subst x; rotate_left; (first | clear_value x | skip))
    | (lift_lets; intro x; refine Tame.cut (s := s0) (t := x) ?_ (fun hx => ?_); subst x; rotate_left; (first | clear_value x | skip))
    | (lift_lets; intro x)
    | with_reducible assumption
    | with_reducible apply Tame.ite
    | with_reducible apply State.event_tame
    | with_reducible apply State.resetCause_tame
    | with_reducible apply State.powerState_tame
    | with_reducible apply State.rstReset_tame
    | intro x
    | split
    | (clear_value *; split)
    | (with_reducible apply Tame.lit <;> (try dsimp only))

theorem execRstNDeassert_tame {s0 s t : State}  (h : Tame s0 s)
    (e : execRstNDeassert s = .next t) : Tame s0 t := by
  unfold execRstNDeassert at e
  injection e with e
  subst e
  repeat' first
    | with_reducible assumption
    | with_reducible apply Tame.ite
    | with_reducible apply State.trialStart_tame
    | with_reducible apply State.startUp_tame
    | split
    | (clear_value *; split)

theorem execDomainPowerGood_tame {s0 s t : State} (dom : Nat) (h : Tame s0 s)
    (e : execDomainPowerGood dom s = .next t) : Tame s0 t := by
  unfold execDomainPowerGood at e
  injection e with e
  subst e
  repeat' first
    | refine Tame.pending ?_
    | refine Tame.fuse ?_
    | refine Tame.emgHost ?_
    | refine Tame.active ?_
    | refine Tame.maint ?_
    | (intro x; refine Tame.cut (s := s0) (t := x) ?_ (fun hx => ?_); subst x; rotate_left; (first | clear_value x | skip))
    | (lift_lets; intro x; refine Tame.cut (s := s0) (t := x) ?_ (fun hx => ?_); subst x; rotate_left; (first | clear_value x | skip))
    | (lift_lets; intro x)
    | with_reducible assumption
    | with_reducible apply Tame.ite
    | with_reducible apply State.portsStart_tame
    | intro x
    | split
    | (clear_value *; split)
    | (with_reducible apply Tame.lit <;> (try dsimp only))

theorem State.sramRepair_tame {s0 s : State} (h : Tame s0 s) (kind unit : Nat) :
    Tame s0 (State.sramRepair s kind unit) := by
  unfold State.sramRepair
  repeat' first
    | refine Tame.pending ?_
    | refine Tame.fuse ?_
    | refine Tame.emgHost ?_
    | refine Tame.active ?_
    | refine Tame.maint ?_
    | (intro x; refine Tame.cut (s := s0) (t := x) ?_ (fun hx => ?_); subst x; rotate_left; (first | clear_value x | skip))
    | (lift_lets; intro x; refine Tame.cut (s := s0) (t := x) ?_ (fun hx => ?_); subst x; rotate_left; (first | clear_value x | skip))
    | (lift_lets; intro x)
    | with_reducible assumption
    | with_reducible apply Tame.ite
    | with_reducible apply State.repaired_tame
    | with_reducible apply State.stand_tame
    | intro x
    | split
    | (clear_value *; split)
    | (with_reducible apply Tame.lit <;> (try dsimp only))

theorem State.pendApply_tame {s0 s : State} (h : Tame s0 s) (r : RepairRec) :
    Tame s0 (State.pendApply s r) := by
  unfold State.pendApply
  repeat' first
    | with_reducible assumption
    | with_reducible apply State.sectorRemap_tame
    | with_reducible apply State.engineTake_tame
    | with_reducible apply State.laneFail_tame
    | with_reducible apply State.sramRepair_tame
    | intro x
    | split
    | (clear_value *; split)

theorem State.bootRepair_tame {s0 s : State} (h : Tame s0 s) (finds : List RepairFind) :
    Tame s0 (State.bootRepair s finds) := by
  unfold State.bootRepair
  repeat' first
    | refine Tame.pending ?_
    | refine Tame.fuse ?_
    | refine Tame.emgHost ?_
    | refine Tame.active ?_
    | refine Tame.maint ?_
    | (intro x; refine Tame.cut (s := s0) (t := x) ?_ (fun hx => ?_); subst x; rotate_left; (first | clear_value x | skip))
    | (lift_lets; intro x; refine Tame.cut (s := s0) (t := x) ?_ (fun hx => ?_); subst x; rotate_left; (first | clear_value x | skip))
    | (lift_lets; intro x)
    | with_reducible assumption
    | with_reducible apply State.sramRepair_tame
    | with_reducible apply State.pendApply_tame
    | (with_reducible apply Tame.foldl; rotate_left; intro y z hy)
    | intro x
    | split
    | (clear_value *; split)
    | (with_reducible apply Tame.lit <;> (try dsimp only))

theorem execBuiltInRepair_tame {s0 s t : State} (finds : List RepairFind) (unmappable : Nat) (h : Tame s0 s)
    (e : execBuiltInRepair finds unmappable s = .next t) : Tame s0 t := by
  unfold execBuiltInRepair at e
  injection e with e
  subst e
  repeat' first
    | with_reducible assumption
    | with_reducible apply Tame.ite
    | with_reducible apply State.stand_tame
    | with_reducible apply State.bootRepair_tame
    | split
    | (clear_value *; split)

theorem execMramMount_tame {s0 s t : State}  (h : Tame s0 s)
    (e : execMramMount s = .next t) : Tame s0 t := by
  unfold execMramMount at e
  injection e with e
  subst e
  repeat' first
    | (intro x; refine Tame.cut (s := s0) (t := x) ?_ (fun hx => ?_); subst x; rotate_left; (first | clear_value x | skip))
    | (lift_lets; intro x; refine Tame.cut (s := s0) (t := x) ?_ (fun hx => ?_); subst x; rotate_left; (first | clear_value x | skip))
    | (lift_lets; intro x)
    | with_reducible assumption
    | with_reducible apply Tame.ite
    | with_reducible apply State.portsStart_tame
    | with_reducible apply State.mount_tame
    | intro x
    | split
    | (clear_value *; split)

theorem execReadyToClose_tame {s0 s t : State}  (h : Tame s0 s)
    (e : execReadyToClose s = .next t) : Tame s0 t := by
  unfold execReadyToClose at e
  injection e with e
  subst e
  repeat' first
    | refine Tame.pending ?_
    | refine Tame.fuse ?_
    | refine Tame.emgHost ?_
    | refine Tame.active ?_
    | refine Tame.maint ?_
    | (intro x; refine Tame.cut (s := s0) (t := x) ?_ (fun hx => ?_); subst x; rotate_left; (first | clear_value x | skip))
    | (lift_lets; intro x; refine Tame.cut (s := s0) (t := x) ?_ (fun hx => ?_); subst x; rotate_left; (first | clear_value x | skip))
    | (lift_lets; intro x)
    | with_reducible assumption
    | with_reducible apply Tame.ite
    | with_reducible apply State.seqKick_tame
    | intro x
    | split
    | (clear_value *; split)
    | (with_reducible apply Tame.lit <;> (try dsimp only))

theorem State.readyOut_tame {s0 s : State} (h : Tame s0 s)  :
    Tame s0 (State.readyOut s) := by
  unfold State.readyOut
  repeat' first
    | refine Tame.pending ?_
    | refine Tame.fuse ?_
    | refine Tame.emgHost ?_
    | refine Tame.active ?_
    | refine Tame.maint ?_
    | (intro x; refine Tame.cut (s := s0) (t := x) ?_ (fun hx => ?_); subst x; rotate_left; (first | clear_value x | skip))
    | (lift_lets; intro x; refine Tame.cut (s := s0) (t := x) ?_ (fun hx => ?_); subst x; rotate_left; (first | clear_value x | skip))
    | (lift_lets; intro x)
    | with_reducible assumption
    | with_reducible exact Tame.refl _
    | with_reducible apply Tame.ite
    | with_reducible apply State.at_tame
    | with_reducible apply State.fail_tame
    | with_reducible apply State.fwRevert_tame
    | intro x
    | split
    | (clear_value *; split)
    | (with_reducible apply Tame.lit <;> (try dsimp only))
    | contradiction

theorem execReadyTimeout_tame {s0 s t : State}  (h : Tame s0 s)
    (e : execReadyTimeout s = .next t) : Tame s0 t := by
  unfold execReadyTimeout at e
  injection e with e
  subst e
  repeat' first
    | with_reducible assumption
    | with_reducible apply Tame.ite
    | with_reducible apply State.readyOut_tame
    | split
    | (clear_value *; split)

theorem execSupplyInterruptionBegin_tame {s0 s t : State} (vsup : SupplyRead) (h : Tame s0 s)
    (e : execSupplyInterruptionBegin vsup s = .next t) : Tame s0 t := by
  unfold execSupplyInterruptionBegin at e
  injection e with e
  subst e
  repeat' first
    | refine Tame.pending ?_
    | refine Tame.fuse ?_
    | refine Tame.emgHost ?_
    | refine Tame.active ?_
    | refine Tame.maint ?_
    | (intro x; refine Tame.cut (s := s0) (t := x) ?_ (fun hx => ?_); subst x; rotate_left; (first | clear_value x | skip))
    | (lift_lets; intro x; refine Tame.cut (s := s0) (t := x) ?_ (fun hx => ?_); subst x; rotate_left; (first | clear_value x | skip))
    | (lift_lets; intro x)
    | with_reducible assumption
    | with_reducible apply Tame.ite
    | with_reducible apply State.holdupNow_tame
    | with_reducible apply State.bbEvent_tame
    | intro x
    | split
    | (clear_value *; split)
    | (with_reducible apply Tame.lit <;> (try dsimp only))

theorem State.snapsOver_tame {s0 s : State} (h : Tame s0 s)  :
    Tame s0 (State.snapsOver s) := by
  unfold State.snapsOver
  repeat' first
    | refine Tame.pending ?_
    | refine Tame.fuse ?_
    | refine Tame.emgHost ?_
    | refine Tame.active ?_
    | refine Tame.maint ?_
    | with_reducible assumption
    | intro x
    | split
    | (clear_value *; split)
    | (with_reducible apply Tame.lit <;> (try dsimp only))

theorem State.saveStart_tame {s0 s : State} (h : Tame s0 s)  :
    Tame s0 (State.saveStart s) := by
  unfold State.saveStart
  repeat' first
    | refine Tame.pending ?_
    | refine Tame.fuse ?_
    | refine Tame.emgHost ?_
    | refine Tame.active ?_
    | refine Tame.maint ?_
    | (intro x; refine Tame.cut (s := s0) (t := x) ?_ (fun hx => ?_); subst x; rotate_left; (first | clear_value x | skip))
    | (lift_lets; intro x; refine Tame.cut (s := s0) (t := x) ?_ (fun hx => ?_); subst x; rotate_left; (first | clear_value x | skip))
    | (lift_lets; intro x)
    | with_reducible assumption
    | with_reducible apply State.at_tame
    | with_reducible apply State.event_tame
    | with_reducible apply State.seqAbort_tame
    | with_reducible apply State.outsOff_tame
    | with_reducible apply State.snapsOver_tame
    | with_reducible apply State.saveWindow_tame
    | intro x
    | split
    | (clear_value *; split)
    | (with_reducible apply Tame.lit <;> (try dsimp only))

theorem State.saveWindow_tame {s0 s : State} (h : Tame s0 s)  :
    Tame s0 (State.saveWindow s) := by
  unfold State.saveWindow
  repeat' first
    | with_reducible assumption
    | with_reducible apply Tame.ite
    | with_reducible apply State.saveSet_tame
    | with_reducible apply State.saveStart_tame
    | split
    | (clear_value *; split)

theorem execSaveWindowEntry_tame {s0 s t : State}  (h : Tame s0 s)
    (e : execSaveWindowEntry s = .next t) : Tame s0 t := by
  unfold execSaveWindowEntry at e
  injection e with e
  subst e
  repeat' first
    | with_reducible assumption
    | with_reducible apply Tame.ite
    | with_reducible apply State.holdupDrawn_tame
    | with_reducible apply State.saveWindow_tame
    | split
    | (clear_value *; split)

theorem State.saveOver_tame {s0 s : State} (h : Tame s0 s)  :
    Tame s0 (State.saveOver s) := by
  unfold State.saveOver
  repeat' first
    | refine Tame.pending ?_
    | refine Tame.fuse ?_
    | refine Tame.emgHost ?_
    | refine Tame.active ?_
    | refine Tame.maint ?_
    | (intro x; refine Tame.cut (s := s0) (t := x) ?_ (fun hx => ?_); subst x; rotate_left; (first | clear_value x | skip))
    | (lift_lets; intro x; refine Tame.cut (s := s0) (t := x) ?_ (fun hx => ?_); subst x; rotate_left; (first | clear_value x | skip))
    | (lift_lets; intro x)
    | with_reducible assumption
    | with_reducible apply State.onOutc_tame
    | with_reducible apply State.keeperOn_tame
    | with_reducible apply State.hostReset_tame
    | with_reducible apply State.portsDark_tame
    | with_reducible apply State.sramLost_tame
    | (with_reducible apply Tame.foldl; rotate_left; intro y z hy)
    | intro x
    | split
    | (clear_value *; split)
    | (with_reducible apply Tame.lit <;> (try dsimp only))

theorem execSaveWindowExpiry_tame {s0 s t : State}  (h : Tame s0 s)
    (e : execSaveWindowExpiry s = .next t) : Tame s0 t := by
  unfold execSaveWindowExpiry at e
  injection e with e
  subst e
  repeat' first
    | with_reducible assumption
    | with_reducible apply Tame.ite
    | with_reducible apply State.saveOver_tame
    | split
    | (clear_value *; split)

theorem execWakePackCurrent_tame {s0 s t : State} (i : Int) (h : Tame s0 s)
    (e : execWakePackCurrent i s = .next t) : Tame s0 t := by
  unfold execWakePackCurrent at e
  injection e with e
  subst e
  repeat' first
    | with_reducible assumption
    | with_reducible apply Tame.ite
    | with_reducible apply State.wakeBy_tame
    | split
    | (clear_value *; split)

theorem execCanWake_tame {s0 s t : State} (c : Nat) (h : Tame s0 s)
    (e : execCanWake c s = .next t) : Tame s0 t := by
  unfold execCanWake at e
  injection e with e
  subst e
  repeat' first
    | with_reducible assumption
    | with_reducible apply Tame.ite
    | with_reducible apply State.wakeBy_tame
    | split
    | (clear_value *; split)

theorem execWakeTimerExpiry_tame {s0 s t : State}  (h : Tame s0 s)
    (e : execWakeTimerExpiry s = .next t) : Tame s0 t := by
  unfold execWakeTimerExpiry at e
  injection e with e
  subst e
  repeat' first
    | with_reducible assumption
    | with_reducible apply Tame.ite
    | with_reducible apply State.at_tame
    | with_reducible apply State.wakeBy_tame
    | split
    | (clear_value *; split)

theorem State.wakePin_tame {s0 s : State} (h : Tame s0 s) (code : Nat) :
    Tame s0 (State.wakePin s code) := by
  unfold State.wakePin
  repeat' first
    | refine Tame.pending ?_
    | refine Tame.fuse ?_
    | refine Tame.emgHost ?_
    | refine Tame.active ?_
    | refine Tame.maint ?_
    | with_reducible assumption
    | with_reducible apply Tame.ite
    | with_reducible apply State.wakeBy_tame
    | with_reducible apply State.peatWake_tame
    | split
    | (clear_value *; split)
    | (with_reducible apply Tame.lit <;> (try dsimp only))

theorem execChgPresHigh_tame {s0 s t : State}  (h : Tame s0 s)
    (e : execChgPresHigh s = .next t) : Tame s0 t := by
  unfold execChgPresHigh at e
  injection e with e
  subst e
  repeat' first
    | refine Tame.pending ?_
    | refine Tame.fuse ?_
    | refine Tame.emgHost ?_
    | refine Tame.active ?_
    | refine Tame.maint ?_
    | (intro x; refine Tame.cut (s := s0) (t := x) ?_ (fun hx => ?_); subst x; rotate_left; (first | clear_value x | skip))
    | (lift_lets; intro x; refine Tame.cut (s := s0) (t := x) ?_ (fun hx => ?_); subst x; rotate_left; (first | clear_value x | skip))
    | (lift_lets; intro x)
    | with_reducible assumption
    | with_reducible apply Tame.ite
    | with_reducible apply State.event_tame
    | with_reducible apply State.thermOuts_tame
    | with_reducible apply State.wakePin_tame
    | intro x
    | split
    | (clear_value *; split)
    | (with_reducible apply Tame.lit <;> (try dsimp only))

theorem execSvcWakeHigh_tame {s0 s t : State}  (h : Tame s0 s)
    (e : execSvcWakeHigh s = .next t) : Tame s0 t := by
  unfold execSvcWakeHigh at e
  injection e with e
  subst e
  repeat' first
    | refine Tame.pending ?_
    | refine Tame.fuse ?_
    | refine Tame.emgHost ?_
    | refine Tame.active ?_
    | refine Tame.maint ?_
    | (intro x; refine Tame.cut (s := s0) (t := x) ?_ (fun hx => ?_); subst x; rotate_left; (first | clear_value x | skip))
    | (lift_lets; intro x; refine Tame.cut (s := s0) (t := x) ?_ (fun hx => ?_); subst x; rotate_left; (first | clear_value x | skip))
    | (lift_lets; intro x)
    | with_reducible assumption
    | with_reducible apply Tame.ite
    | with_reducible apply State.event_tame
    | with_reducible apply State.wakePin_tame
    | intro x
    | split
    | (clear_value *; split)
    | (with_reducible apply Tame.lit <;> (try dsimp only))

theorem execChgPresLow_tame {s0 s t : State}  (h : Tame s0 s)
    (e : execChgPresLow s = .next t) : Tame s0 t := by
  unfold execChgPresLow at e
  injection e with e
  subst e
  repeat' first
    | refine Tame.pending ?_
    | refine Tame.fuse ?_
    | refine Tame.emgHost ?_
    | refine Tame.active ?_
    | refine Tame.maint ?_
    | with_reducible assumption
    | with_reducible apply Tame.ite
    | with_reducible apply State.event_tame
    | with_reducible apply State.thermOuts_tame
    | split
    | (clear_value *; split)
    | (with_reducible apply Tame.lit <;> (try dsimp only))

theorem execSvcWakeLow_tame {s0 s t : State}  (h : Tame s0 s)
    (e : execSvcWakeLow s = .next t) : Tame s0 t := by
  unfold execSvcWakeLow at e
  injection e with e
  subst e
  repeat' first
    | refine Tame.pending ?_
    | refine Tame.fuse ?_
    | refine Tame.emgHost ?_
    | refine Tame.active ?_
    | refine Tame.maint ?_
    | with_reducible assumption
    | with_reducible apply Tame.ite
    | with_reducible apply State.event_tame
    | split
    | (clear_value *; split)
    | (with_reducible apply Tame.lit <;> (try dsimp only))

theorem State.mossUp_tame {s0 s : State} (h : Tame s0 s)  :
    Tame s0 (State.mossUp s) := by
  unfold State.mossUp
  repeat' first
    | refine Tame.pending ?_
    | refine Tame.fuse ?_
    | refine Tame.emgHost ?_
    | refine Tame.active ?_
    | refine Tame.maint ?_
    | with_reducible assumption
    | with_reducible apply State.keeperOff_tame
    | split
    | (clear_value *; split)
    | (with_reducible apply Tame.lit <;> (try dsimp only))

theorem State.mossWake_tame {s0 s : State} (h : Tame s0 s)  :
    Tame s0 (State.mossWake s) := by
  unfold State.mossWake
  repeat' first
    | with_reducible assumption
    | with_reducible apply State.wakePort_tame
    | with_reducible apply State.mossUp_tame
    | (with_reducible apply Tame.foldl; rotate_left; intro y z hy)
    | intro x
    | split
    | (clear_value *; split)

theorem execHeartbeatSweepCycle_tame {s0 s t : State}  (h : Tame s0 s)
    (e : execHeartbeatSweepCycle s = .next t) : Tame s0 t := by
  unfold execHeartbeatSweepCycle at e
  injection e with e
  subst e
  repeat' first
    | (intro x; refine Tame.cut (s := s0) (t := x) ?_ (fun hx => ?_); subst x; rotate_left; (first | clear_value x | skip))
    | (lift_lets; intro x; refine Tame.cut (s := s0) (t := x) ?_ (fun hx => ?_); subst x; rotate_left; (first | clear_value x | skip))
    | (lift_lets; intro x)
    | with_reducible assumption
    | with_reducible apply Tame.ite
    | with_reducible apply State.at_tame
    | with_reducible apply State.sweepClose_tame
    | with_reducible apply State.mossWake_tame
    | (with_reducible apply Tame.foldl; rotate_left; intro y z hy)
    | intro x
    | split
    | (clear_value *; split)

theorem State.mossToPeat_tame {s0 s : State} (h : Tame s0 s)  :
    Tame s0 (State.mossToPeat s) := by
  unfold State.mossToPeat
  repeat' first
    | refine Tame.pending ?_
    | refine Tame.fuse ?_
    | refine Tame.emgHost ?_
    | refine Tame.active ?_
    | refine Tame.maint ?_
    | with_reducible assumption
    | with_reducible apply Tame.ite
    | with_reducible apply State.peatEnter_tame
    | with_reducible apply State.mossWake_tame
    | intro x
    | split
    | (clear_value *; split)
    | (with_reducible apply Tame.lit <;> (try dsimp only))

theorem execMossLimitExpiry_tame {s0 s t : State}  (h : Tame s0 s)
    (e : execMossLimitExpiry s = .next t) : Tame s0 t := by
  unfold execMossLimitExpiry at e
  injection e with e
  subst e
  repeat' first
    | refine Tame.pending ?_
    | refine Tame.fuse ?_
    | refine Tame.emgHost ?_
    | refine Tame.active ?_
    | refine Tame.maint ?_
    | (intro x; refine Tame.cut (s := s0) (t := x) ?_ (fun hx => ?_); subst x; rotate_left; (first | clear_value x | skip))
    | (lift_lets; intro x; refine Tame.cut (s := s0) (t := x) ?_ (fun hx => ?_); subst x; rotate_left; (first | clear_value x | skip))
    | (lift_lets; intro x)
    | with_reducible assumption
    | with_reducible apply Tame.ite
    | with_reducible apply State.at_tame
    | with_reducible apply State.bbEvent_tame
    | with_reducible apply State.mossToPeat_tame
    | intro x
    | split
    | (clear_value *; split)
    | (with_reducible apply Tame.lit <;> (try dsimp only))

theorem execSelfCheckAlarm_tame {s0 s t : State}  (h : Tame s0 s)
    (e : execSelfCheckAlarm s = .next t) : Tame s0 t := by
  unfold execSelfCheckAlarm at e
  injection e with e
  subst e
  repeat' first
    | with_reducible assumption
    | with_reducible apply Tame.ite
    | with_reducible apply State.at_tame
    | with_reducible apply State.peatWake_tame
    | split
    | (clear_value *; split)

theorem State.junctionTrip_tame {s0 s : State} (h : Tame s0 s)  :
    Tame s0 (State.junctionTrip s) := by
  unfold State.junctionTrip
  repeat' first
    | refine Tame.pending ?_
    | refine Tame.fuse ?_
    | refine Tame.emgHost ?_
    | refine Tame.active ?_
    | refine Tame.maint ?_
    | (intro x; refine Tame.cut (s := s0) (t := x) ?_ (fun hx => ?_); subst x; rotate_left; (first | clear_value x | skip))
    | (lift_lets; intro x; refine Tame.cut (s := s0) (t := x) ?_ (fun hx => ?_); subst x; rotate_left; (first | clear_value x | skip))
    | (lift_lets; intro x)
    | with_reducible assumption
    | with_reducible apply Tame.ite
    | with_reducible apply State.stand_tame
    | with_reducible apply State.junctionLevel_tame
    | with_reducible apply State.shutStep_tame
    | intro x
    | split
    | (clear_value *; split)
    | (with_reducible apply Tame.lit <;> (try dsimp only))

theorem State.junctionIn_tame {s0 s : State} (h : Tame s0 s) (t0 t1 t2 t3 : Int) :
    Tame s0 (State.junctionIn s t0 t1 t2 t3) := by
  unfold State.junctionIn
  repeat' first
    | refine Tame.pending ?_
    | refine Tame.fuse ?_
    | refine Tame.emgHost ?_
    | refine Tame.active ?_
    | refine Tame.maint ?_
    | (intro x; refine Tame.cut (s := s0) (t := x) ?_ (fun hx => ?_); subst x; rotate_left; (first | clear_value x | skip))
    | (lift_lets; intro x; refine Tame.cut (s := s0) (t := x) ?_ (fun hx => ?_); subst x; rotate_left; (first | clear_value x | skip))
    | (lift_lets; intro x)
    | with_reducible assumption
    | with_reducible apply Tame.ite
    | with_reducible apply State.event_tame
    | with_reducible apply State.eventRec_tame
    | with_reducible apply State.draw_tame
    | (refine State.draw_tame' ?_ ‹_›)
    | with_reducible apply State.setCond_tame
    | with_reducible apply State.estClock_tame
    | with_reducible apply State.junctionLevel_tame
    | with_reducible apply State.junctionTrip_tame
    | (with_reducible apply Tame.foldl; rotate_left; intro y z hy)
    | intro x
    | split
    | (clear_value *; split)
    | (with_reducible apply Tame.lit <;> (try dsimp only))

theorem execJunctionRead_tame {s0 s t : State} (t0 : Int) (t1 : Int) (t2 : Int) (t3 : Int) (h : Tame s0 s)
    (e : execJunctionRead t0 t1 t2 t3 s = .next t) : Tame s0 t := by
  unfold execJunctionRead at e
  injection e with e
  subst e
  repeat' first
    | with_reducible assumption
    | with_reducible apply Tame.ite
    | with_reducible apply State.junctionIn_tame
    | split
    | (clear_value *; split)

theorem execJunctionShutdown_tame {s0 s t : State}  (h : Tame s0 s)
    (e : execJunctionShutdown s = .next t) : Tame s0 t := by
  unfold execJunctionShutdown at e
  injection e with e
  subst e
  repeat' first
    | with_reducible assumption
    | with_reducible apply State.junctionTrip_tame
    | split
    | (clear_value *; split)

theorem execJunctionRecovery_tame {s0 s t : State}  (h : Tame s0 s)
    (e : execJunctionRecovery s = .next t) : Tame s0 t := by
  unfold execJunctionRecovery at e
  injection e with e
  subst e
  repeat' first
    | refine Tame.pending ?_
    | refine Tame.fuse ?_
    | refine Tame.emgHost ?_
    | refine Tame.active ?_
    | refine Tame.maint ?_
    | (intro x; refine Tame.cut (s := s0) (t := x) ?_ (fun hx => ?_); subst x; rotate_left; (first | clear_value x | skip))
    | (lift_lets; intro x; refine Tame.cut (s := s0) (t := x) ?_ (fun hx => ?_); subst x; rotate_left; (first | clear_value x | skip))
    | (lift_lets; intro x)
    | with_reducible assumption
    | with_reducible apply Tame.ite
    | with_reducible apply State.at_tame
    | with_reducible apply State.resetCause_tame
    | with_reducible apply State.cease_tame
    | with_reducible apply State.junctionLevel_tame
    | with_reducible apply State.startUp_tame
    | with_reducible apply State.shutDown_tame
    | with_reducible apply State.shutStep_tame
    | intro x
    | split
    | (clear_value *; split)
    | (with_reducible apply Tame.lit <;> (try dsimp only))

theorem execVsupOutOfRange_tame {s0 s t : State} (v : Nat) (h : Tame s0 s)
    (e : execVsupOutOfRange v s = .next t) : Tame s0 t := by
  unfold execVsupOutOfRange at e
  injection e with e
  subst e
  repeat' first
    | refine Tame.pending ?_
    | refine Tame.fuse ?_
    | refine Tame.emgHost ?_
    | refine Tame.active ?_
    | refine Tame.maint ?_
    | (intro x; refine Tame.cut (s := s0) (t := x) ?_ (fun hx => ?_); subst x; rotate_left; (first | clear_value x | skip))
    | (lift_lets; intro x; refine Tame.cut (s := s0) (t := x) ?_ (fun hx => ?_); subst x; rotate_left; (first | clear_value x | skip))
    | (lift_lets; intro x)
    | with_reducible assumption
    | with_reducible apply Tame.ite
    | with_reducible apply State.event_tame
    | with_reducible apply State.stand_tame
    | with_reducible apply State.cease_tame
    | intro x
    | split
    | (clear_value *; split)
    | (with_reducible apply Tame.lit <;> (try dsimp only))

theorem State.supplyTurn_tame {s0 s : State} (h : Tame s0 s) (ch : Nat) :
    Tame s0 (State.supplyTurn s ch) := by
  unfold State.supplyTurn
  repeat' first
    | refine Tame.pending ?_
    | refine Tame.fuse ?_
    | refine Tame.emgHost ?_
    | refine Tame.active ?_
    | refine Tame.maint ?_
    | (intro x; refine Tame.cut (s := s0) (t := x) ?_ (fun hx => ?_); subst x; rotate_left; (first | clear_value x | skip))
    | (lift_lets; intro x; refine Tame.cut (s := s0) (t := x) ?_ (fun hx => ?_); subst x; rotate_left; (first | clear_value x | skip))
    | (lift_lets; intro x)
    | with_reducible assumption
    | with_reducible apply Tame.ite
    | with_reducible apply State.onOutc_tame
    | with_reducible apply State.channel_tame
    | with_reducible apply State.coilLost_tame
    | with_reducible apply State.limpChannel_tame
    | intro x
    | split
    | (clear_value *; split)
    | (with_reducible apply Tame.lit <;> (try dsimp only))

theorem execCoilSupplyLow_tame {s0 s t : State} (a : Nat) (b : Nat) (h : Tame s0 s)
    (e : execCoilSupplyLow a b s = .next t) : Tame s0 t := by
  unfold execCoilSupplyLow at e
  injection e with e
  subst e
  repeat' first
    | refine Tame.pending ?_
    | refine Tame.fuse ?_
    | refine Tame.emgHost ?_
    | refine Tame.active ?_
    | refine Tame.maint ?_
    | (intro x; refine Tame.cut (s := s0) (t := x) ?_ (fun hx => ?_); subst x; rotate_left; (first | clear_value x | skip))
    | (lift_lets; intro x; refine Tame.cut (s := s0) (t := x) ?_ (fun hx => ?_); subst x; rotate_left; (first | clear_value x | skip))
    | (lift_lets; intro x)
    | with_reducible assumption
    | with_reducible apply State.f39Settle_tame
    | with_reducible apply State.supplyTurn_tame
    | (with_reducible apply Tame.foldl; rotate_left; intro y z hy)
    | intro x
    | split
    | (clear_value *; split)
    | (with_reducible apply Tame.lit <;> (try dsimp only))

theorem execPllLoss_tame {s0 s t : State}  (h : Tame s0 s)
    (e : execPllLoss s = .next t) : Tame s0 t := by
  unfold execPllLoss at e
  injection e with e
  subst e
  repeat' first
    | with_reducible assumption
    | with_reducible apply State.tick_tame
    | with_reducible apply State.keeperOn_tame
    | with_reducible apply State.keeperOff_tame
    | split
    | (clear_value *; split)

end Sys2Proof.Machine
end

