-- ==== Sys2Proof/Laws/TameNv.lean ====
section
/-! SUPPORT. The operations of Machine.Nv are tame. -/

namespace Sys2Proof.Machine

open Sys2Proof

set_option linter.unreachableTactic false
set_option linter.unusedTactic false

theorem State.nvPlace_tame {s0 s : State} (h : Tame s0 s) (r : NvReq) :
    Tame s0 (State.nvPlace s r).2 := by
  unfold State.nvPlace
  cases s.nvOffset r with
  | some o => exact h
  | none => exact State.draw_tame h

theorem State.nvPlace_tame' {s0 s t : State} {a} {r : NvReq} (h : Tame s0 s)
    (e : State.nvPlace s r = (a, t)) : Tame s0 t := by
  have k := State.nvPlace_tame h r
  rw [e] at k
  exact k

theorem State.nvFault_tame {s0 s : State} (h : Tame s0 s) (r : NvReq) (off : Nat) :
    Tame s0 (State.nvFault s r off) := by
  unfold State.nvFault
  repeat' first
    | with_reducible assumption
    | with_reducible apply State.bbEvent_tame
    | with_reducible apply State.stand_tame
    | split
    | (clear_value *; split)

theorem State.nvSpoil_tame {s0 s : State} (h : Tame s0 s) (r : NvReq) :
    Tame s0 (State.nvSpoil s r) := by
  unfold State.nvSpoil
  repeat' first
    | refine Tame.pending ?_
    | refine Tame.fuse ?_
    | refine Tame.emgHost ?_
    | refine Tame.active ?_
    | refine Tame.maint ?_
    | (intro x; refine Tame.cut (s := s0) (t := x) ?_ (fun hx => ?_); subst x; rotate_left; (first | clear_value x | skip))
    | (lift_lets; intro x; refine Tame.cut (s := s0) (t := x) ?_ (fun hx => ?_); subst x; rotate_left; (first | clear_value x | skip))
    | (lift_lets; intro x)
    | with_reducible assumption
    | with_reducible apply Tame.ite
    | with_reducible apply State.takeCommit_tame
    | with_reducible apply State.journal_tame
    | intro x
    | split
    | (clear_value *; split)
    | (with_reducible apply Tame.lit <;> (try dsimp only))

theorem execMramRecordWrite_tame {s0 s t : State} (rec_ : RecStart) (fail1 : Bool) (fail2 : Bool) (h : Tame s0 s)
    (e : execMramRecordWrite rec_ fail1 fail2 s = .next t) : Tame s0 t := by
  unfold execMramRecordWrite at e
  injection e with e
  subst e
  repeat' first
    | (intro x; refine Tame.cut (s := s0) (t := x) ?_ (fun hx => ?_); subst x; rotate_left; (first | clear_value x | skip))
    | (lift_lets; intro x; refine Tame.cut (s := s0) (t := x) ?_ (fun hx => ?_); subst x; rotate_left; (first | clear_value x | skip))
    | (lift_lets; intro x)
    | with_reducible assumption
    | with_reducible apply Tame.ite
    | with_reducible apply State.holdupNow_tame
    | with_reducible apply State.nvCommit_tame
    | with_reducible apply State.nvDue_tame
    | with_reducible apply State.sectorRemap_tame
    | with_reducible apply State.nvPlace_tame
    | (refine State.nvPlace_tame' ?_ ‹_›)
    | with_reducible apply State.nvFault_tame
    | with_reducible apply State.nvSpoil_tame
    | intro x
    | split
    | (clear_value *; split)

theorem execRecordDeferralRetry_tame {s0 s t : State}  (h : Tame s0 s)
    (e : execRecordDeferralRetry s = .next t) : Tame s0 t := by
  unfold execRecordDeferralRetry at e
  injection e with e
  subst e
  repeat' first
    | with_reducible assumption
    | with_reducible apply Tame.ite
    | with_reducible apply State.holdupDrawn_tame
    | with_reducible apply State.flushHeld_tame
    | split
    | (clear_value *; split)

theorem execDeferredRecordTimeout_tame {s0 s t : State}  (h : Tame s0 s)
    (e : execDeferredRecordTimeout s = .next t) : Tame s0 t := by
  unfold execDeferredRecordTimeout at e
  injection e with e
  subst e
  repeat' first
    | refine Tame.pending ?_
    | refine Tame.fuse ?_
    | refine Tame.emgHost ?_
    | refine Tame.active ?_
    | refine Tame.maint ?_
    | (intro x; refine Tame.cut (s := s0) (t := x) ?_ (fun hx => ?_); subst x; rotate_left; (first | clear_value x | skip))
    | (lift_lets; intro x; refine Tame.cut (s := s0) (t := x) ?_ (fun hx => ?_); subst x; rotate_left; (first | clear_value x | skip))
    | (lift_lets; intro x)
    | with_reducible assumption
    | with_reducible apply Tame.ite
    | with_reducible apply State.at_tame
    | with_reducible apply State.nvPlace_tame
    | (refine State.nvPlace_tame' ?_ ‹_›)
    | with_reducible apply State.nvFault_tame
    | intro x
    | split
    | (clear_value *; split)
    | (with_reducible apply Tame.lit <;> (try dsimp only))

theorem execJournalStringCounters_tame {s0 s t : State}  (h : Tame s0 s)
    (e : execJournalStringCounters s = .next t) : Tame s0 t := by
  unfold execJournalStringCounters at e
  injection e with e
  subst e
  repeat' first
    | with_reducible assumption
    | with_reducible apply Tame.ite
    | with_reducible apply State.counterSave_tame
    | split
    | (clear_value *; split)

theorem execEstimatorStateSave_tame {s0 s t : State}  (h : Tame s0 s)
    (e : execEstimatorStateSave s = .next t) : Tame s0 t := by
  unfold execEstimatorStateSave at e
  injection e with e
  subst e
  repeat' first
    | with_reducible assumption
    | with_reducible apply Tame.ite
    | with_reducible apply State.estSave_tame
    | split
    | (clear_value *; split)

theorem execAgeingRecordDaily_tame {s0 s t : State}  (h : Tame s0 s)
    (e : execAgeingRecordDaily s = .next t) : Tame s0 t := by
  unfold execAgeingRecordDaily at e
  injection e with e
  subst e
  repeat' first
    | with_reducible assumption
    | with_reducible apply Tame.ite
    | with_reducible apply State.agesSave_tame
    | split
    | (clear_value *; split)

theorem execPassportRewrite_tame {s0 s t : State}  (h : Tame s0 s)
    (e : execPassportRewrite s = .next t) : Tame s0 t := by
  unfold execPassportRewrite at e
  injection e with e
  subst e
  repeat' first
    | refine Tame.pending ?_
    | refine Tame.fuse ?_
    | refine Tame.emgHost ?_
    | refine Tame.active ?_
    | refine Tame.maint ?_
    | (intro x; refine Tame.cut (s := s0) (t := x) ?_ (fun hx => ?_); subst x; rotate_left; (first | clear_value x | skip))
    | (lift_lets; intro x; refine Tame.cut (s := s0) (t := x) ?_ (fun hx => ?_); subst x; rotate_left; (first | clear_value x | skip))
    | (lift_lets; intro x)
    | with_reducible assumption
    | with_reducible apply Tame.ite
    | with_reducible apply State.passWrite_tame
    | (with_reducible apply Tame.foldl; rotate_left; intro y z hy)
    | intro x
    | split
    | (clear_value *; split)
    | (with_reducible apply Tame.lit <;> (try dsimp only))

theorem execSnapshotSweepCommit_tame {s0 s t : State} (p : Nat) (h : Tame s0 s)
    (e : execSnapshotSweepCommit p s = .next t) : Tame s0 t := by
  unfold execSnapshotSweepCommit at e
  injection e with e
  subst e
  repeat' first
    | refine Tame.pending ?_
    | refine Tame.fuse ?_
    | refine Tame.emgHost ?_
    | refine Tame.active ?_
    | refine Tame.maint ?_
    | (intro x; refine Tame.cut (s := s0) (t := x) ?_ (fun hx => ?_); subst x; rotate_left; (first | clear_value x | skip))
    | (lift_lets; intro x; refine Tame.cut (s := s0) (t := x) ?_ (fun hx => ?_); subst x; rotate_left; (first | clear_value x | skip))
    | (lift_lets; intro x)
    | with_reducible assumption
    | with_reducible apply Tame.ite
    | with_reducible apply State.bbEvent_tame
    | intro x
    | split
    | (clear_value *; split)
    | (with_reducible apply Tame.lit <;> (try dsimp only))

end Sys2Proof.Machine
end

