-- ==== Sys2Proof/Laws/TameDiag.lean ====
section
/-! SUPPORT. The operations of Machine.Diag are tame. -/

namespace Sys2Proof.Machine

open Sys2Proof

set_option linter.unreachableTactic false
set_option linter.unusedTactic false

theorem State.corrected_tame {s0 s : State} (h : Tame s0 s) (w : Nat) :
    Tame s0 (State.corrected s w) := by
  unfold State.corrected
  repeat' first
    | refine Tame.pending ?_
    | refine Tame.fuse ?_
    | refine Tame.emgHost ?_
    | refine Tame.active ?_
    | refine Tame.maint ?_
    | (intro x; refine Tame.cut (s := s0) (t := x) ?_ (fun hx => ?_); subst x; rotate_left; (first | clear_value x | skip))
    | (lift_lets; intro x; refine Tame.cut (s := s0) (t := x) ?_ (fun hx => ?_); subst x; rotate_left; (first | clear_value x | skip))
    | (lift_lets; intro x)
    | with_reducible assumption
    | with_reducible apply Tame.ite
    | with_reducible apply State.event_tame
    | with_reducible apply State.draw_tame
    | (refine State.draw_tame' ?_ ‹_›)
    | with_reducible apply State.repairPend_tame
    | intro x
    | split
    | (clear_value *; split)
    | (with_reducible apply Tame.lit <;> (try dsimp only))

theorem execSramCorrectedError_tame {s0 s t : State} (w : Nat) (h : Tame s0 s)
    (e : execSramCorrectedError w s = .next t) : Tame s0 t := by
  unfold execSramCorrectedError at e
  injection e with e
  subst e
  repeat' first
    | with_reducible assumption
    | with_reducible apply State.corrected_tame
    | split
    | (clear_value *; split)

theorem execSramScrub_tame {s0 s t : State} (bad : List Nat) (h : Tame s0 s)
    (e : execSramScrub bad s = .next t) : Tame s0 t := by
  unfold execSramScrub at e
  injection e with e
  subst e
  repeat' first
    | refine Tame.pending ?_
    | refine Tame.fuse ?_
    | refine Tame.emgHost ?_
    | refine Tame.active ?_
    | refine Tame.maint ?_
    | with_reducible assumption
    | with_reducible apply State.corrected_tame
    | (with_reducible apply Tame.foldl; rotate_left; intro y z hy)
    | intro x
    | split
    | (clear_value *; split)
    | (with_reducible apply Tame.lit <;> (try dsimp only))

theorem State.regionLost_tame {s0 s : State} (h : Tame s0 s) (r : SramRegion) :
    Tame s0 (State.regionLost s r) := by
  unfold State.regionLost
  repeat' first
    | refine Tame.pending ?_
    | refine Tame.fuse ?_
    | refine Tame.emgHost ?_
    | refine Tame.active ?_
    | refine Tame.maint ?_
    | (intro x; refine Tame.cut (s := s0) (t := x) ?_ (fun hx => ?_); subst x; rotate_left; (first | clear_value x | skip))
    | (lift_lets; intro x; refine Tame.cut (s := s0) (t := x) ?_ (fun hx => ?_); subst x; rotate_left; (first | clear_value x | skip))
    | (lift_lets; intro x)
    | with_reducible assumption
    | with_reducible apply Tame.ite
    | with_reducible apply State.onRing_tame
    | with_reducible apply State.onCell_tame
    | with_reducible apply State.onEst_tame
    | with_reducible apply State.tableFrom_tame
    | with_reducible apply State.frameCount_tame
    | with_reducible apply State.f07Settle_tame
    | with_reducible apply State.watchReset_tame
    | with_reducible apply State.svcReset_tame
    | with_reducible apply State.shadow_tame
    | with_reducible apply State.ringErr_tame
    | with_reducible apply State.pairFrame_tame
    | intro x
    | split
    | (clear_value *; split)
    | (with_reducible apply Tame.lit <;> (try dsimp only))

theorem State.uncorrectable_tame {s0 s : State} (h : Tame s0 s) (region : SramRegion) (w : Nat) :
    Tame s0 (State.uncorrectable s region w) := by
  unfold State.uncorrectable
  repeat' first
    | refine Tame.pending ?_
    | refine Tame.fuse ?_
    | refine Tame.emgHost ?_
    | refine Tame.active ?_
    | refine Tame.maint ?_
    | (intro x; refine Tame.cut (s := s0) (t := x) ?_ (fun hx => ?_); subst x; rotate_left; (first | clear_value x | skip))
    | (lift_lets; intro x; refine Tame.cut (s := s0) (t := x) ?_ (fun hx => ?_); subst x; rotate_left; (first | clear_value x | skip))
    | (lift_lets; intro x)
    | with_reducible assumption
    | with_reducible apply State.event_tame
    | with_reducible apply State.stand_tame
    | with_reducible apply State.repairPend_tame
    | with_reducible apply State.regionLost_tame
    | intro x
    | split
    | (clear_value *; split)
    | (with_reducible apply Tame.lit <;> (try dsimp only))

theorem execSramUncorrectableError_tame {s0 s t : State} (region : SramRegion) (w : Nat) (h : Tame s0 s)
    (e : execSramUncorrectableError region w s = .next t) : Tame s0 t := by
  unfold execSramUncorrectableError at e
  injection e with e
  subst e
  repeat' first
    | with_reducible assumption
    | with_reducible apply State.uncorrectable_tame
    | split
    | (clear_value *; split)

theorem execMramScrub_tame {s0 s t : State} (badSectors : List Nat) (copyBad1 : Bool) (copyBad2 : Bool) (h : Tame s0 s)
    (e : execMramScrub badSectors copyBad1 copyBad2 s = .next t) : Tame s0 t := by
  unfold execMramScrub at e
  injection e with e
  subst e
  repeat' first
    | refine Tame.pending ?_
    | refine Tame.fuse ?_
    | refine Tame.emgHost ?_
    | refine Tame.active ?_
    | refine Tame.maint ?_
    | (intro x; refine Tame.cut (s := s0) (t := x) ?_ (fun hx => ?_); subst x; rotate_left; (first | clear_value x | skip))
    | (lift_lets; intro x; refine Tame.cut (s := s0) (t := x) ?_ (fun hx => ?_); subst x; rotate_left; (first | clear_value x | skip))
    | (lift_lets; intro x)
    | with_reducible assumption
    | with_reducible apply Tame.ite
    | with_reducible apply State.sectorRemap_tame
    | with_reducible apply State.copiesAtScrub_tame
    | with_reducible apply State.saveWindow_tame
    | (with_reducible apply Tame.foldl; rotate_left; intro y z hy)
    | intro x
    | split
    | (clear_value *; split)
    | (with_reducible apply Tame.lit <;> (try dsimp only))

theorem execLaneCrossCheck_tame {s0 s t : State} (bad : Option Nat) (h : Tame s0 s)
    (e : execLaneCrossCheck bad s = .next t) : Tame s0 t := by
  unfold execLaneCrossCheck at e
  injection e with e
  subst e
  repeat' first
    | with_reducible assumption
    | with_reducible apply Tame.ite
    | with_reducible apply State.laneFail_tame
    | intro x
    | split
    | (clear_value *; split)

theorem execReferenceCheck_tame {s0 s t : State} (bad : BitVec 3) (h : Tame s0 s)
    (e : execReferenceCheck bad s = .next t) : Tame s0 t := by
  unfold execReferenceCheck at e
  injection e with e
  subst e
  repeat' first
    | refine Tame.pending ?_
    | refine Tame.fuse ?_
    | refine Tame.emgHost ?_
    | refine Tame.active ?_
    | refine Tame.maint ?_
    | (intro x; refine Tame.cut (s := s0) (t := x) ?_ (fun hx => ?_); subst x; rotate_left; (first | clear_value x | skip))
    | (lift_lets; intro x; refine Tame.cut (s := s0) (t := x) ?_ (fun hx => ?_); subst x; rotate_left; (first | clear_value x | skip))
    | (lift_lets; intro x)
    | with_reducible assumption
    | with_reducible apply Tame.ite
    | with_reducible apply State.event_tame
    | intro x
    | split
    | (clear_value *; split)
    | (with_reducible apply Tame.lit <;> (try dsimp only))

theorem execFirmwareTrialConfirm_tame {s0 s t : State}  (h : Tame s0 s)
    (e : execFirmwareTrialConfirm s = .next t) : Tame s0 t := by
  unfold execFirmwareTrialConfirm at e
  injection e with e
  subst e
  repeat' first
    | refine Tame.pending ?_
    | refine Tame.fuse ?_
    | refine Tame.emgHost ?_
    | refine Tame.active ?_
    | refine Tame.maint ?_
    | (intro x; refine Tame.cut (s := s0) (t := x) ?_ (fun hx => ?_); subst x; rotate_left; (first | clear_value x | skip))
    | (lift_lets; intro x; refine Tame.cut (s := s0) (t := x) ?_ (fun hx => ?_); subst x; rotate_left; (first | clear_value x | skip))
    | (lift_lets; intro x)
    | with_reducible assumption
    | with_reducible apply State.at_tame
    | intro x
    | split
    | (clear_value *; split)
    | (with_reducible apply Tame.lit <;> (try dsimp only))

theorem State.pendDrop_tame {s0 s : State} (h : Tame s0 s)  :
    Tame s0 (State.pendDrop s) := by
  unfold State.pendDrop
  repeat' first
    | refine Tame.pending ?_
    | refine Tame.fuse ?_
    | refine Tame.emgHost ?_
    | refine Tame.active ?_
    | refine Tame.maint ?_
    | (intro x; refine Tame.cut (s := s0) (t := x) ?_ (fun hx => ?_); subst x; rotate_left; (first | clear_value x | skip))
    | (lift_lets; intro x; refine Tame.cut (s := s0) (t := x) ?_ (fun hx => ?_); subst x; rotate_left; (first | clear_value x | skip))
    | (lift_lets; intro x)
    | with_reducible assumption
    | with_reducible apply Tame.ite
    | with_reducible apply State.sendNvw_tame
    | with_reducible apply State.raiseIrq_tame
    | with_reducible apply State.eventRec_tame
    | intro x
    | split
    | (clear_value *; split)
    | (with_reducible apply Tame.lit <;> (try dsimp only))

theorem execPendingBlobDiscard_tame {s0 s t : State}  (h : Tame s0 s)
    (e : execPendingBlobDiscard s = .next t) : Tame s0 t := by
  unfold execPendingBlobDiscard at e
  injection e with e
  subst e
  repeat' first
    | with_reducible assumption
    | with_reducible apply Tame.ite
    | with_reducible apply State.at_tame
    | with_reducible apply State.pendDrop_tame
    | split
    | (clear_value *; split)

theorem execMaintSessionTimeout_tame {s0 s t : State}  (h : Tame s0 s)
    (e : execMaintSessionTimeout s = .next t) : Tame s0 t := by
  unfold execMaintSessionTimeout at e
  injection e with e
  subst e
  repeat' first
    | with_reducible assumption
    | with_reducible apply Tame.ite
    | with_reducible apply State.at_tame
    | with_reducible apply State.maintEnd_tame
    | split
    | (clear_value *; split)

theorem execMassLapse_tame {s0 s t : State}  (h : Tame s0 s)
    (e : execMassLapse s = .next t) : Tame s0 t := by
  unfold execMassLapse at e
  injection e with e
  subst e
  repeat' first
    | refine Tame.pending ?_
    | refine Tame.fuse ?_
    | refine Tame.emgHost ?_
    | refine Tame.active ?_
    | refine Tame.maint ?_
    | (intro x; refine Tame.cut (s := s0) (t := x) ?_ (fun hx => ?_); subst x; rotate_left; (first | clear_value x | skip))
    | (lift_lets; intro x; refine Tame.cut (s := s0) (t := x) ?_ (fun hx => ?_); subst x; rotate_left; (first | clear_value x | skip))
    | (lift_lets; intro x)
    | with_reducible assumption
    | with_reducible apply Tame.ite
    | with_reducible apply State.at_tame
    | intro x
    | split
    | (clear_value *; split)
    | (with_reducible apply Tame.lit <;> (try dsimp only))

theorem execServiceCoresResumed_tame {s0 s t : State}  (h : Tame s0 s)
    (e : execServiceCoresResumed s = .next t) : Tame s0 t := by
  unfold execServiceCoresResumed at e
  injection e with e
  subst e
  repeat' first
    | with_reducible assumption
    | with_reducible apply Tame.ite
    | with_reducible apply State.flushHeld_tame
    | with_reducible apply State.svcResume_tame
    | with_reducible apply State.planResume_tame
    | (with_reducible apply Tame.foldl; rotate_left; intro y z hy)
    | intro x
    | split
    | (clear_value *; split)

end Sys2Proof.Machine
end

