-- ==== Sys2Proof/Laws/TameHostAdmin.lean ====
section
/-! SUPPORT. The operations of Machine.HostAdmin are tame. -/

namespace Sys2Proof.Machine

open Sys2Proof

set_option linter.unreachableTactic false
set_option linter.unusedTactic false

theorem execIdentify_tame {s0 s t : State} (d : Desc) (h : Tame s0 s)
    (e : execIdentify d s = .next t) : Tame s0 t := by
  unfold execIdentify at e
  injection e with e
  subst e
  repeat' first
    | with_reducible refine State.command_tame ?_ _ _ _ _ _ _ _ (fun x r hx => ?_)
    | with_reducible assumption
    | with_reducible apply State.okay_tame
    | intro x
    | split
    | (clear_value *; split)

theorem execEcho_tame {s0 s t : State} (d : Desc) (h : Tame s0 s)
    (e : execEcho d s = .next t) : Tame s0 t := by
  unfold execEcho at e
  injection e with e
  subst e
  repeat' first
    | with_reducible refine State.command_tame ?_ _ _ _ _ _ _ _ (fun x r hx => ?_)
    | with_reducible assumption
    | with_reducible apply State.okay_tame
    | intro x
    | split
    | (clear_value *; split)

theorem execTimeGet_tame {s0 s t : State} (d : Desc) (h : Tame s0 s)
    (e : execTimeGet d s = .next t) : Tame s0 t := by
  unfold execTimeGet at e
  injection e with e
  subst e
  repeat' first
    | with_reducible refine State.command_tame ?_ _ _ _ _ _ _ _ (fun x r hx => ?_)
    | with_reducible assumption
    | with_reducible apply State.okay_tame
    | intro x
    | split
    | (clear_value *; split)

theorem State.completeAll_tame {s0 s : State} (h : Tame s0 s) (sq : Nat) :
    Tame s0 (State.completeAll s sq) := by
  unfold State.completeAll
  repeat' first
    | (intro x; refine Tame.cut (s := s0) (t := x) ?_ (fun hx => ?_); subst x; rotate_left; (first | clear_value x | skip))
    | (lift_lets; intro x; refine Tame.cut (s := s0) (t := x) ?_ (fun hx => ?_); subst x; rotate_left; (first | clear_value x | skip))
    | (lift_lets; intro x)
    | with_reducible assumption
    | with_reducible apply State.complete_tame
    | (with_reducible apply Tame.foldl; rotate_left; intro y z hy)
    | intro x
    | split
    | (clear_value *; split)

theorem execPowerStateMoss_tame {s0 s t : State} (d : Desc) (h : Tame s0 s)
    (e : execPowerStateMoss d s = .next t) : Tame s0 t := by
  unfold execPowerStateMoss at e
  injection e with e
  subst e
  repeat' first
    | with_reducible refine State.command_tame ?_ _ _ _ _ _ _ _ (fun x r hx => ?_)
    | (intro x; refine Tame.cut (s := s0) (t := x) ?_ (fun hx => ?_); subst x; rotate_left; (first | clear_value x | skip))
    | (lift_lets; intro x; refine Tame.cut (s := s0) (t := x) ?_ (fun hx => ?_); subst x; rotate_left; (first | clear_value x | skip))
    | (lift_lets; intro x)
    | with_reducible assumption
    | with_reducible apply Tame.ite
    | with_reducible apply State.sendEvt_tame
    | with_reducible apply State.powerState_tame
    | with_reducible apply State.okay_tame
    | with_reducible apply State.fail_tame
    | with_reducible apply State.mossEnter_tame
    | with_reducible apply State.completeAll_tame
    | intro x
    | split
    | (clear_value *; split)

theorem execPowerStatePeat_tame {s0 s t : State} (d : Desc) (h : Tame s0 s)
    (e : execPowerStatePeat d s = .next t) : Tame s0 t := by
  unfold execPowerStatePeat at e
  injection e with e
  subst e
  repeat' first
    | with_reducible refine State.command_tame ?_ _ _ _ _ _ _ _ (fun x r hx => ?_)
    | (intro x; refine Tame.cut (s := s0) (t := x) ?_ (fun hx => ?_); subst x; rotate_left; (first | clear_value x | skip))
    | (lift_lets; intro x; refine Tame.cut (s := s0) (t := x) ?_ (fun hx => ?_); subst x; rotate_left; (first | clear_value x | skip))
    | (lift_lets; intro x)
    | with_reducible assumption
    | with_reducible apply Tame.ite
    | with_reducible apply State.sendEvt_tame
    | with_reducible apply State.powerState_tame
    | with_reducible apply State.okay_tame
    | with_reducible apply State.peatEnter_tame
    | with_reducible apply State.completeAll_tame
    | intro x
    | split
    | (clear_value *; split)

theorem execPortStatus_tame {s0 s t : State} (d : Desc) (h : Tame s0 s)
    (e : execPortStatus d s = .next t) : Tame s0 t := by
  unfold execPortStatus at e
  injection e with e
  subst e
  repeat' first
    | with_reducible refine State.command_tame ?_ _ _ _ _ _ _ _ (fun x r hx => ?_)
    | with_reducible assumption
    | with_reducible apply State.okay_tame
    | intro x
    | split
    | (clear_value *; split)

theorem State.nvwRef_tame {s0 s : State} (h : Tame s0 s) (was : List NvwReq) (r : CmdRef) :
    Tame s0 (State.nvwRef s was r) := by
  unfold State.nvwRef
  repeat' first
    | refine Tame.pending ?_
    | refine Tame.fuse ?_
    | refine Tame.emgHost ?_
    | refine Tame.active ?_
    | refine Tame.maint ?_
    | (intro x; refine Tame.cut (s := s0) (t := x) ?_ (fun hx => ?_); subst x; rotate_left; (first | clear_value x | skip))
    | (lift_lets; intro x; refine Tame.cut (s := s0) (t := x) ?_ (fun hx => ?_); subst x; rotate_left; (first | clear_value x | skip))
    | (lift_lets; intro x)
    | with_reducible assumption
    | with_reducible apply Tame.ite
    | intro x
    | split
    | (clear_value *; split)
    | (with_reducible apply Tame.lit <;> (try dsimp only))

theorem State.mirrored_tame {s0 s : State} (h : Tame s0 s) (was : List NvwReq) (r : CmdRef) (wrote : Bool) :
    Tame s0 (State.mirrored s was r wrote) := by
  unfold State.mirrored
  repeat' first
    | refine Tame.pending ?_
    | refine Tame.fuse ?_
    | refine Tame.emgHost ?_
    | refine Tame.active ?_
    | refine Tame.maint ?_
    | (intro x; refine Tame.cut (s := s0) (t := x) ?_ (fun hx => ?_); subst x; rotate_left; (first | clear_value x | skip))
    | (lift_lets; intro x; refine Tame.cut (s := s0) (t := x) ?_ (fun hx => ?_); subst x; rotate_left; (first | clear_value x | skip))
    | (lift_lets; intro x)
    | with_reducible assumption
    | with_reducible exact Tame.refl _
    | with_reducible apply Tame.ite
    | with_reducible apply State.finish_tame
    | with_reducible apply State.keep_tame
    | with_reducible apply State.okay_tame
    | with_reducible apply State.nvwRef_tame
    | intro x
    | split
    | (clear_value *; split)
    | contradiction

theorem execRosterAccept_tame {s0 s t : State} (d : Desc) (h : Tame s0 s)
    (e : execRosterAccept d s = .next t) : Tame s0 t := by
  unfold execRosterAccept at e
  injection e with e
  subst e
  repeat' first
    | with_reducible refine State.command_tame ?_ _ _ _ _ _ _ _ (fun x r hx => ?_)
    | (intro x; refine Tame.cut (s := s0) (t := x) ?_ (fun hx => ?_); subst x; rotate_left; (first | clear_value x | skip))
    | (lift_lets; intro x; refine Tame.cut (s := s0) (t := x) ?_ (fun hx => ?_); subst x; rotate_left; (first | clear_value x | skip))
    | (lift_lets; intro x)
    | with_reducible assumption
    | with_reducible apply Tame.ite
    | with_reducible apply State.fail_tame
    | with_reducible apply State.chainCheck_tame
    | with_reducible apply State.mirrored_tame
    | intro x
    | split
    | (clear_value *; split)

theorem State.mirrorCmd_tame {s0 s : State} (h : Tame s0 s) (r : CmdRef) (l : List NvReq) (value : Nat) :
    Tame s0 (State.mirrorCmd s r l value) := by
  unfold State.mirrorCmd
  repeat' first
    | (intro x; refine Tame.cut (s := s0) (t := x) ?_ (fun hx => ?_); subst x; rotate_left; (first | clear_value x | skip))
    | (lift_lets; intro x; refine Tame.cut (s := s0) (t := x) ?_ (fun hx => ?_); subst x; rotate_left; (first | clear_value x | skip))
    | (lift_lets; intro x)
    | with_reducible assumption
    | with_reducible apply Tame.ite
    | with_reducible apply State.mirrorDue_tame
    | with_reducible apply State.finish_tame
    | with_reducible apply State.keep_tame
    | with_reducible apply State.okay_tame
    | (with_reducible apply Tame.foldl; rotate_left; intro y z hy)
    | intro x
    | split
    | (clear_value *; split)

theorem execOpenTapClear_tame {s0 s t : State} (d : Desc) (h : Tame s0 s)
    (e : execOpenTapClear d s = .next t) : Tame s0 t := by
  unfold execOpenTapClear at e
  injection e with e
  subst e
  repeat' first
    | refine Tame.pending ?_
    | refine Tame.fuse ?_
    | refine Tame.emgHost ?_
    | refine Tame.active ?_
    | refine Tame.maint ?_
    | with_reducible refine State.command_tame ?_ _ _ _ _ _ _ _ (fun x r hx => ?_)
    | (intro x; refine Tame.cut (s := s0) (t := x) ?_ (fun hx => ?_); subst x; rotate_left; (first | clear_value x | skip))
    | (lift_lets; intro x; refine Tame.cut (s := s0) (t := x) ?_ (fun hx => ?_); subst x; rotate_left; (first | clear_value x | skip))
    | (lift_lets; intro x)
    | with_reducible assumption
    | with_reducible apply Tame.ite
    | with_reducible apply State.onCell_tame
    | with_reducible apply State.mirrorDue_tame
    | with_reducible apply State.fail_tame
    | with_reducible apply State.configStart_tame
    | with_reducible apply State.f05Settle_tame
    | with_reducible apply State.mirrored_tame
    | intro x
    | split
    | (clear_value *; split)
    | (with_reducible apply Tame.lit <;> (try dsimp only))

theorem State.balanceNode_tame {s0 s : State} (h : Tame s0 s) (r : CmdRef) (p a : Nat) (ents : List (Nat × Nat)) :
    Tame s0 (State.balanceNode s r p a ents) := by
  unfold State.balanceNode
  repeat' first
    | refine Tame.pending ?_
    | refine Tame.fuse ?_
    | refine Tame.emgHost ?_
    | refine Tame.active ?_
    | refine Tame.maint ?_
    | (intro x; refine Tame.cut (s := s0) (t := x) ?_ (fun hx => ?_); subst x; rotate_left; (first | clear_value x | skip))
    | (lift_lets; intro x; refine Tame.cut (s := s0) (t := x) ?_ (fun hx => ?_); subst x; rotate_left; (first | clear_value x | skip))
    | (lift_lets; intro x)
    | with_reducible assumption
    | with_reducible apply Tame.ite
    | with_reducible apply State.onCell_tame
    | with_reducible apply State.memberIn_tame
    | with_reducible apply State.balDrive_tame
    | (with_reducible apply Tame.foldl; rotate_left; intro y z hy)
    | intro x
    | split
    | (clear_value *; split)
    | (with_reducible apply Tame.lit <;> (try dsimp only))

theorem execBalance_tame {s0 s t : State} (d : Desc) (ents : List (Nat × Nat)) (h : Tame s0 s)
    (e : execBalance d ents s = .next t) : Tame s0 t := by
  unfold execBalance at e
  injection e with e
  subst e
  repeat' first
    | with_reducible refine State.command_tame ?_ _ _ _ _ _ _ _ (fun x r hx => ?_)
    | (intro x; refine Tame.cut (s := s0) (t := x) ?_ (fun hx => ?_); subst x; rotate_left; (first | clear_value x | skip))
    | (lift_lets; intro x; refine Tame.cut (s := s0) (t := x) ?_ (fun hx => ?_); subst x; rotate_left; (first | clear_value x | skip))
    | (lift_lets; intro x)
    | with_reducible assumption
    | with_reducible apply State.keep_tame
    | with_reducible apply State.balanceNode_tame
    | (with_reducible apply Tame.foldl; rotate_left; intro y z hy)
    | intro x
    | split
    | (clear_value *; split)

theorem execPassportRead_tame {s0 s t : State} (d : Desc) (h : Tame s0 s)
    (e : execPassportRead d s = .next t) : Tame s0 t := by
  unfold execPassportRead at e
  injection e with e
  subst e
  repeat' first
    | with_reducible refine State.command_tame ?_ _ _ _ _ _ _ _ (fun x r hx => ?_)
    | (intro x; refine Tame.cut (s := s0) (t := x) ?_ (fun hx => ?_); subst x; rotate_left; (first | clear_value x | skip))
    | (lift_lets; intro x; refine Tame.cut (s := s0) (t := x) ?_ (fun hx => ?_); subst x; rotate_left; (first | clear_value x | skip))
    | (lift_lets; intro x)
    | with_reducible assumption
    | with_reducible apply Tame.ite
    | with_reducible apply State.keep_tame
    | with_reducible apply State.sendTo_tame
    | with_reducible apply State.fail_tame
    | intro x
    | split
    | (clear_value *; split)

theorem execNodeStatus_tame {s0 s t : State} (d : Desc) (h : Tame s0 s)
    (e : execNodeStatus d s = .next t) : Tame s0 t := by
  unfold execNodeStatus at e
  injection e with e
  subst e
  repeat' first
    | with_reducible refine State.command_tame ?_ _ _ _ _ _ _ _ (fun x r hx => ?_)
    | (intro x; refine Tame.cut (s := s0) (t := x) ?_ (fun hx => ?_); subst x; rotate_left; (first | clear_value x | skip))
    | (lift_lets; intro x; refine Tame.cut (s := s0) (t := x) ?_ (fun hx => ?_); subst x; rotate_left; (first | clear_value x | skip))
    | (lift_lets; intro x)
    | with_reducible assumption
    | with_reducible apply Tame.ite
    | with_reducible apply State.keep_tame
    | with_reducible apply State.sendTo_tame
    | with_reducible apply State.fail_tame
    | intro x
    | split
    | (clear_value *; split)

theorem execPortRestart_tame {s0 s t : State} (d : Desc) (h : Tame s0 s)
    (e : execPortRestart d s = .next t) : Tame s0 t := by
  unfold execPortRestart at e
  injection e with e
  subst e
  repeat' first
    | refine Tame.pending ?_
    | refine Tame.fuse ?_
    | refine Tame.emgHost ?_
    | refine Tame.active ?_
    | refine Tame.maint ?_
    | with_reducible refine State.command_tame ?_ _ _ _ _ _ _ _ (fun x r hx => ?_)
    | (intro x; refine Tame.cut (s := s0) (t := x) ?_ (fun hx => ?_); subst x; rotate_left; (first | clear_value x | skip))
    | (lift_lets; intro x; refine Tame.cut (s := s0) (t := x) ?_ (fun hx => ?_); subst x; rotate_left; (first | clear_value x | skip))
    | (lift_lets; intro x)
    | with_reducible assumption
    | with_reducible apply Tame.ite
    | with_reducible apply State.onPort_tame
    | with_reducible apply State.keep_tame
    | with_reducible apply State.wakePort_tame
    | with_reducible apply State.okay_tame
    | with_reducible apply State.portSt_tame
    | with_reducible apply State.memberIn_tame
    | (with_reducible apply Tame.foldl; rotate_left; intro y z hy)
    | intro x
    | split
    | (clear_value *; split)
    | (with_reducible apply Tame.lit <;> (try dsimp only))

theorem execOpenWireNow_tame {s0 s t : State} (d : Desc) (h : Tame s0 s)
    (e : execOpenWireNow d s = .next t) : Tame s0 t := by
  unfold execOpenWireNow at e
  injection e with e
  subst e
  repeat' first
    | refine Tame.pending ?_
    | refine Tame.fuse ?_
    | refine Tame.emgHost ?_
    | refine Tame.active ?_
    | refine Tame.maint ?_
    | with_reducible refine State.command_tame ?_ _ _ _ _ _ _ _ (fun x r hx => ?_)
    | (intro x; refine Tame.cut (s := s0) (t := x) ?_ (fun hx => ?_); subst x; rotate_left; (first | clear_value x | skip))
    | (lift_lets; intro x; refine Tame.cut (s := s0) (t := x) ?_ (fun hx => ?_); subst x; rotate_left; (first | clear_value x | skip))
    | (lift_lets; intro x)
    | with_reducible assumption
    | with_reducible apply Tame.ite
    | with_reducible apply State.onPort_tame
    | with_reducible apply State.keep_tame
    | with_reducible apply State.fail_tame
    | with_reducible apply State.owTry_tame
    | intro x
    | split
    | (clear_value *; split)
    | (with_reducible apply Tame.lit <;> (try dsimp only))

theorem execVehicleMass_tame {s0 s t : State} (d : Desc) (h : Tame s0 s)
    (e : execVehicleMass d s = .next t) : Tame s0 t := by
  unfold execVehicleMass at e
  injection e with e
  subst e
  repeat' first
    | refine Tame.pending ?_
    | refine Tame.fuse ?_
    | refine Tame.emgHost ?_
    | refine Tame.active ?_
    | refine Tame.maint ?_
    | with_reducible refine State.command_tame ?_ _ _ _ _ _ _ _ (fun x r hx => ?_)
    | (intro x; refine Tame.cut (s := s0) (t := x) ?_ (fun hx => ?_); subst x; rotate_left; (first | clear_value x | skip))
    | (lift_lets; intro x; refine Tame.cut (s := s0) (t := x) ?_ (fun hx => ?_); subst x; rotate_left; (first | clear_value x | skip))
    | (lift_lets; intro x)
    | with_reducible assumption
    | with_reducible apply State.okay_tame
    | intro x
    | split
    | (clear_value *; split)
    | (with_reducible apply Tame.lit <;> (try dsimp only))

theorem execCellRead_tame {s0 s t : State} (d : Desc) (h : Tame s0 s)
    (e : execCellRead d s = .next t) : Tame s0 t := by
  unfold execCellRead at e
  injection e with e
  subst e
  repeat' first
    | with_reducible refine State.command_tame ?_ _ _ _ _ _ _ _ (fun x r hx => ?_)
    | (intro x; refine Tame.cut (s := s0) (t := x) ?_ (fun hx => ?_); subst x; rotate_left; (first | clear_value x | skip))
    | (lift_lets; intro x; refine Tame.cut (s := s0) (t := x) ?_ (fun hx => ?_); subst x; rotate_left; (first | clear_value x | skip))
    | (lift_lets; intro x)
    | with_reducible assumption
    | with_reducible apply State.okay_tame
    | intro x
    | split
    | (clear_value *; split)

theorem execCapacitySet_tame {s0 s t : State} (d : Desc) (pos : Nat) (cap : Nat) (sigma : Nat) (h : Tame s0 s)
    (e : execCapacitySet d pos cap sigma s = .next t) : Tame s0 t := by
  unfold execCapacitySet at e
  injection e with e
  subst e
  repeat' first
    | refine Tame.pending ?_
    | refine Tame.fuse ?_
    | refine Tame.emgHost ?_
    | refine Tame.active ?_
    | refine Tame.maint ?_
    | with_reducible refine State.command_tame ?_ _ _ _ _ _ _ _ (fun x r hx => ?_)
    | (intro x; refine Tame.cut (s := s0) (t := x) ?_ (fun hx => ?_); subst x; rotate_left; (first | clear_value x | skip))
    | (lift_lets; intro x; refine Tame.cut (s := s0) (t := x) ?_ (fun hx => ?_); subst x; rotate_left; (first | clear_value x | skip))
    | (lift_lets; intro x)
    | with_reducible assumption
    | with_reducible apply State.onEst_tame
    | with_reducible apply State.ageFaults_tame
    | with_reducible apply State.mirrorCmd_tame
    | (with_reducible apply Tame.foldl; rotate_left; intro y z hy)
    | intro x
    | split
    | (clear_value *; split)
    | (with_reducible apply Tame.lit <;> (try dsimp only))

end Sys2Proof.Machine
end

