-- ==== Sys2Proof/Laws/TameHostDrive.lean ====
section
/-! SUPPORT. The operations of Machine.HostDrive are tame. -/

namespace Sys2Proof.Machine

open Sys2Proof

set_option linter.unreachableTactic false
set_option linter.unusedTactic false

theorem State.abortFor_tame {s0 s : State} (h : Tame s0 s) (keys : List Nat) :
    Tame s0 (State.abortFor s keys) := by
  unfold State.abortFor
  repeat' first
    | refine Tame.pending ?_
    | refine Tame.fuse ?_
    | refine Tame.emgHost ?_
    | refine Tame.active ?_
    | refine Tame.maint ?_
    | with_reducible assumption
    | with_reducible apply Tame.ite
    | with_reducible apply State.seqStop_tame
    | split
    | (clear_value *; split)
    | (with_reducible apply Tame.lit <;> (try dsimp only))

theorem execGroupOpen_tame {s0 s t : State} (d : Desc) (h : Tame s0 s)
    (e : execGroupOpen d s = .next t) : Tame s0 t := by
  unfold execGroupOpen at e
  injection e with e
  subst e
  repeat' first
    | with_reducible refine State.command_tame ?_ _ _ _ _ _ _ _ (fun x r hx => ?_)
    | (intro x; refine Tame.cut (s := s0) (t := x) ?_ (fun hx => ?_); subst x; rotate_left; (first | clear_value x | skip))
    | (lift_lets; intro x; refine Tame.cut (s := s0) (t := x) ?_ (fun hx => ?_); subst x; rotate_left; (first | clear_value x | skip))
    | (lift_lets; intro x)
    | with_reducible assumption
    | with_reducible apply Tame.ite
    | with_reducible apply State.keep_tame
    | with_reducible apply State.settleCmds_tame
    | with_reducible apply State.commandOpen_tame
    | with_reducible apply State.fail_tame
    | with_reducible apply State.seqKick_tame
    | with_reducible apply State.abortFor_tame
    | intro x
    | split
    | (clear_value *; split)

theorem execDisconnect_tame {s0 s t : State} (d : Desc) (h : Tame s0 s)
    (e : execDisconnect d s = .next t) : Tame s0 t := by
  unfold execDisconnect at e
  injection e with e
  subst e
  repeat' first
    | with_reducible refine State.command_tame ?_ _ _ _ _ _ _ _ (fun x r hx => ?_)
    | (intro x; refine Tame.cut (s := s0) (t := x) ?_ (fun hx => ?_); subst x; rotate_left; (first | clear_value x | skip))
    | (lift_lets; intro x; refine Tame.cut (s := s0) (t := x) ?_ (fun hx => ?_); subst x; rotate_left; (first | clear_value x | skip))
    | (lift_lets; intro x)
    | with_reducible assumption
    | with_reducible apply Tame.ite
    | with_reducible apply State.keep_tame
    | with_reducible apply State.settleCmds_tame
    | with_reducible apply State.startB_tame
    | with_reducible apply State.seqKick_tame
    | with_reducible apply State.abortFor_tame
    | intro x
    | split
    | (clear_value *; split)

theorem State.hostSwitch_tame {s0 s : State} (h : Tame s0 s) (ch : Nat) (on : Bool) :
    Tame s0 (State.hostSwitch s ch on) := by
  unfold State.hostSwitch
  repeat' first
    | refine Tame.pending ?_
    | refine Tame.fuse ?_
    | refine Tame.emgHost ?_
    | refine Tame.active ?_
    | refine Tame.maint ?_
    | (intro x; refine Tame.cut (s := s0) (t := x) ?_ (fun hx => ?_); subst x; rotate_left; (first | clear_value x | skip))
    | (lift_lets; intro x; refine Tame.cut (s := s0) (t := x) ?_ (fun hx => ?_); subst x; rotate_left; (first | clear_value x | skip))
    | (lift_lets; intro x)
    | with_reducible assumption
    | with_reducible apply Tame.ite
    | with_reducible apply State.onOutc_tame
    | with_reducible apply State.channel_tame
    | intro x
    | split
    | (clear_value *; split)
    | (with_reducible apply Tame.lit <;> (try dsimp only))

theorem execOutputSet_tame {s0 s t : State} (d : Desc) (h : Tame s0 s)
    (e : execOutputSet d s = .next t) : Tame s0 t := by
  unfold execOutputSet at e
  injection e with e
  subst e
  repeat' first
    | with_reducible refine State.command_tame ?_ _ _ _ _ _ _ _ (fun x r hx => ?_)
    | (intro x; refine Tame.cut (s := s0) (t := x) ?_ (fun hx => ?_); subst x; rotate_left; (first | clear_value x | skip))
    | (lift_lets; intro x; refine Tame.cut (s := s0) (t := x) ?_ (fun hx => ?_); subst x; rotate_left; (first | clear_value x | skip))
    | (lift_lets; intro x)
    | with_reducible assumption
    | with_reducible apply Tame.ite
    | with_reducible apply State.okay_tame
    | with_reducible apply State.fail_tame
    | with_reducible apply State.hostSwitch_tame
    | intro x
    | split
    | (clear_value *; split)

theorem State.outClear_tame {s0 s : State} (h : Tame s0 s) (ch : Nat) :
    Tame s0 (State.outClear s ch) := by
  unfold State.outClear
  repeat' first
    | refine Tame.pending ?_
    | refine Tame.fuse ?_
    | refine Tame.emgHost ?_
    | refine Tame.active ?_
    | refine Tame.maint ?_
    | (intro x; refine Tame.cut (s := s0) (t := x) ?_ (fun hx => ?_); subst x; rotate_left; (first | clear_value x | skip))
    | (lift_lets; intro x; refine Tame.cut (s := s0) (t := x) ?_ (fun hx => ?_); subst x; rotate_left; (first | clear_value x | skip))
    | (lift_lets; intro x)
    | with_reducible assumption
    | with_reducible apply Tame.ite
    | with_reducible apply State.onOutc_tame
    | with_reducible apply State.eventRec_tame
    | with_reducible apply State.coil_tame
    | with_reducible apply State.f37Settle_tame
    | intro x
    | split
    | (clear_value *; split)
    | (with_reducible apply Tame.lit <;> (try dsimp only))

theorem execOutputClear_tame {s0 s t : State} (d : Desc) (h : Tame s0 s)
    (e : execOutputClear d s = .next t) : Tame s0 t := by
  unfold execOutputClear at e
  injection e with e
  subst e
  repeat' first
    | with_reducible refine State.command_tame ?_ _ _ _ _ _ _ _ (fun x r hx => ?_)
    | with_reducible assumption
    | with_reducible apply State.okay_tame
    | with_reducible apply State.outClear_tame
    | (with_reducible apply Tame.foldl; rotate_left; intro y z hy)
    | intro x
    | split
    | (clear_value *; split)

theorem State.retest_tame {s0 s : State} (h : Tame s0 s) (l : List (Nat × Nat)) :
    Tame s0 (State.retest s l) := by
  unfold State.retest
  repeat' first
    | with_reducible assumption
    | with_reducible apply Tame.ite
    | with_reducible apply State.sendTo_tame
    | (with_reducible apply Tame.foldl; rotate_left; intro y z hy)
    | intro x
    | split
    | (clear_value *; split)

theorem State.clearAll_tame {s0 : State} (l : List (Nat × Nat)) {s : State} (h : Tame s0 s) :
    Tame s0 (State.clearAll s l).1 := by
  induction l generalizing s with
  | nil => exact h
  | cons x l ih => exact ih (State.tryClear_tame h x.1 x.2)

theorem execFaultClear_tame {s0 s t : State} (d : Desc) (h : Tame s0 s)
    (e : execFaultClear d s = .next t) : Tame s0 t := by
  unfold execFaultClear at e
  injection e with e
  subst e
  refine State.command_tame h _ _ _ _ _ _ _ (fun x r hx => ?_)
  exact State.finish_tame (State.seqKick_tame (State.settle_tame (State.clearAll_tame _ (State.retest_tame hx _)))) _ _ _ _ _

end Sys2Proof.Machine
end

