-- ==== Sys2Proof/Laws/TameHostSeal.lean ====
section
/-! SUPPORT. The operations of Machine.HostSeal are tame. -/

namespace Sys2Proof.Machine

open Sys2Proof

set_option linter.unreachableTactic false
set_option linter.unusedTactic false

theorem State.pendTake_tame {s0 s : State} (h : Tame s0 s) (b : Blob) :
    Tame s0 (State.pendTake s b) := by
  unfold State.pendTake
  repeat' first
    | refine Tame.pending ?_
    | refine Tame.fuse ?_
    | refine Tame.emgHost ?_
    | refine Tame.active ?_
    | refine Tame.maint ?_
    | (intro x; refine Tame.cut (s := s0) (t := x) ?_ (fun hx => ?_); subst x; rotate_left; (first | clear_value x | skip))
    | (lift_lets; intro x; refine Tame.cut (s := s0) (t := x) ?_ (fun hx => ?_); subst x; rotate_left; (first | clear_value x | skip))
    | (lift_lets; intro x)
    | with_reducible assumption
    | with_reducible apply Tame.ite
    | with_reducible apply State.sendNvw_tame
    | with_reducible apply State.raiseIrq_tame
    | with_reducible apply State.eventRec_tame
    | with_reducible apply State.pendDrop_tame
    | intro x
    | split
    | (clear_value *; split)
    | (with_reducible apply Tame.lit <;> (try dsimp only))

theorem execCfgLoad_tame {s0 s t : State} (d : Desc) (blob : Blob) (h : Tame s0 s)
    (e : execCfgLoad d blob s = .next t) : Tame s0 t := by
  unfold execCfgLoad at e
  injection e with e
  subst e
  repeat' first
    | with_reducible refine State.command_tame ?_ _ _ _ _ _ _ _ (fun x r hx => ?_)
    | with_reducible assumption
    | with_reducible apply Tame.ite
    | with_reducible apply State.okay_tame
    | with_reducible apply State.fail_tame
    | with_reducible apply State.pendTake_tame
    | intro x
    | split
    | (clear_value *; split)

theorem execCfgRead_tame {s0 s t : State} (d : Desc) (h : Tame s0 s)
    (e : execCfgRead d s = .next t) : Tame s0 t := by
  unfold execCfgRead at e
  injection e with e
  subst e
  repeat' first
    | with_reducible refine State.command_tame ?_ _ _ _ _ _ _ _ (fun x r hx => ?_)
    | with_reducible assumption
    | with_reducible apply State.okay_tame
    | with_reducible apply State.fail_tame
    | intro x
    | split
    | (clear_value *; split)

theorem State.blobMirror_tame {s0 s : State} (h : Tame s0 s) (r : CmdRef) (b : Blob) (v : Word) :
    Tame s0 (State.blobMirror s r b v) := by
  unfold State.blobMirror
  repeat' first
    | refine Tame.pending ?_
    | refine Tame.fuse ?_
    | refine Tame.emgHost ?_
    | refine Tame.active ?_
    | refine Tame.maint ?_
    | (intro x; refine Tame.cut (s := s0) (t := x) ?_ (fun hx => ?_); subst x; rotate_left; (first | clear_value x | skip))
    | (lift_lets; intro x; refine Tame.cut (s := s0) (t := x) ?_ (fun hx => ?_); subst x; rotate_left; (first | clear_value x | skip))
    | (lift_lets; intro x)
    | with_reducible assumption
    | with_reducible apply Tame.ite
    | with_reducible apply State.sendNvw_tame
    | with_reducible apply State.diverge_tame
    | with_reducible apply State.finish_tame
    | with_reducible apply State.keep_tame
    | intro x
    | split
    | (clear_value *; split)
    | (with_reducible apply Tame.lit <;> (try dsimp only))

theorem State.sealConfirmed_tame {s0 s : State} (h : Tame s0 s) (r : CmdRef) (b : Blob) (v : Word) :
    Tame s0 (State.sealConfirmed s r b v) := by
  unfold State.sealConfirmed
  repeat' first
    | (intro x; refine Tame.cut (s := s0) (t := x) ?_ (fun hx => ?_); subst x; rotate_left; (first | clear_value x | skip))
    | (lift_lets; intro x; refine Tame.cut (s := s0) (t := x) ?_ (fun hx => ?_); subst x; rotate_left; (first | clear_value x | skip))
    | (lift_lets; intro x)
    | with_reducible assumption
    | with_reducible apply Tame.ite
    | with_reducible apply State.eventRec_tame
    | with_reducible apply State.okay_tame
    | with_reducible apply State.sealTake_tame
    | with_reducible apply State.blobMirror_tame
    | intro x
    | split
    | (clear_value *; split)

theorem execSealConfirm_tame {s0 s t : State} (d : Desc) (h : Tame s0 s)
    (e : execSealConfirm d s = .next t) : Tame s0 t := by
  unfold execSealConfirm at e
  injection e with e
  subst e
  repeat' first
    | refine Tame.pending ?_
    | refine Tame.fuse ?_
    | refine Tame.emgHost ?_
    | refine Tame.active ?_
    | refine Tame.maint ?_
    | with_reducible refine State.command_tame ?_ _ _ _ _ _ _ _ (fun x r hx => ?_)
    | (intro x; refine Tame.cut (s := s0) (t := x) ?_ (fun hx => ?_); subst x; rotate_left; (first | clear_value x | skip))
    | (lift_lets; intro x; refine Tame.cut (s := s0) (t := x) ?_ (fun hx => ?_); subst x; rotate_left; (first | clear_value x | skip))
    | (lift_lets; intro x)
    | with_reducible assumption
    | with_reducible apply Tame.ite
    | with_reducible apply State.fail_tame
    | with_reducible apply State.pendDrop_tame
    | with_reducible apply State.sealConfirmed_tame
    | intro x
    | split
    | (clear_value *; split)
    | (with_reducible apply Tame.lit <;> (try dsimp only))

theorem execMaintClose_tame {s0 s t : State} (d : Desc) (h : Tame s0 s)
    (e : execMaintClose d s = .next t) : Tame s0 t := by
  unfold execMaintClose at e
  injection e with e
  subst e
  repeat' first
    | with_reducible refine State.command_tame ?_ _ _ _ _ _ _ _ (fun x r hx => ?_)
    | with_reducible assumption
    | with_reducible apply State.okay_tame
    | with_reducible apply State.maintEnd_tame
    | intro x
    | split
    | (clear_value *; split)

end Sys2Proof.Machine
end

