-- ==== Sys2Proof/Laws/TameHostMisc.lean ====
section
/-! SUPPORT. The operations of Machine.HostMisc are tame. -/

namespace Sys2Proof.Machine

open Sys2Proof

set_option linter.unreachableTactic false
set_option linter.unusedTactic false

theorem execTableRead_tame {s0 s t : State} (d : Desc) (first : Nat) (count : Nat) (h : Tame s0 s)
    (e : execTableRead d first count s = .next t) : Tame s0 t := by
  unfold execTableRead at e
  injection e with e
  subst e
  repeat' first
    | with_reducible refine State.command_tame ?_ _ _ _ _ _ _ _ (fun x r hx => ?_)
    | (intro x; refine Tame.cut (s := s0) (t := x) ?_ (fun hx => ?_); subst x; rotate_left; (first | clear_value x | skip))
    | (lift_lets; intro x; refine Tame.cut (s := s0) (t := x) ?_ (fun hx => ?_); subst x; rotate_left; (first | clear_value x | skip))
    | (lift_lets; intro x)
    | with_reducible assumption
    | with_reducible apply Tame.ite
    | with_reducible apply State.record_tame
    | with_reducible apply State.keep_tame
    | with_reducible apply State.streamsDone_tame
    | (with_reducible apply Tame.foldl; rotate_left; intro y z hy)
    | intro x
    | split
    | (clear_value *; split)

theorem State.tableTake_tame {s0 s : State} (h : Tame s0 s) (q : NvReq) :
    Tame s0 (State.tableTake s q) := by
  unfold State.tableTake
  repeat' first
    | with_reducible assumption
    | with_reducible apply Tame.ite
    | with_reducible apply State.ageFrom_tame
    | with_reducible apply State.ageFaults_tame
    | with_reducible apply State.tableFrom_tame
    | split
    | (clear_value *; split)

theorem execTableWrite_tame {s0 s t : State} (d : Desc) (recs : List NvReq) (h : Tame s0 s)
    (e : execTableWrite d recs s = .next t) : Tame s0 t := by
  unfold execTableWrite at e
  injection e with e
  subst e
  repeat' first
    | refine Tame.pending ?_
    | refine Tame.fuse ?_
    | refine Tame.emgHost ?_
    | refine Tame.active ?_
    | refine Tame.maint ?_
    | with_reducible refine State.command_tame ?_ _ _ _ _ _ _ _ (fun x r hx => ?_)
    | (intro x; refine Tame.cut (s := s0) (t := x) ?_ (fun hx => ?_); subst x; rotate_left; (first | clear_value x | skip))
    | (lift_lets; intro x; refine Tame.cut (s := s0) (t := x) ?_ (fun hx => ?_); subst x; rotate_left; (first | clear_value x | skip))
    | (lift_lets; intro x)
    | with_reducible assumption
    | with_reducible apply Tame.ite
    | with_reducible apply State.fail_tame
    | with_reducible apply State.mirrorCmd_tame
    | with_reducible apply State.tableTake_tame
    | (with_reducible apply Tame.foldl; rotate_left; intro y z hy)
    | intro x
    | split
    | (clear_value *; split)
    | (with_reducible apply Tame.lit <;> (try dsimp only))

theorem execBbRead_tame {s0 s t : State} (d : Desc) (h : Tame s0 s)
    (e : execBbRead d s = .next t) : Tame s0 t := by
  unfold execBbRead at e
  injection e with e
  subst e
  repeat' first
    | with_reducible refine State.command_tame ?_ _ _ _ _ _ _ _ (fun x r hx => ?_)
    | (intro x; refine Tame.cut (s := s0) (t := x) ?_ (fun hx => ?_); subst x; rotate_left; (first | clear_value x | skip))
    | (lift_lets; intro x; refine Tame.cut (s := s0) (t := x) ?_ (fun hx => ?_); subst x; rotate_left; (first | clear_value x | skip))
    | (lift_lets; intro x)
    | with_reducible assumption
    | with_reducible apply State.record_tame
    | with_reducible apply State.keep_tame
    | with_reducible apply State.streamsDone_tame
    | (with_reducible apply Tame.foldl; rotate_left; intro y z hy)
    | intro x
    | split
    | (clear_value *; split)

theorem execBbClear_tame {s0 s t : State} (d : Desc) (h : Tame s0 s)
    (e : execBbClear d s = .next t) : Tame s0 t := by
  unfold execBbClear at e
  injection e with e
  subst e
  repeat' first
    | refine Tame.pending ?_
    | refine Tame.fuse ?_
    | refine Tame.emgHost ?_
    | refine Tame.active ?_
    | refine Tame.maint ?_
    | with_reducible refine State.command_tame ?_ _ _ _ _ _ _ _ (fun x r hx => ?_)
    | (intro x; refine Tame.cut (s := s0) (t := x) ?_ (fun hx => ?_); subst x; rotate_left; (first | clear_value x | skip))
    | (lift_lets; intro x; refine Tame.cut (s := s0) (t := x) ?_ (fun hx => ?_); subst x; rotate_left; (first | clear_value x | skip))
    | (lift_lets; intro x)
    | with_reducible assumption
    | with_reducible apply State.bbEvent_tame
    | with_reducible apply State.okay_tame
    | intro x
    | split
    | (clear_value *; split)
    | (with_reducible apply Tame.lit <;> (try dsimp only))

theorem State.fwSet_tame {s0 s : State} (h : Tame s0 s) (k : Nat) (x : FwSlot) (img : List Byte) :
    Tame s0 (State.fwSet s k x img) := by
  unfold State.fwSet
  repeat' first
    | refine Tame.pending ?_
    | refine Tame.fuse ?_
    | refine Tame.emgHost ?_
    | refine Tame.active ?_
    | refine Tame.maint ?_
    | with_reducible assumption
    | split
    | (clear_value *; split)
    | (with_reducible apply Tame.lit <;> (try dsimp only))

theorem execFwLoad_tame {s0 s t : State} (d : Desc) (chunk : FwChunk) (h : Tame s0 s)
    (e : execFwLoad d chunk s = .next t) : Tame s0 t := by
  unfold execFwLoad at e
  injection e with e
  subst e
  repeat' first
    | refine Tame.pending ?_
    | refine Tame.fuse ?_
    | refine Tame.emgHost ?_
    | refine Tame.active ?_
    | refine Tame.maint ?_
    | with_reducible refine State.command_tame ?_ _ _ _ _ _ _ _ (fun x r hx => ?_)
    | (intro x; refine Tame.cut (s := s0) (t := x) ?_ (fun hx => ?_); subst x; rotate_left; (first | clear_value x | skip))
    | (lift_lets; intro x; refine Tame.cut (s := s0) (t := x) ?_ (fun hx => ?_); subst x; rotate_left; (first | clear_value x | skip))
    | (lift_lets; intro x)
    | with_reducible assumption
    | with_reducible apply Tame.ite
    | with_reducible apply State.okay_tame
    | with_reducible apply State.fail_tame
    | with_reducible apply State.fwSet_tame
    | intro x
    | split
    | (clear_value *; split)
    | (with_reducible apply Tame.lit <;> (try dsimp only))

theorem execFwActivate_tame {s0 s t : State} (d : Desc) (h : Tame s0 s)
    (e : execFwActivate d s = .next t) : Tame s0 t := by
  unfold execFwActivate at e
  injection e with e
  subst e
  repeat' first
    | refine Tame.pending ?_
    | refine Tame.fuse ?_
    | refine Tame.emgHost ?_
    | refine Tame.active ?_
    | refine Tame.maint ?_
    | with_reducible refine State.command_tame ?_ _ _ _ _ _ _ _ (fun x r hx => ?_)
    | (intro x; refine Tame.cut (s := s0) (t := x) ?_ (fun hx => ?_); subst x; rotate_left; (first | clear_value x | skip))
    | (lift_lets; intro x; refine Tame.cut (s := s0) (t := x) ?_ (fun hx => ?_); subst x; rotate_left; (first | clear_value x | skip))
    | (lift_lets; intro x)
    | with_reducible assumption
    | with_reducible apply Tame.ite
    | with_reducible apply State.okay_tame
    | with_reducible apply State.fail_tame
    | intro x
    | split
    | (clear_value *; split)
    | (with_reducible apply Tame.lit <;> (try dsimp only))

theorem execCanTx_tame {s0 s t : State} (d : Desc) (frame : CanFrame) (h : Tame s0 s)
    (e : execCanTx d frame s = .next t) : Tame s0 t := by
  unfold execCanTx at e
  injection e with e
  subst e
  repeat' first
    | refine Tame.pending ?_
    | refine Tame.fuse ?_
    | refine Tame.emgHost ?_
    | refine Tame.active ?_
    | refine Tame.maint ?_
    | with_reducible refine State.command_tame ?_ _ _ _ _ _ _ _ (fun x r hx => ?_)
    | (intro x; refine Tame.cut (s := s0) (t := x) ?_ (fun hx => ?_); subst x; rotate_left; (first | clear_value x | skip))
    | (lift_lets; intro x; refine Tame.cut (s := s0) (t := x) ?_ (fun hx => ?_); subst x; rotate_left; (first | clear_value x | skip))
    | (lift_lets; intro x)
    | with_reducible assumption
    | with_reducible apply Tame.ite
    | with_reducible apply State.onCan_tame
    | with_reducible apply State.fail_tame
    | with_reducible apply State.loadTx_tame
    | intro x
    | split
    | (clear_value *; split)
    | (with_reducible apply Tame.lit <;> (try dsimp only))

theorem State.begun_tame {s0 s : State} (h : Tame s0 s) (c b : Nat) :
    Tame s0 (State.begun s c b).2 := by
  unfold State.begun
  repeat' first
    | (intro x; refine Tame.cut (s := s0) (t := x) ?_ (fun hx => ?_); subst x; rotate_left; (first | clear_value x | skip))
    | (lift_lets; intro x; refine Tame.cut (s := s0) (t := x) ?_ (fun hx => ?_); subst x; rotate_left; (first | clear_value x | skip))
    | (lift_lets; intro x)
    | with_reducible assumption
    | with_reducible apply Tame.ite
    | with_reducible apply Tame.iteSnd
    | with_reducible apply State.draw_tame
    | (refine State.draw_tame' ?_ ‹_›)
    | with_reducible apply Tame.mkSnd
    | intro x
    | split
    | (clear_value *; split)

theorem State.begun_tame' {s0 s t : State} {a} {c b : Nat} (h : Tame s0 s)
    (e : (State.begun s c b) = (a, t)) : Tame s0 t := by
  have k := State.begun_tame h c b
  rw [e] at k
  exact k

theorem State.cancelBuf_tame {s0 s : State} (h : Tame s0 s) (c b : Nat) :
    Tame s0 (State.cancelBuf s c b) := by
  unfold State.cancelBuf
  repeat' first
    | refine Tame.pending ?_
    | refine Tame.fuse ?_
    | refine Tame.emgHost ?_
    | refine Tame.active ?_
    | refine Tame.maint ?_
    | (intro x; refine Tame.cut (s := s0) (t := x) ?_ (fun hx => ?_); subst x; rotate_left; (first | clear_value x | skip))
    | (lift_lets; intro x; refine Tame.cut (s := s0) (t := x) ?_ (fun hx => ?_); subst x; rotate_left; (first | clear_value x | skip))
    | (lift_lets; intro x)
    | with_reducible assumption
    | with_reducible apply Tame.ite
    | with_reducible apply State.onCan_tame
    | with_reducible apply State.dropBuf_tame
    | with_reducible apply State.begun_tame
    | (refine State.begun_tame' ?_ ‹_›)
    | intro x
    | split
    | (clear_value *; split)
    | (with_reducible apply Tame.lit <;> (try dsimp only))

theorem execCanCancel_tame {s0 s t : State} (d : Desc) (h : Tame s0 s)
    (e : execCanCancel d s = .next t) : Tame s0 t := by
  unfold execCanCancel at e
  injection e with e
  subst e
  repeat' first
    | refine Tame.pending ?_
    | refine Tame.fuse ?_
    | refine Tame.emgHost ?_
    | refine Tame.active ?_
    | refine Tame.maint ?_
    | with_reducible refine State.command_tame ?_ _ _ _ _ _ _ _ (fun x r hx => ?_)
    | (intro x; refine Tame.cut (s := s0) (t := x) ?_ (fun hx => ?_); subst x; rotate_left; (first | clear_value x | skip))
    | (lift_lets; intro x; refine Tame.cut (s := s0) (t := x) ?_ (fun hx => ?_); subst x; rotate_left; (first | clear_value x | skip))
    | (lift_lets; intro x)
    | with_reducible assumption
    | with_reducible apply Tame.ite
    | with_reducible apply State.onCan_tame
    | with_reducible apply State.okay_tame
    | with_reducible apply State.fail_tame
    | with_reducible apply State.txResult_tame
    | with_reducible apply State.cancelBuf_tame
    | intro x
    | split
    | (clear_value *; split)
    | (with_reducible apply Tame.lit <;> (try dsimp only))

theorem execCanFilter_tame {s0 s t : State} (d : Desc) (param : FilterParam) (h : Tame s0 s)
    (e : execCanFilter d param s = .next t) : Tame s0 t := by
  unfold execCanFilter at e
  injection e with e
  subst e
  repeat' first
    | refine Tame.pending ?_
    | refine Tame.fuse ?_
    | refine Tame.emgHost ?_
    | refine Tame.active ?_
    | refine Tame.maint ?_
    | with_reducible refine State.command_tame ?_ _ _ _ _ _ _ _ (fun x r hx => ?_)
    | (intro x; refine Tame.cut (s := s0) (t := x) ?_ (fun hx => ?_); subst x; rotate_left; (first | clear_value x | skip))
    | (lift_lets; intro x; refine Tame.cut (s := s0) (t := x) ?_ (fun hx => ?_); subst x; rotate_left; (first | clear_value x | skip))
    | (lift_lets; intro x)
    | with_reducible assumption
    | with_reducible apply Tame.ite
    | with_reducible apply State.onCan_tame
    | with_reducible apply State.okay_tame
    | intro x
    | split
    | (clear_value *; split)
    | (with_reducible apply Tame.lit <;> (try dsimp only))

theorem execCanMode_tame {s0 s t : State} (d : Desc) (h : Tame s0 s)
    (e : execCanMode d s = .next t) : Tame s0 t := by
  unfold execCanMode at e
  injection e with e
  subst e
  repeat' first
    | refine Tame.pending ?_
    | refine Tame.fuse ?_
    | refine Tame.emgHost ?_
    | refine Tame.active ?_
    | refine Tame.maint ?_
    | with_reducible refine State.command_tame ?_ _ _ _ _ _ _ _ (fun x r hx => ?_)
    | (intro x; refine Tame.cut (s := s0) (t := x) ?_ (fun hx => ?_); subst x; rotate_left; (first | clear_value x | skip))
    | (lift_lets; intro x; refine Tame.cut (s := s0) (t := x) ?_ (fun hx => ?_); subst x; rotate_left; (first | clear_value x | skip))
    | (lift_lets; intro x)
    | with_reducible assumption
    | with_reducible apply Tame.ite
    | with_reducible apply State.onCan_tame
    | with_reducible apply State.okay_tame
    | with_reducible apply State.fail_tame
    | with_reducible apply State.canStop_tame
    | intro x
    | split
    | (clear_value *; split)
    | (with_reducible apply Tame.lit <;> (try dsimp only))

theorem execRoleHandover_tame {s0 s t : State} (d : Desc) (h : Tame s0 s)
    (e : execRoleHandover d s = .next t) : Tame s0 t := by
  unfold execRoleHandover at e
  injection e with e
  subst e
  repeat' first
    | refine Tame.pending ?_
    | refine Tame.fuse ?_
    | refine Tame.emgHost ?_
    | refine Tame.active ?_
    | refine Tame.maint ?_
    | with_reducible refine State.command_tame ?_ _ _ _ _ _ _ _ (fun x r hx => ?_)
    | with_reducible assumption
    | with_reducible apply Tame.ite
    | with_reducible apply State.sendEvt_tame
    | with_reducible apply State.keep_tame
    | with_reducible apply State.fail_tame
    | intro x
    | split
    | (clear_value *; split)
    | (with_reducible apply Tame.lit <;> (try dsimp only))

theorem execPairAdopt_tame {s0 s t : State} (d : Desc) (h : Tame s0 s)
    (e : execPairAdopt d s = .next t) : Tame s0 t := by
  unfold execPairAdopt at e
  injection e with e
  subst e
  repeat' first
    | with_reducible refine State.command_tame ?_ _ _ _ _ _ _ _ (fun x r hx => ?_)
    | with_reducible assumption
    | with_reducible apply Tame.ite
    | with_reducible apply State.fail_tame
    | with_reducible apply State.blobMirror_tame
    | intro x
    | split
    | (clear_value *; split)

theorem execMirrorCheck_tame {s0 s t : State} (d : Desc) (h : Tame s0 s)
    (e : execMirrorCheck d s = .next t) : Tame s0 t := by
  unfold execMirrorCheck at e
  injection e with e
  subst e
  repeat' first
    | refine Tame.pending ?_
    | refine Tame.fuse ?_
    | refine Tame.emgHost ?_
    | refine Tame.active ?_
    | refine Tame.maint ?_
    | with_reducible refine State.command_tame ?_ _ _ _ _ _ _ _ (fun x r hx => ?_)
    | with_reducible assumption
    | with_reducible apply Tame.ite
    | with_reducible apply State.keep_tame
    | with_reducible apply State.fail_tame
    | intro x
    | split
    | (clear_value *; split)
    | (with_reducible apply Tame.lit <;> (try dsimp only))

theorem execStateReadback_tame {s0 s t : State} (d : Desc) (h : Tame s0 s)
    (e : execStateReadback d s = .next t) : Tame s0 t := by
  unfold execStateReadback at e
  injection e with e
  subst e
  repeat' first
    | refine Tame.pending ?_
    | refine Tame.fuse ?_
    | refine Tame.emgHost ?_
    | refine Tame.active ?_
    | refine Tame.maint ?_
    | with_reducible refine State.command_tame ?_ _ _ _ _ _ _ _ (fun x r hx => ?_)
    | (intro x; refine Tame.cut (s := s0) (t := x) ?_ (fun hx => ?_); subst x; rotate_left; (first | clear_value x | skip))
    | (lift_lets; intro x; refine Tame.cut (s := s0) (t := x) ?_ (fun hx => ?_); subst x; rotate_left; (first | clear_value x | skip))
    | (lift_lets; intro x)
    | with_reducible assumption
    | with_reducible apply Tame.ite
    | with_reducible apply State.okay_tame
    | intro x
    | split
    | (clear_value *; split)
    | (with_reducible apply Tame.lit <;> (try dsimp only))

theorem State.releaseTest_tame {s0 s : State} (h : Tame s0 s) (j by_ : Nat) (bad : Bool) :
    Tame s0 (State.releaseTest s j by_ bad) := by
  unfold State.releaseTest
  repeat' first
    | refine Tame.pending ?_
    | refine Tame.fuse ?_
    | refine Tame.emgHost ?_
    | refine Tame.active ?_
    | refine Tame.maint ?_
    | (intro x; refine Tame.cut (s := s0) (t := x) ?_ (fun hx => ?_); subst x; rotate_left; (first | clear_value x | skip))
    | (lift_lets; intro x; refine Tame.cut (s := s0) (t := x) ?_ (fun hx => ?_); subst x; rotate_left; (first | clear_value x | skip))
    | (lift_lets; intro x)
    | with_reducible assumption
    | with_reducible apply Tame.ite
    | with_reducible apply State.onLsw_tame
    | with_reducible apply State.releaseLsw_tame
    | intro x
    | split
    | (clear_value *; split)
    | (with_reducible apply Tame.lit <;> (try dsimp only))

theorem State.testEffect_tame {s0 s : State} (h : Tame s0 s) (n : Nat) (bad : Word) :
    Tame s0 (State.testEffect s n bad) := by
  unfold State.testEffect
  repeat' first
    | refine Tame.pending ?_
    | refine Tame.fuse ?_
    | refine Tame.emgHost ?_
    | refine Tame.active ?_
    | refine Tame.maint ?_
    | (intro x; refine Tame.cut (s := s0) (t := x) ?_ (fun hx => ?_); subst x; rotate_left; (first | clear_value x | skip))
    | (lift_lets; intro x; refine Tame.cut (s := s0) (t := x) ?_ (fun hx => ?_); subst x; rotate_left; (first | clear_value x | skip))
    | (lift_lets; intro x)
    | with_reducible assumption
    | with_reducible apply Tame.ite
    | with_reducible apply State.draw_tame
    | (refine State.draw_tame' ?_ ‹_›)
    | with_reducible apply State.sectorRemap_tame
    | with_reducible apply State.engineFail_tame
    | with_reducible apply State.holdStart_tame
    | with_reducible apply State.uncorrectable_tame
    | with_reducible apply State.releaseTest_tame
    | (with_reducible apply Tame.foldl; rotate_left; intro y z hy)
    | intro x
    | split
    | (clear_value *; split)
    | (with_reducible apply Tame.lit <;> (try dsimp only))

theorem execSelfTest_tame {s0 s t : State} (d : Desc) (fails : Word) (h : Tame s0 s)
    (e : execSelfTest d fails s = .next t) : Tame s0 t := by
  unfold execSelfTest at e
  injection e with e
  subst e
  repeat' first
    | refine Tame.pending ?_
    | refine Tame.fuse ?_
    | refine Tame.emgHost ?_
    | refine Tame.active ?_
    | refine Tame.maint ?_
    | with_reducible refine State.command_tame ?_ _ _ _ _ _ _ _ (fun x r hx => ?_)
    | (intro x; refine Tame.cut (s := s0) (t := x) ?_ (fun hx => ?_); subst x; rotate_left; (first | clear_value x | skip))
    | (lift_lets; intro x; refine Tame.cut (s := s0) (t := x) ?_ (fun hx => ?_); subst x; rotate_left; (first | clear_value x | skip))
    | (lift_lets; intro x)
    | with_reducible assumption
    | with_reducible apply Tame.ite
    | with_reducible apply State.event_tame
    | with_reducible apply State.finish_tame
    | with_reducible apply State.okay_tame
    | with_reducible apply State.testEffect_tame
    | intro x
    | split
    | (clear_value *; split)
    | (with_reducible apply Tame.lit <;> (try dsimp only))

end Sys2Proof.Machine
end

