-- ==== Sys2Proof/WellFormed.lean ====
section
/-! DEFINITION. Which commands are well formed: every operand within the range of the thing it names. The block's
meanings are total; a sender sends well-formed commands only. -/

namespace Sys2Proof

/-- A chain port P0–P15. -/
def portOk (p : Nat) : Bool := p < 16

/-- A port end: 0 N, 1 S. -/
def endOk (e : Nat) : Bool := e < 2

/-- A node address (03 R71). -/
def addrOk (a : Nat) : Bool := 1 ≤ a && a ≤ 33

/-- A ring (18 R439). -/
def ringOk (n : Nat) : Bool := n < 64

/-- A CAN controller. -/
def canOk (c : Nat) : Bool := c < 2

/-- An axle channel. -/
def axleOk (n : Nat) : Bool := n < 2

/-- An OUT channel. -/
def chOk (n : Nat) : Bool := n < 12

/-- A scope of the fault matrix: a string, or 16 for pack and module. -/
def scopeOk (n : Nat) : Bool := n ≤ 16

/-- An entry of the disconnects: a scope, or 17 + c for OTH contactor c of at most 48 (12 R306). -/
def discOk (n : Nat) : Bool := n < 65

/-- A fault source. -/
def sourceOk (n : Nat) : Bool := n < 64

/-- A global cell index (00 R9). -/
def cellOk (g : Nat) : Bool := g < 8192

/-- An impedance band (07 R185). -/
def bandOk (b : Nat) : Bool := b < 6

/-- A temperature sensor: node sensors 0–4,095, NTC inputs from 4,096. -/
def sensorOk (k : Nat) : Bool := k < 4104

/-- A 64-bit time. -/
def timeOk (t : Nat) : Bool := t < 2 ^ 64

/-- A register offset of BAR0 (20 R489). -/
def offOk (o : Nat) : Bool := o < 65536

/-- A submission descriptor (18 R448). -/
def descOk (d : Desc) : Bool := ringOk d.sq && d.paramLen ≤ 262144 && d.resultLen < 2 ^ 32

/-- A CAN frame (16 R394): identifier of 11 or 29 bits, a DLC, at most 64 data bytes. -/
def frameOk (f : CanFrame) : Bool :=
  f.id < (if f.ide then 2 ^ 29 else 2 ^ 11) && f.dlc < 16 && f.data.length ≤ 64

/-- A frame fits between its SOF and EOF: header, at most 4,092 bytes of payload, CRC-32C (04 R108). -/
def rawOk (f : RawFrame) : Bool := decide (f.bytes.length ≤ 4104)

/-- A record of MRAM (22 R530). -/
def recOk (r : NvReq) : Bool := 1 ≤ r.kind && r.kind ≤ 13

/-- Every operand of a command is in range. -/
def Instr.wf (i : Instr) : Bool :=
  match i with
  | .identify d => descOk d
  | .echo d => descOk d
  | .timeGet d => descOk d
  | .powerStateMoss d => descOk d
  | .powerStatePeat d => descOk d
  | .portStatus d => descOk d
  | .rosterAccept d => descOk d
  | .openTapClear d => descOk d
  | .balance d ents => descOk d && decide (ents.length ≤ 512)
  | .passportRead d => descOk d
  | .portRestart d => descOk d
  | .openWireNow d => descOk d
  | .emergencySupply d => descOk d
  | .vehicleMass d => descOk d
  | .cellRead d => descOk d
  | .capacitySet d pos cap sigma => descOk d && decide (pos < 65536) && decide (cap < 2 ^ 32) && decide (sigma < 65536)
  | .groupClose d => descOk d
  | .groupOpen d => descOk d
  | .disconnect d => descOk d
  | .outputSet d => descOk d
  | .outputClear d => descOk d
  | .faultClear d => descOk d
  | .cfgLoad d blob => descOk d && decide (blob.bytes.length ≤ 262144)
  | .cfgRead d => descOk d
  | .sealConfirm d => descOk d
  | .maintOpen d => descOk d
  | .maintClose d => descOk d
  | .fuseProgram d image _ => descOk d && decide (image.length ≤ 262144)
  | .tableRead d first count => descOk d && decide (first < 2 ^ 32) && decide (count < 2 ^ 32)
  | .tableWrite d recs => descOk d && recs.all recOk
  | .bbRead d => descOk d
  | .bbClear d => descOk d
  | .fwLoad d chunk => descOk d && decide (chunk.data.length ≤ 262128) && decide (chunk.offset < 2 ^ 32) && decide (chunk.total < 2 ^ 32)
  | .fwActivate d => descOk d
  | .canTx d frame => descOk d && frameOk frame
  | .canCancel d => descOk d
  | .canFilter d param => descOk d && decide (param.ide < 4) && decide (param.fdf < 4) && decide (param.action < 256)
  | .canMode d => descOk d
  | .roleHandover d => descOk d
  | .pairAdopt d => descOk d
  | .mirrorCheck d => descOk d
  | .stateReadback d => descOk d
  | .selfTest d _ => descOk d
  | .nodeStatus d => descOk d
  | .doorbell ring _ => ringOk ring
  | .descriptorFetch ring opcode d => descOk d && ringOk ring && decide (opcode < 256)
  | .completionWrite cq => ringOk cq
  | .streamRecordWrite fn _ => decide (fn < 256)
  | .interruptModerationTimeout ring => ringOk ring
  | .msixTableWrite vec _ => decide (vec < 64)
  | .ringEnable ring _ => ringOk ring
  | .ringDisable ring _ => ringOk ring
  | .ringReset ring _ => ringOk ring
  | .ringStatusClear ring _ => ringOk ring
  | .dmaError ring => ringOk ring
  | .pcieConfigRequest _ => true
  | .hostInterfaceReady => true
  | .perstNAssert => true
  | .linkReset => true
  | .d3hotEntry => true
  | .d0Return => true
  | .softwareResetSvc => true
  | .softwareResetSafe => true
  | .softwareResetBoth => true
  | .irqStatusAck _ => true
  | .ringPendAck _ _ => true
  | .eventRegisterClear _ _ => true
  | .eventCounterClear _ => true
  | .loHalfRead off => offOk off
  | .spdCaptureRead ch _ => axleOk ch
  | .collCntRead c => canOk c
  | .hpWindowRead c off => canOk c && offOk off
  | .hpStatRead c => canOk c
  | .hpLockTimeout c => canOk c
  | .registerWrite off _ => offOk off
  | .powerOnReset _ => true
  | .rstNReset _ => true
  | .rstNDeassert => true
  | .domainPowerGood dom => decide (dom < 12)
  | .builtInRepair _ _ => true
  | .mramMount => true
  | .readyToClose => true
  | .readyTimeout => true
  | .supplyInterruptionBegin _ => true
  | .saveWindowEntry => true
  | .saveWindowExpiry => true
  | .interruptionEnd => true
  | .wakePackCurrent _ => true
  | .canWake c => canOk c
  | .wakeTimerExpiry => true
  | .chgPresHigh => true
  | .svcWakeHigh => true
  | .heartbeatSweepCycle => true
  | .mossLimitExpiry => true
  | .selfCheckAlarm => true
  | .wakeToneDetected p e => portOk p && endOk e
  | .symbolLock p e => portOk p && endOk e
  | .loopClosure p => portOk p
  | .hopTimeout p => portOk p
  | .rspFrameReceived p e f => portOk p && endOk e && rawOk f
  | .cmdResponseTimeout p addr => portOk p && (addrOk addr || addr == 62)
  | .probeReply p e addr _ => portOk p && addrOk addr && endOk e
  | .delayProbeCycle p => portOk p
  | .idleOrderedSet p e _ => portOk p && endOk e
  | .lossOfSymbolLock p e => portOk p && endOk e
  | .idleSetTimeout p e => portOk p && endOk e
  | .alarmToneDetected p e => portOk p && endOk e
  | .reedIssue p S => portOk p && timeOk S
  | .reedFrameObserved p e f t => portOk p && endOk e && rawOk f && timeOk t
  | .reedPulseMissing p e => portOk p && endOk e
  | .collectLaunch p e => portOk p && endOk e
  | .collectFrameReceived p e f => portOk p && endOk e && rawOk f
  | .breakEvent p e f => portOk p && endOk e && rawOk f
  | .restoredEvent p e f => portOk p && endOk e && rawOk f
  | .toneOriginEvent p e l _ t => portOk p && endOk e && rawOk { bytes := l } && timeOk t
  | .selfTestFailEvent p e f => portOk p && endOk e && rawOk f
  | .nvFailEvent pe f => portOk (pe / 2) && rawOk f
  | .splitModeEntry p => portOk p
  | .splitModeEnd p => portOk p
  | .engineLoopbackTest eng _ => decide (eng < 17)
  | .engineSubstitution p => portOk p
  | .modeChange p mode => portOk p && decide (mode < 4)
  | .m3BurstStart p => portOk p
  | .m3BurstEnd p => portOk p
  | .quietModeEntry p => portOk p
  | .quietModeExit p => portOk p
  | .openWireGroupDue p => portOk p
  | .sedgeSessionStart p => portOk p
  | .sedgeSequenceEnd p seq => portOk p && decide (seq < 65536)
  | .balanceDurationEnd p addr => portOk p && addrOk addr
  | .packCurrentSample S _ => timeOk S
  | .fastOvercurrentTrip => true
  | .kirchhoffEvaluation S => timeOk S
  | .offsetLearning sensor t => decide (sensor ≤ 16) && timeOk t
  | .kalmanUpdate S => timeOk S
  | .estimatorResultTimeout => true
  | .limitsPublication S => timeOk S
  | .estimatorRecord S => timeOk S
  | .trueRestPoint p => portOk p
  | .wispPointEvaluation p => portOk p
  | .divergenceCease g => cellOk g
  | .energyRecompute => true
  | .segmentClose p band => portOk p && bandOk band
  | .windowEnd p band => portOk p && bandOk band
  | .circuitFit g slot t => cellOk g && decide (slot < 12) && timeOk t
  | .fitRecord p => portOk p
  | .tableWriteback g => cellOk g
  | .tableAgeAdvance => true
  | .ntcSample ohms => decide (ohms.length = 8)
  | .temperatureEvaluation => true
  | .temperatureDemandFall p => portOk p
  | .riseConfirmationTimeout sensor => sensorOk sensor
  | .thermalOutputSwitch ch => chOk ch
  | .junctionRead _ _ _ _ => true
  | .junctionShutdown => true
  | .junctionRecovery => true
  | .faultMatrixEvaluation => true
  | .persistenceExpiry src scope => sourceOk src && scopeOk scope
  | .classBWaitExpiry scope => discOk scope
  | .lowCurrentWindow scope => scopeOk scope
  | .classCDeadline scope => scopeOk scope
  | .classDRelease src scope => sourceOk src && scopeOk scope
  | .wadeTimerExpiry => true
  | .precloseTestEnd => true
  | .firstFitDue => true
  | .prechargeTimeout => true
  | .closeTimeElapsed => true
  | .closeVerifyTimeout => true
  | .preOpenVerify => true
  | .windowWaitExpiry => true
  | .checkAtOpen p => discOk p && p != 16
  | .checkAtOpenNoData p => portOk p
  | .secondContactorCheck p => portOk p
  | .busDischargeTimeout p => portOk p
  | .prechargeLockoutEnd p => portOk p
  | .coilEchoTimeout ch => chOk ch
  | .channelTrip ch _ _ => chOk ch
  | .automaticRestart ch _ => chOk ch
  | .retryRestore ch => chOk ch
  | .openLoad ch _ => chOk ch
  | .lswFault j _ => decide (j < 4)
  | .safetyWatchdog => true
  | .serviceWatchdog => true
  | .lockstepMismatch => true
  | .supervisionResumed => true
  | .holdWindowExpiry => true
  | .holdSwitchOff => true
  | .limpNLow => true
  | .limpNHigh => true
  | .dinEdge n _ => decide (n < 4)
  | .hvilCodePeriod n l _ => decide (n < 2 ∧ l.length = 8)
  | .pulseCheckPeriod _ _ _ => true
  | .debounceExpiry _ _ _ => true
  | .discrepancyTimeExpiry _ => true
  | .mossInputRead _ _ _ => true
  | .standstillDeclared => true
  | .axleEdge ch _ _ t => axleOk ch && timeOk t
  | .edgeReread ch _ _ t => axleOk ch && timeOk t
  | .axleStandstill ch => axleOk ch
  | .wireDisagreement ch _ => axleOk ch
  | .spdSupplyFault ch => axleOk ch
  | .axleRecord S => timeOk S
  | .canFrameReceived c frame tSof => canOk c && frameOk frame && timeOk tSof
  | .skewWindowExpiry m => decide (m < 9)
  | .safeMessageTimeout m => decide (m < 9)
  | .statusMessageSend => true
  | .referenceMessageSend => true
  | .networkTimeInvalid => true
  | .transmitAttemptEnd c _ tSof => canOk c && timeOk tSof
  | .busOffRecovery c => canOk c
  | .causewayTraining _ _ => true
  | .heartbeatSend => true
  | .heartbeatReceived _ => true
  | .partnerLost => true
  | .proofWindowEnd => true
  | .trainingDeadline => true
  | .coilFrameReceived f => chOk f.ch
  | .pairEvtFrameReceived _ => true
  | .mirrorFrameReceived _ => true
  | .nvwFrameReceived _ => true
  | .nvwResultTimeout => true
  | .digestExchange _ => true
  | .resyncComplete => true
  | .pairOffsetFault => true
  | .mramRecordWrite rec _ _ => recOk rec.req
  | .recordDeferralRetry => true
  | .deferredRecordTimeout => true
  | .journalStringCounters => true
  | .estimatorStateSave => true
  | .ageingRecordDaily => true
  | .passportRewrite => true
  | .snapshotSweepCommit p => portOk p
  | .sramScrub _ => true
  | .mramScrub _ _ _ => true
  | .sramCorrectedError _ => true
  | .sramUncorrectableError _ _ => true
  | .laneCrossCheck bad => bad.all (· < 8)
  | .referenceCheck _ => true
  | .firmwareTrialConfirm => true
  | .pendingBlobDiscard => true
  | .maintSessionTimeout => true
  | .massLapse => true
  | .emergencySupplyLapse => true
  | .serviceCoresResumed => true
  | .vsupOutOfRange _ => true
  | .coilSupplyLow _ _ => true
  | .canReceiveError c _ => canOk c
  | .pllLoss => true
  | .interpolatorPhaseReached p => portOk p
  | .chgPresLow => true
  | .svcWakeLow => true
  | .backupHandOver => true

end Sys2Proof
end

