-- ==== Sys2Proof/Tests/Slice0.lean ====
section
/-! SUPPORT. The row's own tests: for each statement a state that meets its hypotheses (`met_…`; a statement of any command
or any step is met by `met_steps`), ill-formed operands that are refused, and single commands with the result the spec
gives. -/

open Sys2Proof Sys2Proof.Machine

namespace Sys2Proof.Tests

set_option Elab.async false

/-! ## States that meet the statements' hypotheses -/

/-- A configuration with one string, its three contactors, a group of it, a thermal output, one received message, two axles
and network time taken from a reference. -/
def cfgA : Cfg :=
  { gen := { isoBackup := some 0, busDis := true, lswUsed := [true, false, false, false], massMin := some 1000, massMax := some 40000 }
    ports := [(0, { pre := some { r := 1000, c := 1000, rating := 1000 }, strNode := some 1 })]
    ctrs := [{ role := .pre, port := 0, out := 0, lsw := 0, breakI := 1000 }, { role := .kn, port := 0, out := 1, lsw := 0, breakI := 1000 },
      { role := .kp, port := 0, out := 2, lsw := 0, breakI := 1000 }]
    groups := [{ members := [.string 0], allOrNone := true }]
    outs := [(0, { use := .coil }), (1, { use := .coil }), (2, { use := .coil }), (3, { use := .thermal, zone := some (0, true) }),
      (4, { use := .other })]
    zones := [(0, { sensors := [0, 1] })]
    msgs := [{ id := 0x10, src := 1, typ := 1, cycle := 10 }]
    net := { role := 2 }
    axles := [(0, { n := 10, m := 1, circ := 1000 }), (1, { n := 10, m := 1, circ := 1000 })] }

/-- A running module with `cfgA` in force. -/
def stA : State :=
  { cfg := { work := some { bytes := [], cfg := cfgA }, valid := true, sealVal := some 7#32 }
    pwr := { starting := false, vcoilA := 24000, vcoilB := 24000, firstLimits := true, domains := 0xFFF#12, holdup := 400 }
    host := { ready := true }
    drv := { coresUp := true, svcUp := true }
    ports := [(0, { st := .ready, phy := true, engine := true })]
    ctrs := [(0, { st := .isOpen }), (1, { st := .isOpen }), (2, { st := .isOpen })] }

/-- `stA` with a maintenance session open. -/
def stM : State := { stA with cfg := { stA.cfg with maint := true } }

/-- `stA` with its close sequence at a step. -/
def stSeq (ph : SeqPhase) : State := { stA with seq := { active := true, ph := ph } }

/-- `stA` with its string's opening at a step. -/
def stOpn (ph : OpenPhase) : State := { stA with opens := [(0, { ph := ph, bus := true })], strs := [(0, { i := some 0, vStr := some 100000 })] }

/-- `stA` with its port at a step of its enumeration. -/
def stPort (st : PortSt) : State := { stA with ports := [(0, { st := st, phy := true, engine := true })] }

/-- A frame as it is received without a line error. -/
def rawOf (f : Frame) : RawFrame := { bytes := f.bytes }

/-- The frame is taken, with the fields given. -/
def parsesTo (r : RawFrame) (f : Frame) : Bool := match frameParse r with | .ok g => g == f | .error _ => false

/-- A trained member of a pair, primary, with its partner in contact. -/
def stP : State :=
  { stA with
    fuse := { stA.fuse with set := { stA.fuse.set with position := 1 } }
    pair := { trained := true, role := .primary, hbOk := true, partner := { sealValid := true, sealVal := 7#32 } } }

/-- A primary out of contact with its partner. -/
def stAlone : State := { stP with pair := { stP.pair with hbOk := false } }

theorem met_LapsesComplete :
    let s : State := { mram := { fwTrialT := some 0 }, cfg := { pend := some { bytes := [], cfg := {} }, maint := true }
                       pack := { mass := some 1, emgLapse := some 0 } }
    s.mram.fwTrialT = some 0 ∧ s.cfg.pend = some { bytes := [], cfg := {} } ∧ s.cfg.maint = true ∧ s.pack.mass = some 1 ∧
      s.pack.emgLapse = some 0 := by decide

theorem met_RepairRowsComplete :
    stA.repair.ce ≤ 0xFFFFFFFF ∧ stA.mounted = true ∧ stA.mayWrite = true ∧ stA.mram.remap.length < 48 ∧
      stA.pwr.st = .run ∧ stA.pwr.intr ≠ .saveWindow ∧ stA.repair.laneBad.getLsbD 7 = false ∧ stA.repair.spareLane = none := by decide

theorem met_TimersOfProtection :
    ({ stA with faults := [(5, { standing := 1#17 })] } : State).stands 5 0 = true ∧
    (({ stA with discs := [(0, { kind := .classB })] } : State).disc 0).kind = .classB ∧ stA.drv.coresUp = true ∧
    (let s : State := { stA with discs := [(0, { kind := .classC })], safe := { standstill := true }, strs := [(0, { i := some 0 })] }
     (s.disc 0).kind = .classC ∧ s.windowAt 0 = some 0) ∧
    (let s : State := { stA with faults := [(9, { latched := 1#17 })] }
     s.isLatched 9 0 = true ∧ s.stands 9 0 = false ∧ s.effClass 9 0 = 3 ∧ (s.faultCfg 9).latching = false) ∧
    ({ stA with wade := { on := true } } : State).wade.on = true := by decide

theorem met_CloseSequenceTimers :
    (∀ ph, (stSeq ph).seqLead = 0) ∧ stA.ctrOf 0 .pre = some 0 ∧ stA.ctrOf 0 .kn = some 1 ∧ stA.ctrOf 0 .kp = some 2 ∧
    (stSeq .preOn).ctrOf 0 .pre = some 0 ∧ (stSeq .preOn).ctrOf 0 .kn = some 1 ∧ (stSeq .preOn).atPh .preOn = true ∧
    ((stSeq .preOn).at ((stSeq .preOn).seq.t + (stSeq .preOn).closeNs 0 + ms 50)).seqBarred = false ∧
    (((stSeq .preOn).at ((stSeq .preOn).seq.t + (stSeq .preOn).closeNs 0 + ms 50)).supplyLow 1) = false ∧
    (stSeq .kn).atPh .kn = true ∧ (stSeq .charging).atPh .charging = true ∧ (stSeq .kn).seq.fitted = false ∧
    (stSeq .kp).atPh .kp = true ∧ (stSeq .kp).ctrOf 0 .kp = some 2 ∧ (stSeq .kpWin).atPh .kpWin = true ∧
    (stSeq .preOff).atPh .preOff = true ∧ (stSeq .preOff).ctrOf 0 .pre = some 0 ∧
    (stSeq .waitSamples).atPh .waitSamples = true ∧ (stSeq .waitWindow).atPh .waitWindow = true := by
  refine ⟨fun ph => by cases ph <;> rfl, ?_⟩
  decide +kernel

theorem met_ChecksAtOpenComplete :
    stA.leadOf 0 = 0 ∧ stA.leadOf 0 < 17 ∧ (stOpn .noData).drv.coresUp = true ∧ ((stOpn .noData).opn 0).ph = .noData ∧ ((stOpn .first).opn 0).ph = .first ∧ ((stOpn .first).at ((stOpn .first).checkDue 0)).checkHas 0 = false ∧
    (let s : State := { stOpn .first with strs := [(0, { i := some 0, iT := sec 1, vStr := some 100000 })] }
     (s.opn 0).ph = .first ∧ (s.at (s.checkDue 0)).checkHas 0 = true) ∧
    (stOpn .first).checkHas 0 = false ∧ ((stOpn .second).opn 0).ph = .second ∧ ((stOpn .suspect).opn 0).ph = .suspect ∧
    ((stOpn .released).opn 0).ph = .released ∧ ((stOpn .first).opn 0).bus = true ∧
    (let s : State := { stOpn .idle with strs := [(0, { vStr := some 100, vx := some 90 })] }
     (s.opn 0).bus = true ∧ 9 * s.vStr 0 ≤ 10 * ((s.str 0).vx.getD 0).natAbs) ∧
    ({ stA with pair := { coilWait := [(0, 5)] } } : State).pair.coilWait.find? (fun y => y.1 == 0) = some (0, 5) := by decide

theorem met_CurrentRowsComplete :
    stA.gen.packUsed = true ∧ stA.pwr.st ≠ .peat ∧ stA.drvUp = true ∧ 500000 % 250000 = 0 ∧ stA.pack.iT < 500000 ∧
    (let s : State := { stA with time := { now := sec 10 }, pack := { rawHist := [(sec 10, 3)] } }
     (s.at 5).mustBeZero 16 = true ∧ (s.at 5).rawOf 16 ≠ [] ∧ ((s.at 5).actsPrimary = true ∨ 16 ≤ 16)) ∧
    (5 : Int).natAbs ≤ stA.gen.oP ∧ stA.pack.f20.getLsbD 2 = false ∧
    ({ stA with pack := { isoOutT := some 3 } } : State).pack.isoOutT = some 3 ∧ stA.gen.isoBackup = some 0 ∧
    (let s : State := { stA with pack := { filtY := [(ms 40, 7)] }, strs := [(0, { filtY := [(ms 40, 7)] })] }
     ms 40 % ms 40 = 0 ∧ (((s.at (ms 40)).attributeEnd).partnerCheck (ms 40)).kirchRuns = true) := by decide +kernel

theorem met_SweepRowsComplete :
    stA.mayReed 0 = true ∧ 5000000 % 250000 = 0 ∧ (stA.port 0).sweepS < 5000000 ∧ stA.collectLeft 0 = true ∧
    (let u := (stA.sweepClose 0).owMissed 0 5000000
     u.swKind 0 5000000 = some (1, false, true, false) ∧ u.mayReed 0 = true ∧ u.reedMay 0 5000000 1 false = true) ∧
    stA.heard 0 0 = true ∧ stA.heard 0 1 = true ∧
    parsesTo (rawOf { typ := 3, dst := 63, len := 3, payload := zeros 12 }) { typ := 3, dst := 63, len := 3, payload := zeros 12 } = true ∧
    (let s : State := { stA with ports := [(0, { st := .ready, phy := true, engine := true, sweepOpen := true, sweepS := sec 1, swMode := 2 })] }
     s.heard 0 1 = true ∧ 1 ≠ s.activeEnd 0 ∧ s.wired 0 (1 - 1) = true ∧ (s.port 0).split = false ∧
       s.pulseT 0 = some (sec 1 - (s.port 0).dW) ∧ (s.port 0).reedSeen.getD 1 0 + s.reedLead 0 2 false < sec 1 - (s.port 0).dW ∧
       (s.port 0).sweepOpen = true ∧ (s.port 0).launched.getLsbD 1 = false) ∧
    stA.declared 0 = true ∧ (stA.portCfg 0).plan.burstInt ≠ 0 ∧
    (({ stA with ports := [(0, { burst := true })] } : State).port 0).burst = true ∧
    (({ stA with strs := [(0, { quietT := some 5 })] } : State).str 0).quietT = some 5 ∧ (stA.port 0).quiet = false ∧
    (let s : State := { stA with ports := [(0, { quiet := true })], strs := [(0, { i := some 1000000 })] }
     (s.port 0).quiet = true ∧ s.actsPrimary = true ∧
       2 * (s.quietLevel 0 ((s.str 0).i.getD 0)).2 ≤ (s.quietLevel 0 ((s.str 0).i.getD 0)).1) ∧
    (stA.port 0).st = .ready ∧ (stA.port 0).owStep = 0 := by decide +kernel

theorem met_BalancingRuns :
    (({ stA with nodes := [(1, { balance := 1#16 })] } : State).node (nk 0 1)).balance ≠ 0 ∧ stA.actsPrimary = true := by decide

theorem met_ChainRowsComplete :
    (∀ st, (stPort st).live 0 0 = true ∧ (stPort st).live 0 1 = true ∧ (stPort st).heard 0 0 = true ∧ (stPort st).heard 0 1 = true ∧ (stPort st).declared 0 = true ∧ (stPort st).oppEnd 0 = 1 ∧
      (stPort st).activeEnd 0 = 0 ∧ (stPort st).actsPrimary = true ∧ ((stPort st).port 0).st = st) ∧
    ((stPort .extend).port 0).hop ≠ 1 ∧ ((stPort .extend).port 0).retried = false ∧
    (let s : State := { stA with reqs := [(0, [{ addr := 4, tries := 2 }])] }
     (s.req 0).find? (fun x => x.addr == 4 && !x.relay) = some { addr := 4, tries := 2 } ∧ s.heard 0 0 = true ∧ s.declared 0 = true) ∧
    (let s : State := { stA with reqs := [(0, [{ addr := 4, tries := 3 }])] }
     (s.req 0).find? (fun x => x.addr == 4 && !x.relay) = some { addr := 4, tries := 3 } ∧ s.heard 0 0 = true) ∧
    (let s : State := { stPort .calibrate with nodes := [(1, { st := .addressed })] }
     (s.node (nk 0 1)).missing = false ∧ (s.node (nk 0 1)).st = .addressed ∧ (s.port 0).st = .calibrate ∧
       (s.node (nk 0 1)).probes 0 < 16 ∧ s.live 0 0 = true) ∧
    (let s : State := { stPort .ready with nodes := [(1, { st := .ready })] }
     (s.node (nk 0 1)).missing = false ∧ (s.node (nk 0 1)).st = .ready ∧ (s.port 0).st = .ready ∧ (s.port 0).recalOn = false ∧
       s.live 0 0 = true) ∧
    (let s : State := { stA with ports := [(0, { phy := true, lockN := true, tone := [(0, 2)] })] }
     s.locked 0 0 = true ∧ s.live 0 0 = true ∧ ((s.f24Off 0 0).port 0).tone.getD 0 0 = 2) ∧
    (stA.ownEnds 0).contains 0 = true ∧ stA.pwr.st ≠ .peat ∧
    parsesTo (rawOf { typ := 2, src := 1, len := 1, tag := 4, payload := zeros 4 })
      { typ := 2, src := 1, len := 1, tag := 4, payload := zeros 4 } = true := by
  refine ⟨fun st => by cases st <;> decide, ?_⟩
  decide +kernel

theorem met_CalibrationCycleComplete :
    (stA.port 0).st = .ready ∧ stA.actsPrimary = true ∧ (stA.port 0).recalOn = false ∧
    (let s : State := { stA with ports := [(0, { recalOn := true, dNew := 5000 })] }
     (s.port 0).recalOn = true ∧ (s.port 0).dNew ≠ 0) := by decide

theorem met_BreaksAndEnginesComplete :
    stA.declared 0 = true ∧ stA.heard 0 0 = true ∧
    (∀ n ∈ [1, 2, 3, 4, 5], parsesTo (rawOf { typ := 5, src := 33, len := 2, tag := n, payload := zeros 8 })
      { typ := 5, src := 33, len := 2, tag := n, payload := zeros 8 } = true) ∧
    (let s : State := { stA with ports := [(0, { phy := true, split := true, splitReq := true, restoredT := some 0 })] }
     s.declared 0 = true ∧ (s.port 0).split = true ∧ (s.port 0).splitReq = true ∧
       (s.port 0).restoredT = some 0 ∧ (s.port 0).recal = false ∧ (s.port 0).recalOn = false) ∧
    (let s : State := { stA with ports := [(0, { phy := true, split := true, brkNode := 2, brkFar := 2 })] }
     (s.port 0).split = true ∧ (s.port 0).brkNode = 2 ∧ (s.port 0).brkFar = 2 ∧ (s.port 0).restoredT = none) ∧
    (1 ≠ 0) ∧ (stA.port 15).engineBad = false ∧ stA.drv.coresUp = true ∧ stA.repair.pe16Bad = false ∧
    ({ stA with repair := { pe16Bad := true } } : State).repair.pe16Bad = true ∧
    (let s : State := { stA with ports := [(0, { engineBad := true })] }
     s.declared 0 = true ∧ (s.port 0).engineBad = true ∧ s.repair.pe16Bad = false ∧ s.repair.pe16Port = none ∧
       s.pwr.intr ≠ .saveWindow) := by decide +kernel

/-- A table whose every entry is one resistance. -/
def estA : CellEst := { entries := (List.range 72).map (fun i => (i, (1000, 0))) }

theorem met_ImpedanceRowsComplete :
    (let s : State := { stA with ests := [(0, estA)] }
     (circuitFit (s.fitPoints 0 0)).any (fun f => decide (fitResidual (s.fitPoints 0 0) f ≤ s.gen.fitLim)) = true) ∧
    (let s : State := { stA with strs := [(0, { segOpen := [(0, 100)], segs := [(0, 7)] })] }
     Tab.find (s.str 0).segOpen 0 = some 100 ∧ (s.str 0).segs.getD 0 0 < 8) ∧
    (let s : State := { stA with strs := [(0, { segOpen := [(0, 100)], segs := [(0, 8)] })] }
     Tab.find (s.str 0).segOpen 0 = some 100 ∧ 8 ≤ (s.str 0).segs.getD 0 0) ∧
    stA.drv.svcUp = true ∧ stA.actsPrimary = true ∧
    (let s : State := { stA with ports := [(0, { sedge := true, sedgeS := some 5 })] }
     (s.port 0).sedge = true ∧ (s.port 0).sedgeS = some 5) ∧
    (({ stA with ests := [(0, { fitDue := [0] })] } : State).est 0).fitDue.contains 0 = true ∧
    (({ stA with strs := [(0, { fitsDone := [(0, 0, 0, {})] })] } : State).str 0).fitsDone ≠ [] ∧
    (({ stA with ests := [(0, { unwritten := 1, unwrT := some 3 })] } : State).est 0).unwrT = some 3 := by decide +kernel

theorem met_EstimatorRowsComplete :
    stA.pwr.st = .run ∧ stA.actsPrimary = true ∧ ms 10 % ms 10 = 0 ∧ ms 50 % ms 50 = 0 ∧ stA.pack.limT < ms 50 ∧ ms 100 % ms 100 = 0 ∧ stA.pack.tick100 < stA.interval (ms 100) ∧ stA.limitsMay = true ∧ stA.pack.r26 = false ∧ stA.pwr.firstLimits = true ∧
    (let s : State := { stA with strs := [(0, { lowT := some 5 })] }
     (s.str 0).lowT = some 5 ∧ (s.str 0).restNextT < 5 ∧ (s.str 0).trueRest = false) ∧
    (let s : State := { stA with ests := [(0, { f49 := true, f49T := some 0 })] }
     (s.est 0).f49 = true ∧ (s.est 0).f49T = some 0 ∧ (s.at (0 + sec 60)).diverges 0 = false ∧
       ((s.at (0 + sec 60)).est 0).sigma ≤ 100000) := by decide

theorem met_ThermalRowsComplete :
    stA.pwr.st = .run ∧ stA.pwr.st ≠ .peat ∧
    (let s : State := { stA with ports := [(0, { rateHi := 500 })] }
     s.portDemand 0 < (s.port 0).rateHi) ∧
    (let s : State := { stA with sens := [(0, { riseT := some 1, aboveT := some 2 })] }
     (s.sensor 0).riseT = some 1 ∧ s.zoneOf 0 = some 0 ∧ (s.sensor 0).riseUnc = false ∧ (s.sensor 0).aboveT = some 2) ∧
    (let s : State := { stA with sens := [(0, { riseT := some 1, riseUnc := true, aboveT := some 2 })] }
     (s.sensor 0).riseT = some 1 ∧ s.zoneOf 0 = some 0 ∧ (s.sensor 0).riseUnc = true ∧ (s.sensor 0).aboveT = some 2) ∧
    (let s : State := { stA with outs := [(3, { cmd := true })] }
     s.thermWant 3 ≠ (s.outc 3).cmd) := by decide

theorem met_OutputRowsComplete :
    stA.isCoil 3 = false ∧
    (let s : State := { stA with outs := [(3, { tripped := true, cmd := true, cleared := true, restart := true })] }
     (s.outc 3).restart = true ∧ s.outUp = true ∧ s.fed 3 = true ∧ (s.outc 3).tripped = true ∧ (s.outc 3).cmd = true ∧ (14999 : Int) < 15000 ∧ s.isCoil 3 = false ∧ s.drv.hold = false ∧
       s.drv.limp = false ∧ (s.outc 3).cleared = true) ∧
    (let s : State := { stA with outs := [(3, { on := true })] }
     (s.outc 3).on = true ∧ (s.outc 3).tripped = false ∧ s.isCoil 3 = false ∧ (s.outCfg 3).use = .thermal) ∧
    ({ stA with ports := [] } : State).coresMay = true ∧ stA.gen.lswUsed.getD 0 false = true ∧
    lswFails (stA.lsw 0).closed { kind := .discrepancy, cur := 0, vds := 0, temp := 2500 } = true ∧
    lswFails (stA.lsw 0).closed { kind := .failsToOpen, cur := 0, vds := 0, temp := 2500 } = false ∧ stA.drvUp = true ∧ stA.drv.coresUp = true ∧
    ({ stA with drv := { hold := true } } : State).drv.hold = true ∧
    ({ stA with drv := { switchOff := true } } : State).drv.switchOff = true ∧
    stA.drv.limp = false := by decide

/-- The chips of a code period of a sound loop: 1 mA out and back where the code is on, and nothing where it is off. -/
def chipsA (n : Nat) : List HvilChip :=
  (List.range 8).map (fun i => if (hvilCode n).getMsbD i then { src := 1000, rtn := 1000, v := 500 } else { src := 0, rtn := 0, v := 0 })

theorem met_SafetyInputRowsComplete :
    stA.pwr.st = .run ∧ stA.pwr.st ≠ .peat ∧ (({ stA with hvil := [(1, { fails := 1 })] } : State).loop 1).fails = 1 ∧
    hvilJudge 0 (chipsA 0) = .pass ∧ hvilJudge 1 (chipsA 1) = .pass ∧ hvilJudge 1 [] ≠ .pass ∧
    (∀ x : Bool, let s : State := { stA with iso := { c0 := true, prov0 := true, prov1 := true }, lid := { c0 := true, prov0 := true, prov1 := true } }
     (s.dual x).judged = true ∧ (s.dual x).closed0 ≠ (s.dual x).closed1) ∧
    (let s : State := { stA with pwr := { st := .moss } }
     s.pwr.st = .moss ∧ (s.dual true).moss0 ≠ some true ∧ (s.dual true).moss1 ≠ some false) ∧
    stA.stillOk = true ∧ stA.safe.standstill = false := by decide

theorem met_AxleRowsComplete :
    (stA.axleCfg 0).isSome = true ∧ (stA.axleCfg 1).isSome = true ∧
    (let u := (stA.at 7).stillBy 0 { n := 10, m := 1, circ := 1000 } 7
     false = (u.axle 0).a ∧ true ≠ (u.axle 0).b ∧ (u.axle 0).last true = none) ∧
    (let s : State := { stA with axles := [(0, { tA := some 5, still := false, tEdge := 5 })] }
     let c : AxleCfg := { n := 10, m := 1, circ := 1000 }
     let u := (s.at (5 + us c.tMin)).stillBy 0 c (5 + us c.tMin)
     s.axleCfg 0 = some c ∧ (u.axle 0).tA = some 5 ∧ (u.axle 0).wireA = false ∧ true ≠ (u.axle 0).a ∧ (s.axle 0).still = false ∧
       (s.axle 0).wireT = []) ∧
    ms 10 % ms 10 = 0 ∧ stA.safe.recT < ms 10 := by
  decide +kernel

theorem met_CanRowsComplete :
    (let s : State := { stA with cans := [(0, { mode := 0, tb0 := some { id := 1 } })] }
     s.pwr.st = .run ∧ (s.can 0).mode = 0 ∧ (s.can 0).mode ≠ 2 ∧ (s.can 0).errSt ≠ 2 ∧ (s.can 0).started = none ∧
       ∃ b, (s.can 0).next = some b ∧ ((s.can 0).frameOf b).isSome = true) ∧
    (({ stA with cans := [(0, { errSt := 2 })] } : State).can 0).errSt = 2 ∧
    stA.actsPrimary = true ∧
    (let c : Cfg := { cfgA with net := { role := 1 } }
     let s : State := { stA with cfg := { stA.cfg with work := some { bytes := [], cfg := c } } }
     s.pwr.st = .run ∧ s.actsPrimary = true ∧ s.conf.net.role = 1) ∧
    (let s : State := { stA with time := { netValid := true } }
     s.conf.net.role = 2 ∧ s.time.netValid = true) ∧
    (let k : SafeCopy := { bus := 0, seq := 1, data := [], t := 0 }
     let s : State := { stA with msgs := [(0, { first := [k] })] }
     (s.msgCfg 0).isSome = true ∧ (s.msg 0).first = [k]) ∧
    (let s : State := { stA with msgs := [(0, { single := true })] }
     (s.msgCfg 0).isSome = true ∧ (s.msg 0).single = true ∧ ((s.msg 0).f46 && (s.msg 0).lastSeq.isNone) = false) := by
  refine ⟨⟨by decide, by decide, by decide, by decide, by decide, ⟨0, by decide⟩⟩, ?_⟩
  decide

/-- A ring that runs. -/
def rg (typ : RingType) (fn cq : Nat) : Ring := { en := true, typ := typ, fn := fn, cq := cq, run := true, hostIdx := 1, groups := 0x1FF#9, outst := 0 }

/-- `stA` with a submission ring 0, its completion ring 1 and the event stream ring 2. -/
def stR : State := { stA with rings := [(0, rg .submission 0 1), (1, { rg .completion 0 0 with hostIdx := 0 }), (2, rg .stream fnEvents 0)] }

theorem met_PairMembersComplete :
    stP.isPair = true ∧ stP.pair.trained = true ∧ stP.drv.coresUp = true ∧ stP.pwr.st = .run ∧ stP.partnerUp = true ∧
    causeOk { bytes := [] } = false ∧ causeOk { bytes := hbFrame {} } = true ∧ (hbParse { bytes := hbFrame {} }).isSome = true ∧
    (let s : State := { stP with pair := {} }
     s.isPair = true ∧ s.pair.trained = false ∧ s.pair.role = .none) ∧
    ({ stP with pair := { proof := true } } : State).pair.proof = true := by decide +kernel

theorem met_PairFramesComplete :
    stP.isPair = true ∧ stP.pair.trained = true ∧ stP.partnerUp = true ∧
    (let s : State := { stP with pair := { stP.pair with nvw := [{ req := { kind := 2, key := 0 }, t := 0 }] } }
     s.pair.nvw = [{ req := { kind := 2, key := 0 }, t := 0 }]) ∧
    (stP.pairFrame false).pairMay 0 false = true ∧ (({ stP with drv := {} } : State).pairFrame false).pairMay 0 true = false ∧
    stP.drv.svcUp = true ∧ (stP.digestBegin.digests (stP.digestBegin.digestMask [])).pair.check = none ∧
    (let s : State := { stP with pair := { stP.pair with check := some {}, diverged := 1#7, ofsBadT := some 4 } }
     s.partnerUp = true ∧ (s.digestBegin.digests (s.digestBegin.digestMask [])).pair.check = some {} ∧ s.pair.diverged ≠ 0#7 ∧
       s.pair.ofsBadT = some 4) := by decide +kernel

theorem met_RingRowsComplete :
    (let s : State := { stR with rings := [(0, { typ := .completion, base := 4096, shadow := 64 })] }
     stR.host.ready = true ∧ (s.ring 0).en = false ∧ (s.ring 0).stopped = false ∧ (s.onRing 0 (fun r => r.fields (0x00000088#32 &&& ~~~2#32 ||| 1#32).toNat)).enableOk 0 = true) ∧
    ((stA.ring 3).en = false ∧ (stA.onRing 3 (fun r => r.fields (0#32 &&& ~~~2#32 ||| 1#32).toNat)).enableOk 3 = false) ∧
    (stR.ring 0).en = true ∧ (stR.ring 0).run = true ∧ (stR.ring 0).typ = .submission ∧ (5#32).toNat < (stR.ring 0).size ∧
    ((5#32).toNat + (stR.ring 0).size - (stR.ring 0).hostIdx % (stR.ring 0).size) % (stR.ring 0).size ≤
      (stR.ring 0).size - 1 - ((stR.ring 0).hostIdx + (stR.ring 0).size - (stR.ring 0).devIdx % (stR.ring 0).size) % (stR.ring 0).size ∧
    (stR.ring 0).size ≤ (256#32).toNat ∧
    stR.fetchable 0 = true ∧ stR.fetchTurn 0 = true ∧ ({} : Desc).fence = false ∧ (stR.ring 0).outst = 0 ∧
    descRefused (stR.ring 0) 0x82 0#32 = false ∧ definedOp 0x82 = true := by decide

theorem met_CompletionsAndRecordsComplete :
    (let c : Cpl := { ref := {}, status := 0 }
     let s : State := { stR with host := { finished := [c] } }
     s.host.finished = [c] ∧ (s.ring c.ref.d.sq).cq = 1 ∧ (s.ring 1).en = true ∧ (s.ring 1).run = true ∧ (s.ring 1).typ = .completion ∧
       s.works 1 = true ∧ s.drv.svcUp = true ∧ (s.ring 1).free = true) ∧
    (let s : State := { stR with host := { streamQ := [{ fn := fnEvents, body := [] }] } }
     s.host.streamQ = [{ fn := fnEvents, body := [] }] ∧ s.streamRing fnEvents = some 2 ∧ s.works 2 = true ∧
       (s.ring 2).devIdx ≠ (s.ring 2).hostIdx ∧ 32 + ([] : List Byte).length ≤ ({ addr := 0, len := 64 } : BufPost).len ∧
       fnEvents ≠ 0x25 ∧ fnEvents ≠ 0x26) ∧
    (let s : State := { stR with rings := [(1, { ie := true, unsig := 1, modTime := 10 })] }
     (s.ring 1).ie = true ∧ (s.ring 1).unsig ≠ 0 ∧ (s.ring 1).modTime ≠ 0) ∧ 63 < 64 ∧ stR.host.ready = true := by decide

theorem met_HostLinkRowsComplete :
    ({ stA with host := {} } : State).host.ready = false ∧ stA.host.ready = true ∧
    ({ stA with pwr := { domains := 0x040#12 } } : State).pwr.domains.getLsbD 6 = true := by decide

theorem met_EventRegistersClear : stA.host.ready = true ∧ EvReg.pwr ≠ .irqStatus ∧ EvReg.ringPendHi ≠ .irqStatus := by decide

theorem met_RegisterReadsComplete :
    stA.host.ready = true ∧ isLo 0x0008 = true ∧ 0x0008 ≠ 0x9100 ∧ 0x0008 ≠ 0xA100 ∧ Tab.find stA.host.hiCap 0x0008 = none ∧ 0x14C ≤ 0x14C ∧
    (stA.can 0).hpHold = none ∧ (({ stA with cans := [(0, { hpLock := true })] } : State).can 0).hpLock = true ∧
    (({ stA with cans := [(0, { hpLock := true })] } : State).can 0).hpHold = none := by decide

theorem met_RegisterWritesComplete :
    stA.host.ready = true ∧ 0x1010 % 4 = 0 ∧ evAt 0x1010 = some .pwr ∧ evAt 0x1014 = none ∧ evAt (0x1014 - 4) = some .pwr ∧ evAt 0x0048 = none ∧ evAt (0x0048 - 4) = none ∧
    irqAt 0x0048 = some (.glb0, true) ∧ 63 < 64 ∧ 15 < 16 ∧ 0x51 % 4 ≠ 0 := by decide

theorem met_ResetRowsComplete :
    16800 ≤ 16800 ∧ 10 ≤ 10 ∧ stA.pwr.st = .run ∧ ({ stA with pwr := { st := .moss } } : State).pwr.st = .moss ∧
    ({ stA with pwr := { st := .peat } } : State).pwr.st = .peat ∧
    (let s : State := { stA with pwr := { starting := true, startStep := 3 } }
     s.pwr.starting = true ∧ s.pwr.rstLow = false ∧ s.pwr.startStep < 4) ∧
    (domBefore 7).all (fun d => stA.pwr.domains.getLsbD d) = true ∧ (domBefore 8).all (fun d => stA.pwr.domains.getLsbD d) = true ∧  ({ stA with pwr := { rstLow := true } } : State).pwr.rstLow = true ∧
    (let s : State := { stA with pwr := { domains := 0x7FF#12 } }
     s.pwr.st ≠ .peat ∧ s.pwr.rstLow = false ∧ s.pwr.restartDue = false ∧ s.pwr.intr ≠ .over ∧
       (domBefore 11).all (fun d => s.pwr.domains.getLsbD d) = true ∧ s.pwr.selfCheck = false) ∧
    ({} : State).mounted = false ∧ ({} : State).pwr.rstLow = false ∧
    (let s : State := { stA with pwr := { estSeeded := true, firstLimits := true }, iso := { prov0 := true, prov1 := true }
                                 lid := { prov0 := true, prov1 := true }, hvil := [(0, { proven := true }), (1, { proven := true })] }
     s.readyNow = true) ∧
    stA.pwr.ready = false ∧
    (let s : State := { stA with drv := { coresUp := true } }
     s.drv.svcUp = false ∧ s.pwr.st = .run ∧ s.mounted = true) := by decide

theorem met_SupplyRowsComplete :
    stA.pwr.intr = .none ∧ 14999 < 15000 ∧ ({ stA with pwr := { intr := .rideThrough } } : State).pwr.intr = .rideThrough ∧
    ({ stA with pwr := { intr := .saveWindow } } : State).pwr.intr = .saveWindow ∧
    ({ stA with pwr := { intr := .over } } : State).pwr.intr = .over ∧
    ({ stA with pwr := { intr := .rideThrough, starting := false } } : State).mounted = true ∧ stA.pwr.st ≠ .peat ∧ stA.stands 14 16 = false ∧
    ({ stA with faults := [(14, { standing := 0x10000#17 })] } : State).stands 14 16 = true ∧
    ({ stA with pwr := { vcoilA := 0 } } : State).fed 0 = false ∧ stA.drv.limp = false := by decide

theorem met_WakeRowsComplete :
    (let s : State := { stA with pwr := { st := .moss, wakeTimerTaken := 5, wakeTimer := 5#32 } }
     s.pwr.st = .moss ∧ s.wakeOn 1 = true ∧ s.gen.wakeI < (10001 : Int).natAbs ∧ s.wakeOn (2 + 1) = true ∧ s.wakeOn 4 = true ∧
       s.pwr.wakeTimerTaken ≠ 0 ∧ s.pwr.wakeTimer ≠ 0 ∧ s.gen.mossLim ≠ 0 ∧ s.pwr.mossOver = false ∧ s.pwr.peatDue = false) ∧
    (let s : State := { stA with pwr := { st := .moss }, ports := [(0, { sweepOpen := true })] }
     s.pwr.st = .moss ∧ s.portList.any (fun p => (s.port p).sweepOpen) = true) ∧
    (let s : State := { stA with pwr := { st := .moss }, ports := [(0, { nap := true })] }
     s.portList.any (fun p => (s.port p).sweepOpen) = false ∧ s.portList.any (fun p => (s.port p).nap) = true) ∧
    (({ stA with cans := [(1, { mode := 0 })] } : State).can 1).mode ≠ 2 ∧ stA.pwr.chgPres = false ∧ stA.pwr.svcWake = false ∧
    ({ stA with pwr := { chgPres := true, svcWake := true } } : State).pwr.chgPres = true ∧
    ({ stA with pwr := { st := .peat } } : State).pwr.st = .peat := by decide

/-- A sweep that waits for its place in a snapshot. -/
def sweepA (n : Nat) : Staged := { seq := n, t := 0, mode := 1, split := false, compl := 0, iStr := 0, iPack := 0, cells := [] }

/-- A snapshot of port 0 with two sweeps to come. -/
def snapA : Snapshot := { slot := 0, port := 0, source := 1, cls := 0, pos := 0, pre := 2, t := 0, m := 1, c := 16, temps := []
                          stackV := [], seq := 1, todo := [sweepA 0, sweepA 1] }

theorem met_NvRowsComplete :
    (stA.holdupNow 400).mayWrite = true ∧ (stA.holdupNow 99).mayWrite = false ∧ stA.mayWrite = true ∧ ({} : State).mayWrite = false ∧
    (let h : HeldRec := { req := { kind := 2, key := 0 }, due := 0 }
     let s : State := { stA with mram := { held := [h] }, pwr := { stA.pwr with holdup := 99 } }
     s.mram.held ≠ [] ∧ s.pwr.holdup < 100 ∧ s.mayWrite = false ∧ s.mram.refuse = false ∧ s.mram.held.find? (fun h => !h.late) = some h) ∧
    stA.pwr.st = .run ∧ stA.actsPrimary = true ∧ stA.fullPrimary = true ∧ stA.drv.svcUp = true ∧
    (let s : State := { stP with pair := { stP.pair with role := .provisional } }
     s.actsPrimary = true ∧ s.pwr.st = .run ∧ s.fullPrimary = false) ∧
    (let s : State := { stA with mram := { snaps := [snapA], collecting := [(0, 1)] } }
     s.mram.collecting.getD 0 0 ≠ 0 ∧ s.mayWrite = true ∧ s.mram.snaps.find? (fun n => n.port == 0) = some snapA ∧
       snapA.todo = [sweepA 0, sweepA 1]) := by decide

theorem met_ReadingCommandsComplete :
    ({} : Desc).paramLen = 0 ∧ ({} : Desc).imm = 0#32 ∧ (∀ op ∈ [0x01, 0x02, 0x03, 0x10, 0x22, 0x42, 0x52, 0x80], stA.busy op = false) ∧
    (let d : Desc := { imm := 0x00011FFF#32 }
     d.imm &&& ~~~0x03FF1FFF#32 = 0#32 ∧ 1 ≤ immF d.imm 25 16 ∧ immF d.imm 12 0 % 512 + immF d.imm 25 16 ≤ 512) ∧
    (0xF#32 &&& ~~~0xF#32 = 0#32) ∧ stA.blobOf false = some { bytes := [], cfg := cfgA } ∧ (0xFFFF#32 &&& ~~~0xFFFF#32 = 0#32) := by
  decide

theorem met_ChainCommandsComplete :
    stM.admits 0x11 [.P, .S, .M, .O] true = true ∧ (({ stM with ports := [(0, { st := .held })] } : State).port 0).st = .held ∧
    (let s : State := { stM with mram := { taps := [0] }, cells := [(0, { intact := true }), (1, { intact := true })] }
     s.mram.taps.contains (gi (immF (0#32) 3 0) (immF (0#32) 24 16)) = true ∧ s.admits 0x12 [.P, .S, .M] true = true ∧
       (s.cell 0).intact = true ∧ (s.cell (0 + 1)).intact = true) ∧
    stA.balanceOk { paramLen := 8 } 0 [(3, 65535)] = true ∧ stA.admits 0x13 [.P, .S, .C] false = true ∧
    (({ stA with nodes := [(nk 0 1, { st := .ready })] } : State).nodeUp (immF (0x100#32) 3 0) (immF (0x100#32) 13 8)) = true ∧
    (0x100#32 &&& ~~~0x3F0F#32 = 0#32) ∧ stA.busy 0x14 = false ∧ stA.busy 0x82 = false ∧
    stA.admits 0x15 [.P, .S, .C] false = true ∧ (List.range 16).filter (fun p => (0x8001#32).getLsbD p) ≠ [] ∧
    stA.admits 0x16 [.P, .S, .C] false = true ∧ (stA.port (immF (0#32) 3 0)).st = .ready := by decide

theorem met_EstimationCommandsComplete :
    (let v : Word := 0x05A0005A#32
     v &&& ~~~0xFFFF00FF#32 = 0#32 ∧ immF v 7 0 = 0x5A ∧ immF v 31 16 ≤ 1440) ∧
    (let v : Word := 0x05A000A5#32
     v &&& ~~~0xFFFF00FF#32 = 0#32 ∧ immF v 7 0 = 0xA5 ∧ immF v 31 16 ≤ 1440) ∧ stA.admits 0x20 [.P, .S] false = true ∧
    stA.massIn (1000#32).toNat = true ∧ stA.massIn (40000#32).toNat = true ∧ stA.admits 0x21 [.P, .S] false = true ∧
    stM.declared 0 = true ∧ occupied (stM.portCfg 0) 15 = true ∧ stM.admits 0x23 [.P, .S, .M] true = true := by decide

/-- `stA` ready to close. -/
def stG : State := { stA with pwr := { stA.pwr with ready := true } }

theorem met_DriveCommandsComplete :
    (let u := (stG.maintEnd 3).took 0x30 {}
     (stG.maintEnd 3).admits 0x30 [.P, .S, .C] true = true ∧ (stG.maintEnd 3).seq.active = false ∧
       (u.groupCfg (immF 0#32 3 0)).members = [.string 0] ∧ u.closeRefused = false) ∧
    stG.contends {} [0x31, 0x32] (stG.groupCtrs (immF 0#32 3 0)) = false ∧ stA.contends {} [0x32] (stA.groupCtrs (immF 0#32 3 0)) = false ∧
    stA.contends {} [0x31] (stA.ctrsOf 16) = false ∧
    stA.admits 0x31 [.P, .C] false = true ∧ ((stA.took 0x31 {}).groupCfg (immF 0#32 3 0)).members ≠ [] ∧
    stA.admits 0x32 [.P, .C] false = true ∧ immF 0xFF#32 7 0 = 0xFF ∧ immF 15#32 7 0 < 16 ∧
    (0x103#32 &&& ~~~0x10F#32 = 0#32) ∧ stA.switchable (immF 0x103#32 3 0) = true ∧ stA.switchable (immF 0x104#32 3 0) = true ∧
    (stA.outCfg (immF 0x104#32 3 0)).use ≠ .thermal ∧ (stA.took 0x33 { imm := 0x104#32 }).forcedOff 4 = false ∧ stA.admits 0x33 [.P, .S, .C] false = true ∧
    (stA.drv.limp && stA.limpSel 3) = false ∧ (0x003#32).getLsbD 8 = false ∧ (0x103#32).getLsbD 8 = true ∧
    (stA.took 0x33 { imm := 0x103#32 }).forcedOff 3 = false ∧ stA.admits 0x34 [.C] false = true ∧ (0xFFF#32 &&& ~~~0xFFF#32 = 0#32) ∧
    (immF 0xFF3F#32 7 0 < 64 ∧ immF 0xFF3F#32 15 8 = 0xFF) ∧ (immF 0x0FFF#32 7 0 = 0xFF ∧ immF 0x0FFF#32 15 8 < 16) ∧
    stA.admits 0x40 [.C] false = true := by decide

theorem met_SealCommandsComplete :
    (let b : Blob := { bytes := [0], cfg := { gen := { packVolt := some false, packRatio := some 1000, iCont := some 1000 } } }
     b.bytes.length = 1 ∧ stM.admits 0x41 [.P, .m] false = true ∧ (stM.took 0x41 { paramLen := 1 }).cfgOk b.cfg = true) ∧
    (let b : Blob := { bytes := [], cfg := {} }
     let s : State := { stM with cfg := { stM.cfg with pend := some b } }
     s.admits 0x43 [.P, .m, .O] true = true ∧ s.cfg.pend = some b ∧ crc32c b.bytes = 0#32 ∧ (s.took 0x43 {}).limitsFit b.cfg = true ∧
       crc32c b.bytes ≠ 1#32 ∧ s.cfg.mism + 1 ≠ 3 ∧
       ({ s with cfg := { s.cfg with mism := 2 } } : State).cfg.mism + 1 = 3) ∧
    (let b : Blob := { bytes := [], cfg := { ports := [(0, { hardUv := some 40000, hardOv := some 30000 })] } }
     let s : State := { stM with cfg := { stM.cfg with pend := some b } }
     s.admits 0x43 [.P, .m, .O] true = true ∧ s.cfg.pend = some b ∧ (s.took 0x43 {}).limitsFit b.cfg = false) ∧
    (let s : State := { stA with safe := { standstill := true } }
     s.busy 0x44 = false ∧ s.maintAllowed = true ∧ s.cfg.valid = true ∧ (7#32).toNat = s.sealInForce) ∧
    stA.busy 0x45 = false := by decide

theorem met_RecordCommandsComplete :
    (immF 1#32 7 0 = 1 ∧ 1 ≤ 1 ∧ 0 + 8192 ≤ 8192 ∧ immF 6#32 7 0 = 6 ∧ stA.busy 0x50 = false) ∧
    (immF 1#32 7 0 = 1 ∧ stM.admits 0x51 [.P, .S, .M, .O] true = true ∧
      tableRecOk 1 { kind := 1, key := 0, body := List.replicate 320 0#8 } = true) ∧
    (stM.admits 0x53 [.M] false = true ∧ ∀ p, p < 16 → stM.mram.collecting.getD p 0 = 0) ∧
    (stM.admits 0x54 [.M] false = true ∧ immF 1#32 0 0 ≠ stM.mram.fwActive ∧
      (stM.mram.fw.getD 1 {}).takes { offset := 0, total := 4, crc := 0#32, last := false, first := true, data := [0, 1] } = true ∧
      (stM.mram.fw.getD 1 {}).takes { offset := 0, total := 2, crc := 1#32, last := true, first := true, data := [0, 1] } = true) ∧
    (let s : State := { stM with mram := { fw := [(1, { valid := true })] } }
     s.admits 0x55 [.M, .O] false = true ∧ (s.mram.fw.getD (immF 1#32 0 0) {}).valid = true) := by decide +kernel

theorem met_CanCommandsComplete :
    (let f : CanFrame := { id := 0x7FF, dlc := 1, data := [0] }
     let s : State := { stA with cans := [(0, { mode := 0 })] }
     s.ownCan 40 0 = true ∧ frameMalformed f = false ∧ s.busy 0x60 = false ∧ (s.can 0).mode = 0) ∧
    (let b : TxBuf := { frame := {}, ref := {} }
     let s1 : State := { stA with cans := [(0, { tb1 := some b })] }
     let s2 : State := { stA with cans := [(0, { tb2 := some b })] }
     let s3 : State := { stA with cans := [(0, { txq := [b] })] }
     let s4 : State := { stA with host := { finished := [{ ref := { opcode := 0x60 }, status := 0 }] } }
     stA.busy 0x61 = false ∧ b.tagged 0 (BitVec.ofNat 16 (immF 0#32 15 0)) = true ∧ (s1.can 0).tb1 = some b ∧
       (s2.can 0).tb1 = none ∧ (s2.can 0).tb2 = some b ∧ (s3.can 0).tb1 = none ∧ (s3.can 0).tb2 = none ∧
       (s3.can 0).txq.find? (fun x => x.tagged 0 0#16) = some b ∧
       (s4.can 0).tb1 = none ∧ (s4.can 0).tb2 = none ∧ (s4.can 0).txq = [] ∧
       s4.host.finished.any (fun x => x.ref.opcode == 0x60 && x.ref.d.sq == 0 && x.ref.d.cmdId == 0#16) = true) ∧
    (filterOk false { action := 3 } = true ∧ filterOk true { action := 4 } = true ∧ stA.busy 0x62 = false) ∧
    (immF 0x200#32 9 8 = 2 ∧ stA.busy 0x63 = false ∧ stM.cfg.maint = true ∧ ({} : State).usesSafe = false) := by decide

theorem met_PairAndTestCommandsComplete :
    (stP.admits 0x70 [.X, .P, .S, .C] false = true ∧ stP.pair.diverged = 0#7 ∧ stP.seq.active = false ∧
      stP.opens.any (fun x => x.2.ph != .idle) = false ∧ stP.drv.hold = false ∧ stP.partnerHold = false ∧ stP.partnerUp = true) ∧
    (let s : State := { stP with cfg := { stP.cfg with maint := true } }
     s.admits 0x71 [.X, .P, .V, .M, .O] true = true ∧ (7#32).toNat = s.sealInForce ∧ s.cfg.work.isSome = true) ∧
    stP.admits 0x72 [.X] false = true ∧
    (stA.admits 0x04 [.P, .S, .C] false = true ∧ (stA.took 0x04 { imm := 1#32 }).mossRefused = false) ∧
    stA.admits 0x04 [.P, .S, .O, .C] false = true ∧
    (stA.busy 0x81 = false ∧ stA.allOpen = true ∧ 1 ≤ (8#32).toNat ∧ (8#32).toNat ≤ 8) := by decide +kernel

/-- Another sound fuse bank: slots 0 and 1 are programmed, and slot 1 is in force. -/
theorem met_FuseBankSound : ({ slots := [(0, []), (1, [])], inForce := 1 } : FuseBank).sound := by
  refine ⟨by decide, fun n => ?_⟩
  match n with
  | 0 => decide
  | 1 => decide
  | n + 2 =>
    have e : Tab.find ([(0, []), (1, [])] : Tab Nat (List Byte)) (n + 2) = none := by simp [Tab.find]
    simp [e]

set_option maxRecDepth 20000 in
/-- A step answers a next state, and leaves the queue's rest. -/
theorem met_steps :
    step { stA with pending := [.supplyInterruptionBegin ⟨16000, 400⟩, .interruptModerationTimeout 0] } = .next { stA with pending := [.interruptModerationTimeout 0] } ∧
    exec (.interruptModerationTimeout 0) { stA with pending := [.interruptModerationTimeout 0] } =
      .next { stA with pending := [.interruptModerationTimeout 0] } ∧
    Tab.find stA.fuse.slots 0 = some factorySlot0 := by
  refine ⟨rfl, rfl, ?_⟩
  decide +kernel

/-- GROUP_CLOSE starts a sequence. -/
theorem met_OnlyGroupCloseStartsASequence :
    stG.seq.active = false ∧ ∃ t : State, exec (.groupClose {}) stG = .next t ∧ t.seq.active = true := by
  refine ⟨rfl, _, rfl, ?_⟩
  decide +kernel

/-- MAINT_OPEN opens a session. -/
theorem met_OnlyMaintOpenOpensASession :
    let s : State := { stA with safe := { standstill := true } }
    s.cfg.maint = false ∧ ∃ t : State, exec (.maintOpen { imm := 7#32 }) s = .next t ∧ t.cfg.maint = true := by
  refine ⟨rfl, _, rfl, ?_⟩
  decide

/-- A host's emergency-supply command is released by the host, and lapses. -/
theorem met_EmergencyCommandStaysInForce :
    let s : State := { stA with pack := { emgHost := true, emgLapse := some 5 } }
    s.pack.emgHost = true ∧ s.admits 0x20 [.P, .S] false = true ∧
      (∃ t : State, exec (.emergencySupply { imm := 0x000000A5#32 }) s = .next t ∧ t.pack.emgHost = false) ∧
      (∃ t : State, exec .emergencySupplyLapse s = .next t ∧ t.pack.emgHost = false) ∧
      (∃ t : State, exec .linkReset s = .next t) := by
  refine ⟨rfl, by decide, ⟨_, rfl, by decide⟩, ⟨_, rfl, by decide⟩, ⟨_, rfl⟩⟩

theorem met_RefusedCommandHasNoEffect :
    (Instr.bbClear {}).host? = some ⟨0x53, {}, [.M], false⟩ ∧
      [Perm.M].any (fun p => !((Instr.bbClear {}).found stA).permits false p) = true := by decide

theorem met_SecondCommandIsBusy :
    let s : State := { stA with host := { running := [{ ref := { opcode := 0x81 } }] } }
    (Instr.selfTest {} 0#32).host? = some ⟨0x81, {}, [], false⟩ ∧ ((Instr.selfTest {} 0#32).found s).busy 0x81 = true := by decide

theorem met_FinishingACommand :
    ({} : CmdRef).epoch = stA.host.epoch ∧ ({} : CmdRef).d.noCpl = false ∧ ({ d := { noCpl := true } } : CmdRef).d.noCpl = true ∧
      ({ epoch := 1 } : CmdRef).epoch ≠ stA.host.epoch := by decide

theorem met_EffectiveClassOfASource :
    (63 : Nat) ∉ [0, 1, 8, 16, 40, 41, 42, 60] ∧ (stA.fault 63).escB.getLsbD 16 = false ∧ (stA.fault 63).escC.getLsbD 16 = false ∧
      60 ∈ [0, 1, 8, 16, 40, 41, 42, 60] := by decide

theorem met_NewestCopyIsNeverOverwritten :
    let x : NvRec := { body := [], commit := 1 }
    let y : NvRec := { body := [], commit := 2 }
    newest (some x) (some y) = some y ∧ newest (some x) (some y) ≠ some x ∧ newest (some y) (some x) = some y ∧
      newest (some x) none = some x := by decide

theorem met_MossLimit :
    let s : State := { stA with pwr := { st := .moss } }
    s.pwr.st = .moss ∧ s.gen.mossLim = 96 ∧ s.pwr.mossOver = false ∧ s.pwr.peatDue = false ∧ s.mram.passDue = false ∧ (s.at (s.pwr.mossT + sec (3600 * s.gen.mossLim))).allOpen = true ∧
      (({ s with ctrs := [(0, { st := .closed })] } : State).at 0).allOpen = false ∧
      (let c : Cfg := { cfgA with gen := { cfgA.gen with mossLim := 0 } }
       ({ s with cfg := { s.cfg with work := some { bytes := [], cfg := c } } } : State).gen.mossLim = 0) := by decide

/-- A fuse image that passes, of one further slot: the set in force, with its CRC. -/
def imgA : List Byte :=
  let b := le 2 257 ++ ((factorySlot0.drop 2).take 0x32) ++ zeros 68 ++ zeros 4
  b ++ le 4 (crc32c b).toNat

set_option maxRecDepth 20000 in
theorem met_FuseProgram : imageOk 1 imgA = true ∧ noLooser (fuseParse imgA) (stA.fuse.set) = true ∧ imgA.length = 128 ∧
    (stM.cfg.valid && !stM.conf.ports.all (fun x => limitsOk (fuseParse imgA) x.2)) = false ∧ 200 ≤ 400 ∧ 2375 ≤ 2375 ∧ 2625 ≤ 2625 ∧
    ((({ stM with pwr := { stM.pwr with vprog := 2500 } } : State).holdupNow 400).admits 0x46 [.m, .O] false) = true ∧ stM.fuse.free < 4 := by
  decide +kernel

set_option maxRecDepth 20000 in
theorem met_FuseProgramNeverLoosens :
    ∃ t : State, exec (.fuseProgram { paramLen := 128 } imgA ⟨true, 2500, 400⟩) stM = .next t ∧ t.fuse.inForce ≠ stM.fuse.inForce := by
  refine ⟨_, rfl, ?_⟩
  decide +kernel

theorem met_RingCommandsAnswer :
    stR.host.ready = true ∧ (stR.ring 0).en = true ∧ (stR.ring 0).run = true ∧ (stR.ring 0).typ = .submission ∧
    (5#32).toNat < (stR.ring 0).size ∧
    ((5#32).toNat + (stR.ring 0).size - (stR.ring 0).hostIdx % (stR.ring 0).size) % (stR.ring 0).size ≤
      (stR.ring 0).size - 1 - ((stR.ring 0).hostIdx + (stR.ring 0).size - (stR.ring 0).devIdx % (stR.ring 0).size) % (stR.ring 0).size ∧
    (let s : State := { stR with rings := [(0, { rg .submission 0 1 with hostIdx := 5 })] }
     (s.ring 0).size - 1 - ((s.ring 0).hostIdx + (s.ring 0).size - (s.ring 0).devIdx % (s.ring 0).size) % (s.ring 0).size <
       ((4#32).toNat + (s.ring 0).size - (s.ring 0).hostIdx % (s.ring 0).size) % (s.ring 0).size) ∧
    (stA.ring 3).en = false ∧ (stA.ring 3).stopped = false ∧ stR.fetchable 0 = true ∧ stR.fetchTurn 0 = true ∧ ({} : Desc).fence = false ∧
    descRefused (stR.ring 0) 0x82 0#32 = false ∧ definedOp 0x82 = true := by decide +kernel

theorem met_HostLinkAndRegistersAnswer :
    stA.pwr.domains.getLsbD 6 = true ∧ (({ stA with cans := [(1, { hpLock := true })] } : State).can 1).hpLock = true ∧
    stA.host.ready = true ∧ EvReg.pwr ≠ .irqStatus ∧ EvReg.pwr ≠ .ringPendLo ∧ EvReg.pwr ≠ .ringPendHi ∧
    isLo 0x0008 = true ∧ 0x0008 ≠ 0x9100 ∧ 0x0008 ≠ 0xA100 ∧ Tab.find stA.host.hiCap 0x0008 = none ∧ 0x14C ≤ 0x14C ∧ 63 < 64 ∧
    15 < 16 := by decide

theorem met_ResetsAndStartUpAnswer :
    16800 ≤ 16800 ∧ 10 ≤ 10 ∧ stA.pwr.st = .run ∧ ({ stA with pwr := { rstLow := true } } : State).pwr.rstLow = true ∧
    stA.pwr.rstLow = false ∧ stA.pwr.restartDue = false ∧ stA.pwr.intr ≠ .over ∧ stA.pwr.selfCheck = false ∧
    (∀ n, n < 12 → (domBefore n).all (fun d => stA.pwr.domains.getLsbD d) = true) ∧
    (let s : State := { stA with pwr := { starting := true, startStep := 3 } }
     s.pwr.starting = true ∧ s.pwr.rstLow = false ∧ s.pwr.startStep < 4) ∧ ({} : State).mounted = false ∧ ({} : State).pwr.rstLow = false ∧
    stA.pwr.ready = false ∧
    (let s : State := { stA with drv := { coresUp := true } }
     s.drv.svcUp = false ∧ s.pwr.st = .run ∧ s.mounted = true) := by decide

theorem met_SuppliesAndShutdownAnswer :
    stA.pwr.intr = .none ∧ 14999 < 15000 ∧ ({ stA with pwr := { intr := .rideThrough, starting := false } } : State).pwr.intr = .rideThrough ∧
    ({ stA with pwr := { intr := .saveWindow, starting := false } } : State).pwr.intr = .saveWindow ∧
    ({ stA with pwr := { intr := .saveWindow, starting := false } } : State).mounted = true ∧
    ({ stA with pwr := { intr := .over } } : State).pwr.intr = .over ∧ 16799 < 16800 ∧ 154000 < 154001 ∧ stA.stands 14 16 = false ∧
    ({ stA with faults := [(14, { standing := 0x10000#17 })] } : State).stands 14 16 = true := by decide

theorem met_WakesAnswer :
    (let s : State := { stA with pwr := { st := .moss, wakeTimerTaken := 5, wakeTimer := 5#32 }, ports := [(0, { nap := true })] }
     s.pwr.st = .moss ∧ s.wakeOn 1 = true ∧ s.gen.wakeI < (10001 : Int).natAbs ∧ s.wakeOn (2 + 1) = true ∧ s.wakeOn 4 = true ∧
       s.pwr.wakeTimerTaken ≠ 0 ∧ s.pwr.wakeTimer ≠ 0 ∧ s.gen.mossLim ≠ 0 ∧ s.pwr.mossOver = false ∧ s.pwr.peatDue = false ∧
       s.portList.any (fun p => (s.port p).nap) = true ∧ s.portList.all (fun p => !(s.port p).sweepOpen) = true ∧
       (s.at (s.pwr.mossT + sec (3600 * s.gen.mossLim))).allOpen = true ∧
       (({ s with ctrs := [] } : State).at (s.pwr.mossT + sec (3600 * s.gen.mossLim))).allOpen = false) ∧
    (({ stA with cans := [(1, { mode := 0 })] } : State).can 1).mode ≠ 2 ∧ stA.pwr.chgPres = false ∧ stA.pwr.svcWake = false ∧
    ({ stA with pwr := { chgPres := true, svcWake := true } } : State).pwr.chgPres = true ∧
    ({ stA with pwr := { st := .peat } } : State).pwr.st = .peat := by decide

/-! ## Well-formedness refuses each ill-formed operand -/

/-- One ill-formed command for each check. -/
def badCmds : List Instr :=
  [.loopClosure 16, .symbolLock 0 2, .nvFailEvent 32 { bytes := [] }, .toneOriginEvent 0 2 [] false 0, .dmaError 64, .hpStatRead 2, .axleStandstill 2, .coilEchoTimeout 12,
   .lowCurrentWindow 17, .classBWaitExpiry 65, .persistenceExpiry 64 0, .tableWriteback 8192, .segmentClose 0 6, .riseConfirmationTimeout 4104,
   .limitsPublication (2 ^ 64), .loHalfRead 65536, .echo { sq := 64 }, .echo { paramLen := 262145 }, .echo { resultLen := 2 ^ 32 },
   .canFrameReceived 0 { id := 2048 } 0, .canFrameReceived 0 { dlc := 16 } 0, .canFrameReceived 0 { data := List.replicate 65 0 } 0,
   .mramRecordWrite ⟨{ kind := 0, key := 0 }, 0⟩ false false, .mramRecordWrite ⟨{ kind := 14, key := 0 }, 0⟩ false false, .checkAtOpen 65,
   .domainPowerGood 12, .modeChange 0 4, .breakEvent 0 2 { bytes := [] }, .engineLoopbackTest 17 true, .offsetLearning 17 0, .circuitFit 0 12 0, .sedgeSequenceEnd 0 65536,
   .ntcSample [], .lswFault 4 { kind := .failsToOpen, cur := 0, vds := 0, temp := 0 }, .dinEdge 4 true, .hvilCodePeriod 2 [] 0, .skewWindowExpiry 9, .laneCrossCheck (some 8),
   .msixTableWrite 64 {}, .streamRecordWrite 256 none, .descriptorFetch 0 256 {}, .capacitySet {} 65536 0 0, .capacitySet {} 0 (2 ^ 32) 0,
   .capacitySet {} 0 0 65536, .tableRead {} (2 ^ 32) 0, .canFilter {} { ide := 4 }, .canFilter {} { fdf := 4 },
   .canFilter {} { action := 256 }, .reedFrameObserved 0 2 { bytes := [] } 0]

theorem test_wf_refuses : badCmds.all (fun i => !i.wf) = true := by decide +kernel

theorem test_wf_refuses_long (d : Desc) (l : List (Nat × Nat)) (b : Blob) (f : List Byte) (h : l.length = 513)
    (hb : b.bytes.length = 262145) (hf : f.length = 262145) :
    (Instr.balance d l).wf = false ∧ (Instr.cfgLoad d b).wf = false ∧ (Instr.fuseProgram d f ⟨true, 0, 0⟩).wf = false := by
  simp [Instr.wf, h, hb, hf]

theorem test_wf_accepts :
    ([.echo {}, .loopClosure 15, .symbolLock 15 1, .nvFailEvent 31 { bytes := [] }, .dmaError 63, .classBWaitExpiry 64, .checkAtOpen 64, .tableWriteback 8191,
      .limitsPublication (2 ^ 64 - 1), .mramRecordWrite ⟨{ kind := 13, key := 0 }, 0⟩ false false] : List Instr).all Instr.wf = true := by decide +kernel

/-- No word spells a command: the table gives no row bits. -/
theorem test_no_word : decodeTableWord 32 0xFFFFFFFF = none := by decide

/-! ## Single commands -/

/-- The state a command leaves, or the state given. -/
def run1 (c : Instr) (s : State) : State := match exec c s with | .next t => t | _ => s

/-- Status and value of the completion that fell due last. -/
def lastCpl (s : State) : Option (Nat × Nat) := s.host.finished.getLast?.map (fun c => (c.status, c.value))

/-- ECHO returns imm (R470). -/
theorem test_echo : lastCpl (run1 (.echo { imm := 0x12345678#32 }) stA) = some (0, 0x12345678) := by decide +kernel

/-- A reserved bit of imm is BAD_PARAM (R464). -/
theorem test_identify_reserved : lastCpl (run1 (.identify { imm := 1#32 }) stA) = some (7, 0) := by decide +kernel

/-- A command that needs the maintenance session is not permitted without one (R465). -/
theorem test_bbClear_no_session : lastCpl (run1 (.bbClear {}) stA) = some (4, 0) := by decide +kernel

/-- Without a valid seal a command that needs it answers SEAL_INVALID (R465). -/
theorem test_groupClose_no_seal : lastCpl (run1 (.groupClose {}) { stA with cfg := {} }) = some (2, 0) := by decide +kernel

/-- The parameters are checked before the permissions (R464). -/
theorem test_groupClose_param_first : lastCpl (run1 (.groupClose { imm := 16#32 }) { stA with cfg := {} }) = some (7, 0) := by
  decide +kernel

/-- A coil channel takes no OUTPUT_SET (R476). -/
theorem test_outputSet_coil : lastCpl (run1 (.outputSet { imm := 0x100#32 }) stA) = some (7, 0) := by decide +kernel

/-- OUTPUT_SET switches a thermal channel on, and returns it (R476). -/
theorem test_outputSet_on :
    lastCpl (run1 (.outputSet { imm := 0x103#32 }) stA) = some (0, 1) ∧ ((run1 (.outputSet { imm := 0x103#32 }) stA).outc 3).on = true := by
  decide +kernel

/-- A vehicle mass out of range is BAD_PARAM (R473). -/
theorem test_vehicleMass_range : lastCpl (run1 (.vehicleMass { imm := 999#32 }) stA) = some (7, 0) := by decide +kernel

/-- A latch that stands is refused, and counted in [31:16] (R294, R478). -/
theorem test_faultClear_standing :
    lastCpl (run1 (.faultClear { imm := 0xFFFF#32 }) { stA with faults := [(43, { latched := 1#17, standing := 1#17 })] }) = some (0, 65536) := by
  decide +kernel

/-- A latch that no longer stands is cleared (R294, R478). -/
theorem test_faultClear_clears :
    lastCpl (run1 (.faultClear { imm := 43#32 }) { stA with faults := [(43, { latched := 1#17 })] }) = some (0, 1) := by decide +kernel

/-- With a contactor closed no maintenance session opens (R371). -/
theorem test_maintOpen_closed :
    lastCpl (run1 (.maintOpen { imm := 7#32 }) { stA with ctrs := [], safe := { standstill := true } }) = some (4, 0) := by decide +kernel

/-- A second SELF_TEST meets the first (R466). -/
theorem test_selfTest_busy :
    lastCpl (run1 (.selfTest { imm := 1#32 } 0#32) { stA with host := { running := [{ ref := { opcode := 0x81 } }] } }) = some (3, 0) := by
  decide +kernel

/-- GROUP_CLOSE of a group not configured is BAD_PARAM (R475). -/
theorem test_groupClose_no_group : lastCpl (run1 (.groupClose { imm := 5#32 }) stG) = some (7, 0) := by decide +kernel

/-- Bits written as 1 are cleared, and the others stay (R492). -/
theorem test_w1c :
    ((run1 (.registerWrite 0x1010 5#32) { stA with ev := [(.pwr, { bits := 7#32, cnt := 3 })] }).evr .pwr) = { bits := 2#32, cnt := 3 } := by
  decide +kernel

/-- The event counter saturates at 0xFF (R492). -/
theorem test_counter_saturates :
    (({ stA with ev := [(.pwr, { cnt := 0xFF })] } : State).setBits .pwr 1#32).evr .pwr = { bits := 1#32, cnt := 0xFF } := by decide +kernel

/-- A doorbell beyond the ring stops it with db_err (R445). -/
theorem test_doorbell_size :
    ((run1 (.doorbell 0 256#32) stR).ring 0).err = 1#5 ∧ ((run1 (.doorbell 0 256#32) stR).ring 0).run = false := by decide +kernel

/-- Enabling counts the generation and clears the indices (R447). -/
theorem test_ringEnable :
    ((run1 (.ringEnable 0 0x88#32) { stA with rings := [(0, { base := 4096, shadow := 64, devIdx := 3, hostIdx := 9, gen := 0xFFFF })] }).ring 0).gen = 0 ∧
    ((run1 (.ringEnable 0 0x88#32) { stA with rings := [(0, { base := 4096, shadow := 64, devIdx := 3, hostIdx := 9 })] }).ring 0).hostIdx = 0 := by
  decide +kernel

/-- Below 16.8 V the module does not start (R29). -/
theorem test_powerOn_low : exec (.powerOnReset 16799) stA = .next stA := rfl

/-- 15.0 V is no interruption (R525). -/
theorem test_interruption_edge : exec (.supplyInterruptionBegin ⟨15000, 400⟩) stA = .next stA := rfl

/-- RST_N low for less than 10 µs does nothing (R519). -/
theorem test_rst_short : exec (.rstNReset 9) stA = .next stA := rfl

/-- A trip takes one of the three retries (R339). -/
theorem test_trip :
    (let s : State := { stA with outs := [(3, { on := true, cmd := true })] }
     ((run1 (.channelTrip 3 .overload 2500) s).outc 3).retries = 2 ∧ ((run1 (.channelTrip 3 .overload 2500) s).outc 3).on = false) := by
  decide +kernel

/-- The second failed HVIL period in a row raises F41 on loop 1 (R351). -/
theorem test_hvil :
    (run1 (.hvilCodePeriod 1 [] 0) { stA with hvil := [(1, { fails := 1 })] }).stands 41 16 = true ∧
    (run1 (.hvilCodePeriod 1 [] 0) stA).stands 41 16 = false := by decide +kernel

/-- A receive error that was first to show a dominant bit counts 8, saturating at 255 (R398). -/
theorem test_rec :
    ((run1 (.canReceiveError 0 true) { stA with cans := [(0, { mode := 0, recCnt := 3 })] }).can 0).recCnt = 11 ∧
    ((run1 (.canReceiveError 0 true) { stA with cans := [(0, { mode := 0, recCnt := 250 })] }).can 0).recCnt = 255 := by decide +kernel

/-- One count per corrected word, saturating (R552). -/
theorem test_ce : (run1 (.sramCorrectedError 0) { stA with repair := { ce := 0xFFFFFFFF } }).repair.ce = 0xFFFFFFFF := by decide +kernel

/-- An offset beyond o_P is not learned, and is F20's (R176, R180). -/
theorem test_offset_bound :
    let s : State := { stA with time := { now := sec 20 }, pack := { rawHist := [(sec 20, 1001)] } }
    (run1 (.offsetLearning 16 0) s).pack.off = 0 ∧ (run1 (.offsetLearning 16 0) s).pack.f20.getLsbD 2 = true := by decide +kernel

/-- The commit word skips 0 and 0xFFFFFFFF (R530). -/
theorem test_commit : nextCommit 0xFFFFFFFE = 1 ∧ nextCommit 0 = 1 ∧ nextCommit 7 = 8 := by decide

set_option maxRecDepth 20000 in
/-- An image made for another slot does not pass (R541). -/
theorem test_image_slot : imageOk 2 imgA = false := by decide +kernel

/-- A level at DIN is followed (R347). -/
theorem test_din : (run1 (.dinEdge 2 true) stA).drv.din = 4#4 := by decide +kernel

/-- LIMP_N low ends in limp-home (R346). -/
theorem test_limp : (run1 .limpNLow stA).drv.limp = true := by decide +kernel

/-- The wake timer register takes the word written (R512). -/
theorem test_wakeTimer : (run1 (.registerWrite 0x100C 60#32) stA).pwr.wakeTimer = 60#32 := by decide +kernel

/-- PERST_N drops what was due to the host, and begins a new session (R460). -/
theorem test_perst :
    let s : State := { stR with host := { finished := [{ ref := {}, status := 0 }], msixEn := true } }
    (run1 .perstNAssert s).host.finished = [] ∧ (run1 .perstNAssert s).host.msixEn = false ∧ (run1 .perstNAssert s).host.epoch = 1 := by
  decide +kernel

/-- In Moss an enabled wake brings the module to Run (R512). -/
theorem test_canWake :
    (run1 (.canWake 0) { stA with pwr := { st := .moss }, cans := [(0, { mode := 0 })] }).pwr.st = .run := by decide +kernel

/-- An idle step is one tick (assumption log 15). -/
theorem test_idle : step stA = .next stA.tick := rfl

end Sys2Proof.Tests
end

