-- ==== Sys2Proof/Proofs/ChainFrames.lean ====
section
/-! PROOF. What the operations of the chain leave alone: frames sent keep module time, ports and nodes; a frame that passes
its checks is taken; locks and tones of an end (03 R74; 04 R104, R105, R109–R114). -/

namespace Sys2Proof.Machine

open Sys2Proof

/-! ## What sending leaves alone -/

/-- A fold whose step keeps a part of the state keeps it. -/
theorem foldl_keeps {α β : Type} (part : State → β) {f : State → α → State} (h : ∀ s x, part (f s x) = part s) (l : List α)
    (s : State) : part (l.foldl f s) = part s := by
  induction l generalizing s with
  | nil => rfl
  | cons x l ih => exact (ih (f s x)).trans (h s x)

@[simp] theorem State.sendEvt_now (s : State) (v : PairEvt) : (s.sendEvt v).now = s.now := State.emit_now _ _
@[simp] theorem State.sendEvt_node (s : State) (v : PairEvt) (k : Nat) : (s.sendEvt v).node k = s.node k := rfl
@[simp] theorem State.sendEvt_port (s : State) (v : PairEvt) (p : Nat) : (s.sendEvt v).port p = s.port p := rfl

@[simp] theorem State.chainOut_now (s : State) (p e t : Nat) (b : List Byte) : (s.chainOut p e t b).now = s.now :=
  State.emit_now _ _
@[simp] theorem State.chainOut_node (s : State) (p e t : Nat) (b : List Byte) (k : Nat) :
    (s.chainOut p e t b).node k = s.node k := rfl

/-- A command sent waits for its response, and time does not move. -/
@[simp] theorem State.sendCmd_now (s : State) (p e addr tag : Nat) (b : List Byte) (ref : Option CmdRef) :
    (s.sendCmd p e addr tag b ref).now = s.now := by
  have onReq_now (t : State) (g : List ChainReq → List ChainReq) : (t.onReq p g).now = t.now := rfl
  by_cases own : e ∈ s.ownEnds p <;> by_cases all : addr = 63 <;> simp [State.sendCmd, own, all, onReq_now]

/-- A command sent changes no node on record. -/
@[simp] theorem State.sendCmd_node (s : State) (p e addr tag : Nat) (b : List Byte) (ref : Option CmdRef) (k : Nat) :
    (s.sendCmd p e addr tag b ref).node k = s.node k := by
  by_cases own : e ∈ s.ownEnds p <;> by_cases all : addr = 63 <;> simp [State.sendCmd, own, all]

@[simp] theorem State.sendTo_now (s : State) (p addr tag : Nat) (b : List Byte) (ref : Option CmdRef) :
    (s.sendTo p addr tag b ref).now = s.now := by
  unfold State.sendTo
  by_cases r : s.reaches p (s.endTo p addr) <;> simp [r]

@[simp] theorem State.sendTo_node (s : State) (p addr tag : Nat) (b : List Byte) (ref : Option CmdRef) (k : Nat) :
    (s.sendTo p addr tag b ref).node k = s.node k := by
  unfold State.sendTo
  by_cases r : s.reaches p (s.endTo p addr) <;> simp [r]

/-- Seeking lost nodes (R94) takes no time. -/
@[simp] theorem State.seekLost_now (s : State) (p : Nat) : (s.seekLost p).now = s.now :=
  foldl_keeps State.now (fun _ _ => State.sendTo_now _ _ _ _ _ _) _ _

@[simp] theorem State.sweepTell_port (s : State) (p q : Nat) : (s.sweepTell p).port q = s.port q := by
  unfold State.sweepTell
  split <;> simp

@[simp] theorem State.onPort_found (s : State) (p q : Nat) (g : Port → Port) : (s.onPort p g).found q = s.found q := rfl
@[simp] theorem State.onPort_ownEnds (s : State) (p q : Nat) (g : Port → Port) : (s.onPort p g).ownEnds q = s.ownEnds q := rfl

/-! ## Frames received -/

/-- Only the ends N and S are heard. -/
theorem State.heard_end_lt {s : State} {p e : Nat} (h : s.heard p e = true) : e < 2 := by
  have own : e ∈ s.ownEnds p := by
    simp only [State.heard, State.live, State.phyOn, Bool.and_eq_true, List.contains_iff_mem] at h
    exact h.1.1.2.2
  have sub : e ∈ (if (s.portCfg p).endN then [0] else []) ++ (if (s.portCfg p).endS then [1] else []) := by
    unfold State.ownEnds at own
    split at own
    · exact List.mem_of_mem_filter own
    · split at own
      · exact List.mem_of_mem_filter own
      · exact own
  rcases List.mem_append.1 sub with hN | hS
  · split at hN <;> simp_all
  · split at hS <;> simp_all

/-- A frame that is heard and passes its checks is counted and taken (04 R114). -/
theorem State.frameIn_ok {s : State} {p e : Nat} {f : RawFrame} {g : Frame} (k : State → Frame → State)
    (heard : s.heard p e = true) (parsed : frameParse f = .ok g) : s.frameIn p e f k = k (s.frameCount p e 1 0) g := by
  simp [State.frameIn, heard, parsed]

/-- An event frame of a node is taken as the event of its code (04 R126). -/
theorem State.evtIn_ok {s : State} {p e n : Nat} {f : RawFrame} {g : Frame} (k : State → Nat → List Byte → State)
    (heard : s.heard p e = true) (parsed : frameParse f = .ok g) (typ : g.typ = 5) (tag : g.tag = n) (lo : 1 ≤ g.src)
    (hi : g.src ≤ 33) :
    s.evtIn p e f n k = (s.frameCount p e 1 0).nodeFrame p g (fun v => k v g.src g.payload) := by
  rw [State.evtIn, State.frameIn_ok _ heard parsed]
  simp [typ, tag, lo, hi]

/-! ## Locks and tones of an end -/

@[simp] theorem State.setLock_locked (s : State) (p e : Nat) (b : Bool) : (s.setLock p e b).locked p e = b := by
  unfold State.setLock State.locked
  by_cases h : e = 0 <;> simp [h]

@[simp] theorem State.toneOver_locked (s : State) (p e d : Nat) : (s.toneOver p e).locked p d = s.locked p d := by
  simp [State.toneOver, State.locked]

@[simp] theorem State.toneOver_tone (s : State) (p e : Nat) : ((s.toneOver p e).port p).tone.getD e 0 = 0 := by
  simp [State.toneOver]

/-! ## A node's tone state (04 R109) -/

@[simp] theorem State.balHold_node (s : State) (p a : Nat) (chs : List Nat) (k : Nat) :
    (s.balHold p a chs).node k = s.node k := by
  unfold State.balHold
  split
  · rfl
  · generalize List.range 16 = l
    exact foldl_keeps (fun t => t.node k) (fun _ _ => State.onCell_node _ _ _ _) l s

@[simp] theorem State.record_node (s : State) (fn : Nat) (body : List Byte) (k : Nat) :
    (s.record fn body).node k = s.node k := by
  rcases s.record_cases fn body with ⟨-, same⟩ | ⟨n, -, queued⟩
  · rw [same]
  · rw [queued]
    rfl

@[simp] theorem State.sendMirror_node (s : State) (i : MirrorItem) (k : Nat) : (s.sendMirror i).node k = s.node k := by
  unfold State.sendMirror
  split <;> rfl

@[simp] theorem State.impRecord_node (s : State) (p : Nat) (body : List Byte) (k : Nat) :
    (s.impRecord p body).node k = s.node k := by
  unfold State.impRecord
  by_cases acts : s.actsPrimary <;> by_cases up : (s.record (fnImp p) body).partnerUp <;> simp [acts, up]

@[simp] theorem State.sedgeStops_node (s : State) (p k : Nat) : (s.sedgeStops p).node k = s.node k :=
  foldl_keeps (fun t => t.node k) (fun _ _ => State.sendTo_node _ _ _ _ _ _ _) _ _

@[simp] theorem State.planTell_node (s : State) (v : PairEvt) (k : Nat) : (s.planTell v).node k = s.node k := by
  unfold State.planTell
  split <;> simp

@[simp] theorem State.sedgeOver_node (s : State) (p k : Nat) : (s.sedgeOver p).node k = s.node k :=
  State.planTell_node _ _ _

/-- The end of a Sedge session changes no node on record. -/
@[simp] theorem State.sedgeAbort_node (s : State) (p k : Nat) : (s.sedgeAbort p).node k = s.node k := by
  unfold State.sedgeAbort
  by_cases on : (s.port p).sedge <;> by_cases op : (s.port p).sweepOpen <;> simp [on, op]

/-- The tone state that a frame tells is on record. -/
@[simp] theorem State.nodeTone_tone (s : State) (p a : Nat) (t : Bool) : ((s.nodeTone p a t).node (nk p a)).tone = t := by
  unfold State.nodeTone
  by_cases new : (t && !(s.node (nk p a)).tone) = true <;> simp [new]

end Sys2Proof.Machine
end

