-- ==== Sys2Proof/Proofs/ChainRows.lean ====
section
/-! PROOF. Enumeration, responses, probes, idle sets and tones (03 R74–R86; 04 R104–R113; 05 R140): what each command does
under the condition that its event can happen, and the two statements put together from that. -/

namespace Sys2Proof.Machine

open Sys2Proof

/-! ## Enumeration (R74–R77) -/

theorem execWakeToneDetected_opposite {s : State} {p e : Nat} (heard : s.heard p e = true) (opp : e = s.oppEnd p) :
    execWakeToneDetected p e s = .next (s.onPort p (fun q => { q with answered := true })) := by
  simp [execWakeToneDetected, heard, ← opp]

/-- A lock beyond the first hop is that of the hop's node, not of the end. -/
theorem execSymbolLock_hop {s : State} {p e : Nat} (live : s.live p e = true) (heard : s.heard p e = true)
    (acts : s.actsPrimary = true) (active : e = s.activeEnd p)
    (hopping : (s.port p).st = .wake ∨ (s.port p).st = .retry ∨ (s.port p).st = .extend) (beyond : (s.port p).hop ≠ 1) :
    execSymbolLock p e s = .next ((s.onPort p (fun q => { q with st := .assign })).hopLock p e (s.port p).hop) := by
  rcases hopping with st | st | st <;> simp [execSymbolLock, live, heard, acts, ← active, st, beyond]

theorem execLoopClosure_closing {s : State} {p : Nat} (decl : s.declared p = true)
    (closing : (s.port p).st = .extend ∨ (s.port p).st = .close) :
    execLoopClosure p s = .next (((if (s.ownEnds p).contains (s.oppEnd p) then s.setLock p (s.oppEnd p) true else s).portSt p
      .close).loopDone p) := by
  rcases closing with st | st <;> simp [execLoopClosure, decl, st]

/-- The first timeout of a hop beyond the first puts the port in RETRY. -/
theorem execHopTimeout_first {s : State} {p : Nat} (decl : s.declared p = true) (acts : s.actsPrimary = true)
    (extending : (s.port p).st = .extend) (fresh : (s.port p).retried = false) (beyond : (s.port p).hop ≠ 1) :
    ∃ t : State, execHopTimeout p s = .next t ∧ (t.port p).st = .retry ∧ (t.port p).retried = true := by
  have later : ((s.port p).hop == 1) = false := by simpa using beyond
  have run : execHopTimeout p s = .next (
      let w := (s.at (s.port p).hopEnd).onReq p (fun l => l.filter (fun r => r.addr ≠ 62))
      w.hopRetry p (w.activeEnd p) false .retry) := by
    simp [execHopTimeout, decl, acts, extending, fresh, later]
  exact ⟨_, run, by simp [State.hopRetry], by simp [State.hopRetry]⟩

/-! ## Responses and their timeouts (04 R113) -/

theorem execRspFrameReceived_taken {s : State} {p e : Nat} {f : RawFrame} {g : Frame} (heard : s.heard p e = true)
    (parsed : frameParse f = .ok g) (typ : g.typ = 2) :
    execRspFrameReceived p e f s = .next ((s.frameCount p e 1 0).nodeFrame p g (fun u => u.rspTake p (rspOf g))) := by
  rw [execRspFrameReceived, State.frameIn_ok _ heard parsed, if_pos typ]

section
variable {s : State} {p a : Nat} {r : ChainReq} (waits : (s.req p).find? (fun x => x.addr == a && !x.relay) = some r)
include waits

theorem execCmdResponseTimeout_again (few : r.tries < 3) :
    execCmdResponseTimeout p a s = .next ((s.at (r.t + 2 * (s.port p).dW + procTime r.tag + us 20)).cmdAgain p r) := by
  simp [execCmdResponseTimeout, waits, few]

/-- After the third sending the request is dropped and its node is silent. -/
theorem execCmdResponseTimeout_silent (spent : 3 ≤ r.tries) :
    ∃ u : State, execCmdResponseTimeout p a s = .next (u.silent p r) ∧ u.req p = (s.req p).filter (fun x => decide (x ≠ r)) ∧
      u.now = max s.now (r.t + 2 * (s.port p).dW + procTime r.tag + us 20) := by
  refine ⟨(s.at (r.t + 2 * (s.port p).dW + procTime r.tag + us 20)).onReq p (fun l => l.filter (fun x => decide (x ≠ r))),
    ?_, State.onReq_req _ _ _, rfl⟩
  simp [execCmdResponseTimeout, waits, Nat.not_lt.2 spent]

end

/-! ## Probes (R83, R86) -/

theorem execProbeReply_calibrating {s : State} {p e a : Nat} (d : Nat) (heard : s.heard p e = true)
    (there : (s.node (nk p a)).missing = false) (addressed : (s.node (nk p a)).st = .addressed)
    (calibrating : (s.port p).st = .calibrate) (few : (s.node (nk p a)).probes e < 16) :
    execProbeReply p e a d s = .next (s.probeTaken p e a d) := by
  simp [execProbeReply, heard, there, addressed, calibrating, few]

theorem execProbeReply_ready {s : State} {p e a : Nat} (d : Nat) (heard : s.heard p e = true)
    (there : (s.node (nk p a)).missing = false) (nodeReady : (s.node (nk p a)).st = .ready) (portReady : (s.port p).st = .ready)
    (still : (s.port p).recalOn = false) : execProbeReply p e a d s = .next (s.probeCompare p e a d) := by
  simp [execProbeReply, heard, there, nodeReady, portReady, still]

/-- The cycle's probes leave from the state found, but for the note that a recalibration was tried (R86). -/
theorem execDelayProbeCycle_ready {s : State} {p : Nat} (ready : (s.port p).st = .ready) (acts : s.actsPrimary = true)
    (still : (s.port p).recalOn = false) :
    ∃ u : State, execDelayProbeCycle p s = .next (((u.found p).filter (fun a => (u.ownEnds p).contains (u.endTo p a))).foldl
      (fun s a => s.probeSend p (s.endTo p a) a) u) ∧ u.found p = s.found p ∧ u.ownEnds p = s.ownEnds p := by
  have run : execDelayProbeCycle p s = .next (
      let u := if (s.found p).any (fun a => (s.node (nk p a)).diff) then s
        else s.onPort p (fun q => { q with recalTried := false })
      ((u.found p).filter (fun a => (u.ownEnds p).contains (u.endTo p a))).foldl (fun s a => s.probeSend p (s.endTo p a) a) u) := by
    simp [execDelayProbeCycle, ready, acts, still]
  refine ⟨_, run, ?_, ?_⟩ <;> split <;> simp

theorem execInterpolatorPhaseReached_recalibrating {s : State} {p : Nat} (recal : (s.port p).recalOn = true)
    (acts : s.actsPrimary = true) (measured : (s.port p).dNew ≠ 0) :
    ∃ u : State, execInterpolatorPhaseReached p s = .next ((u.found p).foldl (fun s a => s.writeDelays p a) u) ∧
      (u.port p).phase = phaseOf (s.port p).dNew := by
  refine ⟨s.onPort p (fun q => { q with phase := phaseOf q.dNew }), ?_, ?_⟩
  · simp [execInterpolatorPhaseReached, recal, acts, measured]
  · simp

/-! ## Idle sets and tones (04 R104, R105, R107) -/

theorem execIdleSetTimeout_locked {s : State} {p e : Nat} (live : s.live p e = true) (locked : s.locked p e = true) :
    execIdleSetTimeout p e s = .next ((s.toneOver p e).f24On p e) := by
  simp [execIdleSetTimeout, live, locked]

theorem execLossOfSymbolLock_live {s : State} {p e : Nat} (live : s.live p e = true) :
    execLossOfSymbolLock p e s = .next (((s.setLock p e false).toneOver p e).f24On p e) := by
  simp [execLossOfSymbolLock, live]

/-- The third IDLE_FAULT set in a row is the fault tone. -/
theorem execIdleOrderedSet_third {s : State} {p e : Nat} (live : s.live p e = true) (locked : s.locked p e = true)
    (two : ((s.f24Off p e).port p).tone.getD e 0 = 2) :
    ∃ u : State, execIdleOrderedSet p e true s = .next (u.toneTrip p e) ∧ (u.port p).tone.getD e 0 = 3 := by
  refine ⟨(s.f24Off p e).onPort p (fun q => { q with tone := q.tone.set e 3, okIdleT := q.okIdleT.set e none }), ?_, ?_⟩
  · simp [execIdleOrderedSet, live, locked, two]
  · simp

theorem execAlarmToneDetected_trips {s : State} {p e : Nat} (decl : s.declared p = true)
    (own : (s.ownEnds p).contains e = true) (awake : s.pwr.st ≠ .peat) :
    ∃ u : State, execAlarmToneDetected p e s = .next (u.toneTrip p e) ∧ (u.port p).okIdleT.getD e none = none := by
  refine ⟨s.onPort p (fun q => { q with okIdleT := q.okIdleT.set e none }), ?_, ?_⟩
  · simp [execAlarmToneDetected, decl, List.contains_iff_mem.1 own, awake]
  · simp

/-! ## The statements -/

/-- Settles O9, command by command. -/
theorem chainRowsComplete : Obligations.ChainRowsComplete := by
  intro s p e live heard decl
  refine ⟨execWakeToneDetected_opposite heard, execSymbolLock_hop live heard, execLoopClosure_closing decl,
    execHopTimeout_first decl, fun f g => execRspFrameReceived_taken heard, fun a r => execCmdResponseTimeout_again,
    fun a r => execCmdResponseTimeout_silent, fun a d => execProbeReply_calibrating d heard,
    fun a d => execProbeReply_ready d heard, ?idleTimeout, ?lockLost, execIdleOrderedSet_third live,
    execAlarmToneDetected_trips decl⟩
  case idleTimeout =>
    exact fun locked => ⟨_, execIdleSetTimeout_locked live locked, rfl, State.toneOver_tone s p e⟩
  case lockLost =>
    exact ⟨_, execLossOfSymbolLock_live live, rfl, by simp, State.toneOver_tone _ p e⟩

/-- Settles O10: the probes of a cycle, and the delays written when the phase is reached. -/
theorem calibrationCycleComplete : Obligations.CalibrationCycleComplete :=
  fun _ _ => ⟨execDelayProbeCycle_ready, execInterpolatorPhaseReached_recalibrating⟩

end Sys2Proof.Machine
end

