-- ==== Sys2Proof/Proofs/BreaksAndEngines.lean ====
section
/-! PROOF. Breaks, split mode, events of nodes and port engines (03 R88–R96; 04 R126; 11 R289; 23 R554, R555). -/

namespace Sys2Proof.Machine

open Sys2Proof

/-! ## Events of nodes (04 R126) -/

section
variable {s : State} {p e : Nat} {f : RawFrame} {g : Frame} (heard : s.heard p e = true) (parsed : frameParse f = .ok g)
  (typ : g.typ = 5) (lo : 1 ≤ g.src) (hi : g.src ≤ 33)
include heard parsed typ lo hi

theorem execBreakEvent_taken (tag : g.tag = 1) :
    execBreakEvent p e f s = .next ((s.frameCount p e 1 0).nodeFrame p g (fun v =>
      let w := v.breakAt p (hopOf g.src (field g.payload 0 1))
      if w.partnerUp then w.sendEvt (.chainBreak p (hopOf g.src (field g.payload 0 1))) else w)) :=
  congrArg _ (State.evtIn_ok _ heard parsed typ tag lo hi)

theorem execRestoredEvent_taken (tag : g.tag = 2) :
    execRestoredEvent p e f s = .next ((s.frameCount p e 1 0).nodeFrame p g (fun v =>
      v.hopRestored p (hopOf g.src (field g.payload 0 1)))) :=
  congrArg _ (State.evtIn_ok _ heard parsed typ tag lo hi)

/-- The frame is counted and taken at its own instant. -/
theorem execToneOriginEvent_taken (T : Nat) (tag : g.tag = 3) :
    execToneOriginEvent p e f.bytes f.lineErr T s = .next (((s.at T).frameCount p e 1 0).nodeFrame p g (fun v =>
      v.toneOrigin p g.src (field g.payload 0 2) (field g.payload 2 2) (field g.payload 4 1))) :=
  have heardThen : (s.at T).heard p e = true := heard
  congrArg _ (State.evtIn_ok _ heardThen parsed typ tag lo hi)

theorem execSelfTestFailEvent_taken (tag : g.tag = 4) :
    execSelfTestFailEvent p e f s = .next ((s.frameCount p e 1 0).nodeFrame p g (fun v => if field g.payload 0 4 = 0 then v
      else (v.onNode (nk p g.src) (fun n => { n with selftest := true })).f31Settle p)) :=
  congrArg _ (State.evtIn_ok _ heard parsed typ tag lo hi)

/-- The port end is told as one number, whose parity is the end. -/
theorem execNvFailEvent_taken (tag : g.tag = 5) :
    execNvFailEvent (2 * p + e) f s = .next ((s.frameCount p e 1 0).nodeFrame p g (fun v =>
      v.onNode (nk p g.src) (fun n => { n with nvFail := true }))) := by
  have two : e < 2 := State.heard_end_lt heard
  have port : (2 * p + e) / 2 = p := by omega
  have end_ : (2 * p + e) % 2 = e := by omega
  rw [execNvFailEvent, port, end_, State.evtIn_ok _ heard parsed typ tag lo hi]

end

/-- TONE_ORIGIN that names only crossed cells above their limit latches F00 alone (11 R289). -/
theorem State.toneOrigin_overvoltage (s : State) (p a : Nat) {ov : Nat} (named : ov ≠ 0) :
    s.toneOrigin p a ov 0 0 = (let u := s.nodeTone p a true
      if u.stands 0 p then u.stand 0 p { pos := u.maskPos p a ov 16 16 } else u.finding 0 p { pos := u.maskPos p a ov 16 16 }) := by
  simp [State.toneOrigin, named]

/-! ## Split mode (R89, R95) -/

/-- The hop of the one break is whole: its 10 s start now, and the active end probes across it. -/
theorem State.hopRestored_break {s : State} {p b : Nat} (split : (s.port p).split = true) (near : (s.port p).brkNode = b)
    (far : (s.port p).brkFar = b) (broken : (s.port p).restoredT = none) :
    ∃ u : State, (u.port p).restoredT = some u.now ∧ u.now = s.now ∧
      s.hopRestored p b = (let far := if u.activeEnd p = 0 then b + 1 else b
        if (u.found p).contains far && (u.ownEnds p).contains (u.activeEnd p) then u.probeSend p (u.activeEnd p) far else u) := by
  refine ⟨(s.seekLost p).onPort p (fun q => { q with restoredT := some (s.seekLost p).now }), ?_, State.seekLost_now s p, ?_⟩
  · rw [State.onPort_port]
    rfl
  · simp only [State.hopRestored, split, near, far, broken]
    simp

theorem execSplitModeEntry_due {s : State} {p : Nat} (due : (s.port p).splitReq = true) :
    ∃ t : State, execSplitModeEntry p s = .next t ∧ (t.port p).split = true ∧ (t.port p).splitReq = false := by
  refine ⟨(s.onPort p (fun q => { q with split := true, splitReq := false })).sweepTell p, ?_, ?_, ?_⟩
  · rw [execSplitModeEntry, if_pos due]
  all_goals simp

theorem execSplitModeEnd_restored {s : State} {p t0 : Nat} (restored : (s.port p).restoredT = some t0)
    (split : (s.port p).split = true ∨ (s.port p).splitReq = true) (noRecal : (s.port p).recal = false)
    (still : (s.port p).recalOn = false) :
    ∃ u : State, execSplitModeEnd p s = .next (u.cease 26 p) ∧ (u.port p).split = false ∧ (u.port p).restoredT = none ∧
      u.now = max s.now (t0 + sec 10) := by
  refine ⟨(s.at (t0 + sec 10)).onPort p (fun q => { q with split := false, splitReq := false, restoredT := none }), ?_, ?_, ?_, rfl⟩
  · rcases split with on | on <;> simp [execSplitModeEnd, restored, on, noRecal, still]
  all_goals simp

/-! ## Port engines (R96; 23 R554, R555) -/

/-- The port engine `g` is declared failed and serves its port no longer: what `State.engineFail` does before it asks
whether PE16 is free. -/
def State.engineOut (s : State) (g : Nat) : State :=
  ({ s with repair := { s.repair with engBad := s.repair.engBad ||| (1#17 <<< g) } } : State).onPort g
    (fun q => { q with engineBad := true, engine := false })

@[simp] theorem State.engineOut_port (s : State) (g : Nat) :
    (s.engineOut g).port g = { s.port g with engineBad := true, engine := false } := State.onPort_port _ _ _

theorem State.engineOut_engBad (s : State) {g : Nat} (h : g < 16) : (s.engineOut g).repair.engBad.getLsbD g = true := by
  have bit : (s.repair.engBad ||| (1#17 <<< g)).getLsbD g = true := by simp; omega
  exact bit

/-- A port engine that fails its test is out of use; with PE16 taken or failed too, its port is left without an engine. -/
theorem State.engineFail_port {s : State} {g : Nat} (h : g < 16) (good : (s.port g).engineBad = false) :
    s.engineFail g = if s.repair.pe16Bad || s.repair.pe16Port.isSome then (s.engineOut g).noEngine g else s.engineOut g := by
  have notPe16 : g ≠ 16 := by omega
  have good' : (({ s with repair := { s.repair with engBad := s.repair.engBad ||| (1#17 <<< g) } } : State).port g).engineBad =
    false := good
  simp only [State.engineFail, notPe16, good', if_false]
  rfl

theorem execEngineLoopbackTest_failed {s : State} (g : Nat) (up : s.drv.coresUp = true) :
    execEngineLoopbackTest g false s = .next (s.engineFail g) := by
  simp [execEngineLoopbackTest, up]

theorem execEngineLoopbackTest_unserved {s : State} {g : Nat} (h : g < 16) (up : s.drv.coresUp = true)
    (good : (s.port g).engineBad = false) (taken : s.repair.pe16Bad = true ∨ s.repair.pe16Port.isSome = true) :
    ∃ u : State, execEngineLoopbackTest g false s = .next (u.noEngine g) ∧ (u.port g).engineBad = true ∧
      u.repair.engBad.getLsbD g = true := by
  refine ⟨s.engineOut g, ?_, by simp, s.engineOut_engBad h⟩
  rw [execEngineLoopbackTest_failed g up, State.engineFail_port h good, if_pos (by simpa using taken)]

theorem execEngineLoopbackTest_waits {s : State} {g : Nat} (h : g < 16) (up : s.drv.coresUp = true)
    (good : (s.port g).engineBad = false) (works : s.repair.pe16Bad = false) (unused : s.repair.pe16Port = none) :
    ∃ t : State, execEngineLoopbackTest g false s = .next t ∧ (t.port g).engineBad = true ∧ (t.port g).engine = false ∧
      (t.port g).sweepOpen = (s.port g).sweepOpen ∧ t.repair.engBad.getLsbD g = true := by
  refine ⟨s.engineOut g, ?_, by simp, by simp, by simp, s.engineOut_engBad h⟩
  rw [execEngineLoopbackTest_failed g up, State.engineFail_port h good, if_neg (by simp [works, unused])]

theorem execEngineSubstitution_free {s : State} {p : Nat} (up : s.drv.coresUp = true) (bad : (s.port p).engineBad = true)
    (works : s.repair.pe16Bad = false) (unused : s.repair.pe16Port = none) (running : s.pwr.intr ≠ .saveWindow) :
    ∃ u : State, execEngineSubstitution p s = .next (u.repaired 5 p 16 4) ∧ (u.port p).engine = true ∧
      u.repair.pe16Port = some p := by
  refine ⟨({ s with repair := { s.repair with pe16Port := some p } } : State).onPort p (fun q => { q with engine := true }),
    ?_, ?_, rfl⟩
  · simp [execEngineSubstitution, State.engineTake, up, bad, works, unused, running]
  · simp

/-! ## The statement -/

/-- Settles O11, event by event. -/
theorem breaksAndEnginesComplete : Obligations.BreaksAndEnginesComplete := by
  intro s p a _
  refine ⟨?events, fun b => State.hopRestored_break, ?origin, execSplitModeEntry_due, fun t0 => execSplitModeEnd_restored,
    fun g => execEngineLoopbackTest_unserved, fun g => execEngineLoopbackTest_waits, execEngineSubstitution_free⟩
  case events =>
    rintro e f g u heard parsed typ lo hi rfl
    exact ⟨execBreakEvent_taken heard parsed typ lo hi, execRestoredEvent_taken heard parsed typ lo hi,
      execToneOriginEvent_taken heard parsed typ lo hi, execSelfTestFailEvent_taken heard parsed typ lo hi,
      execNvFailEvent_taken heard parsed typ lo hi⟩
  case origin =>
    exact fun ov named => ⟨s.nodeTone p a true, State.nodeTone_tone s p a true, State.toneOrigin_overvoltage s p a named⟩

end Sys2Proof.Machine
end

