-- ==== Sys2Proof/Proofs/Balancing.lean ====
section
/-! PROOF. The end of a balancing duration (04 R132; 19 R472): the durations that have run out are cleared, and the node is
sent the channels still due. -/

namespace Sys2Proof.Machine

open Sys2Proof

/-- The balancing duration of the cell at `k` is cleared if it has run out: what BALANCE_DURATION_END does for each channel
of the node. -/
def State.balRunOut (s : State) (k : Nat) : State := s.onCell k (fun c => if c.bal ≤ s.now then { c with bal := 0 } else c)

@[simp] theorem State.balRunOut_now (s : State) (k : Nat) : (s.balRunOut k).now = s.now := rfl

/-- Only the duration of the cell itself is cleared, and only when it has run out. -/
theorem State.balRunOut_bal (s : State) (k j : Nat) :
    ((s.balRunOut k).cell j).bal = if j = k ∧ (s.cell j).bal ≤ s.now then 0 else (s.cell j).bal := by
  unfold State.balRunOut
  by_cases same : j = k
  · subst same
    by_cases ended : (s.cell j).bal ≤ s.now <;> simp [ended]
  · simp [State.onCell_cell_other s _ same, same]

theorem State.foldl_balRunOut_now (s : State) (ks : List Nat) : (ks.foldl State.balRunOut s).now = s.now :=
  foldl_keeps State.now State.balRunOut_now ks s

/-- Over a list of cells, the durations of those cells that have run out are cleared and no others. -/
theorem State.foldl_balRunOut_bal (s : State) (ks : List Nat) (j : Nat) :
    ((ks.foldl State.balRunOut s).cell j).bal = if j ∈ ks ∧ (s.cell j).bal ≤ s.now then 0 else (s.cell j).bal := by
  induction ks generalizing s with
  | nil => simp
  | cons k ks ih =>
    rw [List.foldl_cons, ih, State.balRunOut_bal, State.balRunOut_now]
    by_cases ended : (s.cell j).bal ≤ s.now
    · by_cases here : j = k
      · simp [← here, ended]
      · simp [here, ended]
    · simp [ended]

/-- The cells of the node at address `a` of port `p`, channel by channel (00 R9). -/
def State.nodeCells (s : State) (p a : Nat) : List Nat :=
  (List.range 16).map (fun ch => gi p (16 * (monOrder (s.portCfg p) a).getD 0 + ch))

theorem State.gi_mem_nodeCells (s : State) (p a : Nat) {ch : Nat} (h : ch < 16) :
    gi p (16 * (monOrder (s.portCfg p) a).getD 0 + ch) ∈ s.nodeCells p a :=
  List.mem_map_of_mem (List.mem_range.2 h)

/-- A duration that ends on a node being balanced: time is that of the end, and what remains is sent to the node. -/
theorem execBalanceDurationEnd_balancing {s : State} {p a : Nat} (on : (s.node (nk p a)).balance ≠ 0)
    (acts : s.actsPrimary = true) :
    execBalanceDurationEnd p a s =
      .next (((s.nodeCells p a).foldl State.balRunOut (s.at (s.node (nk p a)).balT)).balDrive p a none) := by
  rw [State.nodeCells, List.foldl_map, execBalanceDurationEnd]
  simp only [on, acts, Bool.not_true, Bool.or_false, decide_false, if_false, Bool.false_eq_true]
  rfl

/-- Settles O8: a cell of the node is in the list whose durations are looked at, so it is cleared exactly if it has run
out. -/
theorem balancingRuns : Obligations.BalancingRuns := by
  intro s p a on acts
  have time := State.foldl_balRunOut_now (s.at (s.node (nk p a)).balT) (s.nodeCells p a)
  refine ⟨_, execBalanceDurationEnd_balancing on acts, time, fun ch lt => ?_⟩
  rw [time, State.foldl_balRunOut_bal]
  simp only [s.gi_mem_nodeCells p a lt, true_and]
  rfl

end Sys2Proof.Machine
end

