-- ==== Sys2Proof/Proofs/CheckValue.lean ====
section
/-! PROOF. The CRC-32C of the Ushus link (04 R110). -/

namespace Sys2Proof.Machine

open Sys2Proof

/-- Settles O55, by running the register over the nine bytes. -/
theorem crc32cCheckValue : Obligations.Crc32cCheckValue := by
  unfold Obligations.Crc32cCheckValue
  decide +kernel

end Sys2Proof.Machine
end

