-- ==== Sys2Proof/Proofs/CurrentRows.lean ====
section
/-! PROOF. The commands of the current paths (chapter 06): the release of the LSWs by the fast comparator (13 R341), and what
each command does under the condition that its event can happen. -/

namespace Sys2Proof.Machine

open Sys2Proof

/-! ## LSWs released (13 R341) -/

@[simp] theorem State.msix_lsw (s : State) (v k : Nat) : (s.msix v).lsw k = s.lsw k := by
  unfold State.msix
  split <;> rfl

@[simp] theorem State.driveIrq_lsw (s : State) (k : Nat) : s.driveIrq.lsw k = s.lsw k := rfl

@[simp] theorem State.setBits_lsw (s : State) (r : EvReg) (b : Word) (k : Nat) : (s.setBits r b).lsw k = s.lsw k :=
  State.onEvr_lsw _ _ _ _

/-- Interrupts touch no LSW. -/
@[simp] theorem State.raiseIrq_lsw (s : State) (src k : Nat) : (s.raiseIrq src).lsw k = s.lsw k := by
  unfold State.raiseIrq
  rw [State.driveIrq_lsw]
  split <;> simp

/-- An event sets its bit, and may raise an interrupt (20 R493). -/
theorem State.event_cases (s : State) (r : EvReg) (n : Nat) :
    s.event r n = s.setBits r (1#32 <<< n) ∨ ∃ src, s.event r n = (s.setBits r (1#32 <<< n)).raiseIrq src := by
  unfold State.event
  cases evIrq r with
  | none => exact .inl rfl
  | some src => exact (ite_eq_or_eq _ _ _).symm.imp_right (fun raised => ⟨src, raised⟩)

@[simp] theorem State.event_lsw (s : State) (r : EvReg) (n k : Nat) : (s.event r n).lsw k = s.lsw k := by
  rcases s.event_cases r n with quiet | ⟨src, raised⟩
  · rw [quiet, State.setBits_lsw]
  · rw [raised, State.raiseIrq_lsw, State.setBits_lsw]

@[simp] theorem State.record_lsw (s : State) (fn : Nat) (body : List Byte) (k : Nat) : (s.record fn body).lsw k = s.lsw k := by
  rcases s.record_cases fn body with ⟨-, same⟩ | ⟨n, -, queued⟩
  · rw [same]
  · rw [queued]
    rfl

@[simp] theorem State.eventRec_lsw (s : State) (kind code subject port : Nat) (v1 v2 v3 : Int) (k : Nat) :
    (s.eventRec kind code subject port v1 v2 v3).lsw k = s.lsw k := State.record_lsw _ _ _ _

/-- Of the latches a release touches its own alone; the records and restarts it leads to touch none. -/
theorem State.releaseLsw_lsw (s : State) (j by_ k : Nat) : (s.releaseLsw j by_).lsw k =
    (s.onLsw j (fun l => { l with closed := false, hwOpen := l.hwOpen || by_ != 1 })).lsw k := by
  have noRestart (t : State) (cs : List CtrCfg) :
      (cs.foldl (fun t c => t.onOutc c.out (fun o => { o with restart := false })) t).lsw k = t.lsw k :=
    foldl_keeps (fun t => t.lsw k) (fun _ _ => State.onOutc_lsw _ _ _ _) cs t
  have emitted (t : State) : (t.emit (.lswRelease j by_)).lsw k = t.lsw k := rfl
  unfold State.releaseLsw
  by_cases was : (s.lsw j).closed
  · rw [if_pos was, State.eventRec_lsw, State.event_lsw, emitted, noRestart]
  · rw [if_neg was, noRestart]

theorem State.releaseLsw_closed (s : State) (j by_ k : Nat) :
    ((s.releaseLsw j by_).lsw k).closed = ((s.lsw k).closed && decide (k ≠ j)) := by
  rw [State.releaseLsw_lsw]
  by_cases same : k = j
  · subst same
    simp
  · simp [State.onLsw_lsw_other s _ same, same]

/-- After the releases of a list an LSW is closed if it was before and the list does not name it. -/
theorem State.foldl_releaseLsw_closed (s : State) (by_ : Nat) (l : List Nat) (k : Nat) :
    ((l.foldl (fun s j => s.releaseLsw j by_) s).lsw k).closed = ((s.lsw k).closed && decide (k ∉ l)) := by
  induction l generalizing s with
  | nil => simp
  | cons j l ih =>
    rw [List.foldl_cons, ih, State.releaseLsw_closed]
    by_cases same : k = j <;> simp [same]

/-- What the hardware does at a fast overcurrent trip, before the safety cores act: the four LSWs are released and F16
stands (R173). -/
def State.fastTripped (s : State) : State :=
  ((List.range 4).foldl (fun s j => s.releaseLsw j 3) s).onFault 16
    (fun f => { f with standing := f.standing ||| (1#17 <<< 16) })

theorem State.fastTripped_lsw_open (s : State) {j : Nat} (h : j < 4) : (s.fastTripped.lsw j).closed = false :=
  (s.foldl_releaseLsw_closed 3 (List.range 4) j).trans (by simp [h])

theorem State.fastTripped_standing (s : State) : (s.fastTripped.fault 16).standing.getLsbD 16 = true := by
  simp [State.fastTripped]

/-! ## The commands -/

/-- A later grid instant brings a sample of the pack current. -/
theorem execPackCurrentSample_taken {s : State} {S : Nat} (v : Int) (used : s.gen.packUsed = true) (awake : s.pwr.st ≠ .peat)
    (grid : S % 250000 = 0) (later : s.pack.iT < S) :
    execPackCurrentSample S v s = .next (((s.at S).packTaken S v).packActs S (S - s.pack.iT) (s.packRaw v - s.pack.off)) := by
  simp [execPackCurrentSample, used, awake, grid, Nat.not_le.2 later]

theorem execFastOvercurrentTrip_released {s : State} (used : s.gen.packUsed = true) (supplied : s.drvUp = true) :
    execFastOvercurrentTrip s = .next (
      let v := if s.fastTripped.drv.coresUp then s.fastTripped.openModule 3 else s.fastTripped
      let w := v.latch 16 16 { hw := true, value := v.pack.i.getD 0 }
      if s.scopeOn 16 && w.drv.coresUp then w.openedRec 16 false else w) := by
  simp only [execFastOvercurrentTrip, used, supplied, Bool.not_true, Bool.or_false, if_false, Bool.false_eq_true]
  rfl

theorem execKirchhoffEvaluation_runs {s : State} {S : Nat} (grid : S % ms 40 = 0)
    (runs : (((s.at S).attributeEnd).partnerCheck S).kirchRuns = true) :
    execKirchhoffEvaluation S s = .next (
      let w := (((s.at S).attributeEnd).partnerCheck S).witnesses S
      if w.kirchSkip S then { w with pack := { w.pack with kSkip := w.pack.kSkip + 1 } } else w.kirchCheck S) := by
  simp only [execKirchhoffEvaluation, grid, runs, ne_eq, not_true_eq_false, Bool.not_true, Bool.false_eq_true, if_false]

theorem execOffsetLearning_zero {s : State} {k T : Nat} (zero : (s.at T).mustBeZero k = true) (samples : (s.at T).rawOf k ≠ [])
    (whose : (s.at T).actsPrimary = true ∨ 16 ≤ k) :
    execOffsetLearning k T s = .next ((s.at T).offsetTake k (mean ((s.at T).rawOf k))) := by
  have learns : ((s.at T).actsPrimary || decide (16 ≤ k)) = true := by simpa using whose
  simp [execOffsetLearning, zero, samples, learns]

/-- An offset of the pack sensor within its bound is stored with its time, and its record falls due. -/
theorem State.offsetTake_pack {s : State} {m : Int} (bound : m.natAbs ≤ s.gen.oP) :
    s.offsetTake 16 m = (
      let t := ({ s with pack := { s.pack with off := m, offT := some s.now } } : State).mirrorDue
        { kind := 0x0A, key := 16, body := leI 4 m } none
      if t.pack.f20.getLsbD 2 then t.f20 2 false m else t) := by
  have pack : ¬ (16 : Nat) < 16 := Nat.lt_irrefl 16
  simp only [State.offsetTake, pack, if_false, Nat.not_lt.2 bound, Nat.min_self]

theorem execBackupHandOver_due {s : State} {t0 b : Nat} (out : s.pack.isoOutT = some t0) (backup : s.gen.isoBackup = some b) :
    execBackupHandOver s = .next ((s.at (t0 + sec 10)).isoNext) := by
  simp [execBackupHandOver, out, backup]

/-! ## The statement -/

/-- Settles O6, command by command. -/
theorem currentRowsComplete : Obligations.CurrentRowsComplete := by
  intro s S v
  refine ⟨?sample, ?trip, ?kirchhoff, ?learning, ?offset, fun t0 b => execBackupHandOver_due⟩
  case sample =>
    exact fun used awake grid later => ⟨execPackCurrentSample_taken v used awake grid later, rfl, rfl⟩
  case trip =>
    exact fun used supplied => ⟨s.fastTripped, _, _, s.fastTripped_standing, rfl, rfl, fun j => s.fastTripped_lsw_open,
      execFastOvercurrentTrip_released used supplied⟩
  case kirchhoff =>
    rintro u grid rfl
    exact execKirchhoffEvaluation_runs grid
  case learning =>
    rintro k T u rfl
    exact execOffsetLearning_zero
  case offset =>
    exact fun m bound _ => ⟨_, rfl, rfl, State.offsetTake_pack bound⟩

end Sys2Proof.Machine
end

