-- ==== Sys2Proof/Proofs/SweepRows.lean ====
section
/-! PROOF. The commands of the sweep family (chapter 05; 03 R69; 04 R115–R121): what each does under the condition that its
event can happen. -/

namespace Sys2Proof.Machine

open Sys2Proof

/-! ## Reed pulses (R138–R148; 03 R69) -/

/-- A sweep that the plan issues is sent, once the sweep before it is closed. -/
theorem execReedIssue_due {s : State} {p S : Nat} {k : Nat × Bool × Bool × Bool} (may : s.mayReed p = true)
    (grid : S % 250000 = 0) (later : (s.port p).sweepS < S) (left : s.collectLeft p = true)
    (kind : ((s.sweepClose p).owMissed p S).swKind p S = some k) (still : ((s.sweepClose p).owMissed p S).mayReed p = true)
    (window : ((s.sweepClose p).owMissed p S).reedMay p S k.1 k.2.2.2 = true) :
    execReedIssue p S s = .next (((s.sweepClose p).owMissed p S).reedSend p S k) := by
  simp [execReedIssue, may, grid, Nat.not_le.2 later, left, kind, still, window]

theorem execReedFrameObserved_noted {s : State} {p e T : Nat} {f : RawFrame} {g : Frame} (heard : s.heard p e = true)
    (parsed : frameParse f = .ok g) (typ : g.typ = 3) :
    execReedFrameObserved p e f T s = .next (
      let u := ((s.at T).frameCount p e 1 0).reedNoted p e (reedOf g)
      if u.isPair then u.reedOther p (reedOf g) else u) := by
  have heardThen : (s.at T).heard p e = true := heard
  rw [execReedFrameObserved, State.frameIn_ok _ heardThen parsed, if_neg (not_not_intro typ)]

/-- The pulse of a looped port has not reached the end that listens. -/
theorem execReedPulseMissing_looped {s : State} {p e T : Nat} (heard : s.heard p e = true) (listens : e ≠ s.activeEnd p)
    (looped : s.wired p (1 - e) = true) (whole : (s.port p).split = false) (due : s.pulseT p = some T)
    (unseen : (s.port p).reedSeen.getD e 0 + s.reedLead p (s.port p).swMode (s.port p).swOw < T) :
    execReedPulseMissing p e s = .next ((s.at (T + s.loopDelay p + us 2)).pulseMissed p) := by
  simp [execReedPulseMissing, heard, listens, looped, whole, due, Nat.not_le.2 unseen]

/-! ## COLLECT frames (04 R117–R121) -/

/-- The end's COLLECT frame leaves with the number of the open sweep, and the end is noted as having launched. -/
theorem execCollectLaunch_open {s : State} {p e : Nat} (heard : s.heard p e = true) (isOpen : (s.port p).sweepOpen = true)
    (fresh : (s.port p).launched.getLsbD e = false) :
    ∃ u : State, execCollectLaunch p e s = .next (u.chainOut p e (s.port p).collectT
        (collectFrame e (u.cseq (2 * p + e)) (s.port p).seq)) ∧ u.now = max s.now (s.port p).collectT ∧
      (u.port p).launched = (s.port p).launched ||| (1#2 <<< e) := by
  refine ⟨(s.at (s.port p).collectT).onPort p (fun q => { q with launched := q.launched ||| (1#2 <<< e) }), ?_, rfl, ?_⟩
  · simp [execCollectLaunch, heard, isOpen, fresh]
  · rw [State.onPort_port]
    rfl

theorem execCollectFrameReceived_heard {s : State} {p e : Nat} (f : RawFrame) (heard : s.heard p e = true) :
    execCollectFrameReceived p e f s = .next (match frameParse f with
      | .error _ => s.collectBad p e f
      | .ok g => if g.typ = 4 then s.collectTake p e g else s.frameCount p e 1 0) :=
  congrArg Host.Outcome.next (if_neg (by simp [heard]))

/-! ## Bursts, quiet mode, groups (R150–R154, R161; 21 R520) -/

theorem execM3BurstStart_planned {s : State} {p : Nat} (decl : s.declared p = true)
    (planned : (s.portCfg p).plan.burstInt ≠ 0) :
    execM3BurstStart p s = .next (
      let u := s.at (burstAt p (sec (s.portCfg p).plan.burstInt) s.now)
      if s.drv.svcUp then u.burstDue p else u.deferPlan p 1) := by
  simp only [execM3BurstStart, decl, planned, Bool.not_true, decide_false, Bool.or_self, Bool.false_eq_true, if_false]
  rfl

/-- The instant at which a running burst ends: of one that has begun, its start and its length. -/
theorem execM3BurstEnd_running {s : State} {p : Nat} (running : (s.port p).burst = true) :
    execM3BurstEnd p s = .next (
      let u := if (s.port p).mode = 3 then s.at ((s.port p).m3Since + ms (s.portCfg p).plan.burst) else s
      if s.drv.svcUp then u.burstEnd p else u.deferPlan p 2) := by
  by_cases begun : (s.port p).mode = 3 <;> simp [execM3BurstEnd, running, begun]

theorem execQuietModeEntry_dwelt {s : State} {p t0 : Nat} (since : (s.str p).quietT = some t0)
    (loud : (s.port p).quiet = false) :
    execQuietModeEntry p s = .next (
      let u := s.at (t0 + sec (s.portCfg p).plan.quietDwell)
      if s.drv.svcUp then u.quietOn p else u.deferPlan p 3) := by
  simp only [execQuietModeEntry, since, loud, Bool.false_eq_true, if_false]
  rfl

/-- One sweep at twice the threshold ends quiet mode without a wait. -/
theorem execQuietModeExit_twice {s : State} {p : Nat} (quiet : (s.port p).quiet = true) (acts : s.actsPrimary = true)
    (twice : 2 * (s.quietLevel p ((s.str p).i.getD 0)).2 ≤ (s.quietLevel p ((s.str p).i.getD 0)).1) :
    execQuietModeExit p s = .next (if s.drv.svcUp then s.quietOff p else s.deferPlan p 4) := by
  simp [execQuietModeExit, quiet, acts, twice]

/-- A group that was requested is taken at once, a periodic one at its interval. -/
theorem execOpenWireGroupDue_idle {s : State} {p : Nat} (ready : (s.port p).st = .ready) (acts : s.actsPrimary = true)
    (idle : (s.port p).owStep = 0) :
    execOpenWireGroupDue p s = .next (
      let u := if (s.port p).owSig || (s.port p).owDue || (s.port p).owTick = 0 then s
        else s.at ((s.port p).owTick + sec (s.portCfg p).plan.owInt)
      if s.drv.svcUp then u.owDueNow p else u.deferPlan p 5) := by
  by_cases now : ((s.port p).owSig || (s.port p).owDue || decide ((s.port p).owTick = 0)) = true <;>
    simp [execOpenWireGroupDue, ready, acts, idle, now]

/-! ## The statement -/

/-- Settles O7, command by command. -/
theorem sweepRowsComplete : Obligations.SweepRowsComplete := by
  intro s p S
  refine ⟨?issue, ?observed, fun e T => execReedPulseMissing_looped, fun e => execCollectLaunch_open,
    fun e f => execCollectFrameReceived_heard f, fun m => rfl, ?burstStart, ?burstEnd, ?quietEntry, execQuietModeExit_twice,
    ?group⟩
  case issue =>
    rintro u k may grid later left rfl
    exact execReedIssue_due may grid later left
  case observed =>
    rintro e f g T u heard parsed typ rfl
    exact execReedFrameObserved_noted heard parsed typ
  case burstStart =>
    rintro u decl planned rfl
    exact execM3BurstStart_planned decl planned
  case burstEnd =>
    rintro u running rfl
    exact execM3BurstEnd_running running
  case quietEntry =>
    rintro t0 u since loud rfl
    exact execQuietModeEntry_dwelt since loud
  case group =>
    rintro u ready acts idle rfl
    exact execOpenWireGroupDue_idle ready acts idle

end Sys2Proof.Machine
end

