-- ==== Sys2Proof/Proofs/ImpedanceRows.lean ====
section
/-! PROOF. The commands of the impedance engine (chapter 07): what each does under the condition that its event can happen. An
event that falls due at an instant moves module time there (assumption log 11). -/

namespace Sys2Proof.Machine

open Sys2Proof

/-! ## Segments and windows (R185, R189, R193) -/

/-- A segment of an open window ends at its span; while a sample of the span is still being collected only time moves. -/
theorem execSegmentClose_open {s : State} {p b t0 : Nat} (isOpen : Tab.find (s.str p).segOpen b = some t0)
    (more : (s.str p).segs.getD b 0 < 8) :
    execSegmentClose p b s = .next (
      let e := t0 + segSpan b ((s.str p).line.getD b 0)
      if (s.port p).sweepOpen && decide ((s.port p).sweepS < e) then s.at e else (s.at e).segClose p b) := by
  simp only [execSegmentClose, isOpen, if_neg (Nat.not_le.2 more)]

theorem execWindowEnd_eight {s : State} {p b t0 : Nat} (isOpen : Tab.find (s.str p).segOpen b = some t0)
    (eight : 8 ≤ (s.str p).segs.getD b 0) : execWindowEnd p b s = .next (s.winClose p b t0) := by
  simp only [execWindowEnd, isOpen, if_neg (Nat.not_lt.2 eight)]

/-! ## Sedge sessions (R203) -/

theorem execSedgeSessionStart_served {s : State} {p : Nat} (up : s.drv.svcUp = true) :
    execSedgeSessionStart p s = .next (s.sedgeStart p) :=
  congrArg Host.Outcome.next (if_pos up)

/-- The acting module takes the results of the sequence that runs, P periods after its start sweep. -/
theorem execSedgeSequenceEnd_acts {s : State} {p t0 : Nat} (running : (s.port p).sedge = true)
    (started : (s.port p).sedgeS = some t0) (acts : s.actsPrimary = true) :
    execSedgeSequenceEnd p (s.port p).sedgeSeq s = .next ((s.at (t0 + s.gen.sedgeP * us 127750)).sedgeTake p) := by
  have actsThen : (s.at (t0 + s.gen.sedgeP * us 127750)).actsPrimary = true := acts
  simp only [execSedgeSequenceEnd, running, started, ne_eq, not_true_eq_false, if_false, actsThen, if_true]

/-! ## Fits (R207, R210) -/

/-- A refit that is due is due no longer, and is made when at least four entries of its slot are measured. -/
theorem execCircuitFit_due {s : State} {g k : Nat} (T : Nat) (due : (s.est g).fitDue.contains k = true) :
    ∃ u : State, execCircuitFit g k T s = .next (if u.fitEntries g k < 4 then u else u.fitSlot g k) ∧
      (u.est g).fitDue = (s.est g).fitDue.filter (· ≠ k) := by
  have dueThen : ((s.at T).est g).fitDue.contains k = true := due
  refine ⟨(s.at T).onEst g (fun e => { e with fitDue := e.fitDue.filter (· ≠ k) }), ?_, ?_⟩
  · simp only [execCircuitFit, dueThen, Bool.not_true, Bool.false_eq_true, if_false]
  · rw [State.onEst_est]
    rfl

/-- A fit within the residual limit is taken, and noted for the record with its residual and the parameters now in force. -/
theorem State.fitSlot_accepted {s : State} {g k : Nat} {f : FitPar} (fit : circuitFit (s.fitPoints g k) = some f)
    (within : fitResidual (s.fitPoints g k) f ≤ s.gen.fitLim) :
    s.fitSlot g k = (
      let u := s.fitTake g k f
      u.onStr (g / 512) (fun x => { x with
        fitsDone := x.fitsDone ++ [(g % 512, k, min (fitResidual (s.fitPoints g k) f) 254, u.fitOf g k)] })) := by
  simp only [State.fitSlot, fit, if_pos within, if_true]

theorem execFitRecord_noted {s : State} {p : Nat} (noted : (s.str p).fitsDone ≠ []) :
    ∃ t : State, execFitRecord p s = .next t ∧ (t.str p).fitsDone = [] := by
  have nonempty : ¬ (s.str p).fitsDone.isEmpty = true := by rwa [List.isEmpty_iff]
  refine ⟨_, congrArg Host.Outcome.next (if_neg nonempty), ?_⟩
  rw [State.onStr_str]

/-! ## Tables (R197, R199) -/

/-- A table with an unwritten change is saved: at once after 16 results, else 1 h after the change. -/
theorem execTableWriteback_unwritten {s : State} {g t0 : Nat} (unwritten : (s.est g).unwrT = some t0) :
    execTableWriteback g s = .next ((if (s.est g).unwritten < 16 then s.at (t0 + sec 3600) else s).tableSave g) := by
  simp only [execTableWriteback, unwritten]

/-- Time goes to the next full hour, and every slot of every table is older by one (assumption logs 11 and 98). -/
theorem execTableAgeAdvance_hour (s : State) :
    ∃ t : State, execTableAgeAdvance s = .next t ∧ t.ests = s.ests.map (fun x => (x.1, x.2.older 1)) ∧
      t.now = max s.now ((s.now / sec 3600 + 1) * sec 3600) :=
  ⟨_, rfl, rfl, rfl⟩

/-! ## The statement -/

/-- Settles O12, command by command. -/
theorem impedanceRowsComplete : Obligations.ImpedanceRowsComplete := by
  intro s p
  refine ⟨fun b t0 => execSegmentClose_open, fun b t0 => execWindowEnd_eight, execSedgeSessionStart_served,
    fun t0 => execSedgeSequenceEnd_acts, fun g k T => execCircuitFit_due T, ?accepted, execFitRecord_noted,
    fun g t0 => execTableWriteback_unwritten, execTableAgeAdvance_hour s⟩
  case accepted =>
    exact fun g k f fit within => ⟨_, rfl, State.fitSlot_accepted fit within⟩

end Sys2Proof.Machine
end

