-- ==== Sys2Proof/Proofs/EstimatorRows.lean ====
section
/-! PROOF. The commands of the estimator and the limit functions (chapters 08 and 09): what each does in Run, on the module that
acts as primary where the rule asks for it. A timeout or a point that falls due at an instant moves module time there (assumption
log 11). -/

namespace Sys2Proof.Machine

open Sys2Proof

/-! ## Grid instants (R218, R228, R241, R245, R247) -/

theorem execKalmanUpdate_run {s : State} {S : Nat} (run : s.pwr.st = .run) (grid : S % ms 10 = 0) :
    execKalmanUpdate S s = .next (s.kalmanStep S) := by
  simp [execKalmanUpdate, run, grid]

theorem execLimitsPublication_due {s : State} {S : Nat} (run : s.pwr.st = .run) (acts : s.actsPrimary = true)
    (grid : S % ms 50 = 0) (later : s.pack.limT < S) (may : s.limitsMay = true) :
    execLimitsPublication S s = .next ((s.at S).limitsNow S) := by
  simp [execLimitsPublication, run, acts, grid, Nat.not_le.2 later, may]

theorem execEstimatorRecord_due {s : State} {S : Nat} (run : s.pwr.st = .run) (grid : S % ms 100 = 0)
    (later : s.pack.tick100 < s.interval S) :
    execEstimatorRecord S s = .next (s.estRecords S) := by
  simp [execEstimatorRecord, run, grid, Nat.not_le.2 later]

theorem execEnergyRecompute_run {s : State} (run : s.pwr.st = .run) : execEnergyRecompute s = .next s.energies := by
  simp [execEnergyRecompute, run]

/-! ## Loss of the estimator (R26) -/

@[simp] theorem State.f52Str_now (s : State) (p : Nat) : (s.f52Str p).now = s.now := rfl

@[simp] theorem State.f52Pack_now (s : State) : s.f52Pack.now = s.now := rfl

/-- The evaluations of a publication take no time. -/
@[simp] theorem State.f52Eval_now (s : State) : s.f52Eval.now = s.now := by
  unfold State.f52Eval
  split
  · rw [State.f52Pack_now]
    exact foldl_keeps State.now State.f52Str_now _ s
  · rfl

/-- The state in which the clamp of R26 is taken: 500 ms after the last result, the publication's evaluations made. -/
def State.r26Start (s : State) : State :=
  let u := (s.at (s.pack.lastEstT + ms 500)).f52Eval
  { u with pack := { u.pack with r26 := true } }

@[simp] theorem State.r26Start_r26 (s : State) : s.r26Start.pack.r26 = true := rfl

@[simp] theorem State.r26Start_now (s : State) : s.r26Start.now = max s.now (s.pack.lastEstT + ms 500) :=
  State.f52Eval_now _

theorem execEstimatorResultTimeout_lost {s : State} (run : s.pwr.st = .run) (acts : s.actsPrimary = true)
    (fresh : s.pack.r26 = false) (first : s.pwr.firstLimits = true) :
    execEstimatorResultTimeout s = .next s.r26Start.r26Cut.publishExtra := by
  simp only [execEstimatorResultTimeout, run, acts, fresh, first]
  rfl

/-! ## Rest and Wisp points (R221, R222) -/

/-- The state in which a first rest point of a string is taken, at `due`. -/
def State.restStart (s : State) (p due : Nat) : State :=
  let u := s.at due
  u.onStr p (fun x => { x with trueRest := true, restNextT := u.now })

@[simp] theorem State.restStart_trueRest (s : State) (p due : Nat) : ((s.restStart p due).str p).trueRest = true := by
  simp [State.restStart]

@[simp] theorem State.restStart_now (s : State) (p due : Nat) : (s.restStart p due).now = max s.now due := rfl

/-- The first rest point of a low current that began at `t0`, after the last rest point, falls due after the relaxation time. -/
theorem execTrueRestPoint_first {s : State} {p t0 : Nat} (run : s.pwr.st = .run) (acts : s.actsPrimary = true)
    (low : (s.str p).lowT = some t0) (anew : (s.str p).restNextT < t0) :
    execTrueRestPoint p s = .next (
      let u := s.restStart p (t0 + mins s.gen.relax)
      ((u.cellsOfStr p).filter (fun g => (u.est g).seeded && u.hasV g)).foldl (fun s g => s.trueRest g) u) := by
  simp only [execTrueRestPoint, low, run, acts, if_neg (Nat.not_le.2 anew)]
  rfl

@[simp] theorem State.at_str (s : State) (t p : Nat) : (s.at t).str p = s.str p := rfl

/-- The end of the 60 s interval of the module time base that runs. -/
def State.wispEnd (s : State) : Nat := (s.now + sec 60 - 1) / sec 60 * sec 60

theorem execWispPointEvaluation_unrested {s : State} {p : Nat} (run : s.pwr.st = .run) (acts : s.actsPrimary = true)
    (unrested : (s.str p).trueRest = false) :
    execWispPointEvaluation p s = .next (
      let u := s.at s.wispEnd
      (u.cellsOfStr p).foldl (fun s g => s.wisp g) u) := by
  simp [execWispPointEvaluation, State.wispEnd, run, acts, unrested]

/-! ## F49 (R238) -/

/-- A cell's F49 is over 60 s after the rest point that replaced its state, once its residual and its deviation are small; the
string's fault ceases with its last cell. -/
theorem execDivergenceCease_settled {s : State} {g t0 : Nat} (diverged : (s.est g).f49 = true)
    (since : (s.est g).f49T = some t0) (small : (s.at (t0 + sec 60)).diverges g = false)
    (sure : ((s.at (t0 + sec 60)).est g).sigma ≤ 100000) :
    execDivergenceCease g s = .next (
      let v := (s.at (t0 + sec 60)).onEst g (fun e => { e with f49 := false, f49T := none })
      let w := v.estPoint g 6 (v.est g).soc (v.est g).sigma
      if (w.cellsOfStr (g / 512)).any (fun k => (w.est k).f49) then w else w.cease 49 (g / 512)) := by
  simp only [execDivergenceCease, diverged, since, small, decide_eq_false (Nat.not_lt.2 sure), Bool.or_self,
    Bool.false_eq_true, if_false]

/-! ## The statement -/

/-- Settles O13, command by command. -/
theorem estimatorRowsComplete : Obligations.EstimatorRowsComplete := by
  intro s p S run acts
  refine ⟨execKalmanUpdate_run run, execLimitsPublication_due run acts, ?lost, execEstimatorRecord_due run, ?rest, ?wisp, ?f49,
    execEnergyRecompute_run run⟩
  case lost =>
    intro fresh first
    exact ⟨s.r26Start, s.r26Start_r26, s.r26Start_now, execEstimatorResultTimeout_lost run acts fresh first⟩
  case rest =>
    intro t0 low anew
    exact ⟨_, State.restStart_trueRest .., State.restStart_now .., execTrueRestPoint_first run acts low anew⟩
  case wisp =>
    intro unrested
    exact ⟨_, State.at_now s s.wispEnd, execWispPointEvaluation_unrested run acts unrested⟩
  case f49 =>
    rintro g t0 u diverged since rfl small sure
    exact ⟨_, _, rfl, execDivergenceCease_settled diverged since small sure, rfl⟩

end Sys2Proof.Machine
end

