-- ==== Sys2Proof/Proofs/ThermalRows.lean ====
section
/-! PROOF. The commands of temperature supervision (chapter 10): what each does under the condition that its event can happen. The
end of a wait moves module time to the instant at which it falls due (assumption log 11). -/

namespace Sys2Proof.Machine

open Sys2Proof

/-! ## Readings and their evaluation (R266, R275, R281) -/

theorem execNtcSample_run {s : State} (ohms : List Nat) (run : s.pwr.st = .run) :
    execNtcSample ohms s = .next ((List.range 8).foldl (fun s n => s.ntcIn n (ohms.getD n 0)) s) := by
  simp [execNtcSample, run]

theorem execTemperatureEvaluation_run {s : State} (run : s.pwr.st = .run) :
    execTemperatureEvaluation s = .next s.tempEval := by
  simp [execTemperatureEvaluation, run]

theorem execJunctionRead_awake {s : State} (awake : s.pwr.st ≠ .peat) (served : s.pwr.restartDue = false) (a b c d : Int) :
    execJunctionRead a b c d s = .next (s.junctionIn a b c d) := by
  simp [execJunctionRead, awake, served]

/-! ## Demand (R275) -/

/-- The state in which a port has fallen to its lower rate, 60 s after its higher demand was last seen; where 10 Hz is still held,
the wait goes on from the last demand of 10 Hz. -/
def State.rateFallen (s : State) (p : Nat) : State :=
  let u := s.at ((s.port p).rateFallT + sec 60)
  let r := u.demandFall p u.now
  u.onPort p (fun q => { q with rateHi := r, rateFallT := if s.portDemand p < r then q.rate10T else u.now })

@[simp] theorem State.rateFallen_now (s : State) (p : Nat) :
    (s.rateFallen p).now = max s.now ((s.port p).rateFallT + sec 60) := rfl

theorem State.rateFallen_rateHi (s : State) (p : Nat) :
    ((s.rateFallen p).port p).rateHi = (s.at ((s.port p).rateFallT + sec 60)).demandFall p (s.rateFallen p).now := by
  rw [State.rateFallen, State.onPort_port]
  rfl

theorem execTemperatureDemandFall_absent {s : State} {p : Nat} (absent : s.portDemand p < (s.port p).rateHi) :
    execTemperatureDemandFall p s = .next ((s.rateFallen p).planKick p) := by
  simp only [execTemperatureDemandFall, if_neg (Nat.not_le.2 absent)]
  rfl

/-! ## Rises (R278) -/

/-- The neighbours' window of 10 s ends with the rate still at the threshold: the rise stays unconfirmed. -/
theorem execRiseConfirmationTimeout_window {s : State} {k t0 z a : Nat} (rise : (s.sensor k).riseT = some t0)
    (zone : s.zoneOf k = some z) (waits : (s.sensor k).riseUnc = false) (above : (s.sensor k).aboveT = some a) :
    execRiseConfirmationTimeout k s = .next ((s.at (t0 + sec 10)).riseFlag k true) := by
  simp [execRiseConfirmationTimeout, rise, zone, waits, above]

/-- The state in which an unconfirmed rise of a sensor has held for 20 s since `a`, and is over. -/
def State.riseHeld (s : State) (k a : Nat) : State :=
  (s.at (a + sec 20)).onSensor k (fun x => { x with riseT := none })

@[simp] theorem State.riseHeld_riseT (s : State) (k a : Nat) : ((s.riseHeld k a).sensor k).riseT = none := by
  simp [State.riseHeld]

@[simp] theorem State.riseHeld_now (s : State) (k a : Nat) : (s.riseHeld k a).now = max s.now (a + sec 20) := rfl

theorem execRiseConfirmationTimeout_held {s : State} {k t0 z a : Nat} (rise : (s.sensor k).riseT = some t0)
    (zone : s.zoneOf k = some z) (unconfirmed : (s.sensor k).riseUnc = true) (above : (s.sensor k).aboveT = some a) :
    execRiseConfirmationTimeout k s = .next (((s.riseHeld k a).f11Raise z k true).riseFlag k false) := by
  simp only [execRiseConfirmationTimeout, rise, zone, unconfirmed, above]
  rfl

/-! ## Cooling and heating (R279) -/

theorem execThermalOutputSwitch_differs {s : State} {ch : Nat} (differs : s.thermWant ch ≠ (s.outc ch).cmd) :
    execThermalOutputSwitch ch s = .next ((s.at ((s.outc ch).changeT + sec s.gen.minHold)).thermSwitch ch) := by
  simp [execThermalOutputSwitch, differs]

/-! ## The statement -/

/-- Settles O14, command by command. -/
theorem thermalRowsComplete : Obligations.ThermalRowsComplete := by
  intro s
  refine ⟨execNtcSample_run, execTemperatureEvaluation_run, execJunctionRead_awake, ?fall,
    fun k t0 z a => execRiseConfirmationTimeout_window, ?held, fun ch => execThermalOutputSwitch_differs⟩
  case fall =>
    intro p absent
    exact ⟨s.rateFallen p, execTemperatureDemandFall_absent absent, s.rateFallen_rateHi p, s.rateFallen_now p⟩
  case held =>
    intro k t0 z a rise zone unconfirmed above
    exact ⟨s.riseHeld k a, s.riseHeld_riseT k a, s.riseHeld_now k a,
      execRiseConfirmationTimeout_held rise zone unconfirmed above⟩

end Sys2Proof.Machine
end

