-- ==== Sys2Proof/Proofs/StepCases.lean ====
section
/-! PROOF. What a step can do, said once: every command but seven is tame (Laws/Tame.lean), and each of the seven is tame apart from
one part of the state, or is a power-on reset. -/

namespace Sys2Proof.Machine

open Sys2Proof

/-! ## The commands that are not tame -/

/-- The seven commands that do what `Tame` rules out: they set or end the host's emergency-supply command, start a close
sequence, open a maintenance session, program a fuse slot, or reset the module. -/
inductive Untamed : Instr → Prop
  | emergencySupply (d : Desc) : Untamed (.emergencySupply d)
  | emergencySupplyLapse : Untamed .emergencySupplyLapse
  | groupClose (d : Desc) : Untamed (.groupClose d)
  | maintOpen (d : Desc) : Untamed (.maintOpen d)
  | fuseProgram (d : Desc) (image : List Byte) (progOk : ProgRead) : Untamed (.fuseProgram d image progOk)
  | powerOnReset (vsup : Nat) : Untamed (.powerOnReset vsup)
  | interruptionEnd : Untamed .interruptionEnd

/-- Every other command is tame. -/
theorem exec_tame_or_untamed {s t : State} (c : Instr) (run : exec c s = .next t) : Tame s t ∨ Untamed c := by
  cases c with
  | identify d => exact .inl (execIdentify_tame d (.refl s) run)
  | echo d => exact .inl (execEcho_tame d (.refl s) run)
  | timeGet d => exact .inl (execTimeGet_tame d (.refl s) run)
  | powerStateMoss d => exact .inl (execPowerStateMoss_tame d (.refl s) run)
  | powerStatePeat d => exact .inl (execPowerStatePeat_tame d (.refl s) run)
  | portStatus d => exact .inl (execPortStatus_tame d (.refl s) run)
  | rosterAccept d => exact .inl (execRosterAccept_tame d (.refl s) run)
  | openTapClear d => exact .inl (execOpenTapClear_tame d (.refl s) run)
  | balance d ents => exact .inl (execBalance_tame d ents (.refl s) run)
  | passportRead d => exact .inl (execPassportRead_tame d (.refl s) run)
  | portRestart d => exact .inl (execPortRestart_tame d (.refl s) run)
  | openWireNow d => exact .inl (execOpenWireNow_tame d (.refl s) run)
  | emergencySupply d => exact .inr (.emergencySupply d)
  | vehicleMass d => exact .inl (execVehicleMass_tame d (.refl s) run)
  | cellRead d => exact .inl (execCellRead_tame d (.refl s) run)
  | capacitySet d pos cap sigma => exact .inl (execCapacitySet_tame d pos cap sigma (.refl s) run)
  | groupClose d => exact .inr (.groupClose d)
  | groupOpen d => exact .inl (execGroupOpen_tame d (.refl s) run)
  | disconnect d => exact .inl (execDisconnect_tame d (.refl s) run)
  | outputSet d => exact .inl (execOutputSet_tame d (.refl s) run)
  | outputClear d => exact .inl (execOutputClear_tame d (.refl s) run)
  | faultClear d => exact .inl (execFaultClear_tame d (.refl s) run)
  | cfgLoad d blob => exact .inl (execCfgLoad_tame d blob (.refl s) run)
  | cfgRead d => exact .inl (execCfgRead_tame d (.refl s) run)
  | sealConfirm d => exact .inl (execSealConfirm_tame d (.refl s) run)
  | maintOpen d => exact .inr (.maintOpen d)
  | maintClose d => exact .inl (execMaintClose_tame d (.refl s) run)
  | fuseProgram d image progOk => exact .inr (.fuseProgram d image progOk)
  | tableRead d first count => exact .inl (execTableRead_tame d first count (.refl s) run)
  | tableWrite d recs => exact .inl (execTableWrite_tame d recs (.refl s) run)
  | bbRead d => exact .inl (execBbRead_tame d (.refl s) run)
  | bbClear d => exact .inl (execBbClear_tame d (.refl s) run)
  | fwLoad d chunk => exact .inl (execFwLoad_tame d chunk (.refl s) run)
  | fwActivate d => exact .inl (execFwActivate_tame d (.refl s) run)
  | canTx d frame => exact .inl (execCanTx_tame d frame (.refl s) run)
  | canCancel d => exact .inl (execCanCancel_tame d (.refl s) run)
  | canFilter d param => exact .inl (execCanFilter_tame d param (.refl s) run)
  | canMode d => exact .inl (execCanMode_tame d (.refl s) run)
  | roleHandover d => exact .inl (execRoleHandover_tame d (.refl s) run)
  | pairAdopt d => exact .inl (execPairAdopt_tame d (.refl s) run)
  | mirrorCheck d => exact .inl (execMirrorCheck_tame d (.refl s) run)
  | stateReadback d => exact .inl (execStateReadback_tame d (.refl s) run)
  | selfTest d fails => exact .inl (execSelfTest_tame d fails (.refl s) run)
  | nodeStatus d => exact .inl (execNodeStatus_tame d (.refl s) run)
  | doorbell ring v => exact .inl (execDoorbell_tame ring v (.refl s) run)
  | descriptorFetch ring opcode d => exact .inl (execDescriptorFetch_tame ring opcode d (.refl s) run)
  | completionWrite cq => exact .inl (execCompletionWrite_tame cq (.refl s) run)
  | streamRecordWrite fn post => exact .inl (execStreamRecordWrite_tame fn post (.refl s) run)
  | interruptModerationTimeout ring => exact .inl (execInterruptModerationTimeout_tame ring (.refl s) run)
  | msixTableWrite vec entry => exact .inl (execMsixTableWrite_tame vec entry (.refl s) run)
  | ringEnable ring ctrl => exact .inl (execRingEnable_tame ring ctrl (.refl s) run)
  | ringDisable ring ctrl => exact .inl (execRingDisable_tame ring ctrl (.refl s) run)
  | ringReset ring ctrl => exact .inl (execRingReset_tame ring ctrl (.refl s) run)
  | ringStatusClear ring v => exact .inl (execRingStatusClear_tame ring v (.refl s) run)
  | dmaError ring => exact .inl (execDmaError_tame ring (.refl s) run)
  | pcieConfigRequest q => exact .inl (execPcieConfigRequest_tame q (.refl s) run)
  | hostInterfaceReady => exact .inl (execHostInterfaceReady_tame (.refl s) run)
  | perstNAssert => exact .inl (execPerstNAssert_tame (.refl s) run)
  | linkReset => exact .inl (execLinkReset_tame (.refl s) run)
  | d3hotEntry => exact .inl (execD3hotEntry_tame (.refl s) run)
  | d0Return => exact .inl (execD0Return_tame (.refl s) run)
  | softwareResetSvc => exact .inl (execSoftwareResetSvc_tame (.refl s) run)
  | softwareResetSafe => exact .inl (execSoftwareResetSafe_tame (.refl s) run)
  | softwareResetBoth => exact .inl (execSoftwareResetBoth_tame (.refl s) run)
  | irqStatusAck v => exact .inl (execIrqStatusAck_tame v (.refl s) run)
  | ringPendAck hi v => exact .inl (execRingPendAck_tame hi v (.refl s) run)
  | eventRegisterClear reg v => exact .inl (execEventRegisterClear_tame reg v (.refl s) run)
  | eventCounterClear reg => exact .inl (execEventCounterClear_tame reg (.refl s) run)
  | loHalfRead off => exact .inl (execLoHalfRead_tame off (.refl s) run)
  | spdCaptureRead ch isIndex => exact .inl (execSpdCaptureRead_tame ch isIndex (.refl s) run)
  | collCntRead c => exact .inl (execCollCntRead_tame c (.refl s) run)
  | hpWindowRead c off => exact .inl (execHpWindowRead_tame c off (.refl s) run)
  | hpStatRead c => exact .inl (execHpStatRead_tame c (.refl s) run)
  | hpLockTimeout c => exact .inl (execHpLockTimeout_tame c (.refl s) run)
  | registerWrite off v => exact .inl (execRegisterWrite_tame off v (.refl s) run)
  | powerOnReset vsup => exact .inr (.powerOnReset vsup)
  | rstNReset lowUs => exact .inl (execRstNReset_tame lowUs (.refl s) run)
  | rstNDeassert => exact .inl (execRstNDeassert_tame (.refl s) run)
  | domainPowerGood dom => exact .inl (execDomainPowerGood_tame dom (.refl s) run)
  | builtInRepair finds unmappable => exact .inl (execBuiltInRepair_tame finds unmappable (.refl s) run)
  | mramMount => exact .inl (execMramMount_tame (.refl s) run)
  | readyToClose => exact .inl (execReadyToClose_tame (.refl s) run)
  | readyTimeout => exact .inl (execReadyTimeout_tame (.refl s) run)
  | supplyInterruptionBegin vsup => exact .inl (execSupplyInterruptionBegin_tame vsup (.refl s) run)
  | saveWindowEntry => exact .inl (execSaveWindowEntry_tame (.refl s) run)
  | saveWindowExpiry => exact .inl (execSaveWindowExpiry_tame (.refl s) run)
  | interruptionEnd => exact .inr (.interruptionEnd)
  | wakePackCurrent v => exact .inl (execWakePackCurrent_tame v (.refl s) run)
  | canWake c => exact .inl (execCanWake_tame c (.refl s) run)
  | wakeTimerExpiry => exact .inl (execWakeTimerExpiry_tame (.refl s) run)
  | chgPresHigh => exact .inl (execChgPresHigh_tame (.refl s) run)
  | svcWakeHigh => exact .inl (execSvcWakeHigh_tame (.refl s) run)
  | heartbeatSweepCycle => exact .inl (execHeartbeatSweepCycle_tame (.refl s) run)
  | mossLimitExpiry => exact .inl (execMossLimitExpiry_tame (.refl s) run)
  | selfCheckAlarm => exact .inl (execSelfCheckAlarm_tame (.refl s) run)
  | wakeToneDetected p e => exact .inl (execWakeToneDetected_tame p e (.refl s) run)
  | symbolLock p e => exact .inl (execSymbolLock_tame p e (.refl s) run)
  | loopClosure p => exact .inl (execLoopClosure_tame p (.refl s) run)
  | hopTimeout p => exact .inl (execHopTimeout_tame p (.refl s) run)
  | rspFrameReceived p e f => exact .inl (execRspFrameReceived_tame p e f (.refl s) run)
  | cmdResponseTimeout p addr => exact .inl (execCmdResponseTimeout_tame p addr (.refl s) run)
  | probeReply p e addr rtt => exact .inl (execProbeReply_tame p e addr rtt (.refl s) run)
  | delayProbeCycle p => exact .inl (execDelayProbeCycle_tame p (.refl s) run)
  | idleOrderedSet p e isFault => exact .inl (execIdleOrderedSet_tame p e isFault (.refl s) run)
  | lossOfSymbolLock p e => exact .inl (execLossOfSymbolLock_tame p e (.refl s) run)
  | idleSetTimeout p e => exact .inl (execIdleSetTimeout_tame p e (.refl s) run)
  | alarmToneDetected p e => exact .inl (execAlarmToneDetected_tame p e (.refl s) run)
  | reedIssue p S => exact .inl (execReedIssue_tame p S (.refl s) run)
  | reedFrameObserved p e f t => exact .inl (execReedFrameObserved_tame p e f t (.refl s) run)
  | reedPulseMissing p e => exact .inl (execReedPulseMissing_tame p e (.refl s) run)
  | collectLaunch p e => exact .inl (execCollectLaunch_tame p e (.refl s) run)
  | collectFrameReceived p e f => exact .inl (execCollectFrameReceived_tame p e f (.refl s) run)
  | breakEvent p e f => exact .inl (execBreakEvent_tame p e f (.refl s) run)
  | restoredEvent p e f => exact .inl (execRestoredEvent_tame p e f (.refl s) run)
  | toneOriginEvent p e bytes lineErr t => exact .inl (execToneOriginEvent_tame p e bytes lineErr t (.refl s) run)
  | selfTestFailEvent p e f => exact .inl (execSelfTestFailEvent_tame p e f (.refl s) run)
  | nvFailEvent pe f => exact .inl (execNvFailEvent_tame pe f (.refl s) run)
  | splitModeEntry p => exact .inl (execSplitModeEntry_tame p (.refl s) run)
  | splitModeEnd p => exact .inl (execSplitModeEnd_tame p (.refl s) run)
  | engineLoopbackTest eng ok => exact .inl (execEngineLoopbackTest_tame eng ok (.refl s) run)
  | engineSubstitution p => exact .inl (execEngineSubstitution_tame p (.refl s) run)
  | modeChange p mode => exact .inl (execModeChange_tame p mode (.refl s) run)
  | m3BurstStart p => exact .inl (execM3BurstStart_tame p (.refl s) run)
  | m3BurstEnd p => exact .inl (execM3BurstEnd_tame p (.refl s) run)
  | quietModeEntry p => exact .inl (execQuietModeEntry_tame p (.refl s) run)
  | quietModeExit p => exact .inl (execQuietModeExit_tame p (.refl s) run)
  | openWireGroupDue p => exact .inl (execOpenWireGroupDue_tame p (.refl s) run)
  | sedgeSessionStart p => exact .inl (execSedgeSessionStart_tame p (.refl s) run)
  | sedgeSequenceEnd p seq => exact .inl (execSedgeSequenceEnd_tame p seq (.refl s) run)
  | balanceDurationEnd p addr => exact .inl (execBalanceDurationEnd_tame p addr (.refl s) run)
  | packCurrentSample S val => exact .inl (execPackCurrentSample_tame S val (.refl s) run)
  | fastOvercurrentTrip => exact .inl (execFastOvercurrentTrip_tame (.refl s) run)
  | kirchhoffEvaluation S => exact .inl (execKirchhoffEvaluation_tame S (.refl s) run)
  | offsetLearning sensor t => exact .inl (execOffsetLearning_tame sensor t (.refl s) run)
  | kalmanUpdate S => exact .inl (execKalmanUpdate_tame S (.refl s) run)
  | estimatorResultTimeout => exact .inl (execEstimatorResultTimeout_tame (.refl s) run)
  | limitsPublication S => exact .inl (execLimitsPublication_tame S (.refl s) run)
  | estimatorRecord S => exact .inl (execEstimatorRecord_tame S (.refl s) run)
  | trueRestPoint p => exact .inl (execTrueRestPoint_tame p (.refl s) run)
  | wispPointEvaluation p => exact .inl (execWispPointEvaluation_tame p (.refl s) run)
  | divergenceCease g => exact .inl (execDivergenceCease_tame g (.refl s) run)
  | energyRecompute => exact .inl (execEnergyRecompute_tame (.refl s) run)
  | segmentClose p band => exact .inl (execSegmentClose_tame p band (.refl s) run)
  | windowEnd p band => exact .inl (execWindowEnd_tame p band (.refl s) run)
  | circuitFit g slot t => exact .inl (execCircuitFit_tame g slot t (.refl s) run)
  | fitRecord p => exact .inl (execFitRecord_tame p (.refl s) run)
  | tableWriteback g => exact .inl (execTableWriteback_tame g (.refl s) run)
  | tableAgeAdvance => exact .inl (execTableAgeAdvance_tame (.refl s) run)
  | ntcSample ohms => exact .inl (execNtcSample_tame ohms (.refl s) run)
  | temperatureEvaluation => exact .inl (execTemperatureEvaluation_tame (.refl s) run)
  | temperatureDemandFall p => exact .inl (execTemperatureDemandFall_tame p (.refl s) run)
  | riseConfirmationTimeout sensor => exact .inl (execRiseConfirmationTimeout_tame sensor (.refl s) run)
  | thermalOutputSwitch ch => exact .inl (execThermalOutputSwitch_tame ch (.refl s) run)
  | junctionRead t0 t1 t2 t3 => exact .inl (execJunctionRead_tame t0 t1 t2 t3 (.refl s) run)
  | junctionShutdown => exact .inl (execJunctionShutdown_tame (.refl s) run)
  | junctionRecovery => exact .inl (execJunctionRecovery_tame (.refl s) run)
  | faultMatrixEvaluation => exact .inl (execFaultMatrixEvaluation_tame (.refl s) run)
  | persistenceExpiry src scope => exact .inl (execPersistenceExpiry_tame src scope (.refl s) run)
  | classBWaitExpiry scope => exact .inl (execClassBWaitExpiry_tame scope (.refl s) run)
  | lowCurrentWindow scope => exact .inl (execLowCurrentWindow_tame scope (.refl s) run)
  | classCDeadline scope => exact .inl (execClassCDeadline_tame scope (.refl s) run)
  | classDRelease src scope => exact .inl (execClassDRelease_tame src scope (.refl s) run)
  | wadeTimerExpiry => exact .inl (execWadeTimerExpiry_tame (.refl s) run)
  | precloseTestEnd => exact .inl (execPrecloseTestEnd_tame (.refl s) run)
  | firstFitDue => exact .inl (execFirstFitDue_tame (.refl s) run)
  | prechargeTimeout => exact .inl (execPrechargeTimeout_tame (.refl s) run)
  | closeTimeElapsed => exact .inl (execCloseTimeElapsed_tame (.refl s) run)
  | closeVerifyTimeout => exact .inl (execCloseVerifyTimeout_tame (.refl s) run)
  | preOpenVerify => exact .inl (execPreOpenVerify_tame (.refl s) run)
  | windowWaitExpiry => exact .inl (execWindowWaitExpiry_tame (.refl s) run)
  | checkAtOpen p => exact .inl (execCheckAtOpen_tame p (.refl s) run)
  | checkAtOpenNoData p => exact .inl (execCheckAtOpenNoData_tame p (.refl s) run)
  | secondContactorCheck p => exact .inl (execSecondContactorCheck_tame p (.refl s) run)
  | busDischargeTimeout p => exact .inl (execBusDischargeTimeout_tame p (.refl s) run)
  | prechargeLockoutEnd p => exact .inl (execPrechargeLockoutEnd_tame p (.refl s) run)
  | coilEchoTimeout ch => exact .inl (execCoilEchoTimeout_tame ch (.refl s) run)
  | channelTrip ch cause cur => exact .inl (execChannelTrip_tame ch cause cur (.refl s) run)
  | automaticRestart ch temp => exact .inl (execAutomaticRestart_tame ch temp (.refl s) run)
  | retryRestore ch => exact .inl (execRetryRestore_tame ch (.refl s) run)
  | openLoad ch cur => exact .inl (execOpenLoad_tame ch cur (.refl s) run)
  | lswFault j read => exact .inl (execLswFault_tame j read (.refl s) run)
  | safetyWatchdog => exact .inl (execSafetyWatchdog_tame (.refl s) run)
  | serviceWatchdog => exact .inl (execServiceWatchdog_tame (.refl s) run)
  | lockstepMismatch => exact .inl (execLockstepMismatch_tame (.refl s) run)
  | supervisionResumed => exact .inl (execSupervisionResumed_tame (.refl s) run)
  | holdWindowExpiry => exact .inl (execHoldWindowExpiry_tame (.refl s) run)
  | holdSwitchOff => exact .inl (execHoldSwitchOff_tame (.refl s) run)
  | limpNLow => exact .inl (execLimpNLow_tame (.refl s) run)
  | limpNHigh => exact .inl (execLimpNHigh_tame (.refl s) run)
  | dinEdge n high => exact .inl (execDinEdge_tame n high (.refl s) run)
  | hvilCodePeriod n chips cur => exact .inl (execHvilCodePeriod_tame n chips cur (.refl s) run)
  | pulseCheckPeriod isLid ok0 ok1 => exact .inl (execPulseCheckPeriod_tame isLid ok0 ok1 (.refl s) run)
  | debounceExpiry isLid ch closed => exact .inl (execDebounceExpiry_tame isLid ch closed (.refl s) run)
  | discrepancyTimeExpiry isLid => exact .inl (execDiscrepancyTimeExpiry_tame isLid (.refl s) run)
  | mossInputRead isLid c0 c1 => exact .inl (execMossInputRead_tame isLid c0 c1 (.refl s) run)
  | standstillDeclared => exact .inl (execStandstillDeclared_tame (.refl s) run)
  | axleEdge ch a b t => exact .inl (execAxleEdge_tame ch a b t (.refl s) run)
  | edgeReread ch a b t => exact .inl (execEdgeReread_tame ch a b t (.refl s) run)
  | axleStandstill ch => exact .inl (execAxleStandstill_tame ch (.refl s) run)
  | wireDisagreement ch phaseB => exact .inl (execWireDisagreement_tame ch phaseB (.refl s) run)
  | spdSupplyFault ch => exact .inl (execSpdSupplyFault_tame ch (.refl s) run)
  | axleRecord S => exact .inl (execAxleRecord_tame S (.refl s) run)
  | canFrameReceived c frame tSof => exact .inl (execCanFrameReceived_tame c frame tSof (.refl s) run)
  | skewWindowExpiry m => exact .inl (execSkewWindowExpiry_tame m (.refl s) run)
  | safeMessageTimeout m => exact .inl (execSafeMessageTimeout_tame m (.refl s) run)
  | statusMessageSend => exact .inl (execStatusMessageSend_tame (.refl s) run)
  | referenceMessageSend => exact .inl (execReferenceMessageSend_tame (.refl s) run)
  | networkTimeInvalid => exact .inl (execNetworkTimeInvalid_tame (.refl s) run)
  | transmitAttemptEnd c e tSof => exact .inl (execTransmitAttemptEnd_tame c e tSof (.refl s) run)
  | busOffRecovery c => exact .inl (execBusOffRecovery_tame c (.refl s) run)
  | causewayTraining partner rtt => exact .inl (execCausewayTraining_tame partner rtt (.refl s) run)
  | heartbeatSend => exact .inl (execHeartbeatSend_tame (.refl s) run)
  | heartbeatReceived hb => exact .inl (execHeartbeatReceived_tame hb (.refl s) run)
  | partnerLost => exact .inl (execPartnerLost_tame (.refl s) run)
  | proofWindowEnd => exact .inl (execProofWindowEnd_tame (.refl s) run)
  | trainingDeadline => exact .inl (execTrainingDeadline_tame (.refl s) run)
  | coilFrameReceived f => exact .inl (execCoilFrameReceived_tame f (.refl s) run)
  | pairEvtFrameReceived ev => exact .inl (execPairEvtFrameReceived_tame ev (.refl s) run)
  | mirrorFrameReceived item => exact .inl (execMirrorFrameReceived_tame item (.refl s) run)
  | nvwFrameReceived fr => exact .inl (execNvwFrameReceived_tame fr (.refl s) run)
  | nvwResultTimeout => exact .inl (execNvwResultTimeout_tame (.refl s) run)
  | digestExchange partner => exact .inl (execDigestExchange_tame partner (.refl s) run)
  | resyncComplete => exact .inl (execResyncComplete_tame (.refl s) run)
  | pairOffsetFault => exact .inl (execPairOffsetFault_tame (.refl s) run)
  | mramRecordWrite rec fail1 fail2 => exact .inl (execMramRecordWrite_tame rec fail1 fail2 (.refl s) run)
  | recordDeferralRetry => exact .inl (execRecordDeferralRetry_tame (.refl s) run)
  | deferredRecordTimeout => exact .inl (execDeferredRecordTimeout_tame (.refl s) run)
  | journalStringCounters => exact .inl (execJournalStringCounters_tame (.refl s) run)
  | estimatorStateSave => exact .inl (execEstimatorStateSave_tame (.refl s) run)
  | ageingRecordDaily => exact .inl (execAgeingRecordDaily_tame (.refl s) run)
  | passportRewrite => exact .inl (execPassportRewrite_tame (.refl s) run)
  | snapshotSweepCommit p => exact .inl (execSnapshotSweepCommit_tame p (.refl s) run)
  | sramScrub bad => exact .inl (execSramScrub_tame bad (.refl s) run)
  | mramScrub badSectors copyBad1 copyBad2 => exact .inl (execMramScrub_tame badSectors copyBad1 copyBad2 (.refl s) run)
  | sramCorrectedError w => exact .inl (execSramCorrectedError_tame w (.refl s) run)
  | sramUncorrectableError region w => exact .inl (execSramUncorrectableError_tame region w (.refl s) run)
  | laneCrossCheck bad => exact .inl (execLaneCrossCheck_tame bad (.refl s) run)
  | referenceCheck bad => exact .inl (execReferenceCheck_tame bad (.refl s) run)
  | firmwareTrialConfirm => exact .inl (execFirmwareTrialConfirm_tame (.refl s) run)
  | pendingBlobDiscard => exact .inl (execPendingBlobDiscard_tame (.refl s) run)
  | maintSessionTimeout => exact .inl (execMaintSessionTimeout_tame (.refl s) run)
  | massLapse => exact .inl (execMassLapse_tame (.refl s) run)
  | emergencySupplyLapse => exact .inr (.emergencySupplyLapse)
  | serviceCoresResumed => exact .inl (execServiceCoresResumed_tame (.refl s) run)
  | vsupOutOfRange v => exact .inl (execVsupOutOfRange_tame v (.refl s) run)
  | coilSupplyLow a b => exact .inl (execCoilSupplyLow_tame a b (.refl s) run)
  | canReceiveError c inFlag => exact .inl (execCanReceiveError_tame c inFlag (.refl s) run)
  | pllLoss => exact .inl (execPllLoss_tame (.refl s) run)
  | interpolatorPhaseReached p => exact .inl (execInterpolatorPhaseReached_tame p (.refl s) run)
  | chgPresLow => exact .inl (execChgPresLow_tame (.refl s) run)
  | svcWakeLow => exact .inl (execSvcWakeLow_tame (.refl s) run)
  | backupHandOver => exact .inl (execBackupHandOver_tame (.refl s) run)

/-- A step is one tick, or the command at the front on the queue's rest. -/
theorem step_cases {s t : State} (run : step s = .next t) :
    (s.pending = [] ∧ t = s.tick) ∨ ∃ c r, s.pending = c :: r ∧ exec c { s with pending := r } = .next t := by
  unfold step at run
  split at run
  next c r queue => exact .inr ⟨c, r, queue, run⟩
  next queue => exact .inl ⟨queue, (Host.Outcome.next.inj run).symm⟩

/-! ## Changes that are tame towards the fuse bank and the close sequence -/

/-- From `s` to `t` the fuse bank is unchanged and no close sequence has started. -/
structure Calm (s t : State) : Prop where
  fuse : t.fuse = s.fuse
  active : t.seq.active = true → s.seq.active = true

theorem Tame.calm {s t : State} (h : Tame s t) : Calm s t := ⟨h.fuse, h.active⟩

/-- A tame change from a state with the fuse bank of `s` and no close sequence that `s` has not. -/
theorem Tame.calmFrom {s u t : State} (h : Tame u t) (fuse : u.fuse = s.fuse)
    (active : u.seq.active = true → s.seq.active = true) : Calm s t :=
  ⟨h.fuse.trans fuse, fun x => active (h.active x)⟩

/-- A host command is tame, or passes its checks and acts by its body on the accepted state. -/
theorem State.command_tame_or_runs {s0 s : State} (h : Tame s0 s) (op : Nat) (d : Desc) (okPar : Bool) (perms : List Perm)
    (bars busy : Bool) (body : State → CmdRef → State) :
    Tame s0 (s.command op d okPar perms bars busy body) ∨ ∃ u r, Tame s0 u ∧
      s.command op d okPar perms bars busy body = body u r := by
  obtain ⟨-, e⟩ | ⟨-, p, -, -, e⟩ | ⟨-, -, -, e⟩ | ⟨-, -, -, -, e⟩ := s.command_cases op d okPar perms bars busy body
  · exact .inl (e ▸ State.finish_tame h ..)
  · exact .inl (e ▸ State.finish_tame h ..)
  · exact .inl (e ▸ State.finish_tame h ..)
  · exact .inr ⟨_, _, State.accept_tame h _, e⟩

/-- The emergency-supply command changes only the pack beside what is tame. -/
theorem execEmergencySupply_calm {s t : State} {d : Desc} (run : execEmergencySupply d s = .next t) : Calm s t := by
  obtain rfl := Host.Outcome.next.inj run
  obtain tame | ⟨u, r, accepted, runs⟩ := State.command_tame_or_runs (.refl s) 0x20 d _ [.P, .S] false false _
  · exact tame.calm
  · rw [runs]
    exact (State.okay_tame (.refl _) ..).calmFrom accepted.fuse accepted.active

theorem execEmergencySupplyLapse_calm {s t : State} (run : execEmergencySupplyLapse s = .next t) : Calm s t := by
  obtain rfl := Host.Outcome.next.inj run
  split
  · exact (Tame.refl s).calm
  next t0 _ =>
    have moved := State.at_tame (.refl s) t0
    exact ⟨moved.fuse, moved.active⟩

theorem execMaintOpen_calm {s t : State} {d : Desc} (run : execMaintOpen d s = .next t) : Calm s t := by
  obtain rfl := Host.Outcome.next.inj run
  obtain tame | ⟨u, r, accepted, runs⟩ := State.command_tame_or_runs (.refl s) 0x44 d _ [] false false _
  · exact tame.calm
  rw [runs]
  split
  · exact (State.fail_tame accepted ..).calm
  split
  · exact (State.fail_tame accepted ..).calm
  · exact (State.okay_tame (State.eventRec_tame (.refl _) ..) ..).calmFrom accepted.fuse accepted.active

/-- A group close starts its sequence and leaves the fuse bank. -/
theorem State.seqBegin_fuse (s : State) (r : CmdRef) (g : Nat) : (s.seqBegin r g).fuse = s.fuse :=
  (State.seqKick_tame (State.keep_tame (.refl _) _)).fuse

theorem execGroupClose_fuse {s t : State} {d : Desc} (run : execGroupClose d s = .next t) : t.fuse = s.fuse := by
  obtain rfl := Host.Outcome.next.inj run
  obtain tame | ⟨u, r, accepted, runs⟩ :=
    State.command_tame_or_runs (State.maintEnd_tame (.refl s) 3) 0x30 d _ [.P, .S, .C] true _ _
  · exact tame.fuse
  rw [runs]
  dsimp only
  split
  · exact (State.fail_tame accepted ..).fuse
  split
  · exact (State.fail_tame accepted ..).fuse
  split
  · exact (State.okay_tame accepted ..).fuse
  · exact (u.seqBegin_fuse ..).trans accepted.fuse

/-! ## Power-on reset -/

/-- A power-on reset checks the fuse slots on a state in which no close sequence runs and the slots are as before. -/
theorem State.powerOn_fresh (s : State) (v : Nat) : ∃ u : State, u.seq.active = false ∧ u.fuse.slots = s.fuse.slots ∧
    s.powerOn v = u.fuseVerify.trialStart := by
  unfold State.powerOn
  dsimp only
  refine ⟨_, ?_, ?_, rfl⟩
  · rfl
  · rfl

theorem execPowerOnReset_cases {s t : State} {v : Nat} (run : execPowerOnReset v s = .next t) :
    Tame s t ∨ t = s.powerOn v := by
  obtain rfl := Host.Outcome.next.inj run
  split
  · exact .inl (.refl s)
  · exact .inr rfl

/-- The end of an interruption is tame, or a power-on reset (R527). -/
theorem execInterruptionEnd_cases {s t : State} (run : execInterruptionEnd s = .next t) :
    Tame s t ∨ ∃ v, t = s.draw.2.powerOn v := by
  have drawn := State.draw_tame (.refl s)
  obtain rfl := Host.Outcome.next.inj run
  dsimp only
  split
  · exact .inl drawn
  split
  · exact .inr ⟨_, rfl⟩
  have written := State.flushHeld_tame (s0 := s) (s := { s.draw.2 with
    pwr := { s.draw.2.pwr with intr := .none, vsup := 16800 + s.draw.1 % 137201 },
    mram := { s.draw.2.mram with refuse := false } }) ⟨drawn.pending, drawn.fuse, drawn.emgHost, drawn.active, drawn.maint⟩
  have reported := State.event_tame written .pwr 1
  split
  · split
    · exact .inl reported
    · exact .inl (State.bbEvent_tame reported ..)
  · exact .inl written

/-! ## Every command -/

/-- What a command can do to the fuse bank and the close sequence: nothing but end a sequence, except that GROUP_CLOSE may start
one, FUSE_PROGRAM may program a slot, and a power-on reset may follow. -/
theorem exec_cases {s t : State} {c : Instr} (run : exec c s = .next t) :
    Calm s t ∨ (∃ d, c = .groupClose d ∧ t.fuse = s.fuse) ∨ (∃ d image progOk, c = .fuseProgram d image progOk) ∨
      ∃ (u : State) (v : Nat), u.fuse = s.fuse ∧ t = u.powerOn v := by
  obtain tame | untamed := exec_tame_or_untamed c run
  · exact .inl tame.calm
  cases untamed with
  | emergencySupply d => exact .inl (execEmergencySupply_calm run)
  | emergencySupplyLapse => exact .inl (execEmergencySupplyLapse_calm run)
  | groupClose d => exact .inr (.inl ⟨d, rfl, execGroupClose_fuse run⟩)
  | maintOpen d => exact .inl (execMaintOpen_calm run)
  | fuseProgram d image progOk => exact .inr (.inr (.inl ⟨d, image, progOk, rfl⟩))
  | powerOnReset v =>
    exact (execPowerOnReset_cases run).elim (fun tame => .inl tame.calm) fun reset => .inr (.inr (.inr ⟨s, v, rfl, reset⟩))
  | interruptionEnd =>
    exact (execInterruptionEnd_cases run).elim (fun tame => .inl tame.calm)
      fun ⟨v, reset⟩ => .inr (.inr (.inr ⟨s.draw.2, v, rfl, reset⟩))

end Sys2Proof.Machine
end

