-- ==== Sys2Proof/Proofs/FuseBank.lean ====
section
/-! PROOF. The fuse bank (11 R300–R302; 22 R541, R542): what programming a slot and the check at a power-on reset do to it, that
programmed slots stay, that the slot in force is the highest programmed one, and that programming loosens nothing. -/

namespace Sys2Proof.Machine

open Sys2Proof

/-! ## Slots in a table -/

theorem Tab.find_cons {α : Type} (k : Nat) (v : α) (t : Tab Nat α) (j : Nat) :
    Tab.find ((k, v) :: t) j = if k = j then some v else Tab.find t j := by
  by_cases h : k = j <;> simp [Tab.find, h]

theorem Tab.find_set {α : Type} (t : Tab Nat α) (k : Nat) (v : α) (j : Nat) :
    Tab.find (t.set k v) j = if k = j then some v else Tab.find t j := by
  induction t with
  | nil => exact Tab.find_cons k v [] j
  | cons x t ih =>
    obtain ⟨i, w⟩ := x
    by_cases same : i = k
    · subst same
      by_cases h : i = j <;> simp [Tab.set, Tab.find_cons, h]
    · by_cases h : i = j
      · subst h
        simp [Tab.set, Tab.find_cons, same, Ne.symm same]
      · simp [Tab.set, Tab.find_cons, same, h, ih]

/-- The free slot is not programmed, and every lower one is. -/
theorem FuseBank.free_spec {f : FuseBank} (room : f.free < 4) :
    Tab.find f.slots f.free = none ∧ ∀ n, n < f.free → (Tab.find f.slots n).isSome = true := by
  unfold FuseBank.free at *
  cases found : (List.range 4).find? (fun n => (Tab.find f.slots n).isNone) with
  | none => simp [found] at room
  | some k =>
    obtain ⟨vacant, -, lower⟩ := List.find?_range_eq_some.1 found
    exact ⟨by simpa using vacant, fun n below => by simpa [Option.isSome_iff_ne_none] using lower n below⟩

/-- With slots 0 to `k` programmed and no others, slot `k` is the one a check finds in force. -/
theorem FuseBank.last_eq {f : FuseBank} {k : Nat} (small : k < 4)
    (upTo : ∀ n, (Tab.find f.slots n).isSome = true ↔ n ≤ k) : f.last = k := by
  have programmed (n : Nat) (low : n ≤ k) : ∃ b, Tab.find f.slots n = some b := Option.isSome_iff_exists.1 ((upTo n).2 low)
  have empty (n : Nat) (high : k < n) : Tab.find f.slots n = none := by
    simpa using mt (upTo n).1 (Nat.not_le.2 high)
  obtain ⟨b, top⟩ := programmed k le_rfl
  have newest : f.programmed.getLast? = some (k, b) := by
    rw [FuseBank.programmed, List.getLast?_filterMap]
    interval_cases k <;> simp [List.range_succ, top, empty]
  simp [FuseBank.last, newest]

/-- The bank with image `b` in slot `n`, which is in force with the values `set`. -/
def FuseBank.program (f : FuseBank) (n : Nat) (b : List Byte) (set : FuseSet) : FuseBank :=
  { f with slots := f.slots.set n b, inForce := n, set := set }

/-- Programming the free slot keeps every image. -/
theorem FuseBank.program_keeps {f : FuseBank} (room : f.free < 4) (b : List Byte) (set : FuseSet) {n : Nat} {image : List Byte}
    (programmed : Tab.find f.slots n = some image) : Tab.find (f.program f.free b set).slots n = some image := by
  have other : f.free ≠ n := by
    rintro rfl
    simp [(FuseBank.free_spec room).1] at programmed
  rw [FuseBank.program, Tab.find_set, if_neg other, programmed]

/-- Programming the free slot keeps the bank sound: it is the slot after the one in force. -/
theorem FuseBank.program_sound {f : FuseBank} (sound : f.sound) (room : f.free < 4) (b : List Byte) (set : FuseSet) :
    (f.program f.free b set).sound := by
  obtain ⟨unprogrammed, lower⟩ := FuseBank.free_spec room
  obtain ⟨-, upTo⟩ := sound
  have above : f.inForce < f.free := by
    have := mt (upTo f.free).2
    simpa [unprogrammed] using this
  refine ⟨room, fun n => ?_⟩
  rw [FuseBank.program, Tab.find_set]
  obtain below | rfl | higher := Nat.lt_trichotomy n f.free
  · simp [below.ne', lower n below, below.le]
  · simp
  · simp only [if_neg higher.ne, upTo n]
    omega

/-! ## FUSE_PROGRAM (22 R542) -/

/-- A slot that comes into force: beside the fuse bank nothing happens that is not tame. -/
theorem State.fuseTaken_tame (s : State) (n : Nat) (b : List Byte) :
    Tame ({ s with fuse := s.fuse.program n b (fuseParse b) } : State) (s.fuseTaken n b) :=
  State.bbEvent_tame (Tame.foldl (State.endsSettle_tame (State.cease_tame (.refl _) ..) _)
    fun _ p tame => State.configStart_tame tame p) ..

theorem State.drawBytes_tame {s0 s : State} (h : Tame s0 s) (n : Nat) : Tame s0 (s.drawBytes n).2 := by
  induction n generalizing s with
  | zero => exact h
  | succ n ih => exact ih (State.draw_tame h)

/-- A slot whose read-back differs is programmed all the same, and the strictest values come into force. -/
theorem State.fuseFailed_tame (s : State) (n : Nat) :
    ∃ b, Tame ({ s with fuse := s.fuse.program n b s.fuse.fallback } : State) (s.fuseFailed n) := by
  have drawn := State.drawBytes_tame (.refl s) 128
  unfold State.fuseFailed
  generalize s.drawBytes 128 = x at drawn
  obtain ⟨b, u⟩ := x
  have programmed : Tame ({ s with fuse := s.fuse.program n b s.fuse.fallback } : State)
      { u with fuse := u.fuse.program n b s.fuse.fallback } :=
    ⟨drawn.pending, congrArg (FuseBank.program · n b s.fuse.fallback) drawn.fuse, drawn.emgHost, drawn.active, drawn.maint⟩
  exact ⟨b, State.stand_tame programmed ..⟩

/-- FUSE_PROGRAM leaves the bank, or programs the free slot with an image that is no looser than the set in force; on success the
image is the values in force. -/
theorem execFuseProgram_cases {s t : State} {d : Desc} {image : List Byte} {progOk : ProgRead}
    (run : execFuseProgram d image progOk s = .next t) :
    Calm s t ∨ (s.fuse.free < 4 ∧ noLooser (fuseParse image) s.fuse.set = true ∧ ∃ b set,
      (progOk.ok = true → set = fuseParse image) ∧ Calm { s with fuse := s.fuse.program s.fuse.free b set } t) := by
  obtain rfl := Host.Outcome.next.inj run
  have measured : Tame s (({ s with pwr := { s.pwr with vprog := progOk.vprog } } : State).holdupNow progOk.holdup) := by
    refine State.holdupNow_tame (s0 := s) ?_ progOk.holdup
    exact ⟨rfl, rfl, rfl, id, id⟩
  obtain tame | ⟨u, r, accepted, runs⟩ := State.command_tame_or_runs measured 0x46 d _ [.m, .O] false false _
  · exact .inl tame.calm
  rw [runs, accepted.fuse]
  dsimp only
  have failed (status : Nat) : Calm s (u.fail r status) := (State.fail_tame accepted ..).calm
  split
  · exact .inl (failed _)
  next room =>
  split
  · exact .inl (failed _)
  split
  · exact .inl (failed _)
  split
  · exact .inl (failed _)
  next strict =>
  refine .inr ⟨Nat.not_le.1 room, by simpa using strict, ?_⟩
  have onBank (b : List Byte) (set : FuseSet) {t : State}
      (tame : Tame ({ u with fuse := u.fuse.program s.fuse.free b set } : State) t) :
      Calm { s with fuse := s.fuse.program s.fuse.free b set } t :=
    tame.calmFrom (by rw [accepted.fuse]) accepted.active
  split
  · exact ⟨image, fuseParse image, fun _ => rfl, onBank _ _ (State.okay_tame (u.fuseTaken_tame ..) ..)⟩
  next differs =>
    obtain ⟨b, tame⟩ := u.fuseFailed_tame s.fuse.free
    exact ⟨b, u.fuse.fallback, fun ok => absurd ok differs, onBank _ _ (State.fail_tame tame ..)⟩

/-! ## Power-on reset (R302) -/

/-- The check of the slots reprograms none, and takes the last of them into force. -/
theorem State.fuseVerify_fuse (s : State) :
    s.fuseVerify.fuse.slots = s.fuse.slots ∧ s.fuseVerify.fuse.inForce = s.fuse.last := by
  unfold State.fuseVerify
  dsimp only
  split
  · exact ⟨rfl, rfl⟩
  · rw [(State.stand_tame (.refl _) ..).fuse]
    exact ⟨rfl, rfl⟩

theorem State.powerOn_fuse (s : State) (v : Nat) :
    (s.powerOn v).fuse.slots = s.fuse.slots ∧ (s.powerOn v).fuse.inForce = s.fuse.last := by
  obtain ⟨u, -, slots, reset⟩ := s.powerOn_fresh v
  obtain ⟨kept, last⟩ := u.fuseVerify_fuse
  have started := (State.trialStart_tame (.refl u.fuseVerify)).fuse
  rw [reset, started, kept, last]
  exact ⟨slots, by simp only [FuseBank.last, FuseBank.programmed, slots]⟩

/-! ## Every command and every step -/

/-- What a command can do to the fuse bank. -/
theorem exec_fuse_cases {s t : State} {c : Instr} (run : exec c s = .next t) :
    t.fuse = s.fuse ∨ (t.fuse.slots = s.fuse.slots ∧ t.fuse.inForce = s.fuse.last) ∨
      ((∃ d image progOk, c = .fuseProgram d image progOk) ∧ s.fuse.free < 4 ∧
        ∃ b set, t.fuse = s.fuse.program s.fuse.free b set) := by
  obtain calm | ⟨d, -, kept⟩ | ⟨d, image, progOk, rfl⟩ | ⟨u, v, same, rfl⟩ := exec_cases run
  · exact .inl calm.fuse
  · exact .inl kept
  · obtain calm | ⟨room, -, b, set, -, calm⟩ := execFuseProgram_cases run
    · exact .inl calm.fuse
    · exact .inr (.inr ⟨⟨d, image, progOk, rfl⟩, room, b, set, calm.fuse⟩)
  · exact .inr (.inl (same ▸ u.powerOn_fuse v))

theorem exec_keeps_slots {s t : State} {c : Instr} (run : exec c s = .next t) {n : Nat} {b : List Byte}
    (programmed : Tab.find s.fuse.slots n = some b) : Tab.find t.fuse.slots n = some b := by
  obtain same | ⟨slots, -⟩ | ⟨-, room, image, set, taken⟩ := exec_fuse_cases run
  · rw [same, programmed]
  · rw [slots, programmed]
  · rw [taken, FuseBank.program_keeps room image set programmed]

theorem exec_sound {s t : State} {c : Instr} (sound : s.fuse.sound) (run : exec c s = .next t) : t.fuse.sound := by
  obtain same | ⟨slots, last⟩ | ⟨-, room, image, set, taken⟩ := exec_fuse_cases run
  · exact same ▸ sound
  · obtain ⟨small, upTo⟩ := sound
    rw [FuseBank.last_eq small upTo] at last
    exact ⟨last ▸ small, by rw [slots, last]; exact upTo⟩
  · exact taken ▸ FuseBank.program_sound sound room image set

/-! ## The statements -/

/-- Settles O41: a tick is tame, a power-on reset keeps the slots, and FUSE_PROGRAM writes a slot that was free. -/
theorem programmedSlotsStay : Obligations.ProgrammedSlotsStay := by
  intro s t run
  obtain ⟨queue, rfl⟩ | ⟨c, r, queue, run⟩ := step_cases run
  · have same := (State.tick_tame (.refl s)).fuse
    exact ⟨fun n b programmed => by rw [same, programmed], fun c r front => by simp [queue] at front⟩
  · refine ⟨fun n b programmed => exec_keeps_slots run programmed, fun c' r' front other => ?_⟩
    obtain ⟨rfl, rfl⟩ := List.cons.inj (queue.symm.trans front)
    obtain same | ⟨slots, -⟩ | ⟨⟨d, l, k, isProgram⟩, -⟩ := exec_fuse_cases run
    · exact congrArg FuseBank.slots same
    · exact slots
    · exact absurd isProgram (other d l k)

/-- Settles O42: a tick keeps the bank, and so does every command. -/
theorem fuseBankSound : Obligations.FuseBankSound := by
  intro s t sound run
  obtain ⟨-, rfl⟩ | ⟨c, r, -, run⟩ := step_cases run
  · exact (State.tick_tame (.refl s)).fuse ▸ sound
  · exact exec_sound (s := { s with pending := r }) sound run

/-- Settles O43: the bank as shipped holds one image, in slot 0. -/
theorem resetFuseBankSound : Obligations.ResetFuseBankSound := by
  have shipped (n : Nat) : Tab.find State.reset.fuse.slots n = if 0 = n then some factorySlot0 else none :=
    Tab.find_cons 0 factorySlot0 [] n
  have first : State.reset.fuse.inForce = 0 := rfl
  refine ⟨⟨by simp [first], fun n => ?_⟩, first, shipped 1⟩
  rw [shipped, first]
  by_cases zero : 0 = n
  · simp [← zero]
  · simp [zero, Ne.symm zero]

/-- Settles O53: success puts the image in force, which step 3 of R542 has compared field by field with the set in force. -/
theorem fuseProgramNeverLoosens : Obligations.FuseProgramNeverLoosens := by
  intro s t d l v h run changed
  obtain calm | ⟨room, strict, b, set, taken, calm⟩ := execFuseProgram_cases run
  · exact absurd calm.fuse changed
  obtain rfl := taken rfl
  obtain ⟨⟨⟨⟨⟨⟨⟨hardOv, hardUv, hardOt, packOc⟩, wait, deadC, wade⟩, classes⟩, limpSel⟩, -⟩, -⟩, -⟩ := by
    simpa only [noLooser, Bool.and_eq_true, decide_eq_true_eq] using strict
  rw [calm.fuse]
  refine ⟨hardOv, hardUv, hardOt, packOc, wait, deadC, wade, eq_of_beq limpSel, fun n small => ?_, rfl,
    (FuseBank.free_spec room).1⟩
  exact of_decide_eq_true (List.all_eq_true.1 classes n (List.mem_range.2 small))

end Sys2Proof.Machine
end

