-- ==== Sys2Proof/Proofs/Protection.lean ====
section
/-! PROOF. The fault matrix (chapter 11): no close sequence starts but by GROUP_CLOSE (R295, R313), the effective class of a source
(R286), and what each timer of the matrix does under the condition of its rule (R284–R298). The end of a wait moves module time to
the instant at which it falls due (assumption log 11). -/

namespace Sys2Proof.Machine

open Sys2Proof

/-! ## Close sequences (R295, 12 R313) -/

theorem execFuseProgram_active {s t : State} {d : Desc} {image : List Byte} {progOk : ProgRead}
    (run : execFuseProgram d image progOk s = .next t) (active : t.seq.active = true) : s.seq.active = true := by
  obtain calm | ⟨-, -, b, set, -, calm⟩ := execFuseProgram_cases run <;> exact calm.active active

/-- No close sequence runs after a power-on reset. -/
theorem State.powerOn_idle (s : State) (v : Nat) : (s.powerOn v).seq.active = false := by
  obtain ⟨u, idle, -, reset⟩ := s.powerOn_fresh v
  have verified : u.fuseVerify.seq.active = true → u.seq.active = true := by
    unfold State.fuseVerify
    dsimp only
    split
    · exact id
    · exact (State.stand_tame (.refl _) ..).active
  have started := (State.trialStart_tame (.refl u.fuseVerify)).active
  rw [reset]
  exact Bool.eq_false_iff.2 fun active => by simp [verified (started active)] at idle

/-- Settles O44: of the commands that are not calm, FUSE_PROGRAM starts no sequence and a power-on reset ends the one that runs. -/
theorem onlyGroupCloseStartsASequence : Obligations.OnlyGroupCloseStartsASequence := by
  intro c s t run idle active
  obtain calm | ⟨d, rfl, -⟩ | ⟨d, image, progOk, rfl⟩ | ⟨u, v, -, rfl⟩ := exec_cases run
  · simp [calm.active active] at idle
  · exact ⟨d, rfl⟩
  · simp [execFuseProgram_active run active] at idle
  · simp [u.powerOn_idle v] at active

/-! ## Effective classes (R286) -/

theorem State.effClass_fixed (s : State) {n : Nat} (q : Nat) (fixed : n ∈ [0, 1, 8, 16, 40, 41, 42, 60]) :
    s.effClass n q = 0 := by
  have isFix : isFixed n = true := by simpa [isFixed] using fixed
  simp [State.effClass, isFix]

/-- Without an escalation, and with an end of F24 supervised, the stricter of the two classes is in force. -/
theorem State.effClass_stricter (s : State) {n q : Nat} (notFixed : n ∉ [0, 1, 8, 16, 40, 41, 42, 60])
    (noB : (s.fault n).escB.getLsbD q = false) (noC : (s.fault n).escC.getLsbD q = false)
    (supervised : n = 24 → s.supervised q = true) :
    s.effClass n q = min ((s.faultCfg n).cls.getD (defClass.getD n 4)) (fusedClass (s.fuse.set.minCls.getD n 4)) := by
  have free : isFixed n = false := by simpa [isFixed] using notFixed
  have noBreak : (n = 24 && !s.supervised q) = false := by
    by_cases h : n = 24 <;> simp [h, supervised]
  simp [State.effClass, free, noB, noC, noBreak]

/-- Settles O50: the fixed sources are class A, and the others take the stricter class. -/
theorem effectiveClassOfASource : Obligations.EffectiveClassOfASource := by
  intro s n q
  refine ⟨s.effClass_fixed q, ?_⟩
  rintro notFixed noB noC supervised cfgd fused rfl rfl
  exact s.effClass_stricter notFixed noB noC supervised

/-! ## Timers of the matrix (R284–R298) -/

theorem execPersistenceExpiry_stands {s : State} {n q : Nat} (stands : s.stands n q = true) :
    execPersistenceExpiry n q s = .next (((s.at ((s.mark n q).since + s.persistence n)).latch n q
      ((s.at ((s.mark n q).since + s.persistence n)).why n q)).seqKick) := by
  simp [execPersistenceExpiry, stands]

theorem State.at_disc (s : State) (t q : Nat) : (s.at t).disc q = s.disc q := rfl

/-- An entry of one scope or contactor whose wait has run is the only one due. -/
theorem execClassBWaitExpiry_entry {s : State} {q : Nat} (entry : q ≠ 16) (waits : (s.disc q).kind = .classB)
    (up : s.drv.coresUp = true) :
    execClassBWaitExpiry q s = .next ((((s.at (s.disc q).deadline).openScope q true).seqKick).shutStep) := by
  simp [execClassBWaitExpiry, entry, waits, up, State.at_disc]

theorem execLowCurrentWindow_pending {s : State} {q t0 : Nat} (pending : (s.disc q).kind = .classC)
    (window : s.windowAt q = some t0) : execLowCurrentWindow q s = .next ((s.at t0).startWindow q) := by
  simp [execLowCurrentWindow, pending, window]

theorem execClassCDeadline_pending {s : State} {q : Nat} (pending : (s.disc q).kind = .classC) :
    execClassCDeadline q s = .next (((s.at (s.disc q).deadline).escalateB q).startB q
      ((s.at (s.disc q).deadline).escalateB q).waitW none) := by
  simp [execClassCDeadline, pending]

theorem execClassDRelease_ceased {s : State} {n q : Nat} (latched : s.isLatched n q = true) (ceased : s.stands n q = false)
    (classD : s.effClass n q = 3) (clears : (s.faultCfg n).latching = false) :
    execClassDRelease n q s = .next ((s.at ((s.mark n q).ceased + s.releaseTime n)).unlatch n q) := by
  simp [execClassDRelease, latched, ceased, classD, clears]

theorem execWadeTimerExpiry_on {s : State} (on : s.wade.on = true) :
    execWadeTimerExpiry s = .next s.wadeOut.wadeOpens := by
  simp [execWadeTimerExpiry, on]

/-- Settles O3, timer by timer. -/
theorem timersOfProtection : Obligations.TimersOfProtection := by
  intro s n q
  refine ⟨?persistence, execClassBWaitExpiry_entry, fun t0 => execLowCurrentWindow_pending,
    fun pending => ⟨_, rfl, execClassCDeadline_pending pending⟩, execClassDRelease_ceased,
    fun on => ⟨execWadeTimerExpiry_on on, rfl, rfl⟩, rfl⟩
  case persistence =>
    rintro u stands rfl
    exact execPersistenceExpiry_stands stands

end Sys2Proof.Machine
end

