-- ==== Sys2Proof/Proofs/ContactorState.lean ====
section
/-! PROOF. What switching a contactor on leaves alone (12 R307, R311): the configuration, so that what a rule reads from it before and
after is the same; and what telling the partner of a close sequence leaves alone. -/

namespace Sys2Proof.Machine

open Sys2Proof

/-! ## Host commands that end (18 R450; 19 R466) -/

@[simp] theorem State.release_cfg (s : State) (r : CmdRef) : (s.release r).cfg = s.cfg := by
  simp [State.release, apply_ite State.cfg]

@[simp] theorem State.finish_cfg (s : State) (r : CmdRef) (status value : Nat) (result : List Byte) (isPartial : Bool) :
    (s.finish r status value result isPartial).cfg = s.cfg := by
  simp [State.finish, State.logMod, apply_ite State.cfg]

@[simp] theorem State.finishGroup_cfg (s : State) (r : CmdRef) (g : Nat) (rs : List MemberRes) :
    (s.finishGroup r g rs).cfg = s.cfg := by
  simp [State.finishGroup, apply_ite State.cfg]

@[simp] theorem State.settleCmds_cfg (s : State) : s.settleCmds.cfg = s.cfg := by
  unfold State.settleCmds
  dsimp only
  split
  · rw [State.finishGroup_cfg]
    exact foldl_keeps State.cfg (fun t c => by simp [apply_ite State.cfg]) _ _
  · exact foldl_keeps State.cfg (fun t c => by simp [apply_ite State.cfg]) _ _

/-! ## Contactors and their coils -/

@[simp] theorem State.sendEvt_cfg (s : State) (v : PairEvt) : (s.sendEvt v).cfg = s.cfg := rfl
@[simp] theorem State.sendEvt_seq (s : State) (v : PairEvt) : (s.sendEvt v).seq = s.seq := rfl
@[simp] theorem State.sendCoil_cfg (s : State) (f : CoilFrame) : (s.sendCoil f).cfg = s.cfg := rfl

@[simp] theorem State.eventRec_cfg (s : State) (kind code subject port : Nat) (v1 v2 v3 : Int) :
    (s.eventRec kind code subject port v1 v2 v3).cfg = s.cfg := by
  unfold State.eventRec State.record
  split <;> rfl

@[simp] theorem State.connEnd_cfg (s : State) (p : Nat) : (s.connEnd p).cfg = s.cfg :=
  foldl_keeps State.cfg (fun _ _ => by rfl) _ _

@[simp] theorem State.openMark_cfg (s : State) (p : Nat) : (s.openMark p).cfg = s.cfg :=
  foldl_keeps State.cfg (fun _ _ => by rfl) _ s

@[simp] theorem State.setCtr_cfg (s : State) (i : Nat) (st : CtrState) : (s.setCtr i st).cfg = s.cfg := by
  simp [State.setCtr, apply_ite State.cfg]

@[simp] theorem State.rearm_cfg (s : State) (j : Nat) : (s.rearm j).cfg = s.cfg := by
  simp [State.rearm, apply_ite State.cfg]

@[simp] theorem State.channel_cfg (s : State) (ch : Nat) (on : Bool) : (s.channel ch on).cfg = s.cfg := by
  simp [State.channel, apply_ite State.cfg]

@[simp] theorem State.coil_cfg (s : State) (ch : Nat) (on : Bool) : (s.coil ch on).cfg = s.cfg := by
  simp [State.coil, apply_ite State.cfg]

@[simp] theorem State.setOn_cfg (s : State) (ch i : Nat) : (s.setOn ch i).cfg = s.cfg :=
  foldl_keeps State.cfg (fun t j => t.setCtr_cfg j .closing) _ s

@[simp] theorem State.ctrOn_cfg (s : State) (i : Nat) : (s.ctrOn i).cfg = s.cfg := by
  unfold State.ctrOn
  split
  · rfl
  · dsimp only
    split
    · rfl
    · rw [State.setOn_cfg, State.setCtr_cfg, apply_ite State.cfg]
      simp

/-! ## The configuration in force -/

theorem State.conf_of_cfg {s t : State} (same : t.cfg = s.cfg) : t.conf = s.conf := by
  simp [State.conf, same]

@[simp] theorem State.ctrOn_conf (s : State) (i : Nat) : (s.ctrOn i).conf = s.conf := State.conf_of_cfg (s.ctrOn_cfg i)

/-- Telling the partner of a sequence changes neither the sequence nor module time. -/
@[simp] theorem State.seqTell_seq (s : State) : s.seqTell.seq = s.seq := by
  simp [State.seqTell, apply_ite State.seq]

@[simp] theorem State.seqTell_now (s : State) : s.seqTell.now = s.now := by
  simp [State.seqTell, apply_ite State.now]

end Sys2Proof.Machine
end

