-- ==== Sys2Proof/Proofs/CloseSequence.lean ====
section
/-! PROOF. The deadlines of a close sequence (chapter 12, R316–R322, R328), each in the phase its rule names. The end of a wait moves
module time to the instant at which it falls due (assumption log 11). -/

namespace Sys2Proof.Machine

open Sys2Proof

/-! ## Pre-charge (R316, R317, R319) -/

/-- KN is switched on, and pre-charge runs from its close time, with its timeout (R316, R319). -/
def State.prechargeBegin (s : State) (p kn : Nat) : State :=
  let s := s.ctrOn kn
  ({ s with seq := { s.seq with
      ph := .kn, t := s.now, tc := s.now + s.closeNs kn, tau := 0, cest := 0, fitRep := none, okSamples := 0, outOfWin := 0
      samples := [], fitted := false, busH := []
      tout := 9 * tauExp ((s.portCfg p).pre.getD { r := 0, c := 0, rating := 0 }) / 2 + ms s.gen.margin } } : State).seqTell

theorem State.prechargeBegin_ph (s : State) (p kn : Nat) : (s.prechargeBegin p kn).seq.ph = .kn := by
  simp [State.prechargeBegin]

/-- The timeout rests on the configuration alone, which switching KN on leaves. -/
theorem State.prechargeBegin_tout (s : State) (p kn : Nat) : (s.prechargeBegin p kn).seq.tout =
    9 * tauExp ((s.portCfg p).pre.getD { r := 0, c := 0, rating := 0 }) / 2 + ms s.gen.margin := by
  simp [State.prechargeBegin, State.portCfg, State.gen]

theorem execPrecloseTestEnd_passed {s : State} {i kn : Nat} (pre : s.ctrOf s.seqLead .pre = some i)
    (neg : s.ctrOf s.seqLead .kn = some kn) (phase : s.atPh .preOn = true)
    (free : (s.at (s.seq.t + s.closeNs i + ms 50)).seqBarred = false)
    (fed : (s.at (s.seq.t + s.closeNs i + ms 50)).supplyLow kn = false) :
    execPrecloseTestEnd s = .next ((s.at (s.seq.t + s.closeNs i + ms 50)).prechargeBegin s.seqLead kn) := by
  simp [execPrecloseTestEnd, State.prechargeBegin, pre, neg, phase, free, fed]

/-- The first fit is due: time moves to it and the sequence is charging, with its fit made (R317). -/
def State.fitDue (s : State) : State :=
  let c := ((s.portCfg s.seqLead).pre.getD { r := 0, c := 0, rating := 0 })
  let s := s.at (s.seq.tc + max (tauExp c / 5) (6 * period (s.port s.seqLead).mode))
  ({ s with seq := { s.seq with ph := .charging, fitted := true } } : State).seqTell

theorem State.fitDue_ph (s : State) : s.fitDue.seq.ph = .charging := by
  simp [State.fitDue]

theorem execFirstFitDue_unfitted {s : State} (phase : (s.atPh .kn || s.atPh .charging) = true) (unfitted : s.seq.fitted = false) :
    execFirstFitDue s =
      .next (if s.fitDue.busRose s.seqLead then s.fitDue.seqFit s.seqLead else s.fitDue.noRise s.seqLead) := by
  have due : ¬(!(s.atPh .kn || s.atPh .charging) || s.seq.fitted) = true := by simp [phase, unfitted]
  exact congrArg Host.Outcome.next (if_neg due)

theorem execPrechargeTimeout_charging {s : State} (phase : (s.atPh .kn || s.atPh .charging) = true) :
    execPrechargeTimeout s = .next ((((s.at (s.seq.tc + s.seq.tout)).seqAbort 0x0A).finding 35 s.seqLead
      { value := (s.at (s.seq.tc + s.seq.tout)).vBus s.seqLead }).seqKick) := by
  simp [execPrechargeTimeout, phase]

/-! ## Close, open and wait times (R316, R322, R328) -/

/-- KN has had its close time, and pre-charge is charging. -/
def State.knClosed (s : State) : State :=
  let s := s.at s.seq.tc
  ({ s with seq := { s.seq with ph := .charging } } : State).seqTell

theorem State.knClosed_ph (s : State) : s.knClosed.seq.ph = .charging := by
  simp [State.knClosed]

theorem State.knClosed_now (s : State) : s.knClosed.now = max s.now s.seq.tc :=
  State.seqTell_now _

theorem execCloseTimeElapsed_kn {s : State} (phase : s.atPh .kn = true) : execCloseTimeElapsed s = .next s.knClosed := by
  simp [execCloseTimeElapsed, State.knClosed, phase]

theorem execCloseVerifyTimeout_kp {s : State} {i : Nat} (phase : (s.atPh .kp || s.atPh .kpWin) = true)
    (pos : s.ctrOf s.seqLead .kp = some i) :
    execCloseVerifyTimeout s = .next ((if (s.at (s.seq.t + s.closeNs i + ms 50)).kpOk s.seqLead
      then (s.at (s.seq.t + s.closeNs i + ms 50)).kpVerified s.seqLead
      else (s.at (s.seq.t + s.closeNs i + ms 50)).seqF33 [i]).seqKick) := by
  simp only [execCloseVerifyTimeout, phase, pos, if_true]

theorem execPreOpenVerify_preOff {s : State} {i : Nat} (phase : s.atPh .preOff = true) (pre : s.ctrOf s.seqLead .pre = some i) :
    execPreOpenVerify s = .next ((if (s.at (s.seq.t + s.openNs i + ms 20)).auxClosed i
      then (s.at (s.seq.t + s.openNs i + ms 20)).seqF32 [i]
      else ((s.at (s.seq.t + s.openNs i + ms 20)).setCtr i .isOpen).memberDone).seqKick) := by
  simp [execPreOpenVerify, phase, pre]

theorem execWindowWaitExpiry_waiting {s : State} (phase : (s.atPh .waitSamples || s.atPh .waitWindow) = true) :
    execWindowWaitExpiry s = .next (((s.at (s.seq.t0 + ms s.gen.windowWait)).memberEnd 0x0C).seqKick) := by
  simp [execWindowWaitExpiry, phase]

/-! ## The statement -/

/-- Settles O4, deadline by deadline. -/
theorem closeSequenceTimers : Obligations.CloseSequenceTimers := by
  rintro s _ rfl
  refine ⟨?test, ?fit, fun phase => ⟨_, rfl, execPrechargeTimeout_charging phase⟩, ?close,
    fun i phase pos => ⟨_, rfl, execCloseVerifyTimeout_kp phase pos⟩,
    fun i phase pre => ⟨_, rfl, execPreOpenVerify_preOff phase pre⟩, execWindowWaitExpiry_waiting⟩
  case test =>
    intro i kn pre neg phase free fed
    exact ⟨_, execPrecloseTestEnd_passed pre neg phase free fed, State.prechargeBegin_ph _ _ _, State.prechargeBegin_tout _ _ _⟩
  case fit =>
    intro phase unfitted
    exact ⟨_, s.fitDue, execFirstFitDue_unfitted phase unfitted, s.fitDue_ph, rfl⟩
  case close =>
    intro phase
    exact ⟨s.knClosed, execCloseTimeElapsed_kn phase, s.knClosed_ph, s.knClosed_now⟩

end Sys2Proof.Machine
end

