-- ==== Sys2Proof/Proofs/ChecksAtOpen.lean ====
section
/-! PROOF. The checks after an opening (chapter 12, R321, R327, R328, R331), each under the condition that it is due. The end of a wait
moves module time to the instant at which it falls due (assumption log 11). -/

namespace Sys2Proof.Machine

open Sys2Proof

/-! ## The two contactors of a string (R327, R328) -/

theorem execCheckAtOpen_first {s : State} {p : Nat} (string : s.leadOf p < 17) (up : s.drv.coresUp = true)
    (phase : (s.opn (s.leadOf p)).ph = .first) :
    execCheckAtOpen p s = .next (if (s.at (s.checkDue (s.leadOf p))).checkHas (s.leadOf p)
      then ((s.at (s.checkDue (s.leadOf p))).checkOpen (s.leadOf p)).seqKick
      else (s.at (s.checkDue (s.leadOf p))).onOpn (s.leadOf p) (fun o => { o with await := true })) := by
  simp [execCheckAtOpen, string, up, phase]

theorem execCheckAtOpenNoData_first {s : State} {p : Nat} (up : s.drv.coresUp = true) (phase : (s.opn (s.leadOf p)).ph = .first)
    (noData : s.checkHas (s.leadOf p) = false) :
    execCheckAtOpenNoData p s =
      .next (((s.at (s.checkDue (s.leadOf p) + ms 100)).checkNoData (s.leadOf p)).seqKick) := by
  simp [execCheckAtOpenNoData, up, phase, noData]

/-- In each phase in which the contactor that opens second is still to be judged, its open time ends in the judgement. -/
theorem execSecondContactorCheck_unjudged {s : State} {p : Nat} (up : s.drv.coresUp = true)
    (phase : (s.opn (s.leadOf p)).ph = .second ∨ (s.opn (s.leadOf p)).ph = .suspect ∨ (s.opn (s.leadOf p)).ph = .released ∨
      (s.opn (s.leadOf p)).ph = .noData) :
    execSecondContactorCheck p s = .next
      (((s.at (s.openDue (s.leadOf p) (s.otherOf (s.leadOf p)))).secondCheck (s.leadOf p)).seqKick) := by
  obtain second | suspect | released | noData := phase
  · simp [execSecondContactorCheck, up, second]
  · simp [execSecondContactorCheck, up, suspect]
  · simp [execSecondContactorCheck, up, released]
  · simp [execSecondContactorCheck, up, noData]

/-! ## The bus after an opening (R328) -/

/-- The discharge watch of an opening ends at its deadline. -/
def State.busWatchEnd (s : State) (p : Nat) : State :=
  (s.at (s.opn p).busT).onOpn p (fun o => { o with bus := false })

theorem State.busWatchEnd_bus (s : State) (p : Nat) : ((s.busWatchEnd p).opn p).bus = false := by
  simp [State.busWatchEnd]

theorem State.busWatchEnd_now (s : State) (p : Nat) : (s.busWatchEnd p).now = max s.now (s.opn p).busT := rfl

theorem execBusDischargeTimeout_discharged {s : State} {p : Nat} (watch : (s.opn (s.leadOf p)).bus = true)
    (discharged : 9 * s.vStr (s.leadOf p) ≤ 10 * ((s.str (s.leadOf p)).vx.getD 0).natAbs) :
    execBusDischargeTimeout p s = .next (s.busWatchEnd (s.leadOf p)) := by
  have after : 9 * (s.busWatchEnd (s.leadOf p)).vStr (s.leadOf p) ≤
      10 * (((s.busWatchEnd (s.leadOf p)).str (s.leadOf p)).vx.getD 0).natAbs := discharged
  unfold State.busWatchEnd at after
  simp only [execBusDischargeTimeout, State.busWatchEnd, watch, after, Bool.not_true, Bool.false_eq_true, if_false, if_true]

/-! ## Coil echoes (R331) -/

/-- The echo that `x` waits for has not come: its wait ends, and its channel is marked. -/
def State.echoMissed (s : State) (ch : Nat) (x : Nat × Nat) : State :=
  let s := s.at (x.2 + ms 2)
  { s with pair := { s.pair with
      coilWait := s.pair.coilWait.filter (fun y => y ≠ x), noEcho := s.pair.noEcho ||| (1#12 <<< ch) } }

theorem execCoilEchoTimeout_waiting {s : State} {ch : Nat} {x : Nat × Nat}
    (waits : s.pair.coilWait.find? (fun y => y.1 == ch) = some x) :
    execCoilEchoTimeout ch s = .next ((s.echoMissed ch x).f37Settle ch) := by
  simp only [execCoilEchoTimeout, State.echoMissed, waits]

/-! ## The statement -/

/-- Settles O5, check by check. -/
theorem checksAtOpenComplete : Obligations.ChecksAtOpenComplete := by
  intro s p
  refine ⟨?first, execCheckAtOpenNoData_first, execSecondContactorCheck_unjudged, ?bus, rfl, ?echo⟩
  case first =>
    rintro _ string up phase rfl
    exact execCheckAtOpen_first string up phase
  case bus =>
    intro watch discharged
    exact ⟨_, execBusDischargeTimeout_discharged watch discharged, s.busWatchEnd_bus _, s.busWatchEnd_now _⟩
  case echo =>
    intro x waits
    exact ⟨s.echoMissed p x, execCoilEchoTimeout_waiting waits, rfl, rfl, rfl⟩

end Sys2Proof.Machine
end

