-- ==== Sys2Proof/Proofs/OutputRows.lean ====
section
/-! PROOF. The commands of the output channels, the watchdogs and limp-home (chapter 13; 21 R518; 23 R557): what each does under the
condition that its event can happen. The end of a wait moves module time to the instant at which it falls due (assumption log 11). -/

namespace Sys2Proof.Machine

open Sys2Proof

/-! ## What telling of an event leaves alone -/

/-- The state with other event registers, another host side and other items sent: what an event or its record may change. -/
def State.told (s : State) (ev : Tab EvReg EvSt) (host : HostIf) (sent : List Output) : State :=
  { s with ev := ev, host := host, sent := sent }

theorem State.raiseIrq_told (s : State) (src : Nat) : ∃ ev host sent, s.raiseIrq src = s.told ev host sent := by
  unfold State.raiseIrq
  dsimp only
  split
  · unfold State.msix
    split
    · exact ⟨_, _, _, rfl⟩
    · exact ⟨_, _, _, rfl⟩
  · exact ⟨_, _, _, rfl⟩

theorem State.event_told (s : State) (r : EvReg) (n : Nat) : ∃ ev host sent, s.event r n = s.told ev host sent := by
  rcases s.event_cases r n with quiet | ⟨src, raised⟩
  · exact ⟨_, _, _, quiet⟩
  · obtain ⟨ev, host, sent, irq⟩ := (s.setBits r (1#32 <<< n)).raiseIrq_told src
    exact ⟨ev, host, sent, raised.trans irq⟩

theorem State.eventRec_told (s : State) (kind code subject port : Nat) (v1 v2 v3 : Int) :
    ∃ ev host sent, s.eventRec kind code subject port v1 v2 v3 = s.told ev host sent := by
  unfold State.eventRec State.record
  split
  · exact ⟨_, _, _, rfl⟩
  · exact ⟨_, _, _, rfl⟩

/-- A part of the state that `told` keeps, an event keeps. -/
theorem State.event_keeps {β : Type} (part : State → β) (h : ∀ s ev host sent, part (State.told s ev host sent) = part s)
    (s : State) (r : EvReg) (n : Nat) : part (s.event r n) = part s := by
  obtain ⟨ev, host, sent, event⟩ := s.event_told r n
  rw [event, h]

/-- A part of the state that `told` keeps, an event record keeps. -/
theorem State.eventRec_keeps {β : Type} (part : State → β) (h : ∀ s ev host sent, part (State.told s ev host sent) = part s)
    (s : State) (kind code subject port : Nat) (v1 v2 v3 : Int) :
    part (s.eventRec kind code subject port v1 v2 v3) = part s := by
  obtain ⟨ev, host, sent, record⟩ := s.eventRec_told kind code subject port v1 v2 v3
  rw [record, h]

@[simp] theorem State.event_now (s : State) (r : EvReg) (n : Nat) : (s.event r n).now = s.now :=
  State.event_keeps State.now (fun _ _ _ _ => rfl) s r n
@[simp] theorem State.event_outc (s : State) (r : EvReg) (n ch : Nat) : (s.event r n).outc ch = s.outc ch :=
  State.event_keeps (fun t => t.outc ch) (fun _ _ _ _ => rfl) s r n
@[simp] theorem State.event_drv (s : State) (r : EvReg) (n : Nat) : (s.event r n).drv = s.drv :=
  State.event_keeps State.drv (fun _ _ _ _ => rfl) s r n
@[simp] theorem State.event_lsws (s : State) (r : EvReg) (n : Nat) : (s.event r n).lsws = s.lsws :=
  State.event_keeps State.lsws (fun _ _ _ _ => rfl) s r n
@[simp] theorem State.event_repair (s : State) (r : EvReg) (n : Nat) : (s.event r n).repair = s.repair :=
  State.event_keeps State.repair (fun _ _ _ _ => rfl) s r n
@[simp] theorem State.event_isCoil (s : State) (r : EvReg) (n ch : Nat) : (s.event r n).isCoil ch = s.isCoil ch :=
  State.event_keeps (fun t => t.isCoil ch) (fun _ _ _ _ => rfl) s r n

section EventRec
variable (s : State) (kind code subject port : Nat) (v1 v2 v3 : Int)

@[simp] theorem State.eventRec_now : (s.eventRec kind code subject port v1 v2 v3).now = s.now :=
  State.eventRec_keeps State.now (fun _ _ _ _ => rfl) s kind code subject port v1 v2 v3
@[simp] theorem State.eventRec_outc (ch : Nat) : (s.eventRec kind code subject port v1 v2 v3).outc ch = s.outc ch :=
  State.eventRec_keeps (fun t => t.outc ch) (fun _ _ _ _ => rfl) s kind code subject port v1 v2 v3
@[simp] theorem State.eventRec_drv : (s.eventRec kind code subject port v1 v2 v3).drv = s.drv :=
  State.eventRec_keeps State.drv (fun _ _ _ _ => rfl) s kind code subject port v1 v2 v3
@[simp] theorem State.eventRec_lsws : (s.eventRec kind code subject port v1 v2 v3).lsws = s.lsws :=
  State.eventRec_keeps State.lsws (fun _ _ _ _ => rfl) s kind code subject port v1 v2 v3
@[simp] theorem State.eventRec_isCoil (ch : Nat) : (s.eventRec kind code subject port v1 v2 v3).isCoil ch = s.isCoil ch :=
  State.eventRec_keeps (fun t => t.isCoil ch) (fun _ _ _ _ => rfl) s kind code subject port v1 v2 v3

end EventRec

/-! ## Which channels switch a coil, and time -/

@[simp] theorem State.at_isCoil (s : State) (t ch : Nat) : (s.at t).isCoil ch = s.isCoil ch := rfl
@[simp] theorem State.onOutc_isCoil (s : State) (k ch : Nat) (g : OutCh → OutCh) : (s.onOutc k g).isCoil ch = s.isCoil ch := rfl
@[simp] theorem State.onOutc_now (s : State) (k : Nat) (g : OutCh → OutCh) : (s.onOutc k g).now = s.now := rfl

/-! ## Trips, restarts and loads (R336, R337, R339) -/

/-- A trip switches a channel without a coil off and takes a retry; the last retry taken adds its own event and record alone. -/
theorem execChannelTrip_noCoil {s : State} {ch : Nat} (c : TripCause) (i : Int) (on : (s.outc ch).on = true)
    (noCoil : s.isCoil ch = false) : ∃ t : State, execChannelTrip ch c i s = .next t ∧ (t.outc ch).on = false ∧
      (t.outc ch).tripped = true ∧ (t.outc ch).retries = (s.outc ch).retries - 1 ∧ (t.outc ch).cur = i := by
  refine ⟨_, rfl, ?_⟩
  by_cases last : (s.outc ch).retries - 1 = 0
  · simp [on, noCoil, last]
  · simp [on, noCoil, last]

/-- A channel that was cleared restarts whatever its retries are, 100 ms after its trip, under the conditions of R339. -/
theorem execAutomaticRestart_cleared {s : State} {ch : Nat} {v : Int} (tripped : (s.outc ch).tripped = true)
    (cmd : (s.outc ch).cmd = true) (cool : v < 15000) (noCoil : s.isCoil ch = false) (noHold : s.drv.hold = false)
    (noLimp : s.drv.limp = false) (cleared : (s.outc ch).cleared = true) (restart : (s.outc ch).restart = true)
    (up : s.outUp = true) (fed : s.fed ch = true) :
    ∃ t : State, execAutomaticRestart ch v s = .next t ∧ (t.outc ch).on = true ∧ (t.outc ch).tripped = false ∧
      t.now = max s.now ((s.outc ch).tripT + ms 100) := by
  refine ⟨_, rfl, ?_⟩
  simp [tripped, cmd, cool, noCoil, noHold, noLimp, cleared, restart, up, fed]

theorem execRetryRestore_on {s : State} {ch : Nat} (on : (s.outc ch).on = true) (whole : (s.outc ch).tripped = false) :
    execRetryRestore ch s = .next ((s.at ((s.outc ch).onT + sec 60)).onOutc ch (fun o => { o with retries := s.retriesOf ch })) := by
  simp [execRetryRestore, on, whole]

/-- The load of a thermal channel that is on is judged; the finding is told only where it is new. -/
theorem execOpenLoad_thermal {s : State} {ch : Nat} (v : Int) (on : (s.outc ch).on = true) (noCoil : s.isCoil ch = false)
    (thermal : (s.outCfg ch).use = .thermal) :
    ∃ t : State, execOpenLoad ch v s = .next t ∧ (t.outc ch).openLoad = decide (v.natAbs < 20) := by
  refine ⟨_, rfl, ?_⟩
  have used : (OutUse.thermal != .unused) = true := rfl
  by_cases found : v.natAbs < 20 <;> cases old : (s.outc ch).openLoad <;>
    simp [on, noCoil, thermal, used, found, old]

/-! ## LSW faults (R333, R342) -/

/-- What the sensors of an LSW show is taken. -/
def State.lswRead (s : State) (j : Nat) (x : LswRead) : State :=
  s.onLsw j (fun l => { l with cur := x.cur, vds := x.vds, temp := x.temp })

/-- F38 is marked on an LSW, with the state of its latch. -/
def State.lswMark (s : State) (j : Nat) : State :=
  s.onLsw j (fun l => { l with f38 := true, f38Closed := l.closed })

@[simp] theorem State.lswRead_lsw (s : State) (j : Nat) (x : LswRead) :
    (s.lswRead j x).lsw j = { s.lsw j with cur := x.cur, vds := x.vds, temp := x.temp } := State.onLsw_lsw ..

@[simp] theorem State.lswMark_lsw (s : State) (j : Nat) :
    (s.lswMark j).lsw j = { s.lsw j with f38 := true, f38Closed := (s.lsw j).closed } := State.onLsw_lsw ..

@[simp] theorem State.lswRead_gen (s : State) (j : Nat) (x : LswRead) : (s.lswRead j x).gen = s.gen := rfl

theorem execLswFault_fails {s : State} {j : Nat} {x : LswRead} (used : s.gen.lswUsed.getD j false = true)
    (fails : lswFails (s.lsw j).closed x = true) :
    execLswFault j x s = .next (((s.lswRead j x).lswMark j).stand 38 16 { value := ((16 * x.kind.ctorIdx + j : Nat) : Int) }) := by
  have stands : ¬(!(s.lswRead j x).gen.lswUsed.getD j false || !lswFails ((s.lswRead j x).lsw j).closed x) = true := by
    simp [-List.getD_eq_getElem?_getD, used, fails]
  exact congrArg Host.Outcome.next (if_neg stands)

theorem execLswFault_sound {s : State} {j : Nat} {x : LswRead} (sound : lswFails (s.lsw j).closed x = false) :
    execLswFault j x s = .next (s.lswRead j x) := by
  have quiet : (!(s.lswRead j x).gen.lswUsed.getD j false || !lswFails ((s.lswRead j x).lsw j).closed x) = true := by
    simp [sound]
  exact congrArg Host.Outcome.next (if_pos quiet)

/-! ## Watchdogs, supervision and the hold window (R344; 21 R520; 23 R557) -/

/-- A mismatch of the lockstep cores is on record (R557), before SAFE is reset. -/
def State.lockstepNoted (s : State) : State :=
  ({ s with repair := { s.repair with lockstep := true } } : State).event .repair 6

theorem State.lockstepNoted_lockstep (s : State) : s.lockstepNoted.repair.lockstep = true := by
  simp [State.lockstepNoted]

theorem execSupervisionResumed_may {s : State} (may : s.coresMay = true) : execSupervisionResumed s = .next (
    if s.coresResume.isPair && s.coresResume.pair.trained && s.coresResume.pwr.st == .run then s.coresResume.hbSend
    else s.coresResume) := by
  simp [execSupervisionResumed, may]

/-- The hold window has expired: the safety cores are declared dead, and the switch-off is awaited. -/
def State.holdExpired (s : State) : State :=
  let s := s.at s.drv.holdEnd
  let s := { s with drv := { s.drv with
    hold := false, dead := true, switchOff := true, switchOffT := s.now + ms s.fuse.set.wait } }
  (s.event .drv 9).eventRec 2 8 0 255 3 0 0

theorem State.holdExpired_drv (s : State) : s.holdExpired.drv = { s.drv with
    hold := false, dead := true, switchOff := true, switchOffT := max s.now s.drv.holdEnd + ms s.fuse.set.wait } := by
  simp only [State.holdExpired, State.eventRec_drv, State.event_drv]
  rfl

theorem State.holdExpired_lsws (s : State) : s.holdExpired.lsws = s.lsws := by
  simp [State.holdExpired]

theorem execHoldWindowExpiry_hold {s : State} (hold : s.drv.hold = true) :
    execHoldWindowExpiry s = .next (s.holdExpired.stand 63 16 {}) := by
  simp [execHoldWindowExpiry, State.holdExpired, hold]

/-- The coils are switched off as the hold window ended, apart from those limp-home has taken (R344 step 3). -/
def State.coilsCut (s : State) : State :=
  let s := s.at s.drv.switchOffT
  let s := { s with drv := { s.drv with switchOff := false } }
  ((List.range 12).filter (fun ch => s.isCoil ch && !(s.drv.limp && s.limpSel ch))).foldl
    (fun s ch => (s.channel ch false).coilCut ch) s

theorem execHoldSwitchOff_awaited {s : State} (awaited : s.drv.switchOff = true) :
    execHoldSwitchOff s = .next (s.coilsCut.limpEnter 2) := by
  simp [execHoldSwitchOff, State.coilsCut, awaited]

/-! ## LIMP_N and DIN (R345, R346, R347) -/

/-- The level of LIMP_N is taken. -/
def State.limpLevel (s : State) (high : Bool) : State := { s with drv := { s.drv with limpN := high } }

theorem execLimpNLow_supplied {s : State} (supplied : s.drvUp = true) :
    execLimpNLow s = .next ((s.limpLevel false).limpEnter 1).seqKick :=
  congrArg Host.Outcome.next (if_pos supplied)

theorem execLimpNHigh_supervised {s : State} (up : s.drv.coresUp = true) :
    execLimpNHigh s = .next (s.limpLevel true).limpExit :=
  congrArg Host.Outcome.next (if_pos up)

/-- Outside limp-home an edge of DIN is noted, and no channel follows it. -/
theorem execDinEdge_high {s : State} (n : Nat) (noLimp : s.drv.limp = false) :
    execDinEdge n true s = .next { s with drv := { s.drv with din := s.drv.din ||| (1#4 <<< n) } } := by
  simp [execDinEdge, noLimp]

/-! ## The statement -/

/-- Settles O15, command by command. -/
theorem outputRowsComplete : Obligations.OutputRowsComplete := by
  intro s ch
  refine ⟨execChannelTrip_noCoil, fun v => execAutomaticRestart_cleared, ?restore, execOpenLoad_thermal, ?fault, ?sound, rfl, rfl,
    ⟨s.lockstepNoted, s.lockstepNoted_lockstep, rfl⟩, ?resumed, ?expiry,
    fun awaited => ⟨s.coilsCut, execHoldSwitchOff_awaited awaited⟩,
    fun supplied => ⟨s.limpLevel false, rfl, execLimpNLow_supplied supplied⟩,
    fun up => ⟨s.limpLevel true, rfl, execLimpNHigh_supervised up⟩, ?din⟩
  case restore =>
    intro on whole
    exact ⟨_, execRetryRestore_on on whole, by simp, rfl⟩
  case fault =>
    intro j x used fails
    exact ⟨_, execLswFault_fails used fails, by simp⟩
  case sound =>
    intro j x sound
    exact ⟨_, execLswFault_sound sound, rfl, by simp⟩
  case resumed =>
    rintro _ may rfl
    exact execSupervisionResumed_may may
  case expiry =>
    intro hold
    exact ⟨s.holdExpired, execHoldWindowExpiry_hold hold, by simp [s.holdExpired_drv], by simp [s.holdExpired_drv],
      by simp [s.holdExpired_drv], s.holdExpired_lsws⟩
  case din =>
    intro n small noLimp
    exact ⟨_, execDinEdge_high n noLimp, by simp [small], rfl⟩

end Sys2Proof.Machine
end

