-- ==== Sys2Proof/Proofs/SafetyAndSeal.lean ====
section
/-! PROOF. The host commands of the safety and seal group (14 R367–R372; 19 R477; 22 R541, R542): what each does when its checks
pass, and that a maintenance session opens only by MAINT_OPEN, with every contactor OPEN and the seal in force as its value. -/

namespace Sys2Proof.Machine

open Sys2Proof

/-! ## Accepted commands (19 R464) -/

/-- The state with another host side and another instant from which a maintenance session counts: what accepting a command may
change. -/
def State.logged (s : State) (host : HostIf) (t : Nat) : State :=
  { s with host := host, cfg := { s.cfg with maintT := t } }

theorem State.took_logged (s : State) (op : Nat) (d : Desc) : ∃ host t, s.took op d = s.logged host t := by
  unfold State.took State.accept
  dsimp only
  split
  · exact ⟨_, _, rfl⟩
  · exact ⟨_, _, rfl⟩

/-- A part of the state that `logged` keeps, an accepted command finds. -/
theorem State.took_keeps {β : Type} (part : State → β) (h : ∀ s host t, part (State.logged s host t) = part s) (s : State)
    (op : Nat) (d : Desc) : part (s.took op d) = part s := by
  obtain ⟨host, t, accepted⟩ := s.took_logged op d
  rw [accepted, h]

section Took
variable (s : State) (op : Nat) (d : Desc)

@[simp] theorem State.took_now : (s.took op d).now = s.now := State.took_keeps State.now (fun _ _ _ => rfl) s op d
@[simp] theorem State.took_fuse : (s.took op d).fuse = s.fuse := State.took_keeps State.fuse (fun _ _ _ => rfl) s op d
@[simp] theorem State.took_pwr : (s.took op d).pwr = s.pwr := State.took_keeps State.pwr (fun _ _ _ => rfl) s op d
@[simp] theorem State.took_conf : (s.took op d).conf = s.conf := State.took_keeps State.conf (fun _ _ _ => rfl) s op d
@[simp] theorem State.took_valid : (s.took op d).cfg.valid = s.cfg.valid :=
  State.took_keeps (fun t => t.cfg.valid) (fun _ _ _ => rfl) s op d
@[simp] theorem State.took_pend : (s.took op d).cfg.pend = s.cfg.pend :=
  State.took_keeps (fun t => t.cfg.pend) (fun _ _ _ => rfl) s op d
@[simp] theorem State.took_mism : (s.took op d).cfg.mism = s.cfg.mism :=
  State.took_keeps (fun t => t.cfg.mism) (fun _ _ _ => rfl) s op d
@[simp] theorem State.took_maint : (s.took op d).cfg.maint = s.cfg.maint :=
  State.took_keeps (fun t => t.cfg.maint) (fun _ _ _ => rfl) s op d
@[simp] theorem State.took_sealInForce : (s.took op d).sealInForce = s.sealInForce :=
  State.took_keeps State.sealInForce (fun _ _ _ => rfl) s op d
@[simp] theorem State.took_maintAllowed : (s.took op d).maintAllowed = s.maintAllowed :=
  State.took_keeps State.maintAllowed (fun _ _ _ => rfl) s op d

end Took

/-- A command with good parameters whose permissions hold, and that meets none of its opcode, acts by its body. -/
theorem State.command_admitted {s : State} {op : Nat} {d : Desc} {okPar : Bool} {perms : List Perm} {bars : Bool}
    {body : State → CmdRef → State} (params : okPar = true) (admitted : s.admits op perms bars = true) :
    s.command op d okPar perms bars false body = body (s.took op d) (s.refOf op d) := by
  obtain ⟨permitted, idle⟩ := by simpa [State.admits] using admitted
  exact params ▸ s.command_runs op d perms bars false body permitted rfl idle

/-- A command without permissions is admitted when none of its opcode runs. -/
theorem State.admits_free {s : State} {op : Nat} (idle : s.busy op = false) : s.admits op [] false = true := by
  simp [State.admits, idle]

/-- A command completes without acting, or acts by its body. -/
theorem State.command_finishes_or_runs (s : State) (op : Nat) (d : Desc) (okPar : Bool) (perms : List Perm) (bars busy : Bool)
    (body : State → CmdRef → State) :
    (∃ status, s.command op d okPar perms bars busy body = s.finish (s.refOf op d) status 0 [] false) ∨
      s.command op d okPar perms bars busy body = body (s.took op d) (s.refOf op d) := by
  obtain ⟨-, e⟩ | ⟨-, p, -, -, e⟩ | ⟨-, -, -, e⟩ | ⟨-, -, -, -, e⟩ := s.command_cases op d okPar perms bars busy body
  · exact .inl ⟨_, e⟩
  · exact .inl ⟨_, e⟩
  · exact .inl ⟨_, e⟩
  · exact .inr e

/-! ## The configuration blob (14 R368) -/

theorem execCfgLoad_admitted {s : State} {d : Desc} {b : Blob} (imm : d.imm = 0#32) (len : d.paramLen = b.bytes.length)
    (pos : 1 ≤ b.bytes.length) (small : b.bytes.length ≤ 262144) (admitted : s.admits 0x41 [.P, .m] false = true)
    (rules : (s.took 0x41 d).cfgOk b.cfg = true) :
    execCfgLoad d b s = .next (((s.took 0x41 d).pendTake b).okay (s.refOf 0x41 d) (crc32c b.bytes).toNat []) := by
  have params : (d.imm == 0#32 && d.paramLen == b.bytes.length && 1 ≤ b.bytes.length && b.bytes.length ≤ 262144) = true := by
    simp [imm, len, pos, small]
  rw [execCfgLoad, State.command_admitted params admitted, rules]
  rfl

/-- The pending blob was confirmed with a value that is not its CRC-32C. -/
def State.mismatched (s : State) : State := { s with cfg := { s.cfg with mism := s.cfg.mism + 1 } }

/-- What SEAL_CONFIRM does with the pending blob `b` (14 R368 steps 4–6). -/
theorem execSealConfirm_pending {s : State} {d : Desc} {b : Blob} (len : d.paramLen = 0)
    (admitted : s.admits 0x43 [.P, .m, .O] true = true) (pending : s.cfg.pend = some b) :
    execSealConfirm d s = .next (
      if crc32c b.bytes == d.imm then
        if (s.took 0x43 d).limitsFit b.cfg then (s.took 0x43 d).sealConfirmed (s.refOf 0x43 d) b d.imm
        else (s.took 0x43 d).pendDrop.fail (s.refOf 0x43 d) 7
      else
        (if (s.took 0x43 d).cfg.mism + 1 = 3 then (s.took 0x43 d).mismatched.pendDrop else (s.took 0x43 d).mismatched).fail
          (s.refOf 0x43 d) 2) := by
  have params : (d.paramLen == 0) = true := by simp [len]
  have found : (s.took 0x43 d).cfg.pend = some b := (s.took_pend ..).trans pending
  rw [execSealConfirm, State.command_admitted params admitted, found]
  rfl

@[simp] theorem State.raiseIrq_cfg (s : State) (src : Nat) : (s.raiseIrq src).cfg = s.cfg := by
  obtain ⟨ev, host, sent, raised⟩ := s.raiseIrq_told src
  rw [raised, State.told]

/-- No blob is pending once it is discarded. -/
theorem State.pendDrop_pend (s : State) : s.pendDrop.cfg.pend = none := by
  unfold State.pendDrop
  split
  next none => exact none
  · simp

/-! ## Maintenance sessions (14 R371) -/

/-- A maintenance session opens. -/
def State.maintBegin (s : State) : State := { s with cfg := { s.cfg with maint := true, maintT := s.now } }

theorem execMaintOpen_admitted {s : State} {d : Desc} (len : d.paramLen = 0) (idle : s.busy 0x44 = false)
    (allowed : s.maintAllowed = true) (valid : s.cfg.valid = true) (sealed : d.imm.toNat = s.sealInForce) :
    execMaintOpen d s = .next (((s.took 0x44 d).maintBegin.eventRec 6 3 0 255 1 0 0).okay (s.refOf 0x44 d) 0 []) := by
  have params : (d.paramLen == 0) = true := by simp [len]
  rw [execMaintOpen, State.command_admitted params (State.admits_free idle)]
  simp [allowed, valid, sealed, State.maintBegin]

/-- MAINT_OPEN leaves no session open where none was, unless every check of R371 and R477 passes. -/
theorem execMaintOpen_opens {s t : State} {d : Desc} (run : execMaintOpen d s = .next t) (closed : s.cfg.maint = false)
    (opened : t.cfg.maint = true) : s.maintAllowed = true ∧ s.cfg.valid = true ∧ d.imm.toNat = s.sealInForce := by
  obtain rfl := Host.Outcome.next.inj run
  obtain ⟨status, refused⟩ | runs := s.command_finishes_or_runs 0x44 d (d.paramLen == 0) [] false false _
  · rw [refused] at opened
    simp [closed] at opened
  rw [runs] at opened
  simp only [State.took_maintAllowed, State.took_valid, State.took_sealInForce] at opened
  split at opened
  · simp [State.fail, closed] at opened
  next allowed =>
  split at opened
  · simp [State.fail, closed] at opened
  next sealed => exact ⟨by simpa using allowed, by simpa using sealed⟩

theorem State.maintAllowed_allOpen {s : State} (allowed : s.maintAllowed = true) : s.allOpen = true :=
  (Bool.and_eq_true_iff.1 allowed).1

theorem execMaintClose_admitted {s : State} {d : Desc} (imm : d.imm = 0#32) (len : d.paramLen = 0) (idle : s.busy 0x45 = false) :
    execMaintClose d s = .next (((s.took 0x45 d).maintEnd 1).okay (s.refOf 0x45 d) 0 []) := by
  have params : (d.imm == 0#32 && d.paramLen == 0) = true := by simp [imm, len]
  rw [execMaintClose, State.command_admitted params (State.admits_free idle)]

/-! ## Fuse programming (22 R542) -/

/-- The level at the programming supply pin and the hold-up are as FUSE_PROGRAM finds them (02 R58; 22 R542 step 1). -/
def State.supplyMeasured (s : State) (x : ProgRead) : State :=
  ({ s with pwr := { s.pwr with vprog := x.vprog } } : State).holdupNow x.holdup

/-- An image that passes every check is programmed into the lowest free slot. -/
theorem execFuseProgram_passed {s : State} {d : Desc} {image : List Byte} {x : ProgRead} (imm : d.imm = 0#32)
    (len : d.paramLen = 128) (size : image.length = 128) (admitted : (s.supplyMeasured x).admits 0x46 [.m, .O] false = true)
    (room : s.fuse.free < 4) (held : 200 ≤ x.holdup) (low : 2375 ≤ x.vprog) (high : x.vprog ≤ 2625)
    (passes : imageOk s.fuse.free image = true)
    (fits : (s.cfg.valid && !s.conf.ports.all (fun x => limitsOk (fuseParse image) x.2)) = false)
    (strict : noLooser (fuseParse image) s.fuse.set = true) :
    execFuseProgram d image x s = .next (
      if x.ok then
        (((s.supplyMeasured x).took 0x46 d).fuseTaken s.fuse.free image).okay ((s.supplyMeasured x).refOf 0x46 d) s.fuse.free []
      else (((s.supplyMeasured x).took 0x46 d).fuseFailed s.fuse.free).fail ((s.supplyMeasured x).refOf 0x46 d) 6) := by
  have params : (d.imm == 0#32 && d.paramLen == 128 && image.length == 128) = true := by simp [imm, len, size]
  have fuse : (s.supplyMeasured x).fuse = s.fuse := rfl
  have conf : (s.supplyMeasured x).conf = s.conf := rfl
  have valid : (s.supplyMeasured x).cfg.valid = s.cfg.valid := rfl
  have supply : ¬((s.supplyMeasured x).pwr.holdup < 200 ||
      !decide (2375 ≤ (s.supplyMeasured x).pwr.vprog ∧ (s.supplyMeasured x).pwr.vprog ≤ 2625)) = true := by
    have measured : (s.supplyMeasured x).pwr.holdup = x.holdup ∧ (s.supplyMeasured x).pwr.vprog = x.vprog := ⟨rfl, rfl⟩
    simp [measured, held, low, high]
  rw [execFuseProgram, ← State.supplyMeasured, State.command_admitted params admitted]
  simp only [State.took_fuse, State.took_pwr, State.took_conf, State.took_valid, fuse, conf, valid, passes, strict, fits,
    if_neg supply, if_neg (Nat.not_le.2 room), Bool.not_true, Bool.or_self, Bool.false_eq_true, if_false]

/-! ## Commands that are not tame open no session -/

/-- Beside what is tame the command changes only the pack. -/
theorem execEmergencySupply_maint {s t : State} {d : Desc} (run : execEmergencySupply d s = .next t) :
    t.cfg.maint = true → s.cfg.maint = true := by
  obtain rfl := Host.Outcome.next.inj run
  obtain tame | ⟨u, r, accepted, runs⟩ := State.command_tame_or_runs (.refl s) 0x20 d _ [.P, .S] false false _
  · exact tame.maint
  · rw [runs]
    exact fun opened => accepted.maint ((State.okay_tame (.refl _) ..).maint opened :)

theorem execEmergencySupplyLapse_maint {s t : State} (run : execEmergencySupplyLapse s = .next t) :
    t.cfg.maint = true → s.cfg.maint = true := by
  obtain rfl := Host.Outcome.next.inj run
  split
  · exact id
  next t0 _ => exact (State.at_tame (.refl s) t0).maint

theorem State.seqBegin_maint (s : State) (r : CmdRef) (g : Nat) (opened : (s.seqBegin r g).cfg.maint = true) :
    s.cfg.maint = true :=
  ((State.seqKick_tame (State.keep_tame (.refl _) _)).maint opened :)

theorem execGroupClose_maint {s t : State} {d : Desc} (run : execGroupClose d s = .next t) :
    t.cfg.maint = true → s.cfg.maint = true := by
  obtain rfl := Host.Outcome.next.inj run
  obtain tame | ⟨u, r, accepted, runs⟩ :=
    State.command_tame_or_runs (State.maintEnd_tame (.refl s) 3) 0x30 d _ [.P, .S, .C] true _ _
  · exact tame.maint
  rw [runs]
  dsimp only
  split
  · exact (State.fail_tame accepted ..).maint
  split
  · exact (State.fail_tame accepted ..).maint
  split
  · exact (State.okay_tame accepted ..).maint
  · exact fun opened => accepted.maint (u.seqBegin_maint _ _ opened)

theorem execFuseProgram_maint {s t : State} {d : Desc} {image : List Byte} {progOk : ProgRead}
    (run : execFuseProgram d image progOk s = .next t) : t.cfg.maint = true → s.cfg.maint = true := by
  obtain rfl := Host.Outcome.next.inj run
  have measured : Tame s (s.supplyMeasured progOk) := ⟨rfl, rfl, rfl, id, id⟩
  obtain tame | ⟨u, r, accepted, runs⟩ := State.command_tame_or_runs measured 0x46 d _ [.m, .O] false false _
  · exact tame.maint
  have refused (status : Nat) : (u.fail r status).cfg.maint = true → s.cfg.maint = true := (State.fail_tame accepted ..).maint
  rw [← State.supplyMeasured, runs]
  dsimp only
  split
  · exact refused _
  split
  · exact refused _
  split
  · exact refused _
  split
  · exact refused _
  split
  · exact fun opened => accepted.maint ((State.okay_tame (u.fuseTaken_tame ..) ..).maint opened :)
  · obtain ⟨b, failed⟩ := u.fuseFailed_tame u.fuse.free
    exact fun opened => accepted.maint ((State.fail_tame failed ..).maint opened :)

/-- No maintenance session is open after a power-on reset. -/
theorem State.powerOn_closed (s : State) (v : Nat) : (s.powerOn v).cfg.maint = false := by
  obtain ⟨u, closed, reset⟩ : ∃ u : State, u.cfg.maint = false ∧ s.powerOn v = u.fuseVerify.trialStart := ⟨_, rfl, rfl⟩
  have verified : u.fuseVerify.cfg.maint = true → u.cfg.maint = true := by
    unfold State.fuseVerify
    dsimp only
    split
    · exact id
    · exact (State.stand_tame (.refl _) ..).maint
  rw [reset]
  exact Bool.eq_false_iff.2 fun opened => by simp [verified ((State.trialStart_tame (.refl _)).maint opened)] at closed

/-! ## The statements -/

/-- Settles O45: of the commands that are not tame, MAINT_OPEN alone opens a session, and a power-on reset ends the one that
is open. -/
theorem onlyMaintOpenOpensASession : Obligations.OnlyMaintOpenOpensASession := by
  intro c s t run closed opened
  have noOpening : s.cfg.maint ≠ true := by simp [closed]
  obtain tame | untamed := exec_tame_or_untamed c run
  · exact absurd (tame.maint opened) noOpening
  cases untamed with
  | emergencySupply d => exact absurd (execEmergencySupply_maint run opened) noOpening
  | emergencySupplyLapse => exact absurd (execEmergencySupplyLapse_maint run opened) noOpening
  | groupClose d => exact absurd (execGroupClose_maint run opened) noOpening
  | maintOpen d =>
    obtain ⟨allowed, valid, sealed⟩ := execMaintOpen_opens run closed opened
    exact ⟨d, rfl, State.maintAllowed_allOpen allowed, valid, sealed⟩
  | fuseProgram d image progOk => exact absurd (execFuseProgram_maint run opened) noOpening
  | powerOnReset v =>
    obtain tame | rfl := execPowerOnReset_cases run
    · exact absurd (tame.maint opened) noOpening
    · simp [s.powerOn_closed v] at opened
  | interruptionEnd =>
    obtain tame | ⟨v, rfl⟩ := execInterruptionEnd_cases run
    · exact absurd (tame.maint opened) noOpening
    · simp [s.draw.2.powerOn_closed v] at opened

/-- Settles O35, command by command. -/
theorem sealCommandsComplete : Obligations.SealCommandsComplete := by
  intro s d
  refine ⟨fun b => execCfgLoad_admitted, ?confirm, ?opens, execMaintClose_admitted, ?program⟩
  case confirm =>
    rintro b _ len admitted pending rfl
    have acts := execSealConfirm_pending len admitted pending
    refine ⟨fun same fits => acts.trans ?_, fun same misfit => acts.trans ?_, fun other more => ?_, fun other third => ?_⟩
    · simp [same, fits]
    · simp [same, misfit]
    · refine ⟨(s.took 0x43 d).mismatched, ?_, ?_, acts.trans ?_⟩
      · simp [State.mismatched]
      · simpa [State.mismatched] using pending
      · simp [other, more]
    · refine ⟨(s.took 0x43 d).mismatched, State.pendDrop_pend _, acts.trans ?_⟩
      simp [other, third]
  case opens =>
    intro len idle allowed valid sealed
    exact ⟨(s.took 0x44 d).maintBegin, rfl, s.took_now 0x44 d, execMaintOpen_admitted len idle allowed valid sealed⟩
  case program =>
    rintro l b v h _ _ rfl imm len size admitted room held low high passes fits strict rfl
    exact execFuseProgram_passed (x := ⟨b, v, h⟩) imm len size admitted room held low high passes fits strict

end Sys2Proof.Machine
end

