-- ==== Sys2Proof/Proofs/AxleRows.lean ====
section
/-! PROOF. The commands of the axle inputs (chapter 15): what each does under the condition that its event can happen. Standstill
and the periodic record move module time to the instant at which they fall due (assumption log 11). -/

namespace Sys2Proof.Machine

open Sys2Proof

/-! ## What the event of a channel leaves alone -/

/-- A record changes the host side alone. -/
theorem State.record_told (s : State) (fn : Nat) (body : List Byte) :
    ∃ ev host sent, s.record fn body = s.told ev host sent := by
  rcases s.record_cases fn body with ⟨-, same⟩ | ⟨_, -, queued⟩
  · exact ⟨_, _, _, same⟩
  · exact ⟨_, _, _, queued⟩

theorem State.axleEvent_told (s : State) (ch e t : Nat) (v : Int) :
    ∃ ev host sent, s.axleEvent ch e t v = s.told ev host sent := by
  obtain ⟨_, _, _, record⟩ := s.record_told fnAxle
    (le 1 2 ++ le 1 ch ++ le 1 e ++ le 1 0 ++ leI 4 (s.axle ch).count ++ le 8 t ++ leI 4 v ++ zeros 4)
  obtain ⟨ev, host, sent, event⟩ := State.event_told (s.told _ _ _) (if ch = 0 then .spd0 else .spd1) (e - 1)
  exact ⟨ev, host, sent, (congrArg (State.event · _ _) record).trans event⟩

@[simp] theorem State.axleEvent_axle (s : State) (ch e t : Nat) (v : Int) (k : Nat) :
    (s.axleEvent ch e t v).axle k = s.axle k := by
  obtain ⟨_, _, _, told⟩ := s.axleEvent_told ch e t v
  rw [told]
  rfl

@[simp] theorem State.axleEvent_now (s : State) (ch e t : Nat) (v : Int) : (s.axleEvent ch e t v).now = s.now := by
  obtain ⟨_, _, _, told⟩ := s.axleEvent_told ch e t v
  rw [told]
  rfl

@[simp] theorem State.at_axle (s : State) (t k : Nat) : (s.at t).axle k = s.axle k := rfl
@[simp] theorem State.onAxle_now (s : State) (k : Nat) (g : Axle → Axle) : (s.onAxle k g).now = s.now := rfl

/-! ## The state of a channel at standstill (R381) -/

theorem State.axleStill_axle (s : State) (ch : Nat) (c : AxleCfg) : (s.axleStill ch c).axle ch =
    { s.axle ch with
      still := true, stillT := (s.axle ch).tEdge + ms c.tStill, untimed := false, speed := 0, ivals := [], means := [] } := by
  simp [State.axleStill]

theorem State.axleStill_now (s : State) (ch : Nat) (c : AxleCfg) : (s.axleStill ch c).now = s.now := by
  simp [State.axleStill]

section Configured
variable {s : State} {ch : Nat} {c : AxleCfg} (conf : s.axleCfg ch = some c)
include conf

/-! ## Edges (R374) -/

/-- An edge of one phase alone, no sooner than t_min after the last one accepted of that phase, is accepted. -/
theorem execAxleEdge_single {a b phaseB : Bool} {t : Nat} {u : State} (found : u = (s.at t).stillBy ch c t)
    (edgeA : (a != (u.axle ch).a) = !phaseB) (edgeB : (b != (u.axle ch).b) = phaseB)
    (late : ∀ l, (u.axle ch).last phaseB = some l → l + us c.tMin ≤ t) :
    execAxleEdge ch a b t s = .next ((u.wireEnd ch a b).axleAccept ch c phaseB a b t) := by
  have changed : (a == (u.axle ch).a && b == (u.axle ch).b) = false := by
    cases phaseB with
    | false => simp [bne_iff_ne.1 edgeA]
    | true => simp [bne_iff_ne.1 edgeB]
  subst found
  simp only [execAxleEdge, conf, changed, edgeA, edgeB, Bool.not_and_self]
  cases last : (((s.at t).stillBy ch c t).axle ch).last phaseB with
  | none => rfl
  | some l => simp [Nat.not_lt.2 (late l last)]

/-- A level of phase A that differs at t_min after the last edge accepted of the phase is an edge. -/
theorem execEdgeReread_phaseA {a b : Bool} {t l : Nat} {u : State} (found : u = (s.at t).stillBy ch c t)
    (last : (u.axle ch).tA = some l) (due : l + us c.tMin = t) (whole : (u.axle ch).wireA = false)
    (differs : a ≠ (u.axle ch).a) :
    execEdgeReread ch a b t s = .next (u.axleAccept ch c false a (u.axle ch).b t) := by
  subst found
  simp [execEdgeReread, conf, last, due, whole, differs]

/-! ## Standstill (R381) -/

theorem execAxleStandstill_moving (moving : (s.axle ch).still = false) :
    execAxleStandstill ch s = .next ((s.at ((s.axle ch).tEdge + ms c.tStill)).axleStill ch c) := by
  simp [execAxleStandstill, conf, moving]

/-! ## Wires and supply (R373, R382) -/

/-- The first disagreement of a channel: one instant is kept, fewer than the three that are a channel fault. -/
theorem execWireDisagreement_first {phaseB : Bool}
    (agrees : (if phaseB then (s.axle ch).wireB else (s.axle ch).wireA) = false) (fresh : (s.axle ch).wireT = []) :
    ∃ t : State, execWireDisagreement ch phaseB s = .next t ∧
      (if phaseB then (t.axle ch).wireB else (t.axle ch).wireA) = true ∧ (t.axle ch).wireT = [s.now] := by
  refine ⟨_, rfl, ?_⟩
  cases phaseB with
  | false => simp [conf, fresh, show (s.axle ch).wireA = false from agrees]
  | true => simp [conf, fresh, show (s.axle ch).wireB = false from agrees]

theorem execSpdSupplyFault_configured :
    execSpdSupplyFault ch s =
      .next (((s.onAxle ch (fun x => { x with supply := true })).axleEvent ch 7 s.now 0).axleBad ch) := by
  simp [execSpdSupplyFault, conf]

end Configured

/-! ## The periodic record (R385) -/

theorem execAxleRecord_due {s : State} {S : Nat} (grid : S % ms 10 = 0) (new : s.safe.recT < S) :
    execAxleRecord S s = .next ((({ s with safe := { s.safe with recT := S } } : State).at S).axleRecs S) := by
  simp [execAxleRecord, grid, new]

/-! ## The statement -/

/-- Settles O17, command by command. -/
theorem axleRowsComplete : Obligations.AxleRowsComplete := by
  intro s ch c conf
  refine ⟨?edge, fun a b t0 l u => execEdgeReread_phaseA conf, ?still, fun b => execWireDisagreement_first conf,
    ⟨_, by simp, execSpdSupplyFault_configured conf⟩, ?record⟩
  case edge =>
    intro a b t0 u found sameA edgeB late
    exact execAxleEdge_single conf found (by simp [sameA]) (by simpa using edgeB) late
  case still =>
    intro moving
    refine ⟨_, execAxleStandstill_moving conf moving, ?_⟩
    simp [State.axleStill_axle, State.axleStill_now]
  case record =>
    intro S grid new
    exact ⟨_, execAxleRecord_due grid new, rfl, rfl⟩

end Sys2Proof.Machine
end

