-- ==== Sys2Proof/Proofs/Frames.lean ====
section
/-! PROOF. What events, records and a reset of the host interface leave alone: the state apart from what they may change is the same
before and after, so every part outside of that is. -/

namespace Sys2Proof.Machine

open Sys2Proof

/-- A part of the state outside of what `erase` takes away is the same in two states that agree apart from that. -/
theorem keeps_of_erased {β : Type} {erase : State → State} {s t : State} (same : erase t = erase s) (part : State → β)
    (outside : ∀ u, part (erase u) = part u) : part t = part s :=
  (outside t).symm.trans ((congrArg part same).trans (outside s))

/-! ## Events and records (20 R492, R493; 18 R459; 22 R544) -/

/-- The state without what an event, an interrupt, a stream record or a black-box event may change. -/
def State.bare (s : State) : State :=
  { s with
    time := { s.time with lastOut := 0 }, ev := [], sent := []
    host := { s.host with irqN := true, msixPend := 0, streamQ := [], resetTime := 0 }
    mram := { s.mram with commit := [], events := [], bbSeq := 0, held := [] } }

@[simp] theorem State.setBits_bare (s : State) (r : EvReg) (b : Word) : (s.setBits r b).bare = s.bare := rfl

@[simp] theorem State.driveIrq_bare (s : State) : s.driveIrq.bare = s.bare := rfl

@[simp] theorem State.msix_bare (s : State) (v : Nat) : (s.msix v).bare = s.bare := by
  unfold State.msix
  split
  · rfl
  · rfl

@[simp] theorem State.raiseIrq_bare (s : State) (src : Nat) : (s.raiseIrq src).bare = s.bare := by
  unfold State.raiseIrq
  dsimp only
  split
  · simp
  · simp

@[simp] theorem State.event_bare (s : State) (r : EvReg) (n : Nat) : (s.event r n).bare = s.bare := by
  obtain quiet | ⟨src, raised⟩ := s.event_cases r n
  · rw [quiet, State.setBits_bare]
  · rw [raised, State.raiseIrq_bare, State.setBits_bare]

@[simp] theorem State.record_bare (s : State) (fn : Nat) (body : List Byte) : (s.record fn body).bare = s.bare := by
  obtain ⟨-, dropped⟩ | ⟨n, -, waits⟩ := s.record_cases fn body
  · rw [dropped]
  · rw [waits]
    rfl

@[simp] theorem State.eventRec_bare (s : State) (kind code subject port : Nat) (v1 v2 v3 : Int) :
    (s.eventRec kind code subject port v1 v2 v3).bare = s.bare := s.record_bare ..

theorem State.nvDue_bb_bare (s : State) (key : Nat) (body : List Byte) :
    (s.nvDue { kind := 0x0C, key := key, body := body }).bare = s.bare := by
  obtain ⟨-, written⟩ | ⟨-, t, held, kept | reported⟩ := s.nvDue_cases { kind := 0x0C, key := key, body := body }
  · rw [written]
    rfl
  · rw [kept, held]
    rfl
  · rw [reported, State.event_bare, held]
    rfl

@[simp] theorem State.bbEvent_bare (s : State) (code subject port v v2 v3 : Nat) :
    (s.bbEvent code subject port v v2 v3).bare = s.bare :=
  s.stamped.nvDue_bb_bare ..

@[simp] theorem State.resetCause_bare (s : State) (n : Nat) : (s.resetCause n).bare = s.bare :=
  (State.bbEvent_bare ..).trans
    (congrArg (fun u : State => { u with host := { u.host with resetTime := 0 } }) (s.event_bare .resetCause n))

/-! ## A reset of the host interface (18 R460) -/

/-- The state without that and without the rings, the interrupt set-up, the CAN controllers and the whole host side. -/
def State.inner (s : State) : State := { s.bare with rings := [], irqCfg := [], cans := [], host := {} }

theorem State.inner_of_bare {s t : State} (same : t.bare = s.bare) : t.inner = s.inner :=
  congrArg (fun u : State => { u with rings := [], irqCfg := [], cans := [], host := {} }) same

/-- What a reset of the host interface empties, before the locks of the high-priority buffers are released. -/
def State.hostCleared (s : State) : State :=
  let log := s.host.log.map (fun e => if e.status = 0xFF then { e with carried := true } else e)
  let s := { s with
    rings := [], irqCfg := []
    host := { s.host with
      ready := false, d3hot := false, msixEn := false, msixMask := 0, msixPend := 0, msixTab := [], hiCap := [], log := log
      finished := [], streamQ := [], epoch := s.host.epoch + 1 } }
  [EvReg.irqStatus, .ringPendLo, .ringPendHi].foldl (fun s r => s.onEvr r (fun _ => {})) s

theorem State.hostReset_eq (s : State) : s.hostReset = ((s.hostCleared.hpRelease 0).hpRelease 1).driveIrq := rfl

/-- The state without what an event may change and without the CAN controllers. -/
def State.bareCan (s : State) : State := { s.bare with cans := [] }

theorem State.bareCan_of_bare {s t : State} (same : t.bare = s.bare) : t.bareCan = s.bareCan :=
  congrArg (fun u : State => { u with cans := [] }) same

@[simp] theorem State.onCan_bareCan (s : State) (c : Nat) (g : CanCtl → CanCtl) : (s.onCan c g).bareCan = s.bareCan := rfl
@[simp] theorem State.event_bareCan (s : State) (r : EvReg) (n : Nat) : (s.event r n).bareCan = s.bareCan :=
  State.bareCan_of_bare (s.event_bare r n)
@[simp] theorem State.raiseIrq_bareCan (s : State) (src : Nat) : (s.raiseIrq src).bareCan = s.bareCan :=
  State.bareCan_of_bare (s.raiseIrq_bare src)
@[simp] theorem State.canRec_bareCan (s : State) (c code id : Nat) (v : Int) : (s.canRec c code id v).bareCan = s.bareCan :=
  State.bareCan_of_bare (s.record_bare ..)

/-- The release of a high-priority buffer changes its CAN controller, beside what an event changes. -/
@[simp] theorem State.hpRelease_bareCan (s : State) (c : Nat) : (s.hpRelease c).bareCan = s.bareCan := by
  unfold State.hpRelease
  dsimp only
  split
  · split <;> simp [State.hpPut, State.hpOverrun]
  · simp

theorem State.hostReset_bareCan (s : State) : s.hostReset.bareCan = s.hostCleared.bareCan :=
  (State.hpRelease_bareCan _ 1).trans (State.hpRelease_bareCan _ 0)

@[simp] theorem State.hostReset_inner (s : State) : s.hostReset.inner = s.inner :=
  (congrArg (fun u : State => { u with rings := [], irqCfg := [], host := {} }) s.hostReset_bareCan :)

end Sys2Proof.Machine
end

