-- ==== Sys2Proof/Proofs/QueueAndEmergency.lean ====
section
/-! PROOF. What every command keeps: the queue (19 R463, R464), and the host's emergency-supply command apart from the commands that
R474 names. A command is tame, which keeps both, or is one of the seven of `Untamed`. -/

namespace Sys2Proof.Machine

open Sys2Proof

/-- From `s` to `t` the queue and the host's emergency-supply command are unchanged. -/
structure Steady (s t : State) : Prop where
  pending : t.pending = s.pending
  emgHost : t.pack.emgHost = s.pack.emgHost

theorem Tame.steady {s t : State} (h : Tame s t) : Steady s t := ⟨h.pending, h.emgHost⟩

theorem Steady.trans {s t u : State} (h : Steady s t) (k : Steady t u) : Steady s u :=
  ⟨k.pending.trans h.pending, k.emgHost.trans h.emgHost⟩

/-! ## The commands that are not tame -/

theorem execGroupClose_steady {s t : State} {d : Desc} (run : execGroupClose d s = .next t) : Steady s t := by
  obtain rfl := Host.Outcome.next.inj run
  obtain tame | ⟨u, r, accepted, runs⟩ :=
    State.command_tame_or_runs (State.maintEnd_tame (.refl s) 3) 0x30 d _ [.P, .S, .C] true _ _
  · exact tame.steady
  rw [runs]
  dsimp only
  split
  · exact (State.fail_tame accepted ..).steady
  split
  · exact (State.fail_tame accepted ..).steady
  split
  · exact (State.okay_tame accepted ..).steady
  · exact accepted.steady.trans ⟨(State.seqKick_tame (State.keep_tame (.refl _) _)).pending,
      (State.seqKick_tame (State.keep_tame (.refl _) _)).emgHost⟩

theorem execMaintOpen_steady {s t : State} {d : Desc} (run : execMaintOpen d s = .next t) : Steady s t := by
  obtain rfl := Host.Outcome.next.inj run
  obtain tame | ⟨u, r, accepted, runs⟩ := State.command_tame_or_runs (.refl s) 0x44 d _ [] false false _
  · exact tame.steady
  rw [runs]
  split
  · exact (State.fail_tame accepted ..).steady
  split
  · exact (State.fail_tame accepted ..).steady
  · have opened := State.okay_tame (State.eventRec_tame (.refl u.maintBegin) 6 3 0 255 1 0 0) r 0 []
    exact accepted.steady.trans ⟨opened.pending, opened.emgHost⟩

theorem execFuseProgram_steady {s t : State} {d : Desc} {image : List Byte} {progOk : ProgRead}
    (run : execFuseProgram d image progOk s = .next t) : Steady s t := by
  obtain rfl := Host.Outcome.next.inj run
  have measured : Tame s (s.supplyMeasured progOk) := ⟨rfl, rfl, rfl, id, id⟩
  obtain tame | ⟨u, r, accepted, runs⟩ := State.command_tame_or_runs measured 0x46 d _ [.m, .O] false false _
  · exact tame.steady
  have refused (status : Nat) : Steady s (u.fail r status) := (State.fail_tame accepted ..).steady
  rw [← State.supplyMeasured, runs]
  dsimp only
  split
  · exact refused _
  split
  · exact refused _
  split
  · exact refused _
  split
  · exact refused _
  split
  · have taken := State.okay_tame (u.fuseTaken_tame u.fuse.free image) r u.fuse.free []
    exact accepted.steady.trans ⟨taken.pending, taken.emgHost⟩
  · obtain ⟨b, failed⟩ := u.fuseFailed_tame u.fuse.free
    have ended := State.fail_tame failed r 6
    exact accepted.steady.trans ⟨ended.pending, ended.emgHost⟩

/-- The host's emergency-supply command is set with a lapse in minutes, 0 for none, or released (19 R474). -/
def State.emgSet (s : State) (on : Bool) (lapse : Nat) : State :=
  { s with pack := { s.pack with
      emgHost := on, emgLapse := if on && lapse ≠ 0 then some (s.now + mins lapse) else none } }

/-- EMERGENCY_SUPPLY is refused, or sets or releases the command as its parameter says. -/
theorem execEmergencySupply_cases {s t : State} {d : Desc} (run : execEmergencySupply d s = .next t) :
    Tame s t ∨ ((immF d.imm 7 0 = 0x5A ∨ immF d.imm 7 0 = 0xA5) ∧
      Tame ((s.took 0x20 d).emgSet (immF d.imm 7 0 == 0x5A) (immF d.imm 31 16)) t) := by
  obtain rfl := Host.Outcome.next.inj run
  obtain ⟨-, e⟩ | ⟨-, p, -, -, e⟩ | ⟨-, -, -, e⟩ | ⟨params, -, -, -, e⟩ := s.command_cases 0x20 d _ [.P, .S] false false _
  · exact .inl (e ▸ State.finish_tame (.refl s) ..)
  · exact .inl (e ▸ State.finish_tame (.refl s) ..)
  · exact .inl (e ▸ State.finish_tame (.refl s) ..)
  · simp only [Bool.and_eq_true, Bool.or_eq_true, beq_iff_eq] at params
    obtain ⟨⟨-, named⟩, -⟩ := params
    exact .inr ⟨named, e ▸ State.okay_tame (.refl _) ..⟩

theorem State.took_tame (s : State) (op : Nat) (d : Desc) : Tame s (s.took op d) := State.accept_tame (.refl s) _

theorem execEmergencySupply_pending {s t : State} {d : Desc} (run : execEmergencySupply d s = .next t) :
    t.pending = s.pending := by
  obtain tame | ⟨-, tame⟩ := execEmergencySupply_cases run
  · exact tame.pending
  · exact tame.pending.trans (s.took_tame 0x20 d).pending

theorem immOnly_of {v mask : Word} (reserved : v &&& ~~~mask = 0#32) : immOnly v mask = true := beq_iff_eq.2 reserved

/-- A parameter that passes, with the permissions: the command is set or released, and its value is whether it is in force. -/
theorem execEmergencySupply_admitted {s : State} {d : Desc} (len : d.paramLen = 0)
    (reserved : d.imm &&& ~~~0xFFFF00FF#32 = 0#32) (key : immF d.imm 7 0 = 0x5A ∨ immF d.imm 7 0 = 0xA5)
    (lapse : immF d.imm 31 16 ≤ 1440) (admitted : s.admits 0x20 [.P, .S] false = true) :
    ∃ u : State, u = (s.took 0x20 d).emgSet (immF d.imm 7 0 == 0x5A) (immF d.imm 31 16) ∧
      execEmergencySupply d s = .next (u.okay (s.refOf 0x20 d) u.emergency.toNat []) := by
  refine ⟨_, rfl, ?_⟩
  have params : (immOnly d.imm 0xFFFF00FF#32 && d.paramLen == 0 && (immF d.imm 7 0 == 0x5A || immF d.imm 7 0 == 0xA5) &&
      immF d.imm 31 16 ≤ 1440) = true := by
    simp [immOnly_of reserved, len, key, lapse]
  rw [execEmergencySupply, State.command_admitted params admitted]
  rfl

/-- Power is good again while the interruption lasts: VSUP at `v`, and records are written again (21 R525; 22 R537). -/
def State.supplyBack (s : State) (v : Nat) : State :=
  { s.draw.2 with pwr := { s.draw.2.pwr with intr := .none, vsup := v }, mram := { s.draw.2.mram with refuse := false } }

/-- The supply VSUP returns at, which no event tells (assumption log 10). -/
def State.backAt (s : State) : Nat := 16800 + s.draw.1 % 137201

/-- The end of an interruption before the domains went off, with the MRAM mounted. -/
theorem execInterruptionEnd_lasting {s : State} (lasts : s.pwr.intr ≠ .over) (mounted : s.mounted = true) :
    execInterruptionEnd s = .next (
      if s.pwr.intr == .none then s.draw.2
      else if s.pwr.intr == .rideThrough then
        let u := (s.supplyBack s.backAt).flushHeld.event .pwr 1
        if u.pwr.st == .peat then u else u.bbEvent 4 0 255 ((s.now - s.pwr.intrT) / 1000) 0 0
      else (s.supplyBack s.backAt).flushHeld) := by
  have noReset : ¬(s.draw.2.pwr.intr == .over || !s.draw.2.mounted) = true := by
    rw [show s.draw.2.pwr.intr = s.pwr.intr from rfl, show s.draw.2.mounted = s.mounted from rfl]
    cases phase : s.pwr.intr <;> simp [phase, mounted] at lasts ⊢
  exact congrArg Host.Outcome.next (congrArg (ite _ _) (if_neg noReset))

theorem execInterruptionEnd_lasting_tame {s t : State} (lasts : s.pwr.intr ≠ .over) (mounted : s.mounted = true)
    (run : execInterruptionEnd s = .next t) : Tame s t := by
  rw [execInterruptionEnd_lasting lasts mounted] at run
  obtain rfl := Host.Outcome.next.inj run
  have back : Tame s (s.supplyBack s.backAt) := ⟨rfl, rfl, rfl, id, id⟩
  have reported := State.event_tame (State.flushHeld_tame back) .pwr 1
  split
  · exact State.draw_tame (.refl s)
  split
  · dsimp only
    split
    · exact reported
    · exact State.bbEvent_tame reported ..
  · exact State.flushHeld_tame back

theorem execEmergencySupplyLapse_pending {s t : State} (run : execEmergencySupplyLapse s = .next t) : t.pending = s.pending := by
  obtain rfl := Host.Outcome.next.inj run
  split
  · rfl
  · rfl

theorem State.powerOn_pending (s : State) (v : Nat) : (s.powerOn v).pending = s.pending := by
  obtain ⟨u, queue, reset⟩ : ∃ u : State, u.pending = s.pending ∧ s.powerOn v = u.fuseVerify.trialStart := by
    unfold State.powerOn
    dsimp only
    refine ⟨_, ?_, rfl⟩
    rfl
  have verified : u.fuseVerify.pending = u.pending := by
    unfold State.fuseVerify
    dsimp only
    split
    · rfl
    · exact (State.stand_tame (.refl _) ..).pending
  rw [reset, (State.trialStart_tame (.refl _)).pending, verified, queue]

/-! ## The statements -/

/-- Settles O39: by the definition of a step. -/
theorem stepRunsTheFrontCommand : Obligations.StepRunsTheFrontCommand := fun _ _ _ => ⟨rfl, rfl⟩

/-- Settles O40: a tame command keeps the queue, and so does each of the seven others. -/
theorem queueIsOnlyTakenFrom : Obligations.QueueIsOnlyTakenFrom := by
  intro c s t run
  obtain tame | untamed := exec_tame_or_untamed c run
  · exact tame.pending
  cases untamed with
  | emergencySupply d => exact execEmergencySupply_pending run
  | emergencySupplyLapse => exact execEmergencySupplyLapse_pending run
  | groupClose d => exact (execGroupClose_steady run).pending
  | maintOpen d => exact (execMaintOpen_steady run).pending
  | fuseProgram d image progOk => exact (execFuseProgram_steady run).pending
  | powerOnReset v =>
    obtain tame | rfl := execPowerOnReset_cases run
    · exact tame.pending
    · exact s.powerOn_pending v
  | interruptionEnd =>
    obtain tame | ⟨v, rfl⟩ := execInterruptionEnd_cases run
    · exact tame.pending
    · exact s.draw.2.powerOn_pending v

@[simp] theorem State.finish_pack (s : State) (r : CmdRef) (status value : Nat) (result : List Byte) (isPartial : Bool) :
    (s.finish r status value result isPartial).pack = s.pack := by
  simp [State.finish, State.logMod, State.release, apply_ite State.pack]

/-- What a reset of the host interface and its record leave of the pack. -/
theorem State.hostReset_cause_pack (s : State) (n : Nat) : (s.hostReset.resetCause n).pack = s.pack :=
  (keeps_of_erased (State.resetCause_bare ..) State.pack (fun _ => rfl)).trans
    (keeps_of_erased s.hostReset_inner State.pack (fun _ => rfl))

/-- Settles O46: of the commands that are not tame, those that R474 names end the host's command, beside a power-on reset. -/
theorem emergencyCommandStaysInForce : Obligations.EmergencyCommandStaysInForce := by
  refine ⟨?ends, ?resets, ?restarts⟩
  case ends =>
    intro c s t run inForce ended
    have changed : t.pack.emgHost ≠ s.pack.emgHost := by simp [inForce, ended]
    obtain tame | untamed := exec_tame_or_untamed c run
    · exact absurd tame.emgHost changed
    cases untamed with
    | emergencySupply d =>
      obtain tame | ⟨set | released, tame⟩ := execEmergencySupply_cases run
      · exact absurd tame.emgHost changed
      · exact absurd tame.emgHost (by simp [State.emgSet, set, ended])
      · exact .inl ⟨d, rfl, released⟩
    | emergencySupplyLapse =>
      refine .inr (.inl ⟨rfl, ?_⟩)
      obtain rfl := Host.Outcome.next.inj run
      cases lapse : s.pack.emgLapse with
      | none => simp [lapse] at changed
      | some t0 => rfl
    | groupClose d => exact absurd (execGroupClose_steady run).emgHost changed
    | maintOpen d => exact absurd (execMaintOpen_steady run).emgHost changed
    | fuseProgram d image progOk => exact absurd (execFuseProgram_steady run).emgHost changed
    | powerOnReset v => exact .inr (.inr (.inl ⟨v, rfl⟩))
    | interruptionEnd =>
      refine .inr (.inr (.inr ⟨rfl, ?_⟩))
      by_contra lasting
      obtain ⟨lasts, mounted⟩ := not_or.1 lasting
      exact changed (execInterruptionEnd_lasting_tame lasts (by simpa using mounted) run).emgHost
  case resets =>
    rintro s t (run | run)
    · obtain rfl := Host.Outcome.next.inj run
      rw [State.hostReset_cause_pack]
      exact ⟨rfl, rfl⟩
    · obtain rfl := Host.Outcome.next.inj run
      rw [State.hostReset_cause_pack]
      exact ⟨rfl, rfl⟩
  case restarts =>
    intro s d len reserved key pos lapse admitted inForce
    obtain ⟨u, set, runs⟩ := execEmergencySupply_admitted len reserved (.inl key) lapse admitted
    refine ⟨_, runs, ?_⟩
    rw [State.okay, State.finish_pack, set]
    simp [State.emgSet, key, Nat.ne_of_gt pos]

end Sys2Proof.Machine
end

