-- ==== Sys2Proof/Proofs/HostChecks.lean ====
section
/-! PROOF. The checks and the end of a host command (18 R450; 19 R464–R466): what a finished command changes, and that FUSE_PROGRAM
does not complete on the state it found, for it measures VPROG and the hold-up before its checks (22 R542). -/

namespace Sys2Proof.Machine

open Sys2Proof

/-! ## The end of a command (18 R450, R460) -/

/-- The running commands without one that has finished, with its outcome in the command log. -/
def State.ended (s : State) (r : CmdRef) (status value : Nat) (result : List Byte) (isPartial : Bool) : State :=
  let s := s.logMod r (fun e => { e with
    tEnd := s.now, status := status, value := value, isPartial := isPartial
    ok := if isPartial then field result 4 1 else 0 })
  { s with host := { s.host with running := s.host.running.filter (fun c => c.ref ≠ r) } }

section Finish
variable {s : State} {r : CmdRef} {status : Nat} (value : Nat) (result : List Byte) (isPartial : Bool)

/-- A command started before a reset of the host interface leaves no completion. -/
theorem State.finish_stale (stale : r.epoch ≠ s.host.epoch) :
    s.finish r status value result isPartial = s.ended r status value result isPartial :=
  if_pos stale

/-- A command that asked for no completion on OK counts its ring down. -/
theorem State.finish_silent (present : r.epoch = s.host.epoch) (silent : r.d.noCpl = true) (ok : status = 0) :
    s.finish r status value result isPartial = (s.ended r status value result isPartial).release r :=
  (if_neg (not_not_intro present)).trans (if_pos (by simp [silent, ok]))

/-- Any other command leaves its completion, due last. -/
theorem State.finish_due (present : r.epoch = s.host.epoch) (asked : r.d.noCpl = false ∨ status ≠ 0) :
    s.finish r status value result isPartial =
      { s.ended r status value result isPartial with
        host := { (s.ended r status value result isPartial).host with
          finished := s.host.finished ++ [{ ref := r, status := status, value := value, result := result, isPartial := isPartial }] } } :=
  (if_neg (not_not_intro present)).trans (if_neg (by simpa [or_iff_not_imp_left] using asked))

end Finish

@[simp] theorem State.release_host (s : State) (r : CmdRef) : (s.release r).host = s.host := by
  unfold State.release
  split <;> rfl

/-- Releasing a command changes its ring alone. -/
theorem State.release_eq (s : State) (r : CmdRef) : ∃ rings, s.release r = { s with rings := rings } := by
  unfold State.release
  split
  · exact ⟨_, rfl⟩
  · exact ⟨_, rfl⟩

/-- There is no other way to end. -/
theorem State.finish_cases (s : State) (r : CmdRef) (status value : Nat) (result : List Byte) (isPartial : Bool) :
    ∃ u, u = s.ended r status value result isPartial ∧ (s.finish r status value result isPartial = u ∨
      s.finish r status value result isPartial = u.release r ∨
      ∃ l, s.finish r status value result isPartial = { u with host := { u.host with finished := l } }) := by
  refine ⟨_, rfl, ?_⟩
  by_cases present : r.epoch = s.host.epoch
  · by_cases silent : r.d.noCpl = true ∧ status = 0
    · exact .inr (.inl (State.finish_silent _ _ _ present silent.1 silent.2))
    · have asked : r.d.noCpl = false ∨ status ≠ 0 := by simpa [or_iff_not_imp_left] using silent
      exact .inr (.inr ⟨_, State.finish_due _ _ _ present asked⟩)
  · exact .inl (State.finish_stale _ _ _ present)

/-- A finished command changes the host side and the rings alone. -/
theorem State.finish_eq (s : State) (r : CmdRef) (status value : Nat) (result : List Byte) (isPartial : Bool) :
    ∃ host rings, s.finish r status value result isPartial = { s with host := host, rings := rings } := by
  obtain ⟨u, rfl, stale | silent | ⟨l, due⟩⟩ := s.finish_cases r status value result isPartial
  · exact ⟨_, _, stale⟩
  · obtain ⟨rings, released⟩ := (s.ended r status value result isPartial).release_eq r
    exact ⟨_, _, silent.trans released⟩
  · exact ⟨_, _, due⟩

@[simp] theorem State.finish_pwr (s : State) (r : CmdRef) (status value : Nat) (result : List Byte) (isPartial : Bool) :
    (s.finish r status value result isPartial).pwr = s.pwr := by
  obtain ⟨host, rings, ended⟩ := s.finish_eq r status value result isPartial
  rw [ended]

theorem State.finish_running (s : State) (r : CmdRef) (status value : Nat) (result : List Byte) (isPartial : Bool) :
    (s.finish r status value result isPartial).host.running = s.host.running.filter (fun c => decide (c.ref ≠ r)) := by
  obtain ⟨u, rfl, stale | silent | ⟨l, due⟩⟩ := s.finish_cases r status value result isPartial
  · rw [stale]
    rfl
  · rw [silent, State.release_host]
    rfl
  · rw [due]
    rfl

/-- Settles O49: the three ways a command ends. -/
theorem finishingACommand : Obligations.FinishingACommand := by
  intro s r st v l b
  refine ⟨_, rfl, s.finish_running r st v l b, fun present asked => ?due, fun present silent ok => ?silent, fun stale => ?stale,
    ?frame⟩
  case due =>
    rw [State.finish_due _ _ _ present asked]
    exact ⟨rfl, rfl⟩
  case silent =>
    obtain ⟨rings, released⟩ := (s.ended r st v l b).release_eq r
    rw [State.finish_silent _ _ _ present silent ok, released]
    exact ⟨rfl, rfl⟩
  case stale =>
    rw [State.finish_stale _ _ _ stale]
    exact ⟨rfl, rfl⟩
  case frame =>
    obtain ⟨host, rings, ended⟩ := s.finish_eq r st v l b
    rw [ended]

/-! ## FUSE_PROGRAM measures before its checks (22 R542) -/

section FuseProgram
variable {s : State} {d : Desc} {image : List Byte} (x : ProgRead)
  (params : (d.imm == 0#32 && d.paramLen == 128 && image.length == 128) = true)
include params

/-- A FUSE_PROGRAM that lacks a permission completes on the state in which what it measured is reported. -/
theorem execFuseProgram_denied {p : Perm} (denied : [Perm.m, .O].find? (fun p => !(s.supplyMeasured x).permits false p) = some p) :
    execFuseProgram d image x s =
      .next ((s.supplyMeasured x).finish ((s.supplyMeasured x).refOf 0x46 d) (permStatus p) 0 [] false) := by
  rw [execFuseProgram, ← State.supplyMeasured, params, State.command_denied _ _ _ _ _ _ _ denied]

/-- … and so does one that meets another. -/
theorem execFuseProgram_busy (permitted : ∀ p ∈ [Perm.m, .O], (s.supplyMeasured x).permits false p = true)
    (busy : s.busy 0x46 = true) :
    execFuseProgram d image x s = .next ((s.supplyMeasured x).finish ((s.supplyMeasured x).refOf 0x46 d) 3 0 [] false) := by
  rw [execFuseProgram, ← State.supplyMeasured, params, State.command_busy _ _ _ _ _ _ _ permitted (.inr busy)]

end FuseProgram

/-- A FUSE_PROGRAM with good parameters. -/
def fuseProgramDesc : Desc := { paramLen := 128 }

/-- FUSE_PROGRAM as the module measures 1 mV at VPROG. -/
def fuseProgramAt1mV : Instr := .fuseProgram fuseProgramDesc (zeros 128) ⟨true, 1, 100⟩

/-- A module with a valid seal, no maintenance session, and no VPROG measured. -/
def sealedModule : State := { cfg := { work := some { bytes := [], cfg := {} }, valid := true } }

/-- A module without a seal in which a FUSE_PROGRAM runs. -/
def programmingModule : State := { host := { running := [{ ref := { opcode := 0x46 } }] } }

/-- Refutes O47: FUSE_PROGRAM without a maintenance session completes with STATE_NOT_PERMITTED, but on a state in which VPROG reads
the 1 mV it has measured before its checks. -/
theorem not_refusedCommandHasNoEffect : ¬ Obligations.RefusedCommandHasNoEffect := by
  intro h
  obtain ⟨st, -, run⟩ := h fuseProgramAt1mV sealedModule ⟨0x46, fuseProgramDesc, [.m, .O], false⟩ rfl (by decide)
  have acts := execFuseProgram_denied (s := sealedModule) (d := fuseProgramDesc) (image := zeros 128) ⟨true, 1, 100⟩
    (by simp [fuseProgramDesc, zeros]) (p := .m)
    (by decide)
  have read := congrArg (fun t : State => t.pwr.vprog) (Host.Outcome.next.inj (acts.symm.trans run))
  simp [State.supplyMeasured, Instr.found, fuseProgramAt1mV, Instr.host?, sealedModule, State.holdupNow] at read

/-- Refutes O48: a second FUSE_PROGRAM completes with BUSY, but on such a state. -/
theorem not_secondCommandIsBusy : ¬ Obligations.SecondCommandIsBusy := by
  intro h
  obtain ⟨st, -, run⟩ := h fuseProgramAt1mV programmingModule ⟨0x46, fuseProgramDesc, [.m, .O], false⟩ rfl (by decide) (by decide)
  have acts := execFuseProgram_busy (s := programmingModule) (d := fuseProgramDesc) (image := zeros 128) ⟨true, 1, 100⟩
    (by simp [fuseProgramDesc, zeros])
    (by decide) (by decide)
  have read := congrArg (fun t : State => t.pwr.vprog) (Host.Outcome.next.inj (acts.symm.trans run))
  simp [State.supplyMeasured, Instr.found, fuseProgramAt1mV, Instr.host?, programmingModule, State.holdupNow] at read

end Sys2Proof.Machine
end

