-- ==== Sys2Proof/Proofs/ReadingCommands.lean ====
section
/-! PROOF. The host commands that read (19 R470, R471, R473, R477, R483, R486): with good parameters and none of the opcode running,
each completes with OK and what it reads from the state it finds. -/

namespace Sys2Proof.Machine

open Sys2Proof

/-- A command without permissions and with good parameters acts by its body. -/
theorem State.command_free {s : State} {d : Desc} {op : Nat} {okPar : Bool} {body : State → CmdRef → State} (params : okPar = true)
    (idle : s.busy op = false) : s.command op d okPar [] false false body = body (s.took op d) (s.refOf op d) :=
  State.command_admitted params (State.admits_free idle)

section Reads
variable {s : State} {d : Desc} (len : d.paramLen = 0)
include len

theorem execIdentify_idle (imm : d.imm = 0#32) (idle : s.busy 0x01 = false) :
    execIdentify d s = .next ((s.took 0x01 d).okay (s.refOf 0x01 d) 0 (s.took 0x01 d).moduleEntry) := by
  rw [execIdentify, State.command_free (by simp [imm, len]) idle]

theorem execEcho_idle (idle : s.busy 0x02 = false) :
    execEcho d s = .next ((s.took 0x02 d).okay (s.refOf 0x02 d) d.imm.toNat []) := by
  rw [execEcho, State.command_free (by simp [len]) idle]

theorem execTimeGet_idle (imm : d.imm = 0#32) (idle : s.busy 0x03 = false) :
    execTimeGet d s = .next ((s.took 0x03 d).okay (s.refOf 0x03 d) 0 (s.took 0x03 d).timeBytes) := by
  rw [execTimeGet, State.command_free (by simp [imm, len]) idle]

theorem execPortStatus_idle (reserved : d.imm &&& ~~~0xF#32 = 0#32) (idle : s.busy 0x10 = false) :
    execPortStatus d s = .next ((s.took 0x10 d).okay (s.refOf 0x10 d) 0 ((s.took 0x10 d).portEntry (immF d.imm 3 0))) := by
  rw [execPortStatus, State.command_free (by simp [immOnly_of reserved, len]) idle]

theorem execCellRead_idle (reserved : d.imm &&& ~~~0x03FF1FFF#32 = 0#32) (some_ : 1 ≤ immF d.imm 25 16)
    (onePort : immF d.imm 12 0 % 512 + immF d.imm 25 16 ≤ 512) (idle : s.busy 0x22 = false) :
    execCellRead d s = .next ((s.took 0x22 d).okay (s.refOf 0x22 d) 0 ((List.range (immF d.imm 25 16)).map (fun i =>
      (s.took 0x22 d).cellEntry ((immF d.imm 12 0 + i) / 512) ((immF d.imm 12 0 + i) % 512) s.now)).flatten) := by
  have few : immF d.imm 25 16 ≤ 512 := by omega
  rw [execCellRead, State.command_free (by simp [immOnly_of reserved, len, some_, few, onePort]) idle, State.took_now]

theorem execCfgRead_idle {b : Blob} (reserved : d.imm &&& ~~~1#32 = 0#32) (idle : s.busy 0x42 = false)
    (found : s.blobOf (d.imm.getLsbD 0) = some b) :
    execCfgRead d s = .next ((s.took 0x42 d).okay (s.refOf 0x42 d) (crc32c b.bytes).toNat b.bytes) := by
  have same : (s.took 0x42 d).blobOf (d.imm.getLsbD 0) = some b :=
    (State.took_keeps (fun t => t.blobOf (d.imm.getLsbD 0)) (fun _ _ _ => rfl) s 0x42 d).trans found
  rw [execCfgRead, State.command_free (by simp [immOnly_of reserved, len]) idle, same]

theorem execBbRead_idle (idle : s.busy 0x52 = false) :
    execBbRead d s = .next ((((s.took 0x52 d).bbRecords.filter (fun x => decide (d.imm.toNat ≤ x.1))).foldl
      (fun s x => s.record fnBlackBox x.2) ((s.took 0x52 d).keep { ref := s.refOf 0x52 d, todo := [0] })).streamsDone) := by
  rw [execBbRead, State.command_free (by simp [len]) idle]

/-- The completion of `r` is marked as cut. -/
def State.cutMark (s : State) (r : CmdRef) (cut : Bool) : State :=
  { s with host := { s.host with finished := s.host.finished.map (fun c => if c.ref = r then { c with cut := cut } else c) } }

theorem execStateReadback_idle (reserved : d.imm &&& ~~~0xFFFF#32 = 0#32) (idle : s.busy 0x80 = false) :
    execStateReadback d s = .next (((s.took 0x80 d).okay (s.refOf 0x80 d) 0
      ((s.took 0x80 d).readback d.imm.toNat d.resultLen).1).cutMark (s.refOf 0x80 d)
        ((s.took 0x80 d).readback d.imm.toNat d.resultLen).2) := by
  rw [execStateReadback, State.command_free (by simp [immOnly_of reserved, len]) idle]
  rfl

end Reads

/-- Settles O31, command by command; a finished command changes the host side and the rings alone. -/
theorem readingCommandsComplete : Obligations.ReadingCommandsComplete := by
  intro s d len
  refine ⟨execIdentify_idle len, execEcho_idle len, execTimeGet_idle len, execPortStatus_idle len, execCellRead_idle len,
    fun b reserved idle => execCfgRead_idle len reserved idle, ?blackBox, ?readback, ?frame⟩
  case blackBox =>
    rintro _ idle rfl
    exact execBbRead_idle len idle
  case readback =>
    intro reserved idle
    exact ⟨_, _, rfl, execStateReadback_idle len reserved idle, _, rfl, rfl, rfl⟩
  case frame =>
    intro op r st v l
    obtain ⟨host, t, accepted⟩ := s.took_logged op d
    obtain ⟨host, rings, ended⟩ := (s.took op d).finish_eq r st v l false
    exact ⟨host, rings, t, by rw [ended, accepted]; rfl⟩

end Sys2Proof.Machine
end

