-- ==== Sys2Proof/Proofs/HostCommands.lean ====
section
/-! PROOF. The accepted host commands of the chain, estimation, non-volatile, CAN, pair and self-test groups (19 R470–R482): with good
parameters, the permissions of the row and none of the opcode running, a command acts by its body on the state it finds. -/

namespace Sys2Proof.Machine

open Sys2Proof

/-! ## What an accepted command finds -/

section Took
variable (s : State) (op : Nat) (d : Desc)

@[simp] theorem State.took_mram : (s.took op d).mram = s.mram := State.took_keeps State.mram (fun _ _ _ => rfl) s op d
@[simp] theorem State.took_pair : (s.took op d).pair = s.pair := State.took_keeps State.pair (fun _ _ _ => rfl) s op d
@[simp] theorem State.took_pack : (s.took op d).pack = s.pack := State.took_keeps State.pack (fun _ _ _ => rfl) s op d
@[simp] theorem State.took_drv : (s.took op d).drv = s.drv := State.took_keeps State.drv (fun _ _ _ => rfl) s op d
@[simp] theorem State.took_seq : (s.took op d).seq = s.seq := State.took_keeps State.seq (fun _ _ _ => rfl) s op d
@[simp] theorem State.took_opens : (s.took op d).opens = s.opens := State.took_keeps State.opens (fun _ _ _ => rfl) s op d
@[simp] theorem State.took_port (p : Nat) : (s.took op d).port p = s.port p :=
  State.took_keeps (fun t => t.port p) (fun _ _ _ => rfl) s op d
@[simp] theorem State.took_cell (g : Nat) : (s.took op d).cell g = s.cell g :=
  State.took_keeps (fun t => t.cell g) (fun _ _ _ => rfl) s op d
@[simp] theorem State.took_can (c : Nat) : (s.took op d).can c = s.can c :=
  State.took_keeps (fun t => t.can c) (fun _ _ _ => rfl) s op d
@[simp] theorem State.took_portCfg (p : Nat) : (s.took op d).portCfg p = s.portCfg p :=
  State.took_keeps (fun t => t.portCfg p) (fun _ _ _ => rfl) s op d
@[simp] theorem State.took_nodeUp (p a : Nat) : (s.took op d).nodeUp p a = s.nodeUp p a :=
  State.took_keeps (fun t => t.nodeUp p a) (fun _ _ _ => rfl) s op d
@[simp] theorem State.took_partnerUp : (s.took op d).partnerUp = s.partnerUp :=
  State.took_keeps State.partnerUp (fun _ _ _ => rfl) s op d
@[simp] theorem State.took_finished : (s.took op d).host.finished = s.host.finished := by
  unfold State.took State.accept
  dsimp only
  split <;> rfl

end Took

/-! ## The chain (R471, R472, R482) -/

section Chain
variable {s : State} {d : Desc} (len : d.paramLen = 0)

include len in
theorem execRosterAccept_admitted (reserved : d.imm &&& ~~~0xF#32 = 0#32) (admitted : s.admits 0x11 [.P, .S, .M, .O] true = true) :
    execRosterAccept d s = .next (if (s.port (immF d.imm 3 0)).st = .held then
        (let t := (s.took 0x11 d).chainCheck (immF d.imm 3 0) true
         t.mirrored (s.took 0x11 d).pair.nvw (s.refOf 0x11 d) ((t.port (immF d.imm 3 0)).st != .held))
      else (s.took 0x11 d).fail (s.refOf 0x11 d) 4) := by
  rw [execRosterAccept, State.command_admitted (by simp [immOnly_of reserved, len]) admitted]
  by_cases held : (s.port (immF d.imm 3 0)).st = .held
  · simp [held]
  · simp [held]

include len in
theorem execOpenTapClear_intact {g p : Nat} {u : State} (cell : g = gi p (immF d.imm 24 16)) (port : p = immF d.imm 3 0)
    (reserved : d.imm &&& ~~~0x01FF000F#32 = 0#32) (tap : s.mram.taps.contains g = true)
    (admitted : s.admits 0x12 [.P, .S, .M] true = true) (lower : (s.cell g).intact = true) (upper : (s.cell (g + 1)).intact = true)
    (cleared : u = (s.took 0x12 d).onCell g (fun c => { c with openTap := false, maskBad := false })) :
    execOpenTapClear d s = .next (let v := (u.mirrorDue (tapReq p
          ((u.mram.taps.filter (fun x => x / 512 == p)).filter (fun x => x ≠ g))) none).f05Settle p
      (if (v.port p).st == .ready then v.configStart p else v).mirrored u.pair.nvw (s.refOf 0x12 d) true) := by
  subst cell port cleared
  rw [execOpenTapClear, State.command_admitted (by simp only [immOnly_of reserved, len, tap]; rfl) admitted]
  simp [lower, upper]

/-- A step whose command made no mirrored record, and whose standby it need not report, completes with OK. -/
theorem State.mirrored_plain {u : State} {l : List NvwReq} {b : Bool} (r : CmdRef)
    (none_ : u.pair.nvw.any (fun x => !l.contains x) = false) (reported : (b && u.isPair && !u.partnerUp) = false) :
    u.mirrored l r b = u.okay r 0 [] := by
  simp only [State.mirrored, none_, reported]
  rfl

theorem execBalance_admitted {l : List (Nat × Nat)} (params : s.balanceOk d (immF d.imm 3 0) l = true)
    (admitted : s.admits 0x13 [.P, .S, .C] false = true) :
    execBalance d l s = .next (((l.map (fun e => nodeOf (s.portCfg (immF d.imm 3 0)) e.1)).dedup).foldl
      (fun v a => v.balanceNode (s.refOf 0x13 d) (immF d.imm 3 0) a l) ((s.took 0x13 d).keep
        { ref := s.refOf 0x13 d, todo := (l.map (fun e => nodeOf (s.portCfg (immF d.imm 3 0)) e.1)).dedup })) := by
  rw [execBalance, State.command_admitted params admitted]
  simp only [State.took_portCfg]

include len in
theorem execPassportRead_up (reserved : d.imm &&& ~~~0x3F0F#32 = 0#32) (up : s.nodeUp (immF d.imm 3 0) (immF d.imm 13 8) = true)
    (idle : s.busy 0x14 = false) : execPassportRead d s = .next
      (((s.took 0x14 d).keep { ref := s.refOf 0x14 d, todo := [immF d.imm 13 8] }).sendTo (immF d.imm 3 0) (immF d.imm 13 8) 0x0B []
        (some (s.refOf 0x14 d))) := by
  rw [execPassportRead, State.command_free (by simp [immOnly_of reserved, len]) idle]
  simp [up]

include len in
theorem execNodeStatus_up (reserved : d.imm &&& ~~~0x3F0F#32 = 0#32) (up : s.nodeUp (immF d.imm 3 0) (immF d.imm 13 8) = true)
    (idle : s.busy 0x82 = false) : execNodeStatus d s = .next
      (((s.took 0x82 d).keep { ref := s.refOf 0x82 d, todo := [immF d.imm 13 8] }).sendTo (immF d.imm 3 0) (immF d.imm 13 8) 0x10 []
        (some (s.refOf 0x82 d))) := by
  rw [execNodeStatus, State.command_free (by simp [immOnly_of reserved, len]) idle]
  simp [up]

/-- A port that PORT_RESTART restarts: declared, with its contactors OPEN (03 R76). -/
def State.restartable (s : State) (p : Nat) : Bool := s.declared p && (s.ctrsOf p).all (fun i => (s.ctr i).st == .isOpen)

include len in
theorem execPortRestart_admitted (reserved : d.imm &&& ~~~0xFFFF#32 = 0#32) (admitted : s.admits 0x15 [.P, .S, .C] false = true)
    {l : List Nat} (named : l = (List.range 16).filter (fun p => d.imm.getLsbD p)) (some_ : l ≠ []) :
    execPortRestart d s = .next ((l.filter (fun p => !s.restartable p)).foldl (fun v p => v.memberIn (s.refOf 0x15 d) 3 p 4)
      ((l.filter s.restartable).foldl (fun v p => ((v.portSt p .wake).wakePort p true false).onPort p
        (fun q => { q with restartCmd := some (s.refOf 0x15 d) })) ((s.took 0x15 d).keep { ref := s.refOf 0x15 d, todo := l }))) := by
  have found : (s.took 0x15 d).restartable = s.restartable := State.took_keeps State.restartable (fun _ _ _ => rfl) s 0x15 d
  rw [execPortRestart, State.command_admitted (by simp [immOnly_of reserved, len]) admitted, ← found]
  subst named
  exact congrArg Host.Outcome.next (if_neg (by simpa using some_))

include len in
theorem execOpenWireNow_ready (reserved : d.imm &&& ~~~0xF#32 = 0#32) (admitted : s.admits 0x16 [.P, .S, .C] false = true)
    (ready : (s.port (immF d.imm 3 0)).st = .ready) :
    execOpenWireNow d s = .next ((((s.took 0x16 d).keep { ref := s.refOf 0x16 d }).onPort (immF d.imm 3 0)
      (fun q => { q with owDue := true, owCmd := some (s.refOf 0x16 d) })).owTry (immF d.imm 3 0)) := by
  rw [execOpenWireNow, State.command_admitted (by simp [immOnly_of reserved, len]) admitted]
  simp [ready]

end Chain

/-- Settles O32, command by command. -/
theorem chainCommandsComplete : Obligations.ChainCommandsComplete := by
  intro s d
  refine ⟨?roster, fun u g p cell port len reserved tap => execOpenTapClear_intact len cell port reserved tap,
    fun l u r b => State.mirrored_plain r, ?balance, ?nodes, ?restart, fun len => execOpenWireNow_ready len⟩
  case roster =>
    rintro _ rfl len reserved admitted
    exact execRosterAccept_admitted len reserved admitted
  case balance =>
    rintro l _ params admitted rfl
    exact execBalance_admitted params admitted
  case nodes =>
    rintro _ _ rfl rfl len reserved up
    exact ⟨execPassportRead_up len reserved up, execNodeStatus_up len reserved up⟩
  case restart =>
    rintro l _ len reserved admitted named some_ rfl
    exact execPortRestart_admitted len reserved admitted named some_

end Sys2Proof.Machine
end

