-- ==== Sys2Proof/Proofs/EstimationAndRecords.lean ====
section
/-! PROOF. The accepted estimation commands (19 R473, R474) and the accepted commands on the non-volatile records (19 R479). -/

namespace Sys2Proof.Machine

open Sys2Proof

/-! ## Estimation (R473, R474) -/

/-- The vehicle mass is supplied by a host (09 R257). -/
def State.massSet (s : State) (m : Nat) : State := { s with pack := { s.pack with mass := some m, massT := s.now } }

theorem execVehicleMass_admitted {s : State} {d : Desc} (len : d.paramLen = 0) (range : s.massIn d.imm.toNat = true)
    (admitted : s.admits 0x21 [.P, .S] false = true) :
    execVehicleMass d s = .next (((s.took 0x21 d).massSet d.imm.toNat).okay (s.refOf 0x21 d) d.imm.toNat []) := by
  rw [execVehicleMass, State.command_admitted (by simp [len, range]) admitted]
  rfl

/-- CAPACITY_SET writes the capacity of a cell (08 R226). -/
def State.capSet (s : State) (cap sigma g : Nat) : State :=
  s.onEst g (fun e => { e with cap := cap, capSigma := sigma, learned := true, fromName := false })

theorem execCapacitySet_admitted {s : State} {d : Desc} {pos p : Nat} (cap sigma : Nat) (port : p = immF d.imm 3 0)
    (reserved : d.imm &&& ~~~0xF#32 = 0#32) (len : d.paramLen = 12) (declared : s.declared p = true)
    (occ : pos = 0xFFFF ∨ occupied (s.portCfg p) pos = true) (admitted : s.admits 0x23 [.P, .S, .M] true = true) {u : State}
    (set : u = ((s.capCells p pos).foldl (fun s g => s.capSet cap sigma g) (s.took 0x23 d)).ageFaults p) :
    execCapacitySet d pos cap sigma s = .next (u.mirrorCmd (s.refOf 0x23 d)
      ((s.capCells p pos).map (fun g => { kind := 2, key := g, body := u.ageBody g })) 0) := by
  have cells : (s.took 0x23 d).capCells p pos = s.capCells p pos :=
    State.took_keeps (fun t => t.capCells p pos) (fun _ _ _ => rfl) s 0x23 d
  subst set port
  rw [← cells, execCapacitySet, State.command_admitted (by simp [immOnly_of reserved, len, declared, occ]) admitted]
  rfl

/-- Settles O33, command by command. -/
theorem estimationCommandsComplete : Obligations.EstimationCommandsComplete := by
  intro s d
  refine ⟨?set, ?release, ?mass, ?capacity⟩
  case set =>
    rintro _ len reserved key lapse admitted rfl
    obtain ⟨u, set, runs⟩ := execEmergencySupply_admitted len reserved (.inl key) lapse admitted
    refine ⟨u, ?_, ?_, ?_, runs.trans ?_⟩
    · simp [set, State.emgSet, key]
    · by_cases none_ : immF d.imm 31 16 = 0 <;> simp [set, State.emgSet, key, none_]
    · rw [set, ← s.took_pack 0x20 d]
      rfl
    · simp [set, State.emgSet, State.emergency, key]
  case release =>
    intro len reserved key lapse admitted
    obtain ⟨u, set, runs⟩ := execEmergencySupply_admitted len reserved (.inr key) lapse admitted
    refine ⟨u, ?_, ?_, ?_, runs.trans ?_⟩
    · simp [set, State.emgSet, key]
    · simp [set, State.emgSet, key]
    · rw [set, ← s.took_pack 0x20 d]
      rfl
    · simp [set, State.emgSet, State.emergency, key]
  case mass =>
    intro len range admitted
    refine ⟨(s.took 0x21 d).massSet d.imm.toNat, rfl, s.took_now 0x21 d, ?_, execVehicleMass_admitted len range admitted⟩
    rw [← s.took_pack 0x21 d]
    rfl
  case capacity =>
    intro pos cap sigma p port reserved len declared occ admitted
    exact ⟨_, _, rfl, rfl, execCapacitySet_admitted cap sigma port reserved len declared occ admitted rfl⟩

/-! ## Non-volatile records (R479; 22 R539–R547) -/

theorem execTableRead_idle {s : State} {d : Desc} {k n c : Nat} (kind : k = immF d.imm 7 0) (reserved : d.imm &&& ~~~0xFF#32 = 0#32)
    (len : d.paramLen = 8) (low : 1 ≤ k) (high : k ≤ 6) (cells : k ≤ 2 → 1 ≤ c ∧ n + c ≤ 8192)
    (whole : 2 < k → n = 0 ∧ c = 0)
    (idle : s.busy 0x50 = false) :
    execTableRead d n c s = .next ((((s.took 0x50 d).tableRecs k n c).foldl (fun s x => s.record fnNvOut (tableRec k x))
      ((s.took 0x50 d).keep { ref := s.refOf 0x50 d, todo := [((s.took 0x50 d).tableRecs k n c).length] })).streamsDone) := by
  subst kind
  have params : (immOnly d.imm 0xFF#32 && d.paramLen == 8 && 1 ≤ immF d.imm 7 0 && immF d.imm 7 0 ≤ 6 &&
      (if immF d.imm 7 0 ≤ 2 then 1 ≤ c && n + c ≤ 8192 else n == 0 && c == 0 : Bool)) = true := by
    by_cases few : immF d.imm 7 0 ≤ 2
    · simp [immOnly_of reserved, len, low, high, few, cells few]
    · simp [immOnly_of reserved, len, low, high, few, whole (Nat.not_le.1 few)]
  rw [execTableRead, State.command_free params idle]

theorem execTableWrite_checked {s : State} {d : Desc} {k : Nat} {l : List NvReq} (kind : k = immF d.imm 7 0)
    (reserved : d.imm &&& ~~~0xFF#32 = 0#32) (known : k = 1 ∨ k = 2) (len : d.paramLen = 8 + (if k = 1 then 320 else 64) * l.length)
    (admitted : s.admits 0x51 [.P, .S, .M, .O] true = true) (checked : l.all (tableRecOk k) = true) :
    execTableWrite d l s = .next ((l.foldl (fun s q => s.tableTake q) (s.took 0x51 d)).mirrorCmd (s.refOf 0x51 d)
      (l.map (fun q => { q with body := if k = 1 then q.body else q.body.take 0x3C })) 0) := by
  subst kind
  have params : (immOnly d.imm 0xFF#32 && (immF d.imm 7 0 == 1 || immF d.imm 7 0 == 2) &&
      d.paramLen == 8 + (if immF d.imm 7 0 = 1 then 320 else 64) * l.length) = true := by
    simp [immOnly_of reserved, known, len]
  rw [execTableWrite, State.command_admitted params admitted, checked]
  rfl

/-- The black box is emptied; its sequence counter goes on (22 R547). -/
def State.bbEmptied (s : State) : State := { s with mram := { s.mram with events := [], snaps := [], snapCount := 0 } }

theorem execBbClear_admitted {s : State} {d : Desc} (imm : d.imm = 0#32) (len : d.paramLen = 0)
    (admitted : s.admits 0x53 [.M] false = true) (written : ∀ p, p < 16 → s.mram.collecting.getD p 0 = 0) :
    execBbClear d s = .next ((((s.took 0x53 d).bbEmptied).bbEvent 9 0 255 0 0 0).okay (s.refOf 0x53 d) 0 []) := by
  have none_ : (List.range 16).any (fun p => decide (s.mram.collecting.getD p 0 ≠ 0)) = false := by
    simpa using fun p small => written p small
  rw [execBbClear, none_, State.command_admitted (by simp [imm, len]) admitted]
  rfl

/-- A first chunk takes back the slot's mark for trial (22 R539). -/
def State.unmarked (s : State) (k : Nat) : State :=
  if s.mram.fwTrial == some k then { s with mram := { s.mram with fwTrial := none } } else s

theorem State.unmarked_mram (s : State) (k : Nat) : ({ s.unmarked k with mram := s.mram } : State) = s := by
  unfold State.unmarked
  split <;> rfl

/-- The image of a slot with a chunk that follows on (22 R539). -/
def State.imageWith (s : State) (k : Nat) (c : FwChunk) : List Byte :=
  (if c.first then [] else s.mram.images.getD k []) ++ c.data

theorem execFwLoad_taken {s : State} {d : Desc} {k : Nat} {c : FwChunk} (slot : k = immF d.imm 0 0)
    (reserved : d.imm &&& ~~~1#32 = 0#32) (len : d.paramLen = 16 + c.data.length) (admitted : s.admits 0x54 [.M] false = true)
    (other : k ≠ s.mram.fwActive) (follows : (s.mram.fw.getD k {}).takes c = true) :
    execFwLoad d c s = .next (
      let u := (s.took 0x54 d).unmarked k
      if !c.last then (u.fwSet k { total := c.total, crc := c.crc, next := c.offset + c.data.length } (s.imageWith k c)).okay
        (s.refOf 0x54 d) c.crc.toNat []
      else if imagePasses c.crc (s.imageWith k c) then
        (u.fwSet k { valid := true, version := (Config.fwHeader ((s.imageWith k c).take 64)).2.1, total := c.total, crc := c.crc
                     next := c.offset + c.data.length } (s.imageWith k c)).okay (s.refOf 0x54 d) c.crc.toNat []
      else (u.fwSet k {} []).fail (s.refOf 0x54 d) 7) := by
  subst slot
  have image : (s.took 0x54 d).imageWith (immF d.imm 0 0) c = s.imageWith (immF d.imm 0 0) c := by
    simp only [State.imageWith, State.took_mram]
  have idle : ¬(immF d.imm 0 0 == (s.took 0x54 d).mram.fwActive) = true := by simpa using other
  have good : ¬(!((s.took 0x54 d).mram.fw.getD (immF d.imm 0 0) {}).takes c) = true := by
    rw [State.took_mram, follows]
    exact Bool.false_ne_true
  rw [execFwLoad, State.command_admitted (by simp [immOnly_of reserved, len]) admitted, ← image]
  exact congrArg Host.Outcome.next ((if_neg idle).trans (if_neg good))

/-- A firmware slot is marked for trial at the next start (22 R540). -/
def State.marked (s : State) (k : Nat) : State := { s with mram := { s.mram with fwTrial := some k } }

theorem execFwActivate_valid {s : State} {d : Desc} (reserved : d.imm &&& ~~~1#32 = 0#32) (len : d.paramLen = 0)
    (admitted : s.admits 0x55 [.M, .O] false = true) (valid : (s.mram.fw.getD (immF d.imm 0 0) {}).valid = true) :
    execFwActivate d s = .next (((s.took 0x55 d).marked (immF d.imm 0 0)).okay (s.refOf 0x55 d) 0 []) := by
  rw [execFwActivate, State.command_admitted (by simp [immOnly_of reserved, len]) admitted]
  have good : ¬(!((s.took 0x55 d).mram.fw.getD (immF d.imm 0 0) {}).valid) = true := by
    rw [State.took_mram, valid]
    exact Bool.false_ne_true
  exact congrArg Host.Outcome.next (if_neg good)

/-- Settles O36, command by command. -/
theorem recordCommandsComplete : Obligations.RecordCommandsComplete := by
  intro s d
  refine ⟨?read, fun k l => execTableWrite_checked, ?clear, ?load, ?activate⟩
  case read =>
    rintro k n c _ kind reserved len low high cells whole idle rfl
    exact execTableRead_idle kind reserved len low high cells whole idle
  case clear =>
    intro imm len admitted written
    exact ⟨(s.took 0x53 d).bbEmptied, rfl, rfl, by simp [State.bbEmptied], execBbClear_admitted imm len admitted written⟩
  case load =>
    intro k c slot reserved len admitted other follows
    have acts := execFwLoad_taken slot reserved len admitted other follows
    have framed := (s.took 0x54 d).unmarked_mram k
    rw [State.took_mram] at framed
    refine ⟨fun more => ⟨_, _, rfl, acts.trans ?_, framed⟩, fun img last image passes => ⟨_, _, rfl, acts.trans ?_, framed⟩,
      fun img last image fails => ⟨_, acts.trans ?_, framed⟩⟩
    · rw [more]
      rfl
    · simp [last, State.imageWith, ← image, passes]
    · simp [last, State.imageWith, ← image, fails]
  case activate =>
    intro reserved len admitted valid
    refine ⟨(s.took 0x55 d).marked (immF d.imm 0 0), rfl, ?_, execFwActivate_valid reserved len admitted valid⟩
    rw [← s.took_mram 0x55 d]
    rfl

end Sys2Proof.Machine
end

