-- ==== Sys2Proof/Proofs/CanAndPairCommands.lean ====
section
/-! PROOF. The accepted CAN commands (19 R480), and the accepted pair, power state and self-test commands (19 R481, R482; 21 R510,
R511; 23 R560). -/

namespace Sys2Proof.Machine

open Sys2Proof

/-! ## CAN (R480) -/

section Can
variable {s : State} {d : Desc} {c : Nat}

theorem execCanTx_normal {f : CanFrame} (ctl : c = immF d.imm 0 0) (reserved : d.imm &&& ~~~1#32 = 0#32) (len : d.paramLen = 80)
    (own : s.ownCan d.sq c = true) (formed : frameMalformed f = false) (idle : s.busy 0x60 = false) (normal : (s.can c).mode = 0) :
    execCanTx d f s = .next
      (((s.took 0x60 d).onCan c (fun k => { k with txq := k.txq ++ [{ frame := f, ref := s.refOf 0x60 d }] })).loadTx c) := by
  subst ctl
  have found : ¬((s.took 0x60 d).can (immF d.imm 0 0)).mode ≠ 0 := by rw [State.took_can]; exact not_not.2 normal
  rw [execCanTx, State.command_free (by simp [immOnly_of reserved, len, own, formed]) idle]
  exact congrArg Host.Outcome.next (if_neg found)

/-- A buffer of a controller holds the submission named. -/
def bufTagged (o : Option TxBuf) (sq : Nat) (id : BitVec 16) : Bool :=
  match o with
  | some x => x.tagged sq id
  | none => false

/-- What CAN_CANCEL does on the state it finds (16 R391). -/
def State.cancelTagged (u : State) (d : Desc) (c : Nat) (id : BitVec 16) (r : CmdRef) : State :=
  if bufTagged (u.can c).tb1 d.sq id then (u.cancelBuf c 1).okay r 0 []
  else if bufTagged (u.can c).tb2 d.sq id then (u.cancelBuf c 2).okay r 0 []
  else match (u.can c).txq.find? (fun x => x.tagged d.sq id) with
    | some x => ((u.onCan c (fun k => { k with txq := k.txq.erase x })).txResult x 1 0).okay r 0 []
    | none =>
      if u.host.finished.any (fun x => x.ref.opcode == 0x60 && x.ref.d.sq == d.sq && x.ref.d.cmdId == id) then u.okay r 1 []
      else u.fail r 7

theorem execCanCancel_free (ctl : c = immF d.imm 16 16) {id : BitVec 16} (tag : id = BitVec.ofNat 16 (immF d.imm 15 0))
    (reserved : d.imm &&& ~~~0x1FFFF#32 = 0#32) (len : d.paramLen = 0) (own : s.ownCan d.sq c = true) (idle : s.busy 0x61 = false) :
    execCanCancel d s = .next ((s.took 0x61 d).cancelTagged d c id (s.refOf 0x61 d)) := by
  subst ctl tag
  rw [execCanCancel, State.command_free (by simp [immOnly_of reserved, len, own]) idle]
  rfl

@[simp] theorem bufTagged_some (a : TxBuf) (sq : Nat) (id : BitVec 16) : bufTagged (some a) sq id = a.tagged sq id := rfl

theorem bufTagged_eq_false {o : Option TxBuf} {sq : Nat} {id : BitVec 16} (h : ∀ a, o = some a → a.tagged sq id = false) :
    bufTagged o sq id = false := by
  cases o with
  | none => rfl
  | some a => exact h a rfl

theorem execCanFilter_free {x : FilterParam} (ctl : c = immF d.imm 0 0) (reserved : d.imm &&& ~~~0x3F01#32 = 0#32) (len : d.paramLen = 16)
    (good : filterOk (d.imm.getLsbD 13) x = true) (idle : s.busy 0x62 = false) :
    execCanFilter d x s = .next (((s.took 0x62 d).onCan c (fun k =>
      if d.imm.getLsbD 13 then { k with defRing := x.action == 1 }
      else { k with filters := k.filters.set (immF d.imm 12 8) x })).okay (s.refOf 0x62 d) 0 []) := by
  subst ctl
  rw [execCanFilter, State.command_free (by simp only [immOnly_of reserved, len, good]; rfl) idle]

@[simp] theorem State.took_usesSafe (s : State) (op : Nat) (d : Desc) : (s.took op d).usesSafe = s.usesSafe :=
  State.took_keeps State.usesSafe (fun _ _ _ => rfl) s op d

theorem execCanMode_free {m : Nat} (ctl : c = immF d.imm 0 0) (mode : m = immF d.imm 9 8) (reserved : d.imm &&& ~~~0x1301#32 = 0#32)
    (len : d.paramLen = 0) (known : m ≤ 2) (idle : s.busy 0x63 = false) (free : m = 0 ∨ s.usesSafe = false ∨ s.cfg.maint = true) :
    execCanMode d s = .next (
      let u := (s.took 0x63 d).onCan c (fun k => { k with mode := m, single := d.imm.getLsbD 12 })
      (if m = 0 then u else u.canStop c).okay (s.refOf 0x63 d) 0 []) := by
  subst ctl mode
  have taken : ¬(decide (immF d.imm 9 8 ≠ 0) && (s.took 0x63 d).usesSafe && !(s.took 0x63 d).cfg.maint) = true := by
    rw [State.took_usesSafe, State.took_maint]
    obtain zero | plain | session := free
    · simp [zero]
    · simp [plain]
    · simp [session]
  rw [execCanMode, State.command_free (by simp [immOnly_of reserved, len, known]) idle]
  exact congrArg Host.Outcome.next (if_neg taken)

end Can

/-- Settles O37, command by command. -/
theorem canCommandsComplete : Obligations.CanCommandsComplete := by
  intro s d c
  refine ⟨fun f => execCanTx_normal, ?cancel, fun x => execCanFilter_free, ?mode⟩
  case cancel =>
    rintro _ id ctl tag reserved len own idle rfl
    have acts := execCanCancel_free ctl tag reserved len own idle
    refine ⟨fun b buf named => acts.trans ?_, fun b first buf named => acts.trans ?_, fun x bufs waiting => acts.trans ?_,
      fun none_ done => acts.trans ?_⟩
    · simp [State.cancelTagged, bufTagged, buf, named]
    · simp [State.cancelTagged, bufTagged_eq_false first, buf, named]
    · simp [State.cancelTagged, bufTagged_eq_false fun a h => bufs a (.inl h), bufTagged_eq_false fun a h => bufs a (.inr h), waiting]
    · have free : (s.can c).txq.find? (fun x => x.tagged d.sq id) = none :=
        List.find?_eq_none.2 fun a mem => by simp [none_ a (.inr (.inr mem))]
      simp [State.cancelTagged, bufTagged_eq_false fun a h => none_ a (.inl h),
        bufTagged_eq_false fun a h => none_ a (.inr (.inl h)), free, done]
  case mode =>
    rintro m _ ctl mode reserved len known idle free rfl
    exact execCanMode_free ctl mode reserved len known idle free

/-! ## The pair, power states and self-tests (R481, R482) -/

section Pair
variable {s : State} {d : Desc} (len : d.paramLen = 0)

include len in
theorem execRoleHandover_up (imm : d.imm = 0#32) (admitted : s.admits 0x70 [.X, .P, .S, .C] false = true)
    (same : s.pair.diverged = 0#7) (noSeq : s.seq.active = false) (noOpen : s.opens.any (fun x => x.2.ph != .idle) = false)
    (noHold : s.drv.hold = false) (noPartnerHold : s.partnerHold = false) (up : s.partnerUp = true) : execRoleHandover d s = .next
      ((({ s.took 0x70 d with pair := { s.pair with handover := some (s.refOf 0x70 d) } } : State).sendEvt .handover).keep
        { ref := s.refOf 0x70 d }) := by
  have free : (s.took 0x70 d).partnerHold = false :=
    (State.took_keeps State.partnerHold (fun _ _ _ => rfl) s 0x70 d).trans noPartnerHold
  rw [execRoleHandover, State.command_admitted (by simp [imm, len]) admitted]
  simp only [State.took_pair, State.took_seq, State.took_opens, State.took_drv, State.took_partnerUp, free, same, noSeq, noOpen,
    noHold, up]
  rfl

include len in
theorem execPairAdopt_sealed {b : Blob} (admitted : s.admits 0x71 [.X, .P, .V, .M, .O] true = true)
    (value : d.imm.toNat = s.sealInForce) (work : s.cfg.work = some b) :
    execPairAdopt d s = .next ((s.took 0x71 d).blobMirror (s.refOf 0x71 d) b d.imm) := by
  have found : (s.took 0x71 d).cfg.work = some b := (State.took_keeps (fun t => t.cfg.work) (fun _ _ _ => rfl) s 0x71 d).trans work
  rw [execPairAdopt, State.command_admitted (by simp [len]) admitted]
  simp [value, found]

include len in
theorem execMirrorCheck_up (imm : d.imm = 0#32) (admitted : s.admits 0x72 [.X] false = true) (up : s.partnerUp = true) :
    execMirrorCheck d s = .next (({ s.took 0x72 d with pair := { s.pair with check := some (s.refOf 0x72 d) } } : State).keep
      { ref := s.refOf 0x72 d }) := by
  rw [execMirrorCheck, State.command_admitted (by simp [imm, len]) admitted]
  simp [up]

include len in
theorem execPowerStateMoss_taken (imm : d.imm = 1#32) (admitted : s.admits 0x04 [.P, .S, .C] false = true)
    (may : (s.took 0x04 d).mossRefused = false) : execPowerStateMoss d s = .next (
      let u := ((s.took 0x04 d).okay (s.refOf 0x04 d) 0 []).completeAll d.sq
      (if u.partnerUp then u.sendEvt (.powerState 1) else u).mossEnter) := by
  rw [execPowerStateMoss, State.command_admitted (by simp [imm, len]) admitted]
  exact congrArg Host.Outcome.next (if_neg (Bool.eq_false_iff.1 may))

include len in
theorem execPowerStatePeat_taken (imm : d.imm = 2#32) (admitted : s.admits 0x04 [.P, .S, .O, .C] false = true) :
    execPowerStatePeat d s = .next (
      let u := ((s.took 0x04 d).okay (s.refOf 0x04 d) 0 []).completeAll d.sq
      (if u.partnerUp then u.sendEvt (.powerState 2) else u).peatEnter) := by
  rw [execPowerStatePeat, State.command_admitted (by simp [imm, len]) admitted]

/-- The elements that failed are what ST_RESULT reads (23 R560). -/
def State.tested (s : State) (bad : Word) : State := { s with host := { s.host with selfTestResult := bad } }

include len in
theorem execSelfTest_free {w : Word} (low : 1 ≤ d.imm.toNat) (high : d.imm.toNat ≤ 8) (idle : s.busy 0x81 = false)
    (opened : d.imm.toNat = 5 ∨ d.imm.toNat = 6 → s.allOpen = true) : execSelfTest d w s = .next (
      let bad := w &&& testElements d.imm.toNat
      let u := ((s.took 0x81 d).tested bad).testEffect d.imm.toNat bad
      if bad = 0#32 then u.okay (s.refOf 0x81 d) 0 [] else (u.event .repair 7).finish (s.refOf 0x81 d) 6 bad.toNat [] false) := by
  have admitted : s.admits 0x81 (if d.imm.toNat == 5 || d.imm.toNat == 6 then [.O] else []) false = true := by
    by_cases open_ : d.imm.toNat = 5 ∨ d.imm.toNat = 6
    · simp [State.admits, State.permits, open_, opened open_, idle]
    · simp [State.admits, open_, idle]
  rw [execSelfTest, State.command_admitted (by simp [len, low, high]) admitted]
  simp only [beq_iff_eq]
  rfl

end Pair

/-- Settles O38, command by command. -/
theorem pairAndTestCommandsComplete : Obligations.PairAndTestCommandsComplete := by
  intro s d len
  refine ⟨?handover, fun b => execPairAdopt_sealed len, ?check, ?moss, ?peat, ?test⟩
  case handover =>
    intro imm admitted same noSeq noOpen noHold noPartnerHold up
    refine ⟨_, rfl, ?_, execRoleHandover_up len imm admitted same noSeq noOpen noHold noPartnerHold up⟩
    rw [← s.took_pair 0x70 d]
  case check =>
    intro imm admitted up
    refine ⟨_, rfl, ?_, execMirrorCheck_up len imm admitted up⟩
    rw [← s.took_pair 0x72 d]
  case moss =>
    rintro _ imm admitted may rfl
    exact execPowerStateMoss_taken len imm admitted may
  case peat =>
    rintro _ imm admitted rfl
    exact execPowerStatePeat_taken len imm admitted
  case test =>
    rintro w n bad rfl low high rfl idle opened
    refine ⟨(s.took 0x81 d).tested (w &&& testElements d.imm.toNat), rfl, ⟨(s.took 0x81 d).host, rfl⟩, ?_⟩
    exact execSelfTest_free len low high idle opened

end Sys2Proof.Machine
end

