-- ==== Sys2Proof/Proofs/DriveCommands.lean ====
section
/-! PROOF. The accepted contactor, output and fault commands (19 R475, R476, R478; 12 R313, R323; 11 R291, R294; 13 R339). -/

namespace Sys2Proof.Machine

open Sys2Proof

section Took
variable (s : State) (op : Nat) (d : Desc)

@[simp] theorem State.took_groupCfg (g : Nat) : (s.took op d).groupCfg g = s.groupCfg g :=
  State.took_keeps (fun t => t.groupCfg g) (fun _ _ _ => rfl) s op d
@[simp] theorem State.took_limpSel (ch : Nat) : (s.took op d).limpSel ch = s.limpSel ch :=
  State.took_keeps (fun t => t.limpSel ch) (fun _ _ _ => rfl) s op d
@[simp] theorem State.took_outc (ch : Nat) : (s.took op d).outc ch = s.outc ch :=
  State.took_keeps (fun t => t.outc ch) (fun _ _ _ => rfl) s op d
@[simp] theorem State.took_outCfg (ch : Nat) : (s.took op d).outCfg ch = s.outCfg ch :=
  State.took_keeps (fun t => t.outCfg ch) (fun _ _ _ => rfl) s op d
@[simp] theorem State.took_outUp : (s.took op d).outUp = s.outUp := State.took_keeps State.outUp (fun _ _ _ => rfl) s op d
@[simp] theorem State.took_fed (ch : Nat) : (s.took op d).fed ch = s.fed ch :=
  State.took_keeps (fun t => t.fed ch) (fun _ _ _ => rfl) s op d

end Took

/-! ## Contactors (R475; 12 R313, R323; 11 R291) -/

/-- Whether a sequence runs does not change when a maintenance session ends. -/
theorem State.maintEnd_seq (s : State) (cause : Nat) : (s.maintEnd cause).seq = s.seq := by
  unfold State.maintEnd
  split
  · exact keeps_of_erased (State.eventRec_bare _ 6 3 0 255 0 cause 0) State.seq (fun _ => rfl)
  · rfl

section Contactors
variable {s : State} {d : Desc} (len : d.paramLen = 0)

include len in
theorem execGroupClose_admitted {w u : State} {l : List Member} (reserved : d.imm &&& ~~~0xF#32 = 0#32) (ended : w = s.maintEnd 3)
    (admitted : w.admits 0x30 [.P, .S, .C] true = true) (noSeq : w.seq.active = false)
    (alone : s.contends d [0x31, 0x32] (s.groupCtrs (immF d.imm 3 0)) = false) (took : u = w.took 0x30 d)
    (members : l = (u.groupCfg (immF d.imm 3 0)).members) (may : u.closeRefused = false) (some_ : l ≠ []) :
    execGroupClose d s = .next (if u.groupClosed l then u.okay (w.refOf 0x30 d) 0 []
      else u.seqBegin (w.refOf 0x30 d) (immF d.imm 3 0)) := by
  subst ended members took
  have idle : (s.seq.active || s.contends d [0x31, 0x32] (s.groupCtrs (immF d.imm 3 0))) = false := by
    rw [alone, ← s.maintEnd_seq 3, noSeq]
    rfl
  have params : (immOnly d.imm 0xF#32 && d.paramLen == 0) = true := by simp [immOnly_of reserved, len]
  rw [execGroupClose, idle, State.command_admitted params admitted]
  exact congrArg Host.Outcome.next ((if_neg (Bool.eq_false_iff.1 may)).trans (if_neg (by simpa using some_)))

include len in
theorem execGroupOpen_admitted {u : State} {l x : List Member} (reserved : d.imm &&& ~~~0xF#32 = 0#32)
    (admitted : s.admits 0x31 [.P, .C] false = true) (alone : s.contends d [0x32] (s.groupCtrs (immF d.imm 3 0)) = false)
    (took : u = s.took 0x31 d) (members : l = (u.groupCfg (immF d.imm 3 0)).members) (some_ : l ≠ [])
    (todo : x = (l.zipIdx.filter (fun y => !(u.openMembers l).contains y.2)).map (·.1)) : execGroupOpen d s =
      .next (((((u.keep { ref := s.refOf 0x31 d, todo := x.flatMap u.memberCtrs, members := (u.openMembers l).map (fun i => (i, 0x11)) }
        ).abortFor (x.flatMap u.memberKeys)).commandOpen x (some (s.refOf 0x31 d))).settleCmds).seqKick) := by
  subst todo members took
  have params : (immOnly d.imm 0xF#32 && d.paramLen == 0) = true := by simp [immOnly_of reserved, len]
  rw [execGroupOpen, alone, State.command_admitted params admitted]
  exact congrArg Host.Outcome.next (if_neg (by simpa using some_))

include len in
theorem execDisconnect_admitted {u : State} {q : Nat} (reserved : d.imm &&& ~~~0xFF#32 = 0#32)
    (scope : immF d.imm 7 0 < 16 ∨ immF d.imm 7 0 = 0xFF) (admitted : s.admits 0x32 [.P, .C] false = true)
    (alone : s.contends d [0x31] (s.ctrsOf (if immF d.imm 7 0 < 16 then immF d.imm 7 0 else 16)) = false)
    (named : q = if immF d.imm 7 0 < 16 then immF d.imm 7 0 else 16)
    (kept : u = (s.took 0x32 d).keep { ref := s.refOf 0x32 d, todo := (s.took 0x32 d).ctrsOf q }) : execDisconnect d s =
      .next (let v := u.abortFor (u.discKeys q)
        ((v.startB q v.waitW (some (s.refOf 0x32 d))).settleCmds).seqKick) := by
  subst kept named
  have params : (immOnly d.imm 0xFF#32 && d.paramLen == 0 && (decide (immF d.imm 7 0 < 16) || immF d.imm 7 0 == 0xFF)) = true := by
    simp [immOnly_of reserved, len, scope]
  rw [execDisconnect, alone, State.command_admitted params admitted]

end Contactors

/-! ## Outputs (R476; 13 R339) -/

section Outputs
variable {s : State} {d : Desc} {ch : Nat} {on : Bool}

theorem State.channel_free (free : (s.drv.limp && s.limpSel ch) = false) : s.channel ch on = s.onOutc ch (fun o => { o with
    cmd := on && s.outUp, on := on && !o.tripped && s.outUp && s.fed ch, onT := if on && !o.on then s.now else o.onT
    restart := o.restart && on, changeT := s.now }) := if_neg (Bool.eq_false_iff.1 free)

/-- The request is noted, whether the channel follows at once or not. -/
theorem State.hostSwitch_hostReq (free : (s.drv.limp && s.limpSel ch) = false) : ((s.hostSwitch ch on).outc ch).hostReq = on := by
  unfold State.hostSwitch
  dsimp only
  split
  · simp
  · rw [State.channel_free]
    · simp
    · exact free

/-- A channel that is not thermal follows at once, as far as its supply and its own trip let it. -/
theorem State.hostSwitch_direct (free : (s.drv.limp && s.limpSel ch) = false) (direct : (s.outCfg ch).use ≠ .thermal) :
    ((s.hostSwitch ch on).outc ch).cmd = (on && s.outUp) ∧
      ((s.hostSwitch ch on).outc ch).on = (on && !(s.outc ch).tripped && s.outUp && s.fed ch) := by
  have use : ((s.outCfg ch).use == OutUse.thermal) = false := by simpa using direct
  unfold State.hostSwitch
  simp only [use, Bool.false_and, Bool.or_self, Bool.false_eq_true, ↓reduceIte]
  rw [State.channel_free]
  · simp only [State.onOutc_outc]
    exact ⟨rfl, rfl⟩
  · exact free

theorem execOutputSet_admitted (len : d.paramLen = 0) (reserved : d.imm &&& ~~~0x10F#32 = 0#32) (chan : ch = immF d.imm 3 0)
    (may : s.switchable ch = true) (admitted : s.admits 0x33 [.P, .S, .C] false = true)
    (free : (s.drv.limp && s.limpSel ch) = false) (key : d.imm.getLsbD 8 = on) (allowed : (on && (s.took 0x33 d).forcedOff ch) = false) :
    execOutputSet d s = .next (let u := (s.took 0x33 d).hostSwitch ch on
      u.okay (s.refOf 0x33 d) (u.outc ch).on.toNat []) := by
  subst chan key
  have go : ¬((s.took 0x33 d).drv.limp && (s.took 0x33 d).limpSel (immF d.imm 3 0) ||
      d.imm.getLsbD 8 && (s.took 0x33 d).forcedOff (immF d.imm 3 0)) = true := by
    rw [State.took_drv, State.took_limpSel, free, allowed]
    exact Bool.false_ne_true
  rw [execOutputSet, State.command_admitted (by simp [immOnly_of reserved, len, may]) admitted]
  exact congrArg Host.Outcome.next (if_neg go)

theorem execOutputClear_admitted (len : d.paramLen = 0) (reserved : d.imm &&& ~~~0xFFF#32 = 0#32)
    (admitted : s.admits 0x34 [.C] false = true) : execOutputClear d s =
      .next ((((List.range 12).filter (fun ch => d.imm.getLsbD ch)).foldl (fun s ch => s.outClear ch) (s.took 0x34 d)).okay
        (s.refOf 0x34 d) 0 []) := by
  rw [execOutputClear, State.command_admitted (by simp [immOnly_of reserved, len]) admitted]

theorem execFaultClear_admitted {u : State} (len : d.paramLen = 0) (reserved : d.imm &&& ~~~0xFFFF#32 = 0#32)
    (src : immF d.imm 7 0 < 64 ∨ immF d.imm 7 0 = 0xFF) (port : immF d.imm 15 8 < 16 ∨ immF d.imm 15 8 = 0xFF)
    (admitted : s.admits 0x40 [.C] false = true) (took : u = s.took 0x40 d) : execFaultClear d s = .next (
      let x := (u.retest (u.latchesNamed (immF d.imm 7 0) (immF d.imm 15 8))).clearAll (u.latchesNamed (immF d.imm 7 0) (immF d.imm 15 8))
      x.1.settle.seqKick.finish (s.refOf 0x40 d)
        (if immF d.imm 7 0 ≠ 0xFF ∧ x.2.2 ≠ 0 then 4 else 0) (x.2.1 + 65536 * x.2.2) [] false) := by
  subst took
  rw [execFaultClear, State.command_admitted (by simp [immOnly_of reserved, len, src, port]) admitted]
  simp only [Bool.and_eq_true, decide_eq_true_eq]

end Outputs

/-- Settles O34, command by command. -/
theorem driveCommandsComplete : Obligations.DriveCommandsComplete := by
  intro s d
  refine ⟨fun w u l len => execGroupClose_admitted len, fun u l x len => execGroupOpen_admitted len,
    fun u q len => execDisconnect_admitted len, ?off, ?on, execOutputClear_admitted, ?clear⟩
  case off =>
    intro ch len reserved chan may admitted free key
    have limp : ((s.took 0x33 d).drv.limp && (s.took 0x33 d).limpSel ch) = false := by simpa using free
    refine ⟨_, rfl, State.hostSwitch_hostReq limp, fun direct => ?_,
      execOutputSet_admitted len reserved chan may admitted free key rfl⟩
    obtain ⟨cmd, isOn⟩ := State.hostSwitch_direct (on := false) limp (by simpa using direct)
    exact ⟨isOn, cmd⟩
  case on =>
    intro ch len reserved chan may admitted free key allowed
    have limp : ((s.took 0x33 d).drv.limp && (s.took 0x33 d).limpSel ch) = false := by simpa using free
    refine ⟨_, rfl, State.hostSwitch_hostReq limp, fun direct => ?_,
      execOutputSet_admitted len reserved chan may admitted free key allowed⟩
    simpa using State.hostSwitch_direct (on := true) limp (by simpa using direct)
  case clear =>
    rintro u _ len reserved src port admitted took rfl
    exact execFaultClear_admitted len reserved src port admitted took

end Sys2Proof.Machine
end

