-- ==== Sys2Proof/Proofs/Rings.lean ====
section
/-! PROOF. The rings (18 R440–R459): set-up, doorbells, descriptors, completions, stream records and interrupt messages. -/

namespace Sys2Proof.Machine

open Sys2Proof

/-! ## Changing one ring -/

theorem Tab.set_set {κ α : Type} [DecidableEq κ] (t : Tab κ α) (k : κ) (v w : α) : (t.set k v).set k w = t.set k w := by
  induction t with
  | nil => simp [Tab.set]
  | cons x t ih =>
    obtain ⟨j, u⟩ := x
    by_cases here : j = k
    · simp [Tab.set, here]
    · simp [Tab.set, here, ih]

/-- Two changes of a ring are one. -/
theorem State.onRing_onRing (s : State) (n : Nat) (g h : Ring → Ring) :
    (s.onRing n g).onRing n h = s.onRing n (fun r => h (g r)) := by
  show ({ s with rings := (s.rings.set n (g (s.ring n))).set n (h ((s.onRing n g).ring n)) } : State) = _
  rw [Tab.set_set, State.onRing_ring]
  rfl

@[simp] theorem State.shadow_ring (s : State) (n m : Nat) : (s.shadow n).ring m = s.ring m := rfl
@[simp] theorem State.emit_ring (s : State) (x : Output) (m : Nat) : (s.emit x).ring m = s.ring m := rfl

/-! ## Set-up (R442, R443, R447) -/

section SetUp
variable {s : State} {n : Nat}

theorem State.ringStart_refused (bad : s.enableOk n = false) : s.ringStart n = s.ringErr n 4 := if_pos (by simp [bad])

theorem State.ringStart_started (good : s.enableOk n = true) (fresh : (s.ring n).stopped = false) :
    s.ringStart n = (s.onRing n (fun r => { r with
      en := true, run := true, devIdx := 0, hostIdx := 0, gen := (r.gen + 1) % 65536, phase := true, seq := 0, dropped := 0
      first := true, unsig := 0, outst := 0, paused := !s.drv.svcUp })).shadow n :=
  (if_neg (by simp [good])).trans (if_neg (by simp [fresh]))

/-- A RING_CTRL write with rst = 1. -/
theorem State.ringCtrl_reset {v : Word} (rst : v.getLsbD 1 = true) : s.ringCtrl n v =
    (if (s.ring n).en then s else s.onRing n (fun r => r.fields v.toNat)).onRing n (fun r =>
      { r with en := false, run := false, devIdx := 0, hostIdx := 0, ovf := 0, stopped := false }) :=
  (if_pos rst).trans (State.onRing_onRing ..)

/-- A RING_CTRL write with en = 0. -/
theorem State.ringCtrl_disable {v : Word} (rst : v.getLsbD 1 = false) (en : v.getLsbD 0 = false) : s.ringCtrl n v =
    (if (s.ring n).en then s else s.onRing n (fun r => r.fields v.toNat)).onRing n (fun r => { r with en := false, run := false }) :=
  (if_neg (by rw [rst]; exact Bool.false_ne_true)).trans (if_pos (by rw [en]; rfl))

/-- A RING_CTRL write with en = 1 to a ring that is disabled. -/
theorem State.ringCtrl_enable {v : Word} (rst : v.getLsbD 1 = false) (en : v.getLsbD 0 = true) (off : (s.ring n).en = false) :
    s.ringCtrl n v = (s.onRing n (fun r => r.fields v.toNat)).ringStart n := by
  unfold State.ringCtrl
  simp only [off, rst, en]
  rfl

variable (ready : s.host.ready = true)
include ready

theorem execRingEnable_fresh (v : Word) (off : (s.ring n).en = false) :
    execRingEnable n v s = .next ((s.onRing n (fun r => r.fields ((v &&& ~~~2#32) ||| 1#32).toNat)).ringStart n) := by
  simp only [execRingEnable, ready]
  exact congrArg Host.Outcome.next (State.ringCtrl_enable (by simp) (by simp) off)

theorem execRingDisable_ready (v : Word) : execRingDisable n v s =
    .next ((if (s.ring n).en then s else s.onRing n (fun r => r.fields (v &&& ~~~3#32).toNat)).onRing n
      (fun r => { r with en := false, run := false })) := by
  simp only [execRingDisable, ready]
  exact congrArg Host.Outcome.next (State.ringCtrl_disable (by simp) (by simp))

theorem execRingReset_ready (v : Word) : execRingReset n v s =
    .next ((if (s.ring n).en then s else s.onRing n (fun r => r.fields (v ||| 2#32).toNat)).onRing n (fun r =>
      { r with en := false, run := false, devIdx := 0, hostIdx := 0, ovf := 0, stopped := false })) := by
  simp only [execRingReset, ready]
  exact congrArg Host.Outcome.next (State.ringCtrl_reset (by simp))

theorem execRingStatusClear_ready (v : Word) : execRingStatusClear n v s =
    .next (s.onRing n (fun r => { r with err := r.err &&& ~~~((v >>> 1).setWidth 5) })) := by
  simp [execRingStatusClear, ready]

end SetUp

/-! ## Doorbells and DMA errors (R440, R443, R445) -/

section Doorbells
variable {s : State} {n : Nat} {v : Word}

/-- The advance of a doorbell beyond the host index of a ring. -/
def Ring.advance (r : Ring) (i : Nat) : Nat := (i + r.size - r.hostIdx % r.size) % r.size

/-- The advance a submission ring permits. -/
def Ring.room (r : Ring) : Nat := r.size - 1 - (r.hostIdx + r.size - r.devIdx % r.size) % r.size

theorem State.doorbell_disabled (off : (s.ring n).en = false) : s.doorbell n v = s.ringErr n 0 := if_pos (by simp [off])

section Running
variable (en : (s.ring n).en = true) (run : (s.ring n).run = true)
include en run

theorem State.doorbell_outside (far : (s.ring n).size ≤ v.toNat) : s.doorbell n v = (s.ringErr n 0).ringHalt n :=
  (if_neg (by simp [en])).trans ((if_neg (by simp [run])).trans (if_pos (by simp [far])))

theorem State.doorbell_beyond (typ : (s.ring n).typ = .submission) (far : (s.ring n).room < (s.ring n).advance v.toNat) :
    s.doorbell n v = (s.ringErr n 0).ringHalt n := by
  rw [Ring.room, Ring.advance] at far
  exact (if_neg (by simp [en])).trans ((if_neg (by simp [run])).trans (if_pos (by simp [typ, far])))

theorem State.doorbell_within (typ : (s.ring n).typ = .submission) (inside : v.toNat < (s.ring n).size)
    (near : (s.ring n).advance v.toNat ≤ (s.ring n).room) :
    s.doorbell n v = s.onRing n (fun r => { r with hostIdx := v.toNat }) := by
  rw [Ring.room, Ring.advance] at near
  exact (if_neg (by simp [en])).trans ((if_neg (by simp [run])).trans (if_neg (by simp [typ, inside, near])))

end Running

theorem execDoorbell_ready (ready : s.host.ready = true) : execDoorbell n v s = .next (s.doorbell n v) := by
  simp [execDoorbell, ready]

theorem execDmaError_enabled (en : (s.ring n).en = true) : execDmaError n s = .next ((s.ringErr n 1).ringHalt n) := by
  simp [execDmaError, en]

end Doorbells

/-! ## Descriptors (R446–R449) -/

theorem execDescriptorFetch_taken {s : State} {n op : Nat} {d : Desc} (due : s.fetchable n = true) (turn : s.fetchTurn n = true)
    (fence : d.fence = false ∨ (s.ring n).outst = 0) (good : descRefused (s.ring n) op d.imm = false) (known : definedOp op = true) :
    execDescriptorFetch n op d s = .next
      (((if s.fetchFirst n then s else { s with host := { s.host with lastSq := n } }).onRing n
        (fun r => { r with devIdx := (r.devIdx + 1) % r.size, outst := r.outst + 1 })).shadow n) := by
  have go : ¬(!s.fetchable n || !s.fetchTurn n || (d.fence && decide (0 < (s.ring n).outst))) = true := by
    obtain free | none_ := fence
    · simp [due, turn, free]
    · simp [due, turn, none_]
  unfold execDescriptorFetch
  exact congrArg Host.Outcome.next ((if_neg go).trans ((if_neg (by simp [good])).trans (if_neg (by simp [known]))))

/-- Settles O21, command by command. -/
theorem ringRowsComplete : Obligations.RingRowsComplete := by
  intro s n ready
  refine ⟨?enable, ?disable, ?reset, fun v => ⟨_, execRingStatusClear_ready ready v, by simp, rfl⟩, ?dma, ?doorbell, ?bad, ?fetch⟩
  case enable =>
    rintro v _ off fresh rfl
    have runs := execRingEnable_fresh ready v off
    refine ⟨fun good => ⟨_, runs.trans (congrArg _ (State.ringStart_started good (by rwa [State.onRing_ring]))), ?_⟩,
      fun bad => runs.trans (congrArg _ (State.ringStart_refused bad))⟩
    rw [State.shadow_ring, State.onRing_ring, State.onRing_ring]
    exact ⟨rfl, rfl, rfl, rfl, rfl, rfl⟩
  case disable =>
    intro v
    refine ⟨_, execRingDisable_ready ready v, ?_⟩
    rw [State.onRing_ring]
    split
    · exact ⟨rfl, rfl, rfl, rfl⟩
    · rw [State.onRing_ring]
      exact ⟨rfl, rfl, rfl, rfl⟩
  case reset =>
    intro v
    refine ⟨_, execRingReset_ready ready v, ?_⟩
    rw [State.onRing_ring]
    split
    · exact ⟨rfl, rfl, rfl, rfl, rfl, rfl⟩
    · exact ⟨rfl, rfl, rfl, rfl, rfl, rfl⟩
  case dma =>
    intro en
    refine ⟨_, execDmaError_enabled en, ?_⟩
    simp [State.ringHalt, State.ringErr]
  case doorbell =>
    intro v en run typ inside near
    refine ⟨_, (execDoorbell_ready ready).trans (congrArg _ (State.doorbell_within en run typ inside near)), ?_⟩
    simp [run]
  case bad =>
    intro v wrong
    by_cases en : (s.ring n).en = true
    · obtain ⟨run, far⟩ := wrong.resolve_left (by simp [en])
      refine ⟨_, (execDoorbell_ready ready).trans (congrArg _ (State.doorbell_outside en run far)), ?_⟩
      simp [State.ringHalt, State.ringErr]
    · refine ⟨_, (execDoorbell_ready ready).trans (congrArg _ (State.doorbell_disabled (by simpa using en))), ?_⟩
      simp [State.ringErr]
  case fetch =>
    intro op d due turn fence good known
    refine ⟨_, execDescriptorFetch_taken due turn fence good known, ?_⟩
    rw [State.shadow_ring, State.onRing_ring]
    split
    · exact ⟨rfl, rfl, s.host.lastSq, rfl⟩
    · exact ⟨rfl, rfl, n, rfl⟩

end Sys2Proof.Machine
end

