-- ==== Sys2Proof/Proofs/Completions.lean ====
section
/-! PROOF. Completions, stream records and interrupt messages (18 R450–R458), and the commands on the rings together. -/

namespace Sys2Proof.Machine

open Sys2Proof

/-! ## What signalling leaves alone (R449, R457) -/

/-- The state without what an interrupt message of a ring may change. -/
def State.unsignalled (s : State) : State :=
  { s with
    time := { s.time with lastOut := 0 }, ev := [], sent := [], rings := []
    host := { s.host with irqN := true, msixPend := 0 } }

@[simp] theorem State.msix_unsignalled (s : State) (v : Nat) : (s.msix v).unsignalled = s.unsignalled := by
  unfold State.msix
  split <;> rfl

@[simp] theorem State.ringMessage_unsignalled (s : State) (n : Nat) : (s.ringMessage n).unsignalled = s.unsignalled := by
  unfold State.ringMessage
  dsimp only
  split
  · exact State.msix_unsignalled ..
  · rfl

@[simp] theorem State.signal_unsignalled (s : State) (n : Nat) : (s.signal n).unsignalled = s.unsignalled := by
  unfold State.signal
  dsimp only
  split
  · rfl
  · split
    · exact State.ringMessage_unsignalled ..
    · rfl

/-- A ring without its counts of unsignalled entries and outstanding commands, which signalling and a command's end change. -/
def Ring.quiet (r : Ring) : Ring := { r with unsig := 0, unsigT := 0, outst := 0 }

/-- A change of one ring that leaves that alone leaves it alone on every ring. -/
theorem State.onRing_quiet (s : State) (n : Nat) {g : Ring → Ring} (keeps : ∀ r, (g r).quiet = r.quiet) (m : Nat) :
    ((s.onRing n g).ring m).quiet = (s.ring m).quiet := by
  by_cases here : m = n
  · rw [here, State.onRing_ring, keeps]
  · rw [State.onRing_ring_other s g here]

theorem State.msix_ring (s : State) (v m : Nat) : (s.msix v).ring m = s.ring m := by
  unfold State.msix
  split <;> rfl

@[simp] theorem State.ringMessage_quiet (s : State) (n m : Nat) : ((s.ringMessage n).ring m).quiet = (s.ring m).quiet := by
  have unsig := s.onRing_quiet n (g := fun r => { r with unsig := 0 }) (fun _ => rfl) m
  unfold State.ringMessage
  dsimp only
  split
  · rw [State.msix_ring]
    exact unsig
  · exact unsig

@[simp] theorem State.signal_quiet (s : State) (n m : Nat) : ((s.signal n).ring m).quiet = (s.ring m).quiet := by
  have counted := s.onRing_quiet n (g := fun r => { r with unsig := r.unsig + 1, unsigT := if r.unsig = 0 then s.now else r.unsigT })
    (fun _ => rfl) m
  unfold State.signal
  dsimp only
  split
  · rfl
  · split
    · exact (State.ringMessage_quiet ..).trans counted
    · exact counted

@[simp] theorem State.release_quiet (s : State) (r : CmdRef) (m : Nat) : ((s.release r).ring m).quiet = (s.ring m).quiet := by
  unfold State.release
  split
  · exact s.onRing_quiet _ (g := fun q => { q with outst := q.outst - 1 }) (fun _ => rfl) m
  · rfl

@[simp] theorem State.finish_quiet (s : State) (r : CmdRef) (status value : Nat) (result : List Byte) (isPartial : Bool) (m : Nat) :
    ((s.finish r status value result isPartial).ring m).quiet = (s.ring m).quiet := by
  obtain ⟨u, rfl, stale | silent | ⟨l, due⟩⟩ := s.finish_cases r status value result isPartial
  · rw [stale]
    rfl
  · rw [silent, State.release_quiet]
    rfl
  · rw [due]
    rfl

theorem State.finish_streamQ (s : State) (r : CmdRef) (status value : Nat) (result : List Byte) (isPartial : Bool) :
    (s.finish r status value result isPartial).host.streamQ = s.host.streamQ := by
  obtain ⟨u, rfl, stale | silent | ⟨l, due⟩⟩ := s.finish_cases r status value result isPartial
  · rw [stale]
    rfl
  · rw [silent, State.release_host]
    rfl
  · rw [due]
    rfl

theorem State.streamsDone_streamQ (s : State) : s.streamsDone.host.streamQ = s.host.streamQ :=
  foldl_keeps (fun u => u.host.streamQ) (fun _ _ => State.finish_streamQ ..) _ s

theorem State.streamsDone_quiet (s : State) (m : Nat) : (s.streamsDone.ring m).quiet = (s.ring m).quiet :=
  foldl_keeps (fun u => (u.ring m).quiet) (fun _ _ => State.finish_quiet ..) _ s

/-! ## Completions (R450–R452) -/

/-- The entry a completion takes in the command log. -/
def State.completionTaken (s : State) (c : Cpl) : State :=
  ({ s with host := { s.host with finished := s.host.finished.erase c } } : State).logMod c.ref (fun e => { e with written := true })

theorem State.completionTaken_ring (s : State) (c : Cpl) (m : Nat) : (s.completionTaken c).ring m = s.ring m := rfl

/-- The index and the phase of a completion ring after an entry. -/
def Ring.completed (r : Ring) : Ring :=
  { r with devIdx := (r.devIdx + 1) % r.size, phase := r.phase != ((r.devIdx + 1) % r.size == 0) }

section Complete
variable {s : State} {n : Nat} {c : Cpl} {l : List Cpl} (first : s.host.finished = c :: l)
  (own : (s.ring c.ref.d.sq).cq = n) (en : (s.ring n).en = true) (run : (s.ring n).run = true) (typ : (s.ring n).typ = .completion)
  (works : s.works n = true) (svc : s.drv.svcUp = true) (free : (s.ring n).free = true)

include first own en run typ works svc free

/-- The first completion due on a serviced ring with a free entry is written there. -/
theorem State.complete_written : ∃ t : State, s.complete n = (((t.completionTaken c).release c.ref).shadow n).signal n ∧
    t.host.finished = c :: l ∧ t.ring n = (s.ring n).completed := by
  have found : s.host.finished.find? (fun x => (s.ring x.ref.d.sq).cq == n) = some c := by simp [first, own]
  unfold State.complete
  rw [found]
  dsimp only
  rw [if_neg (by simp [en, run, typ]), if_neg (by simp [works, svc, free])]
  refine ⟨_, rfl, ?_, ?_⟩
  · simp only [State.onRing_host, State.emit_host]
    split <;> exact first
  · rw [State.onRing_ring]
    split <;> rfl

theorem execCompletionWrite_written : ∃ t : State, execCompletionWrite n s = .next t ∧ t.host.finished = l ∧
    (t.ring n).devIdx = ((s.ring n).devIdx + 1) % (s.ring n).size ∧
    (t.ring n).phase = ((s.ring n).phase != (((s.ring n).devIdx + 1) % (s.ring n).size == 0)) := by
  obtain ⟨t, written, due, entry⟩ := State.complete_written first own en run typ works svc free
  have ring : ((s.complete n).ring n).quiet = (s.ring n).completed.quiet := by
    rw [written, State.signal_quiet, State.shadow_ring, State.release_quiet, State.completionTaken_ring, entry]
  have finished : (s.complete n).host.finished = l := by
    rw [written, keeps_of_erased (State.signal_unsignalled _ n) (fun u => u.host.finished) (fun _ => rfl)]
    show ((t.completionTaken c).release c.ref).host.finished = l
    rw [State.release_host]
    show t.host.finished.erase c = l
    rw [due, List.erase_cons_head]
  exact ⟨_, rfl, finished, (congrArg Ring.devIdx ring :), (congrArg Ring.phase ring :)⟩

end Complete

/-! ## Stream records (R453–R456) -/

section Records
variable {s : State} {n fn : Nat} {x : StreamRec} {l : List StreamRec} (first : s.host.streamQ = x :: l) (own : x.fn = fn)
  (ring : s.streamRing fn = some n) (works : s.works n = true)

/-- The first record due leaves its queue. -/
def State.recordTaken (s : State) (x : StreamRec) : State := { s with host := { s.host with streamQ := s.host.streamQ.erase x } }

include first own ring works

/-- A record goes into the buffer posted, which is long enough. -/
theorem State.recordWrite_posted {b : BufPost} (posted : (s.ring n).devIdx ≠ (s.ring n).hostIdx) (fits : 32 + x.body.length ≤ b.len) :
    ∃ t : State, s.recordWrite fn (some b) = ((t.onRing n (fun r => { r with
        devIdx := (r.devIdx + 1) % r.size, dropped := 0, first := false, seq := (r.seq + 1) % 2 ^ 32 })).shadow n).signal n ∧
      t.host.streamQ = l ∧ t.ring n = s.ring n := by
  have run : (s.ring n).run = true := by simp_all [State.works]
  have found : s.host.streamQ.find? (fun r => r.fn == fn) = some x := by simp [first, own]
  have taken : s.host.streamQ.erase x = l := by rw [first, List.erase_cons_head]
  unfold State.recordWrite
  rw [found]
  dsimp only
  rw [ring]
  dsimp only
  rw [if_neg (by simp [run]), if_neg (by simp [works]), if_neg (by simpa using posted)]
  dsimp only
  rw [State.onRing_onRing, if_neg (by simpa using fits)]
  exact ⟨_, rfl, taken, rfl⟩

/-- A record without a buffer is dropped and counted. -/
theorem State.recordWrite_dropped (notA : fn ≠ 0x25) (notB : fn ≠ 0x26) :
    s.recordWrite fn none = (s.recordTaken x).onRing n (fun r => { r with
      ovf := min (r.ovf + 1) 0xFFFFFFFF, err := r.err ||| (1#5 <<< 3), errCnt := min (r.errCnt + 1) 255
      dropped := min (r.dropped + 1) 0xFFFFFFFF, seq := (r.seq + 1) % 2 ^ 32 }) := by
  have run : (s.ring n).run = true := by simp_all [State.works]
  have found : s.host.streamQ.find? (fun r => r.fn == fn) = some x := by simp [first, own]
  unfold State.recordWrite
  rw [found]
  dsimp only
  rw [ring]
  dsimp only
  rw [if_neg (by simp [run]), if_neg (by simp [works]), ite_self]
  dsimp only
  rw [if_neg notA, if_neg notB, State.recordLost, State.ringErr, State.onRing_onRing, State.onRing_onRing, State.onRing_onRing]
  rfl

end Records

/-! ## Interrupt messages (R457) -/

theorem execInterruptModerationTimeout_due {s : State} {n : Nat} (ie : (s.ring n).ie = true) (counted : (s.ring n).unsig ≠ 0)
    (timed : (s.ring n).modTime ≠ 0) : execInterruptModerationTimeout n s =
      .next ((s.at ((s.ring n).unsigT + us (s.ring n).modTime)).ringMessage n) :=
  congrArg Host.Outcome.next (if_neg (by simp [ie, counted, timed]))

/-- An entry of the MSI-X table with its mask bit. -/
def State.msixEntry (s : State) (n : Nat) (x : MsixEntry) : State :=
  { s with host := { s.host with
      msixTab := s.host.msixTab.set n x
      msixMask := if x.masked then s.host.msixMask ||| 1#64 <<< n else s.host.msixMask &&& ~~~(1#64 <<< n) } }

/-- The pending message of a vector is sent. -/
def State.msixSent (s : State) (n : Nat) : State :=
  ({ s with host := { s.host with msixPend := s.host.msixPend &&& ~~~(1#64 <<< n) } } : State).emit (.msix n)

theorem execMsixTableWrite_ready {s : State} {n : Nat} {x : MsixEntry} (ready : s.host.ready = true) : execMsixTableWrite n x s =
    .next (if !x.masked && s.host.msixPend.getLsbD n && !s.host.d3hot then (s.msixEntry n x).msixSent n else s.msixEntry n x) :=
  congrArg Host.Outcome.next (if_neg (by simp [ready]))

theorem State.msixEntry_mask (s : State) {n : Nat} (small : n < 64) (x : MsixEntry) :
    (s.msixEntry n x).host.msixMask.getLsbD n = x.masked := by
  by_cases masked : x.masked = true
  · simp [State.msixEntry, masked, small]
  · simp [State.msixEntry, masked, small]

theorem State.msixSent_pend (s : State) {n : Nat} (small : n < 64) : (s.msixSent n).host.msixPend.getLsbD n = false := by
  simp [State.msixSent, small]

/-- An entry of the MSI-X table is stored; its pending message is sent once the vector is unmasked. -/
theorem execMsixTableWrite_stored {s : State} {n : Nat} (x : MsixEntry) (small : n < 64) (ready : s.host.ready = true) :
    ∃ t : State, execMsixTableWrite n x s = .next t ∧ t.host.msixTab = s.host.msixTab.set n x ∧
      t.host.msixMask.getLsbD n = x.masked ∧ t.rings = s.rings ∧
      (x.masked = false → s.host.d3hot = false → t.host.msixPend.getLsbD n = false) := by
  refine ⟨_, execMsixTableWrite_ready ready, ?_⟩
  by_cases send : (!x.masked && s.host.msixPend.getLsbD n && !s.host.d3hot) = true
  · rw [if_pos send]
    exact ⟨rfl, s.msixEntry_mask small x, rfl, fun _ _ => (s.msixEntry n x).msixSent_pend small⟩
  · rw [if_neg send]
    exact ⟨rfl, s.msixEntry_mask small x, rfl, fun open_ d0 => by simpa [open_, d0, State.msixEntry] using send⟩

/-- Settles O22: the first completion due, the first record due with and without a buffer, the moderation time, the table. -/
theorem completionsAndRecordsComplete : Obligations.CompletionsAndRecordsComplete := by
  intro s n
  refine ⟨fun c l => execCompletionWrite_written, ?posted, ?dropped, execInterruptModerationTimeout_due, ?table⟩
  case posted =>
    intro fn b l x first own ring works posted fits
    obtain ⟨t, written, queue, entry⟩ := State.recordWrite_posted first own ring works posted fits
    have ringAfter := congrArg Ring.quiet (t.onRing_ring n (fun r => { r with
        devIdx := (r.devIdx + 1) % r.size, dropped := 0, first := false, seq := (r.seq + 1) % 2 ^ 32 }))
    rw [← State.shadow_ring _ n, ← State.signal_quiet _ n, ← written, entry] at ringAfter
    refine ⟨s.recordWrite fn (some b), ?_, (congrArg Ring.devIdx ringAfter :), (congrArg Ring.seq ringAfter :),
      (congrArg Ring.dropped ringAfter :), rfl⟩
    rw [written, keeps_of_erased (State.signal_unsignalled _ n) (fun u => u.host.streamQ) (fun _ => rfl)]
    exact queue
  case dropped =>
    intro fn l x first own ring works notA notB
    refine ⟨s.recordWrite fn none, ?_⟩
    rw [State.recordWrite_dropped first own ring works notA notB, State.onRing_ring]
    refine ⟨?_, rfl, ?_, rfl, ?_⟩
    · simp [State.recordTaken, first]
    · simp
    · rw [← State.recordWrite_dropped first own ring works notA notB]
      rfl
  case table =>
    intro x small ready
    obtain ⟨t, stored, entry, mask, rings, -⟩ := execMsixTableWrite_stored x small ready
    exact ⟨t, stored, entry, mask, rings⟩

/-- Settles O56: each command on the rings, as the statements above give it. -/
theorem ringCommandsAnswer : Obligations.RingCommandsAnswer := by
  intro s n ready
  have bell := fun v => execDoorbell_ready (n := n) (v := v) ready
  refine ⟨?within, ?beyond, fun v off _ => execRingEnable_fresh ready v off, fun v en => ?disable, fun v en => ?reset,
    execRingStatusClear_ready ready, execDmaError_enabled, ?fetch, ?completion, ?record, execInterruptModerationTimeout_due,
    fun x small => execMsixTableWrite_stored x small ready⟩
  case within =>
    rintro v _ rfl en run typ inside near
    exact (bell v).trans (congrArg _ (State.doorbell_within en run typ inside near))
  case beyond =>
    rintro v _ rfl en run typ far
    exact (bell v).trans (congrArg _ (State.doorbell_beyond en run typ far))
  case disable =>
    exact (execRingDisable_ready ready v).trans (by rw [if_pos en])
  case reset =>
    exact (execRingReset_ready ready v).trans (by rw [if_pos en])
  case fetch =>
    rintro op d _ due turn fence good known rfl
    exact execDescriptorFetch_taken due turn (.inl fence) good known
  case completion =>
    intro c l first own en run typ works svc free
    obtain ⟨t, written, due, idx, -⟩ := execCompletionWrite_written first own en run typ works svc free
    exact ⟨t, written, due, idx⟩
  case record =>
    intro fn b l x first own ring works posted fits
    obtain ⟨u, queue, idx, seq, -, written⟩ := (completionsAndRecordsComplete s n).2.1 fn b l x first own ring works posted fits
    have same := u.streamsDone_quiet n
    exact ⟨_, written, u.streamsDone_streamQ.trans queue, (congrArg Ring.devIdx same).trans idx, (congrArg Ring.seq same).trans seq⟩

end Sys2Proof.Machine
end

