-- ==== Sys2Proof/Proofs/Registers.lean ====
section
/-! PROOF. Event registers, reads with an effect, and register writes (20 R489–R503; 16 R395, R396; 18 R458). -/

namespace Sys2Proof.Machine

open Sys2Proof

/-! ## Event registers (R492, R493) -/

section Events
variable {s : State} {v : Word}

theorem State.evClear_irqStatus : s.evClear .irqStatus v =
    (s.onEvr .irqStatus (fun e => { e with bits := e.bits &&& ~~~(v &&& 0x0000FFFF#32) })).driveIrq := rfl

theorem State.evClear_ring (hi : Bool) : s.evClear (if hi then .ringPendHi else .ringPendLo) v =
    (s.onEvr (if hi then .ringPendHi else .ringPendLo) (fun e => { e with bits := e.bits &&& ~~~v })).ringAck := by
  cases hi <;> rfl

theorem State.evClear_plain {r : EvReg} (notIrq : r ≠ .irqStatus) (notLo : r ≠ .ringPendLo) (notHi : r ≠ .ringPendHi) :
    s.evClear r v = s.onEvr r (fun e => { e with bits := e.bits &&& ~~~v }) := by
  cases r <;> first | contradiction | rfl

@[simp] theorem State.driveIrq_evr (s : State) (r : EvReg) : s.driveIrq.evr r = s.evr r := rfl

/-- GLB_IRQ_STATUS alone follows the ring bits. -/
theorem State.ringAck_evr (s : State) {r : EvReg} (other : r ≠ .irqStatus) : s.ringAck.evr r = s.evr r := by
  unfold State.ringAck
  dsimp only
  split
  · exact (State.driveIrq_evr ..).trans (State.onEvr_evr_other _ _ other)
  · rfl

theorem State.ringAck_frame (s : State) : ({ s.ringAck with ev := s.ev, host := s.host } : State) = s := by
  unfold State.ringAck
  dsimp only
  split <;> rfl

/-- A W1C write clears the bits it names in its own register, beside GLB_IRQ_STATUS alone. -/
theorem State.evClear_named {r : EvReg} (notIrq : r ≠ .irqStatus) : ((s.evClear r v).evr r).bits = (s.evr r).bits &&& ~~~v ∧
    ((s.evClear r v).evr r).cnt = (s.evr r).cnt ∧ (∀ q, q ≠ r → q ≠ .irqStatus → (s.evClear r v).evr q = s.evr q) ∧
    ({ s.evClear r v with ev := s.ev, host := s.host } : State) = s := by
  have cleared : ∃ t : State, t = s.onEvr r (fun e => { e with bits := e.bits &&& ~~~v }) ∧
      (s.evClear r v = t ∨ s.evClear r v = t.ringAck) := by
    refine ⟨_, rfl, ?_⟩
    by_cases lo : r = .ringPendLo
    · exact .inr (lo ▸ State.evClear_ring false)
    · by_cases hi : r = .ringPendHi
      · exact .inr (hi ▸ State.evClear_ring true)
      · exact .inl (State.evClear_plain notIrq lo hi)
  obtain ⟨t, ht, plain | ring⟩ := cleared
  · rw [plain, ht, State.onEvr_evr]
    exact ⟨rfl, rfl, fun q other _ => State.onEvr_evr_other _ _ other, rfl⟩
  · rw [ring, State.ringAck_evr _ notIrq, ht, State.onEvr_evr, ← ht]
    refine ⟨rfl, rfl, fun q other notIrq => ?_, ?_⟩
    · rw [State.ringAck_evr _ notIrq, ht, State.onEvr_evr_other _ _ other]
    · have framed := congrArg (fun u : State => { u with ev := s.ev, host := s.host }) t.ringAck_frame
      exact framed.trans (by rw [ht]; rfl)

end Events

section Access
variable {s : State} (ready : s.host.ready = true)
include ready

theorem execIrqStatusAck_ready (v : Word) : execIrqStatusAck v s = .next (s.evClear .irqStatus v) := by
  simp [execIrqStatusAck, ready]

theorem execRingPendAck_ready (hi : Bool) (v : Word) :
    execRingPendAck hi v s = .next (s.evClear (if hi then .ringPendHi else .ringPendLo) v) := by
  simp [execRingPendAck, ready]

theorem execEventRegisterClear_ready (r : EvReg) (v : Word) : execEventRegisterClear r v s = .next (s.evClear r v) := by
  simp [execEventRegisterClear, ready]

theorem execEventCounterClear_ready (r : EvReg) : execEventCounterClear r s = .next (s.cntClear r) := by
  simp [execEventCounterClear, ready]

end Access

/-- Settles O24: the register named, the ring bits, and the counters. -/
theorem eventRegistersClear : Obligations.EventRegistersClear := by
  intro s v ready
  refine ⟨⟨_, execIrqStatusAck_ready ready v, ?irq⟩, fun hi => ⟨_, execRingPendAck_ready ready hi v, ?ring⟩,
    fun r notIrq => ⟨_, execEventRegisterClear_ready ready r v, State.evClear_named notIrq⟩,
    fun r => ⟨_, execEventCounterClear_ready ready r, ?counter⟩⟩
  case irq =>
    rw [State.evClear_irqStatus, State.driveIrq_evr, State.onEvr_evr]
    exact ⟨rfl, rfl, fun r other => (State.driveIrq_evr ..).trans (State.onEvr_evr_other _ _ other), rfl⟩
  case ring =>
    obtain ⟨bits, -, others, frame⟩ := State.evClear_named (s := s) (v := v) (r := if hi then .ringPendHi else .ringPendLo)
      (by cases hi <;> simp)
    exact ⟨bits, fun r notIrq other => others r other notIrq, frame⟩
  case counter =>
    rw [State.cntClear, State.onEvr_evr]
    exact ⟨rfl, rfl, fun q other => State.onEvr_evr_other _ _ other, rfl⟩

/-! ## Reads with an effect (R490, R502, R503; 16 R395, R396) -/

section Reads
variable {s : State} {c : Nat}

theorem State.hpRelease_free (free : (s.can c).hpHold = none) :
    s.hpRelease c = s.onCan c (fun k => { k with hpLock := false, hpHold := none }) := by
  simp [State.hpRelease, free]

/-- What a read of a low half leaves: its value, and the other half captured. -/
def State.halfRead (s : State) (lo : Nat) (off hi : Nat) : State :=
  let s := s.readOut lo
  { s with host := { s.host with hiCap := Tab.set (s.host.hiCap.filter (fun x => x.1 ≠ off)) (off + 4) (BitVec.ofNat 32 hi) } }

variable (ready : s.host.ready = true)
include ready

theorem execLoHalfRead_plain {off : Nat} (half : isLo off = true) (notA : off ≠ 0x9100) (notB : off ≠ 0xA100)
    (none_ : Tab.find s.host.hiCap off = none) : execLoHalfRead off s = .next
      ((if off = 0x6000 then { s with time := { s.time with lastOut := max s.time.lastOut s.now } } else s).halfRead (s.reg off) off
        (s.reg (off + 4))) := by
  have window : (off == 0x9100 || off == 0xA100) = false := by simp [notA, notB]
  unfold execLoHalfRead
  refine congrArg Host.Outcome.next ((if_neg (by simp [ready])).trans ?_)
  rw [none_, window, half]
  cases Tab.find s.host.hiCap (off + 4) <;> rfl

theorem execLoHalfRead_captures {off : Nat} (half : isLo off = true) (notA : off ≠ 0x9100) (notB : off ≠ 0xA100)
    (none_ : Tab.find s.host.hiCap off = none) : ∃ t : State, execLoHalfRead off s = .next t ∧
      t.host.readData = BitVec.ofNat 64 (s.reg off) ∧ Tab.find t.host.hiCap (off + 4) = some (BitVec.ofNat 32 (s.reg (off + 4))) ∧
      ({ t with host := s.host, time := s.time } : State) = s := by
  refine ⟨_, execLoHalfRead_plain ready half notA notB none_, rfl, ?_, ?_⟩
  · exact (Tab.find_set ..).trans (if_pos rfl)
  · split <;> rfl

theorem execSpdCaptureRead_captures (b : Bool) : ∃ t : State, execSpdCaptureRead c b s = .next t ∧
    t.host.readData = BitVec.ofNat 64 (s32 (if b then (s.axle c).idx else (s.axle c).count)) ∧
    Tab.find t.host.hiCap (0xB000 + 0x40 * c + (if b then 0x18 else 0x0C)) =
      some (BitVec.ofNat 32 (if b then (s.axle c).tIdx else (s.axle c).tEdge)) ∧
    Tab.find t.host.hiCap (0xB000 + 0x40 * c + (if b then 0x1C else 0x10)) =
      some (BitVec.ofNat 32 ((if b then (s.axle c).tIdx else (s.axle c).tEdge) / 2 ^ 32)) ∧
    ({ t with host := s.host } : State) = s := by
  refine ⟨_, congrArg Host.Outcome.next (if_neg (by simp [ready])), rfl, ?_, ?_, rfl⟩
  · cases b <;> simp [Tab.find_set]
  · cases b <;> simp [Tab.find_set]

theorem execCollCntRead_ready : execCollCntRead c s =
    .next ((s.readOut (s.can c).collCnt).onCan c (fun k => { k with collCnt := 0 })) := by
  simp [execCollCntRead, ready]

theorem execHpWindowRead_locks {off : Nat} (low : 0x100 ≤ off) (high : off ≤ 0x14C) : execHpWindowRead c off s =
    .next ((s.readOut (hpWord (s.can c) off)).onCan c
      (fun k => { k with hpLock := true, hpLockT := if k.hpLock then k.hpLockT else s.now })) := by
  simp only [execHpWindowRead, ready, State.hpRead, low, high]
  rfl

theorem execHpStatRead_ready : execHpStatRead c s = .next (((s.readOut (hpStat (s.can c))).onCan c
    (fun k => { k with hpNew := false, hpTimed := false })).hpRelease c) := by
  simp only [execHpStatRead, ready]
  rfl

end Reads

theorem execHpLockTimeout_locked {s : State} {c : Nat} (locked : (s.can c).hpLock = true) : execHpLockTimeout c s = .next
    (((s.at ((s.can c).hpLockT + ms 1)).onCan c (fun k => { k with hpTimed := true })).hpRelease c) := by
  simp [execHpLockTimeout, locked]

/-- Settles O25, read by read. -/
theorem registerReadsComplete : Obligations.RegisterReadsComplete := by
  intro s c ready
  refine ⟨fun off => execLoHalfRead_captures ready, fun b => ?spd, ⟨_, execCollCntRead_ready ready, rfl, ?coll, rfl⟩,
    fun off low high => ⟨_, execHpWindowRead_locks ready low high, rfl, ?window, rfl⟩,
    fun free => ?stat, fun locked free => ?timeout⟩
  case spd =>
    obtain ⟨t, reads, value, low, -, frame⟩ := execSpdCaptureRead_captures (c := c) ready b
    exact ⟨t, reads, value, low, frame⟩
  case coll => rw [State.onCan_can]
  case window => rw [State.onCan_can]
  case stat =>
    refine ⟨_, execHpStatRead_ready ready, ?_⟩
    rw [State.hpRelease_free (by rw [State.onCan_can]; exact free), State.onCan_can, State.onCan_can]
    exact ⟨rfl, rfl, rfl, rfl, rfl⟩
  case timeout =>
    refine ⟨_, execHpLockTimeout_locked locked, ?_⟩
    rw [State.hpRelease_free (by rw [State.onCan_can]; exact free), State.onCan_can, State.onCan_can]
    exact ⟨rfl, rfl, rfl, rfl, rfl⟩

/-! ## Register writes (R489, R490, R494) -/

section Writes
variable {s : State} {v : Word} {off : Nat} (ready : s.host.ready = true)

/-- What a write does at an offset that is none of an event register, its counter or an interrupt set-up register. -/
def State.wordTaken (s : State) (off : Nat) (v : Word) : State :=
  if off = 0x0050 then
    (if v = 0xC0DE0001#32 then s.svcReset 4
     else if v = 0xC0DE0002#32 then s.softSafe
     else if v = 0xC0DE0003#32 then (s.svcReset 4).softSafe
     else s)
  else if off = 0x100C then { s with pwr := { s.pwr with wakeTimer := v } }
  else if 0x2000 ≤ off && off < 0x3000 then s.ringWrite ((off - 0x2000) / 64) (off % 64) v
  else if 0x8000 ≤ off && off < 0x8200 && off % 8 = 0 then s.doorbell ((off - 0x8000) / 8) v
  else if off = 0xB030 then s.onAxle 0 (fun x => { x with irqEn := v.setWidth 8 })
  else if off = 0xB070 then s.onAxle 1 (fun x => { x with irqEn := v.setWidth 8 })
  else s

theorem execRegisterWrite_unaligned (odd : off % 4 ≠ 0) : execRegisterWrite off v s = .next s := by
  simp [execRegisterWrite, odd]

section Aligned
variable (aligned : off % 4 = 0)
include ready aligned

theorem execRegisterWrite_event {r : EvReg} (event : evAt off = some r) : execRegisterWrite off v s = .next (s.evClear r v) := by
  unfold execRegisterWrite
  rw [if_neg (by simp [aligned, ready]), event]

theorem execRegisterWrite_counter {r : EvReg} (above : 4 ≤ off) (none_ : evAt off = none) (event : evAt (off - 4) = some r) :
    execRegisterWrite off v s = .next (s.cntClear r) := by
  unfold execRegisterWrite
  rw [if_neg (by simp [aligned, ready]), none_, if_neg (Nat.not_lt.2 above), event]

omit ready aligned in
theorem counterAt_none (noCounter : off < 4 ∨ evAt (off - 4) = none) : (if off < 4 then none else evAt (off - 4)) = none := by
  obtain low | free := noCounter
  · exact if_pos low
  · rw [free, ite_self]

variable (none_ : evAt off = none) (noCounter : off < 4 ∨ evAt (off - 4) = none)
include none_ noCounter

theorem execRegisterWrite_setUp {b : IrqBlk} {two : Bool} (irq : irqAt off = some (b, two)) : execRegisterWrite off v s =
    .next ((s.onIrqc b (fun _ => v &&& (if two then 0x013F013F#32 else 0x0000013F#32))).driveIrq) := by
  unfold execRegisterWrite
  rw [if_neg (by simp [aligned, ready]), none_, counterAt_none noCounter, irq]

theorem execRegisterWrite_word (noIrq : irqAt off = none) : execRegisterWrite off v s = .next (s.wordTaken off v) := by
  unfold execRegisterWrite
  rw [if_neg (by simp [aligned, ready]), none_, counterAt_none noCounter, noIrq]
  rfl

end Aligned

/-- No event or interrupt set-up register lies in the ring blocks. -/
theorem evAt_ringBlock (low : 0x1014 < off) (high : off < 0x5020) : evAt off = none := by
  unfold evAt
  split
  case h_16 => rfl
  all_goals omega

theorem irqAt_ringBlock (low : 0x1028 < off) (high : off < 0x5028) : irqAt off = none := by
  unfold irqAt
  split
  case h_13 => rfl
  all_goals omega

/-- Nor among the doorbells. -/
theorem evAt_doorbells (low : 0x7014 < off) (high : off < 0x9008) : evAt off = none := by
  unfold evAt
  split
  case h_16 => rfl
  all_goals omega

theorem irqAt_doorbells (low : 0x701C < off) (high : off < 0x9020) : irqAt off = none := by
  unfold irqAt
  split
  case h_13 => rfl
  all_goals omega

include ready

theorem execRegisterWrite_ring {n o : Nat} (ring : n < 64) (word : o < 16) :
    execRegisterWrite (0x2000 + 64 * n + 4 * o) v s = .next (s.ringWrite n (4 * o) v) := by
  rw [execRegisterWrite_word ready (by omega) (evAt_ringBlock (by omega) (by omega)) (.inr (evAt_ringBlock (by omega) (by omega)))
    (irqAt_ringBlock (by omega) (by omega)), State.wordTaken, if_neg (by omega), if_neg (by omega),
    if_pos (by simp; omega)]
  have block : (0x2000 + 64 * n + 4 * o - 0x2000) / 64 = n := by omega
  have word : (0x2000 + 64 * n + 4 * o) % 64 = 4 * o := by omega
  rw [block, word]

theorem execRegisterWrite_doorbell {n : Nat} (ring : n < 64) : execRegisterWrite (0x8000 + 8 * n) v s = .next (s.doorbell n v) := by
  rw [execRegisterWrite_word ready (by omega) (evAt_doorbells (by omega) (by omega)) (.inr (evAt_doorbells (by omega) (by omega)))
    (irqAt_doorbells (by omega) (by omega)), State.wordTaken, if_neg (by omega), if_neg (by omega), 
    if_neg (by simp only [Bool.and_eq_true, decide_eq_true_eq]; omega), if_pos (by simp; omega)]
  have index : (0x8000 + 8 * n - 0x8000) / 8 = n := by omega
  rw [index]

end Writes

/-- Settles O26, register by register. -/
theorem registerWritesComplete : Obligations.RegisterWritesComplete := by
  intro s v ready
  have word := fun off v => execRegisterWrite_word (s := s) (v := v) (off := off) ready
  refine ⟨fun off r aligned => execRegisterWrite_event ready aligned, fun off r aligned => execRegisterWrite_counter ready aligned,
    fun off b two aligned none_ free => execRegisterWrite_setUp ready aligned none_ free, ?svc, ?safe, ?both, ?timer, ?axle0, ?axle1,
    fun n o => execRegisterWrite_ring ready, fun n => execRegisterWrite_doorbell ready,
    fun off => execRegisterWrite_unaligned, ?readOnly⟩
  case svc => exact (word 0x50 _ rfl rfl (.inr rfl) rfl).trans (by simp [State.wordTaken])
  case safe => exact (word 0x50 _ rfl rfl (.inr rfl) rfl).trans (by simp [State.wordTaken])
  case both => exact (word 0x50 _ rfl rfl (.inr rfl) rfl).trans (by simp [State.wordTaken])
  case timer => exact ⟨_, word 0x100C v rfl rfl (.inr rfl) rfl, rfl, rfl⟩
  case axle0 => exact (word 0xB030 v rfl rfl (.inr rfl) rfl).trans (by simp [State.wordTaken])
  case axle1 => exact (word 0xB070 v rfl rfl (.inr rfl) rfl).trans (by simp [State.wordTaken])
  case readOnly => exact (word 0 v rfl rfl (.inl (by decide)) rfl).trans (by simp [State.wordTaken])

end Sys2Proof.Machine
end

