-- ==== Sys2Proof/Proofs/HostLink.lean ====
section
/-! PROOF. The host link and the software resets (18 R435–R438, R459, R460; 20 R494, R507), and its commands with those on the registers
together. -/

namespace Sys2Proof.Machine

open Sys2Proof

section Link
variable {s : State}

/-- Until the host interface is ready a configuration request is answered with retry status. -/
theorem execPcieConfigRequest_retry (notReady : s.host.ready = false) (q : CfgReq) :
    execPcieConfigRequest q s = .next { s with host := { s.host with cfgRetry := true } } := by
  simp [execPcieConfigRequest, notReady]

theorem execHostInterfaceReady_powered (powered : s.pwr.domains.getLsbD 6 = true) :
    execHostInterfaceReady s = .next { s with host := { s.host with perstLow := false, ready := true, cfgRetry := false } } := by
  simp [execHostInterfaceReady, powered]

/-- The message of a vector that is not masked is sent, if one is held. -/
def State.msixResume (s : State) (v : Nat) : State :=
  if s.host.msixPend.getLsbD v && !s.host.msixMask.getLsbD v then s.msixSent v else s

/-- What D0 returns to. -/
def State.d0 (s : State) : State :=
  (List.range 64).foldl State.msixResume ({ s with host := { s.host with d3hot := false } } : State).driveIrq

variable (ready : s.host.ready = true)
include ready

theorem execPcieConfigRequest_read (i : CfgItem) {u : State} (answered : u = { s with host := { s.host with cfgRetry := false } }) :
    execPcieConfigRequest (.read i) s =
      .next { u with host := { u.host with readData := BitVec.ofNat 64 (u.cfgItem i) } } := by
  simp [execPcieConfigRequest, ready, answered]

theorem execPcieConfigRequest_msix (b : Bool) {u : State} (answered : u = { s with host := { s.host with cfgRetry := false } }) :
    execPcieConfigRequest (.msix b) s = .next ({ u with host := { u.host with msixEn := b } } : State).driveIrq := by
  simp [execPcieConfigRequest, ready, answered]

theorem execD3hotEntry_ready : execD3hotEntry s = .next ({ s with host := { s.host with d3hot := true } } : State).driveIrq := by
  simp [execD3hotEntry, ready]

theorem execD0Return_ready : execD0Return s = .next s.d0 :=
  congrArg Host.Outcome.next (if_neg (by simp [ready]))

theorem execSoftwareResetSvc_ready : execSoftwareResetSvc s = .next (s.svcReset 4) := by
  simp [execSoftwareResetSvc, ready]

theorem execSoftwareResetSafe_ready : execSoftwareResetSafe s = .next s.softSafe := by
  simp [execSoftwareResetSafe, ready]

theorem execSoftwareResetBoth_ready : execSoftwareResetBoth s = .next ((s.svcReset 4).softSafe) := by
  simp [execSoftwareResetBoth, ready]

end Link

/-! ## The return to D0 (R438) -/

/-- The state without the messages held. -/
def State.unheld (s : State) : State :=
  { s with time := { s.time with lastOut := 0 }, sent := [], host := { s.host with msixPend := 0 } }

@[simp] theorem State.msixResume_unheld (s : State) (v : Nat) : (s.msixResume v).unheld = s.unheld := by
  unfold State.msixResume
  split <;> rfl

theorem State.d0_unheld (s : State) : s.d0.unheld = ({ s with host := { s.host with d3hot := false } } : State).driveIrq.unheld :=
  foldl_keeps State.unheld State.msixResume_unheld ..

/-- A resumed vector holds its message only when it is masked; the others are as they were. -/
theorem State.msixResume_pend (s : State) (v n : Nat) : (s.msixResume v).host.msixPend.getLsbD n =
    (s.host.msixPend.getLsbD n && (s.host.msixMask.getLsbD n || decide (v ≠ n))) := by
  unfold State.msixResume
  by_cases same : v = n
  · subst same
    by_cases send : (s.host.msixPend.getLsbD v && !s.host.msixMask.getLsbD v) = true
    · rw [if_pos send]
      simp_all [State.msixSent]
    · rw [if_neg send]
      simp_all
  · split
    · simp [State.msixSent, same]
      exact fun held => ⟨BitVec.lt_of_getLsbD held, by omega⟩
    · simp [same]

theorem State.msixResumes_pend (s : State) (l : List Nat) (n : Nat) : (l.foldl State.msixResume s).host.msixPend.getLsbD n =
    (s.host.msixPend.getLsbD n && (s.host.msixMask.getLsbD n || decide (n ∉ l))) := by
  induction l generalizing s with
  | nil => simp
  | cons v l ih =>
    have mask : (s.msixResume v).host.msixMask = s.host.msixMask :=
      keeps_of_erased (s.msixResume_unheld v) (fun u => u.host.msixMask) (fun _ => rfl)
    rw [List.foldl_cons, ih, State.msixResume_pend, mask]
    by_cases same : v = n
    · simp [same]
      exact fun _ masked => .inl masked
    · simp [same, Ne.symm same]

theorem State.d0_pend (s : State) {n : Nat} (small : n < 64) :
    s.d0.host.msixPend.getLsbD n = (s.host.msixPend.getLsbD n && s.host.msixMask.getLsbD n) := by
  refine (State.msixResumes_pend ..).trans ?_
  simp [small, State.driveIrq]

/-- Settles O23, command by command. -/
theorem hostLinkRowsComplete : Obligations.HostLinkRowsComplete := by
  intro s
  refine ⟨fun q notReady => ⟨_, execPcieConfigRequest_retry notReady q, rfl, rfl, rfl⟩, fun u ready answered =>
      ⟨fun i => execPcieConfigRequest_read ready i answered, fun b => execPcieConfigRequest_msix ready b answered⟩,
    fun powered => ⟨_, execHostInterfaceReady_powered powered, rfl, rfl, rfl⟩,
    ⟨{ s with host := { s.host with perstLow := true } }, rfl, rfl, rfl⟩, rfl, ?rings, ?msix, ?ready, ?finished, ?epoch,
    fun ready => ⟨_, execD3hotEntry_ready ready, rfl, rfl⟩, fun ready => ⟨_, execD0Return_ready ready, ?d3, ?kept⟩,
    fun ready => ⟨execSoftwareResetSvc_ready ready, execSoftwareResetSafe_ready ready, execSoftwareResetBoth_ready ready⟩⟩
  case rings => exact keeps_of_erased s.hostReset_bareCan State.rings (fun _ => rfl)
  case msix => exact keeps_of_erased s.hostReset_bareCan (fun u => u.host.msixEn) (fun _ => rfl)
  case ready => exact keeps_of_erased s.hostReset_bareCan (fun u => u.host.ready) (fun _ => rfl)
  case finished => exact keeps_of_erased s.hostReset_bareCan (fun u => u.host.finished) (fun _ => rfl)
  case epoch => exact keeps_of_erased s.hostReset_bareCan (fun u => u.host.epoch) (fun _ => rfl)
  case d3 => exact keeps_of_erased s.d0_unheld (fun u => u.host.d3hot) (fun _ => rfl)
  case kept => exact keeps_of_erased s.d0_unheld State.rings (fun _ => rfl)

/-- Settles O57: the link and each access, as the statements above give them. -/
theorem hostLinkAndRegistersAnswer : Obligations.HostLinkAndRegistersAnswer := by
  intro s
  refine ⟨rfl, rfl, execHostInterfaceReady_powered, fun c => execHpLockTimeout_locked, fun ready =>
    ⟨fun q => ?request, execD3hotEntry_ready ready, ⟨_, execD0Return_ready ready, ?d3, fun n => s.d0_pend⟩,
      execSoftwareResetSvc_ready ready, execSoftwareResetSafe_ready ready, execSoftwareResetBoth_ready ready,
      execIrqStatusAck_ready ready, ?ring, ?event, execEventCounterClear_ready ready, ?half, ?spd,
      fun c => execCollCntRead_ready ready, fun c off => execHpWindowRead_locks ready, fun c => execHpStatRead_ready ready,
      fun n o v => execRegisterWrite_ring ready, fun n v => execRegisterWrite_doorbell ready⟩⟩
  case request =>
    cases q with
    | read i => exact ⟨_, execPcieConfigRequest_read ready i rfl, rfl, rfl⟩
    | msix b => exact ⟨_, execPcieConfigRequest_msix ready b rfl, rfl, rfl⟩
  case d3 => exact keeps_of_erased s.d0_unheld (fun u => u.host.d3hot) (fun _ => rfl)
  case ring =>
    intro hi v
    exact (execRingPendAck_ready ready hi v).trans (congrArg _ (State.evClear_ring hi))
  case event =>
    intro r v notIrq notLo notHi
    exact (execEventRegisterClear_ready ready r v).trans (congrArg _ (State.evClear_plain notIrq notLo notHi))
  case half =>
    intro off half notA notB none_
    obtain ⟨t, reads, value, captured, -⟩ := execLoHalfRead_captures ready half notA notB none_
    exact ⟨t, reads, value, captured⟩
  case spd =>
    intro c b
    obtain ⟨t, reads, value, -, upper, -⟩ := execSpdCaptureRead_captures (c := c) ready b
    exact ⟨t, reads, value, upper⟩

end Sys2Proof.Machine
end

