-- ==== Sys2Proof/Proofs/LapsesAndCopies.lean ====
section
/-! PROOF. The lapses of what a host has given (09 R257; 14 R368, R371; 19 R474; 22 R540), and the A/B copies of records (22 R532). -/

namespace Sys2Proof.Machine

open Sys2Proof

/-! ## Lapses -/

section Lapses
variable {s : State}

theorem execFirmwareTrialConfirm_due {t0 : Nat} (trial : s.mram.fwTrialT = some t0) : execFirmwareTrialConfirm s =
    .next { s.at (t0 + mins 10) with mram := { s.mram with fwTrialT := none, fwPrev := s.mram.fwActive } } := by
  simp [execFirmwareTrialConfirm, trial]

/-- Discarding the pending blob changes what is pending, and otherwise no part of the configuration, and no time. -/
theorem State.pendDrop_frame (s : State) :
    s.pendDrop.cfg.work = s.cfg.work ∧ s.pendDrop.cfg.valid = s.cfg.valid ∧ s.pendDrop.now = s.now := by
  unfold State.pendDrop
  split
  · exact ⟨rfl, rfl, rfl⟩
  next b _ =>
    have same := fun u : State => (State.eventRec_bare (u.raiseIrq 2) 6 2 0 255 2 (crc32c b.bytes).toNat 0).trans (u.raiseIrq_bare 2)
    dsimp only
    rw [keeps_of_erased (same _) (fun u => u.cfg.work) (fun _ => rfl),
      keeps_of_erased (same _) (fun u => u.cfg.valid) (fun _ => rfl), keeps_of_erased (same _) State.now (fun _ => rfl)]
    split <;> exact ⟨rfl, rfl, rfl⟩

theorem execPendingBlobDiscard_due {b : Blob} (pending : s.cfg.pend = some b) :
    execPendingBlobDiscard s = .next (s.at (s.cfg.pendT + mins 30)).pendDrop := by
  simp [execPendingBlobDiscard, pending]

/-- The session is over, and nothing else of the configuration or of time changes. -/
theorem State.maintEnd_ends (s : State) (cause : Nat) :
    (s.maintEnd cause).cfg = { s.cfg with maint := false } ∧ (s.maintEnd cause).now = s.now := by
  unfold State.maintEnd
  split
  · have same := State.eventRec_bare { s with cfg := { s.cfg with maint := false } } 6 3 0 255 0 cause 0
    exact ⟨keeps_of_erased same State.cfg (fun _ => rfl), keeps_of_erased same State.now (fun _ => rfl)⟩
  next closed =>
    have already : s.cfg.maint = false := by simpa using closed
    exact ⟨by rw [← already], rfl⟩

theorem execMaintSessionTimeout_open (opened : s.cfg.maint = true) :
    execMaintSessionTimeout s = .next ((s.at (s.cfg.maintT + mins 30)).maintEnd 2) := by
  simp [execMaintSessionTimeout, opened]

theorem execMassLapse_supplied {m : Nat} (supplied : s.pack.mass = some m) : execMassLapse s =
    .next { s.at (s.pack.massT + mins 10) with pack := { s.pack with mass := none } } := by
  simp [execMassLapse, supplied]

theorem execEmergencySupplyLapse_due {t0 : Nat} (lapse : s.pack.emgLapse = some t0) : execEmergencySupplyLapse s =
    .next { s.at t0 with pack := { s.pack with emgHost := false, emgLapse := none } } := by
  simp [execEmergencySupplyLapse, lapse]

end Lapses

/-- Settles O1, lapse by lapse. -/
theorem lapsesComplete : Obligations.LapsesComplete := by
  intro s
  refine ⟨fun t0 trial => ⟨_, execFirmwareTrialConfirm_due trial, rfl, rfl, rfl, rfl⟩, fun b pending => ?pending,
    fun opened => ?session,
    fun m supplied => ⟨_, execMassLapse_supplied supplied, rfl, rfl, rfl⟩,
    fun t0 lapse => ⟨_, execEmergencySupplyLapse_due lapse, rfl, rfl, rfl, rfl⟩⟩
  case pending =>
    obtain ⟨work, valid, now⟩ := (s.at (s.cfg.pendT + mins 30)).pendDrop_frame
    exact ⟨_, execPendingBlobDiscard_due pending, State.pendDrop_pend _, work, valid, now⟩
  case session =>
    obtain ⟨cfg, now⟩ := (s.at (s.cfg.maintT + mins 30)).maintEnd_ends 2
    exact ⟨_, execMaintSessionTimeout_open opened, by rw [cfg], now⟩

/-! ## A/B copies (R532) -/

section Copies
variable {a b : Option NvRec}

/-- With no valid copy a write takes copy A. -/
theorem targetsB_none : targetsB none b = false := by
  cases b <;> rfl

/-- A write leaves copy A alone where that holds the highest valid sequence. -/
theorem targetsB_of_newestA (newer : newest a b = a) (valid : a.isSome = true) : targetsB a b = true := by
  obtain ⟨x, rfl⟩ := Option.isSome_iff_exists.1 valid
  cases b with
  | none => rfl
  | some y =>
    by_cases later : x.commit < y.commit
    · simp only [newest, later, ite_true, Option.some.injEq] at newer
      exact absurd (newer ▸ later) (Nat.lt_irrefl _)
    · simpa [targetsB] using later

/-- It takes copy A where copy B holds it. -/
theorem targetsB_of_newestB (newer : newest a b = b) (other : newest a b ≠ a) : targetsB a b = false := by
  cases a with
  | none => exact targetsB_none
  | some x =>
    cases b with
    | none => exact absurd rfl other
    | some y =>
      by_cases later : x.commit < y.commit
      · simpa [targetsB] using later
      · exact absurd (by simp [newest, later]) other

end Copies

theorem State.journal_copies (s : State) (e : JEntry) :
    (s.journal e).mram.ageA = s.mram.ageA ∧ (s.journal e).mram.ageB = s.mram.ageB := by
  unfold State.journal
  dsimp only
  split <;> exact ⟨rfl, rfl⟩

theorem State.applied_copies (s : State) (c : Nat) : (s.applied c).mram.ageA = s.mram.ageA ∧ (s.applied c).mram.ageB = s.mram.ageB :=
  State.journal_copies ..

section Commit
variable (s : State) {r : NvReq}

/-- The record a write commits. -/
def State.recOf (s : State) (r : NvReq) : NvRec := { body := r.body, commit := s.commitOf r.kind }

/-- The estimator record is written to the copy that R532 names. -/
def State.estWritten (s : State) (r : NvReq) : State :=
  let m := (s.takeCommit r.kind).mram
  if targetsB m.estA m.estB then { s with mram := { m with estB := some (s.recOf r) } }
  else { s with mram := { m with estA := some (s.recOf r) } }

/-- An ageing record is written to the copy that R532 names. -/
def State.ageWritten (s : State) (r : NvReq) : State :=
  let m := (s.takeCommit r.kind).mram
  if targetsB (Tab.find m.ageA r.key) (Tab.find m.ageB r.key) then
    { s with mram := { m with ageB := m.ageB.set r.key (s.recOf r) } }
  else { s with mram := { m with ageA := m.ageA.set r.key (s.recOf r) } }

theorem State.nvCommit_estimator (kind : r.kind = 4) : s.nvCommit r = s.estWritten r := by
  obtain ⟨_, key, body⟩ := r
  obtain rfl : _ = 4 := kind
  rfl

/-- A learning of the cell in the journal is completed beside. -/
theorem State.nvCommit_ageing (kind : r.kind = 2) :
    s.nvCommit r = s.ageWritten r ∨ ∃ c, s.nvCommit r = (s.ageWritten r).applied c := by
  obtain ⟨_, key, body⟩ := r
  obtain rfl : _ = 2 := kind
  let t := s.ageWritten { kind := 2, key := key, body := body }
  cases learning : t.learningOpen key with
  | none =>
    refine .inl ?_
    show (match t.learningOpen key with | some e => t.applied e.commit | none => t) = t
    rw [learning]
  | some e =>
    refine .inr ⟨e.commit, ?_⟩
    show (match t.learningOpen key with | some e => t.applied e.commit | none => t) = t.applied e.commit
    rw [learning]

theorem State.nvCommit_ageCopies (kind : r.kind = 2) :
    (s.nvCommit r).mram.ageA = (s.ageWritten r).mram.ageA ∧ (s.nvCommit r).mram.ageB = (s.ageWritten r).mram.ageB := by
  obtain plain | ⟨c, completed⟩ := s.nvCommit_ageing kind
  · rw [plain]
    exact ⟨rfl, rfl⟩
  · rw [completed]
    exact State.applied_copies ..

section Target
variable (r)

theorem State.estWritten_A (target : targetsB s.mram.estA s.mram.estB = false) :
    (s.estWritten r).mram.estA = some (s.recOf r) ∧ (s.estWritten r).mram.estB = s.mram.estB := by
  simp [State.estWritten, State.takeCommit, target]

theorem State.estWritten_B (target : targetsB s.mram.estA s.mram.estB = true) :
    (s.estWritten r).mram.estA = s.mram.estA ∧ (s.estWritten r).mram.estB = some (s.recOf r) := by
  simp [State.estWritten, State.takeCommit, target]

theorem State.ageWritten_A (target : targetsB (Tab.find s.mram.ageA r.key) (Tab.find s.mram.ageB r.key) = false) :
    Tab.find (s.ageWritten r).mram.ageA r.key = some (s.recOf r) ∧ (s.ageWritten r).mram.ageB = s.mram.ageB := by
  simp [State.ageWritten, State.takeCommit, target, Tab.find_set]

theorem State.ageWritten_B (target : targetsB (Tab.find s.mram.ageA r.key) (Tab.find s.mram.ageB r.key) = true) :
    (s.ageWritten r).mram.ageA = s.mram.ageA ∧ Tab.find (s.ageWritten r).mram.ageB r.key = some (s.recOf r) := by
  simp [State.ageWritten, State.takeCommit, target, Tab.find_set]

end Target

end Commit

/-- Settles O51, by what `targetsB` answers in each of the three cases. -/
theorem newestCopyIsNeverOverwritten : Obligations.NewestCopyIsNeverOverwritten := by
  rintro s r a b _ rfl
  refine ⟨fun x y => ⟨rfl, rfl, rfl⟩, ?estimator, ?ageing⟩
  case estimator =>
    rintro kind rfl rfl
    rw [s.nvCommit_estimator kind]
    refine ⟨fun noA noB => ?_, fun newer valid => ?_, fun newer other => ?_⟩
    · obtain ⟨newA, keptB⟩ := s.estWritten_A r (noA ▸ targetsB_none)
      exact ⟨by rw [newA]; rfl, keptB.trans noB⟩
    · obtain ⟨keptA, newB⟩ := s.estWritten_B r (targetsB_of_newestA newer valid)
      exact ⟨keptA, by rw [newB]; rfl⟩
    · obtain ⟨newA, keptB⟩ := s.estWritten_A r (targetsB_of_newestB newer other)
      exact ⟨keptB, by rw [newA]; rfl⟩
  case ageing =>
    rintro kind rfl rfl
    obtain ⟨sameA, sameB⟩ := s.nvCommit_ageCopies kind
    rw [sameA, sameB]
    refine ⟨fun noA noB => ?_, fun newer valid => ?_, fun newer other => ?_⟩
    · obtain ⟨newA, keptB⟩ := s.ageWritten_A r (noA ▸ targetsB_none)
      exact ⟨by rw [newA]; rfl, by rw [keptB, noB]⟩
    · obtain ⟨keptA, newB⟩ := s.ageWritten_B r (targetsB_of_newestA newer valid)
      exact ⟨by rw [keptA], by rw [newB]; rfl⟩
    · obtain ⟨newA, keptB⟩ := s.ageWritten_A r (targetsB_of_newestB newer other)
      exact ⟨by rw [keptB], by rw [newA]; rfl⟩

end Sys2Proof.Machine
end

