-- ==== Sys2Proof/Proofs/Repair.lean ====
section
/-! PROOF. Errors, scrubs and checks of the module's own memories and lanes (23 R551–R560). -/

namespace Sys2Proof.Machine

open Sys2Proof

/-! ## SRAM (R551, R552) -/

/-- A repair that waits for the next start changes no count of errors, and the record stands. -/
theorem State.repairPend_ce (s : State) (kind unit : Nat) : (s.repairPend kind unit).repair.ce = s.repair.ce ∧
    (s.repairPend kind unit).therm = s.therm := by
  unfold State.repairPend
  dsimp only
  split <;> exact ⟨rfl, rfl⟩

theorem State.repairPend_listed (s : State) (kind unit : Nat) :
    (s.repairPend kind unit).repair.records.any (fun x => x.origin == 2 && x.kind == kind && x.unit == unit) = true := by
  unfold State.repairPend
  dsimp only
  split
  next listed => exact listed
  · simp

/-- A corrected error is counted and reported. -/
def State.ceCounted (s : State) (w : Nat) : State :=
  ({ s with repair := { s.repair with
      ce := min (s.repair.ce + 1) 0xFFFFFFFF, ceWords := s.repair.ceWords.set w s.now } } : State).event .repair 0

/-- A word corrected twice within a day is repaired besides. -/
theorem State.corrected_cases (s : State) (w : Nat) : s.corrected w = s.ceCounted w ∨
    ∃ kind unit, s.corrected w = (s.ceCounted w).draw.2.repairPend kind unit := by
  unfold State.corrected
  cases Tab.find s.repair.ceWords w with
  | none => exact .inl rfl
  | some t =>
    by_cases again : decide (s.now < t + sec 86400) = true
    · exact .inr ⟨_, _, if_pos again⟩
    · exact .inl (if_neg again)

theorem State.ceCounted_ce (s : State) (w : Nat) : (s.ceCounted w).repair.ce = min (s.repair.ce + 1) 0xFFFFFFFF ∧
    (s.ceCounted w).therm = s.therm :=
  ⟨keeps_of_erased (State.event_bare ..) (fun u => u.repair.ce) (fun _ => rfl),
    keeps_of_erased (State.event_bare ..) State.therm (fun _ => rfl)⟩

theorem State.corrected_ce (s : State) (w : Nat) : (s.corrected w).repair.ce = min (s.repair.ce + 1) 0xFFFFFFFF ∧
    (s.corrected w).therm = s.therm := by
  obtain once | ⟨kind, unit, again⟩ := s.corrected_cases w
  · rw [once]
    exact s.ceCounted_ce w
  · obtain ⟨ce, therm⟩ := (s.ceCounted w).draw.2.repairPend_ce kind unit
    rw [again, ce, therm]
    exact s.ceCounted_ce w

/-- A scrub of a list of words counts every one of them. -/
theorem State.correctedAll_ce (l : List Nat) (s : State) (low : s.repair.ce ≤ 0xFFFFFFFF) :
    (l.foldl (fun s w => s.corrected w) s).repair.ce = min (s.repair.ce + l.length) 0xFFFFFFFF := by
  induction l generalizing s with
  | nil => exact (Nat.min_eq_left low).symm
  | cons w l ih =>
    obtain ⟨ce, -⟩ := s.corrected_ce w
    rw [List.foldl_cons, ih _ (ce ▸ Nat.min_le_right ..), ce, List.length_cons]
    omega

theorem State.correctedAll_therm (l : List Nat) (s : State) : (l.foldl (fun s w => s.corrected w) s).therm = s.therm :=
  foldl_keeps State.therm (fun s w => (s.corrected_ce w).2) l s

/-! ## MRAM (R553) -/

section Mram
variable {s : State}

/-- The scrub period of the present junction band takes effect (10 R281). -/
def State.scrubTimed (s : State) : State := { s with therm := { s.therm with scrubMram := (scrubOf s.therm.band).2 } }

theorem execMramScrub_written (l : List Nat) (mounted : s.mounted = true) (may : s.mayWrite = true) (noSave : s.pwr.intr ≠ .saveWindow) :
    execMramScrub l false false s = .next ((l.foldl (fun u x => u.sectorRemap x) s.scrubTimed).copiesAtScrub) := by
  have hereMounted : ¬(!s.scrubTimed.mounted) = true := by rw [show s.scrubTimed.mounted = s.mounted from rfl, mounted]; decide
  have notSaving : ¬(s.scrubTimed.pwr.intr == .saveWindow) = true := by simpa [State.scrubTimed] using noSave
  have hereMay : ¬(!s.scrubTimed.mayWrite) = true := by rw [show s.scrubTimed.mayWrite = s.mayWrite from rfl, may]; decide
  exact congrArg Host.Outcome.next ((if_neg hereMounted).trans ((if_neg notSaving).trans (if_neg hereMay)))

theorem State.repairRec_bare (s : State) (kind unit detail : Nat) : (s.repairRec kind unit detail).bare =
    ({ s with repair := { s.repair with
      records := { kind := kind, origin := 1, unit := unit, detail := detail, t := s.now } :: s.repair.records } } :
      State).bare := State.bbEvent_bare ..

theorem State.sectorRemap_remap (sector : Nat) (spare : s.mram.remap.length < 48) (noSave : s.pwr.intr ≠ .saveWindow) :
    (s.sectorRemap sector).mram.remap = s.mram.remap ++ [sector] := by
  have recorded := fun u : State =>
    (keeps_of_erased ((u.event .repair 3).repairRec_bare 4 sector s.mram.remap.length)
      (fun v => v.mram.remap) (fun _ => rfl)).trans
    (keeps_of_erased (u.event_bare .repair 3) (fun v => v.mram.remap) (fun _ => rfl))
  unfold State.sectorRemap
  dsimp only
  rw [if_neg (by omega), if_neg (by simpa using noSave)]
  split
  · exact recorded _
  · exact (keeps_of_erased (State.bbEvent_bare ..) (fun v => v.mram.remap) (fun _ => rfl)).trans (recorded _)

end Mram

/-! ## Lanes and the reference (R556, R559) -/

section Lanes
variable {s : State}

/-- The spare lane replaces the first lane that fails. -/
theorem execLaneCrossCheck_replaced {k : Nat} (lane : k < 8) (run : s.pwr.st = .run) (noSave : s.pwr.intr ≠ .saveWindow)
    (good : s.repair.laneBad.getLsbD k = false) (spare : s.repair.spareLane = none) : ∃ t : State,
      execLaneCrossCheck (some k) s = .next t ∧ t.repair.spareLane = some k ∧ t.repair.lanes = s.repair.lanes := by
  have notRun : ¬(s.pwr.st != .run) = true := by simp [run]
  refine ⟨_, congrArg Host.Outcome.next (if_neg notRun), ?_⟩
  have recorded := fun u : State => ((u.event .repair 5).repairRec_bare 6 k 8)
  have told := fun u : State => u.event_bare .repair 5
  unfold State.laneFail
  dsimp only
  rw [if_neg (by simp [good, spare]; omega), if_neg (by simpa using noSave), if_pos (by simp [spare])]
  exact ⟨(keeps_of_erased (recorded _) (fun v => v.repair.spareLane) (fun _ => rfl)).trans
      (keeps_of_erased (told _) (fun v => v.repair.spareLane) (fun _ => rfl)),
    (keeps_of_erased (recorded _) (fun v => v.repair.lanes) (fun _ => rfl)).trans
      (keeps_of_erased (told _) (fun v => v.repair.lanes) (fun _ => rfl))⟩

theorem execReferenceCheck_run (b : BitVec 3) (run : s.pwr.st = .run) :
    ∃ t : State, execReferenceCheck b s = .next t ∧ t.repair.refBad = b := by
  have notRun : ¬(s.pwr.st != .run) = true := by simp [run]
  refine ⟨_, congrArg Host.Outcome.next (if_neg notRun), ?_⟩
  dsimp only
  split
  · rfl
  · exact keeps_of_erased (State.event_bare ..) (fun v => v.repair.refBad) (fun _ => rfl)

end Lanes

/-- Settles O2, memory by memory. -/
theorem repairRowsComplete : Obligations.RepairRowsComplete := by
  intro s
  refine ⟨fun w => ⟨_, rfl, (s.corrected_ce w).1⟩, fun ws low => ⟨_, rfl, State.correctedAll_ce ws _ low, ?_⟩,
    fun r w => ⟨_, rfl, State.repairPend_listed ..⟩,
    fun l mounted may noSave => ⟨_, execMramScrub_written l mounted may noSave, rfl, rfl, rfl⟩,
    fun x => State.sectorRemap_remap x, fun k => execLaneCrossCheck_replaced, fun b => execReferenceCheck_run b⟩
  exact congrArg Therm.scrubSram (State.correctedAll_therm ws _)

end Sys2Proof.Machine
end

