-- ==== Sys2Proof/Proofs/Records.lean ====
section
/-! PROOF. The commands of the record family (22 R530–R545; 03 R82; 08 R235). -/

namespace Sys2Proof.Machine

open Sys2Proof

/-! ## Record writes (R530, R531, R536; 23 R553) -/

section Writes
variable {s v : State} {h : Nat} {r : NvReq} (reported : v = s.holdupNow h)
include reported

theorem execMramRecordWrite_deferred (a b : Bool) (mayNot : v.mayWrite = false) :
    execMramRecordWrite ⟨r, h⟩ a b s = .next (v.nvDue r) := by
  subst reported
  exact congrArg Host.Outcome.next (if_pos (by simp [mayNot]))

variable (may : v.mayWrite = true)
include may

theorem execMramRecordWrite_committed (b : Bool) : execMramRecordWrite ⟨r, h⟩ false b s = .next (v.nvCommit r) := by
  subst reported
  exact congrArg Host.Outcome.next ((if_neg (by simp [may])).trans (if_pos rfl))

theorem execMramRecordWrite_failed {b : Bool} {off : Nat} {u : State} (place : (off, u) = v.nvPlace r) :
    execMramRecordWrite ⟨r, h⟩ true b s = .next
      (if 48 ≤ u.mram.remap.length then (u.nvSpoil r).nvFault r off
       else if b then ((u.sectorRemap (off / 4096)).nvSpoil r).nvFault r off else (u.sectorRemap (off / 4096)).nvCommit r) := by
  subst reported
  unfold execMramRecordWrite
  refine congrArg Host.Outcome.next ((if_neg (by simp [may])).trans ((if_neg (by decide)).trans ?_))
  rw [← place]

end Writes

/-! ## Deferred records (R536) -/

theorem execRecordDeferralRetry_held {s : State} (held : s.mram.held ≠ []) :
    execRecordDeferralRetry s = .next s.holdupDrawn.flushHeld :=
  congrArg Host.Outcome.next (if_neg (by simpa using held))

/-- A held record is marked as late, at the end of its 60 s. -/
def State.lateMarked (s : State) (h : HeldRec) : State :=
  let s := s.at (h.due + sec 60)
  { s with mram := { s.mram with held := s.mram.held.map (fun x => if x = h then { x with late := true } else x) } }

theorem execDeferredRecordTimeout_late {s : State} {h : HeldRec} (mayNot : s.mayWrite = false) (open_ : s.mram.refuse = false)
    (low : s.pwr.holdup < 100) (oldest : s.mram.held.find? (fun h => !h.late) = some h) : execDeferredRecordTimeout s =
      .next (((s.lateMarked h).nvPlace h.req).2.nvFault h.req ((s.lateMarked h).nvPlace h.req).1) := by
  unfold execDeferredRecordTimeout
  refine congrArg Host.Outcome.next ((if_neg (by simp [mayNot, open_, low])).trans ?_)
  rw [oldest]
  rfl

/-! ## Periodic saves and passports (R533, R534; 08 R235; 03 R82) -/

section Saves
variable {s : State} (run : s.pwr.st = .run)
include run

theorem execJournalStringCounters_run : execJournalStringCounters s = .next s.counterSave := by
  simp [execJournalStringCounters, run]

theorem execEstimatorStateSave_run : execEstimatorStateSave s = .next s.estSave := by
  simp [execEstimatorStateSave, run]

theorem execAgeingRecordDaily_run : execAgeingRecordDaily s = .next s.agesSave := by
  simp [execAgeingRecordDaily, run]

variable (acts : s.actsPrimary = true)
include acts

/-- Passports are due, or no longer. -/
def State.passDueIs (s : State) (due : Bool) : State := { s with mram := { s.mram with passDue := due } }

theorem execPassportRewrite_written (full : s.fullPrimary = true) (svc : s.drv.svcUp = true) : execPassportRewrite s =
    .next (((s.portList.filter (fun p => (s.port p).st == .ready)).foldl (fun s p => s.passWrite p) s).passDueIs false) :=
  congrArg Host.Outcome.next ((if_neg (by simp [acts, run])).trans (if_neg (by simp [run, full, svc])))

theorem execPassportRewrite_due (partial_ : s.fullPrimary = false) : execPassportRewrite s = .next (s.passDueIs true) :=
  congrArg Host.Outcome.next ((if_neg (by simp [acts, run])).trans (if_pos (by simp [partial_])))

end Saves

/-! ## Snapshots (R545) -/

/-- A sweep record of a snapshot is committed, with another to follow. -/
def State.sweepTaken (s : State) (p : Nat) (n : Snapshot) (x : Staged) (r : List Staged) : State :=
  { s with mram := { s.mram with
      bbSeq := nextCommit s.mram.bbSeq
      snaps := s.mram.snaps.map (fun m => if m = n then { n with todo := r, sweeps := (nextCommit s.mram.bbSeq, x) :: n.sweeps } else m)
      collecting := s.mram.collecting.set p (s.mram.collecting.getD p 0 + 1) } }

theorem execSnapshotSweepCommit_more {s : State} {p : Nat} {n : Snapshot} {x y : Staged} {r : List Staged}
    (collecting : s.mram.collecting.getD p 0 ≠ 0) (may : s.mayWrite = true)
    (snap : s.mram.snaps.find? (fun n => n.port == p) = some n) (todo : n.todo = x :: y :: r) :
    execSnapshotSweepCommit p s = .next (s.sweepTaken p n x (y :: r)) := by
  unfold execSnapshotSweepCommit
  refine congrArg Host.Outcome.next ((if_neg (by simpa [may] using collecting)).trans ?_)
  rw [snap]
  dsimp only
  rw [todo]
  rfl

/-- Settles O30, command by command. -/
theorem nvRowsComplete : Obligations.NvRowsComplete := by
  intro s
  refine ⟨?writes, ?late, fun run =>
      ⟨execJournalStringCounters_run run, execEstimatorStateSave_run run, execAgeingRecordDaily_run run⟩,
    fun acts run full svc => ⟨_, _, rfl, execPassportRewrite_written run acts full svc, rfl, rfl⟩,
    fun acts run partial_ => ⟨_, execPassportRewrite_due run acts partial_, rfl, rfl⟩,
    fun p n x r y collecting may snap todo => ⟨_, execSnapshotSweepCommit_more collecting may snap todo, rfl, rfl, rfl, rfl⟩⟩
  case writes =>
    intro h v reported
    exact ⟨fun r b may => execMramRecordWrite_committed reported may b, fun r a b => execMramRecordWrite_deferred reported a b,
      fun r b off u may => execMramRecordWrite_failed reported may, fun held => ⟨_, execRecordDeferralRetry_held held⟩⟩
  case late =>
    intro h mayNot open_ low oldest
    exact ⟨s.lateMarked h, _, rfl, rfl, rfl, execDeferredRecordTimeout_late mayNot open_ low oldest⟩

end Sys2Proof.Machine
end

