-- ==== Sys2Proof/Proofs/CanRows.lean ====
section
/-! PROOF. The commands of the CAN family (14 R360–R366; 16 R390–R405). -/

namespace Sys2Proof.Machine

open Sys2Proof

/-! ## Error counters (R397, R398) -/

section Counters
variable {s : State} {c : Nat}

/-- A change of one controller that leaves its receive error counter alone leaves it alone on every controller. -/
theorem State.onCan_recCnt (s : State) (c : Nat) {g : CanCtl → CanCtl} (keeps : ∀ k, (g k).recCnt = k.recCnt) (d : Nat) :
    ((s.onCan c g).can d).recCnt = (s.can d).recCnt := by
  by_cases here : d = c
  · rw [here, State.onCan_can, keeps]
  · rw [State.onCan_can_other s g here]

/-- A submission loaded into a free buffer, as `loadTx` does twice. -/
def CanCtl.loadOne (k : CanCtl) : CanCtl :=
  match k.txq with
  | [] => k
  | b :: r =>
    if k.tb1.isNone then { k with tb1 := some b, txq := r }
    else if k.tb2.isNone then { k with tb2 := some b, txq := r } else k

theorem CanCtl.loadOne_recCnt (k : CanCtl) : k.loadOne.recCnt = k.recCnt := by
  unfold CanCtl.loadOne
  split
  · rfl
  · split
    · rfl
    · split <;> rfl

theorem State.loadTx_eq (s : State) (c : Nat) : s.loadTx c = s.onCan c (fun k => k.loadOne.loadOne) := rfl

theorem State.loadTx_recCnt (s : State) (c d : Nat) : ((s.loadTx c).can d).recCnt = (s.can d).recCnt := by
  rw [State.loadTx_eq]
  exact s.onCan_recCnt c (fun k => (CanCtl.loadOne_recCnt _).trans k.loadOne_recCnt) d

theorem State.finish_can (s : State) (r : CmdRef) (status value : Nat) (result : List Byte) (isPartial : Bool) (d : Nat) :
    (s.finish r status value result isPartial).can d = s.can d := by
  obtain ⟨host, rings, ended⟩ := s.finish_eq r status value result isPartial
  rw [ended]
  rfl

theorem State.flushCan_recCnt (s : State) (c code d : Nat) : ((s.flushCan c code).can d).recCnt = (s.can d).recCnt := by
  refine (State.loadTx_recCnt ..).trans ((foldl_keeps (fun u => (u.can d).recCnt) (fun u b => ?_) _ _).trans ?_)
  · exact congrArg CanCtl.recCnt (State.finish_can ..)
  · exact s.onCan_recCnt c (g := fun k => { k with tb0 := none, q := [], tb1 := none, tb2 := none, started := none, coll := [] })
      (fun _ => rfl) d

/-- The error state changes, with its event and its record. -/
def State.errStTold (s : State) (c n : Nat) : State :=
  let t := s.onCan c (fun k => { k with errSt := n })
  let t := if n = 1 then t.event (if c = 0 then .canA else .canB) 0 else if n = 2 then t.event (if c = 0 then .canA else .canB) 1 else t
  t.canRec c (if n = 1 then 1 else if n = 0 then 2 else 3) 0 (s.can c).tec

theorem State.errStTold_bare (s : State) (c n : Nat) : (s.errStTold c n).bare = (s.onCan c (fun k => { k with errSt := n })).bare := by
  refine (State.record_bare ..).trans ?_
  split
  · exact State.event_bare ..
  · split
    · exact State.event_bare ..
    · rfl

/-- The error state stays or changes; at bus-off what the controller holds ends. -/
theorem State.canState_cases (s : State) (c : Nat) : s.canState c = s ∨
    ∃ n, s.canState c = s.errStTold c n ∨ s.canState c = (s.errStTold c n).flushCan c 3 := by
  unfold State.canState
  dsimp only
  split
  · exact .inl rfl
  · generalize (if 255 < (s.can c).tec then 2 else if decide (127 < (s.can c).tec) || decide (127 < (s.can c).recCnt) then 1 else 0) = n
    by_cases same : n = (s.can c).errSt
    · exact .inl (if_pos same)
    · rw [if_neg same]
      by_cases off : n = 2
      · exact .inr ⟨n, .inr (if_pos off)⟩
      · exact .inr ⟨n, .inl (if_neg off)⟩

/-- The error state follows the counters and changes none. -/
theorem State.canState_recCnt (s : State) (c d : Nat) : ((s.canState c).can d).recCnt = (s.can d).recCnt := by
  have told := fun n => (keeps_of_erased (s.errStTold_bare c n) (fun t => (t.can d).recCnt) (fun _ => rfl)).trans
    (s.onCan_recCnt c (g := fun k => { k with errSt := n }) (fun _ => rfl) d)
  obtain stays | ⟨n, on | off⟩ := s.canState_cases c
  · rw [stays]
  · rw [on, told]
  · rw [off, State.flushCan_recCnt, told]

theorem execCanReceiveError_counted (inFlag : Bool) (run : s.pwr.st = .run) (normal : (s.can c).mode = 0) (on : (s.can c).errSt ≠ 2) :
    ∃ t : State, execCanReceiveError c inFlag s = .next t ∧
      (t.can c).recCnt = min ((s.can c).recCnt + (if inFlag then 8 else 1)) 255 := by
  refine ⟨_, congrArg Host.Outcome.next (if_neg (by simp [run, normal, on])), ?_⟩
  rw [State.canState_recCnt, State.onCan_can]

theorem execBusOffRecovery_off (off : (s.can c).errSt = 2) : execBusOffRecovery c s = .next
    (((s.onCan c (fun k => { k with errSt := 0, tec := 0, recCnt := 0 })).event (canReg c) 2).canRec c 4 0 0) := by
  simp [execBusOffRecovery, off]

theorem State.canRec_can (s : State) (b code id : Nat) (v : Int) (c : Nat) : (s.canRec b code id v).can c = s.can c :=
  keeps_of_erased (s.record_bare ..) (fun u => u.can c) (fun _ => rfl)

theorem State.event_can (s : State) (r : EvReg) (n c : Nat) : (s.event r n).can c = s.can c :=
  keeps_of_erased (s.event_bare r n) (fun u => u.can c) (fun _ => rfl)

end Counters

/-! ## Attempts and frames (R390–R395) -/

section Frames
variable {s : State} {c : Nat} (run : s.pwr.st = .run)
include run

theorem execTransmitAttemptEnd_contending {e : TxEnd} {b : Nat} {f : CanFrame} (t0 : Nat) (normal : (s.can c).mode = 0)
    (on : (s.can c).errSt ≠ 2) (idle : (s.can c).started = none) (next : (s.can c).next = some b)
    (frame : (s.can c).frameOf b = some f) : execTransmitAttemptEnd c e t0 s = .next ((s.at t0).attemptEnd c b f e t0) := by
  unfold execTransmitAttemptEnd
  refine congrArg Host.Outcome.next ((if_neg (by simp [run, normal, on])).trans ?_)
  rw [idle, Option.orElse_none, next]
  dsimp only
  rw [frame]

theorem execCanFrameReceived_taken (f : CanFrame) (t0 : Nat) (listens : (s.can c).mode ≠ 2) (on : (s.can c).errSt ≠ 2) :
    execCanFrameReceived c f t0 s = .next (s.frameTake c f t0) :=
  congrArg Host.Outcome.next (if_neg (by simp [run, listens, on]))

end Frames

/-! ## Safe messages (14 R360–R366) -/

section Messages
variable {s : State} {m : Nat} {g : MsgCfg}

/-- The STATUS message falls due again. -/
def State.statusDue (s : State) : State :=
  let s := s.at (s.safe.statT + ms 10)
  { s with safe := { s.safe with statT := s.now } }

/-- The bytes of the STATUS message that a state decides. -/
def State.statusData (s : State) : List Byte :=
  let role := match s.pair.role with | .none => 0 | .primary => 1 | .standby => 2 | .provisional => 1
  le 1 role ++ le 1 (bitsOf [s.cfg.valid, s.wade.on, s.drv.limp, s.pack.reserve, s.safe.standstill]) ++ zeros 2 ++
    le 4 s.sealInForce ++ le 8 s.now

theorem State.statusData_length (s : State) : s.statusData.length = 16 := rfl

theorem execStatusMessageSend_run (run : s.pwr.st = .run) : execStatusMessageSend s =
    .next (s.statusDue.sendSafe s.gen.idStatus 2 24 s.statusDue.statusData) :=
  congrArg Host.Outcome.next (if_neg (by simp [run]))

/-- The oldest first copy is given up. -/
def State.copyMissed (s : State) (m : Nat) (g : MsgCfg) (k : SafeCopy) (r : List SafeCopy) : State :=
  (s.at (k.t + ms g.skew)).onMsg m (fun x => { x with
    first := r, okRun := 0, mismatch := if x.mismatch = 0 then 0 else 3
    lastSeq := if seqStep x.lastSeq k.seq then some k.seq else x.lastSeq })

theorem execSkewWindowExpiry_missed {k : SafeCopy} {r : List SafeCopy} (configured : s.msgCfg m = some g)
    (first : (s.msg m).first = k :: r) : execSkewWindowExpiry m s = .next ((s.copyMissed m g k r).badCopy m (1 - k.bus)) := by
  unfold execSkewWindowExpiry
  rw [configured, first]
  rfl

/-- A message that has timed out, by the buses on which none has come since: `s0` and `s1`. -/
def SafeMsg.timedOut (x : SafeMsg) (s0 s1 : Bool) : SafeMsg :=
  { x with f46 := true, okRun := 0, single := s0 != s1, surv := if s0 then 1 else 0, lastSeq := none }

/-- No message on a bus for one timeout. -/
def State.quietBus (s : State) (m bus : Nat) (g : MsgCfg) : Bool := decide ((s.msg m).busT.getD bus 0 + msgTimeout g ≤ s.now)

/-- A message taken on one bus alone has timed out. -/
def State.timedOut (s : State) (m : Nat) (g : MsgCfg) : State :=
  let s := s.at ((s.msg m).lastT + msgTimeout g)
  let s := s.onMsg m (fun x => x.timedOut (s.quietBus m 0 g) (s.quietBus m 1 g))
  if g.typ == 0x10 then { s with pack := { s.pack with emgMsg := false } } else s

theorem State.timedOut_frame (s : State) (m : Nat) (g : MsgCfg) : ((s.timedOut m g).msg m).f46 = true ∧
    (s.timedOut m g).now = max s.now ((s.msg m).lastT + msgTimeout g) ∧ ((s.timedOut m g).msg m).lastSeq = none := by
  generalize late : s.at ((s.msg m).lastT + msgTimeout g) = u
  have now : u.now = max s.now ((s.msg m).lastT + msgTimeout g) := late ▸ rfl
  have changed := u.onMsg_msg m (fun x => x.timedOut (u.quietBus m 0 g) (u.quietBus m 1 g))
  unfold State.timedOut
  rw [late]
  dsimp only
  split
  · exact ⟨congrArg SafeMsg.f46 changed, now, congrArg SafeMsg.lastSeq changed⟩
  · exact ⟨congrArg SafeMsg.f46 changed, now, congrArg SafeMsg.lastSeq changed⟩

theorem execSafeMessageTimeout_single (own : m < 8) (configured : s.msgCfg m = some g) (single : (s.msg m).single = true)
    (delivered : ((s.msg m).f46 && (s.msg m).lastSeq.isNone) = false) :
    execSafeMessageTimeout m s = .next (((s.timedOut m g).event .safein 8).f46Settle m) := by
  have late : decide ((s.msg m).lastT + msgTimeout g ≤ (s.at ((s.msg m).lastT + msgTimeout g)).now) = true :=
    decide_eq_true (Nat.le_max_right ..)
  have notPartner : m ≠ 8 := Nat.ne_of_lt own
  unfold execSafeMessageTimeout
  rw [configured]
  simp only [delivered, single, late, notPartner, Bool.false_eq_true, ↓reduceIte, Bool.not_true, Bool.false_and, Bool.true_and]
  rfl

end Messages

/-! ## Network time (R403, R405) -/

section Net
variable {s : State}

/-- The reference message falls due again. -/
def State.referenceDue (s : State) : State :=
  let s := s.at (s.time.netSentT + ms s.conf.net.period)
  { s with time := { s.time with netSentT := s.now } }

theorem execReferenceMessageSend_master (run : s.pwr.st = .run) (acts : s.actsPrimary = true) (master : s.conf.net.role = 1) :
    execReferenceMessageSend s = .next ((netBuses s.conf.net).foldl (fun u c => u.originate c
      { id := s.conf.net.id, ide := s.conf.net.ide, dlc := 8, data := le 8 u.now }) s.referenceDue) :=
  congrArg Host.Outcome.next (if_neg (by simp [run, acts, master]))

/-- Network time is no longer valid; its offset is held where it is. -/
def State.netLost (s : State) : State :=
  let s := s.at (s.time.netLastRef + 3 * ms s.conf.net.period)
  { s with time := { s.time with netValid := false, netApplied := 0, netOfs := s.netHeld, netTarget := s.netHeld, netOfsT := s.now } }

theorem execNetworkTimeInvalid_lost (slave : s.conf.net.role = 2) (valid : s.time.netValid = true) : execNetworkTimeInvalid s =
    .next ((s.netLost.canRec ((netBuses s.conf.net).headD 0) 0x0A s.conf.net.id 0).event .time 1) :=
  congrArg Host.Outcome.next (if_neg (by simp [slave, valid]))

/-- An offset that is its own target is held. -/
theorem State.netHeld_target (s : State) (reached : s.time.netTarget = s.time.netOfs) : s.netHeld = s.time.netOfs := by
  simp [State.netHeld, reached]

end Net

/-- Settles O18, command by command. -/
theorem canRowsComplete : Obligations.CanRowsComplete := by
  intro s c
  refine ⟨fun e b f t0 run => execTransmitAttemptEnd_contending run t0, fun off => ⟨_, execBusOffRecovery_off off, ?recovered⟩,
    fun b run normal on => execCanReceiveError_counted b run normal on, fun f t0 run => execCanFrameReceived_taken run f t0,
    fun run => ⟨s.statusDue, _, s.statusDue.statusData_length, rfl, rfl, execStatusMessageSend_run run⟩,
    fun run acts master => ⟨s.referenceDue, execReferenceMessageSend_master run acts master, rfl, rfl⟩,
    fun slave valid => ⟨_, execNetworkTimeInvalid_lost slave valid, ?lost⟩,
    fun m g k r configured first => ⟨s.copyMissed m g k r, ?first, ?run, rfl,
      execSkewWindowExpiry_missed configured first⟩, ?timeout⟩
  case recovered =>
    rw [State.canRec_can, State.event_can, State.onCan_can]
    exact ⟨rfl, rfl, rfl⟩
  case lost =>
    have same := (State.event_bare (s.netLost.canRec ((netBuses s.conf.net).headD 0) 0x0A s.conf.net.id 0) .time 1).trans
      (s.netLost.record_bare ..)
    exact ⟨keeps_of_erased same (fun u => u.time.netValid) (fun _ => rfl), keeps_of_erased same State.now (fun _ => rfl),
      (keeps_of_erased same State.netHeld (fun _ => rfl)).trans (s.netLost.netHeld_target rfl)⟩
  case first => exact congrArg SafeMsg.first (State.onMsg_msg ..)
  case run => exact congrArg SafeMsg.okRun (State.onMsg_msg ..)
  case timeout =>
    intro m g own configured single delivered
    obtain ⟨stands, now, seq⟩ := s.timedOut_frame m g
    exact ⟨_, stands, now, seq, execSafeMessageTimeout_single own configured single delivered⟩

end Sys2Proof.Machine
end

