-- ==== Sys2Proof/Proofs/PairRows.lean ====
section
/-! PROOF. The commands of the pair family: training, heartbeats, the loss of the partner, and what arrives over the Causeway
(17 R408–R432). -/

namespace Sys2Proof.Machine

open Sys2Proof

/-! ## Members (R408–R420) -/

/-- What a heartbeat leaves behind. -/
theorem State.hbSend_spec (u : State) :
    u.hbSend.sent = Output.heartbeat (hbFrame u.hbNow) :: u.sent ∧ u.hbSend.pair.hbSeq = u.hbNow.seq ∧
    u.hbSend.pair.hbSent = hbBytes u.hbNow ∧ u.hbSend.pair.hbT = u.now :=
  ⟨rfl, rfl, rfl, State.emit_now u _⟩

section Members
variable {s : State}

theorem execTrainingDeadline_missed (pair : s.isPair = true) (untrained : s.pair.trained = false) (noRole : s.pair.role = .none) :
    execTrainingDeadline s = .next s.trainMissed :=
  congrArg Host.Outcome.next (if_neg (by simp [pair, untrained, noRole]))

theorem execProofWindowEnd_open (open_ : s.pair.proof = true) : execProofWindowEnd s = .next s.proofOver := by
  simp [execProofWindowEnd, open_]

variable (run : s.pwr.st = .run)
include run

theorem execPartnerLost_up (up : s.partnerUp = true) (cores : s.drv.coresUp = true) : execPartnerLost s = .next s.partnerLose :=
  congrArg Host.Outcome.next (if_neg (by simp [up, cores, run]))

variable (pair : s.isPair = true)
include pair

theorem execHeartbeatSend_trained (trained : s.pair.trained = true) (cores : s.drv.coresUp = true) :
    execHeartbeatSend s = .next (s.at (s.pair.hbT + us 50)).hbSend :=
  congrArg Host.Outcome.next (if_neg (by simp [pair, trained, cores, run]))

theorem execCausewayTraining_pair (x : PartnerId) (rtt : Nat) : execCausewayTraining x rtt s = .next (s.trainDone x rtt) :=
  congrArg Host.Outcome.next (if_neg (by simp [pair, run]))

variable (trained : s.pair.trained = true)
include trained

theorem execHeartbeatReceived_bad {f : RawFrame} (bad : causeOk f = false) :
    execHeartbeatReceived f s = .next (s.pairFrame true).pairChanged := by
  unfold execHeartbeatReceived
  refine congrArg Host.Outcome.next ((if_neg (by simp [pair, trained, run])).trans ?_)
  rw [bad]
  rfl

theorem execHeartbeatReceived_good {f : RawFrame} {hb : Heartbeat} (good : causeOk f = true) (parsed : hbParse f = some hb) :
    execHeartbeatReceived f s = .next ((s.pairFrame false).hbIn hb).pairChanged := by
  unfold execHeartbeatReceived
  refine congrArg Host.Outcome.next ((if_neg (by simp [pair, trained, run])).trans ?_)
  rw [good, parsed]
  rfl

end Members

/-- Settles O19, command by command. -/
theorem pairMembersComplete : Obligations.PairMembersComplete := by
  intro s pair
  exact ⟨fun trained cores run => ⟨_, _, rfl, execHeartbeatSend_trained run pair trained cores, State.hbSend_spec _⟩,
    fun f trained run => ⟨execHeartbeatReceived_bad run pair trained, fun hb => execHeartbeatReceived_good run pair trained⟩,
    fun x rtt run => execCausewayTraining_pair run pair x rtt, execTrainingDeadline_missed pair,
    fun up cores run => execPartnerLost_up run up cores, execProofWindowEnd_open⟩

/-! ## Frames of the Causeway (12 R331; R417, R428, R429) -/

section Frames
variable {s : State} (pair : s.isPair = true) (trained : s.pair.trained = true)

/-- The echo of a coil-off ends the wait for it. -/
def State.echoTaken (s : State) (ch : Nat) : State :=
  { s with pair := { s.pair with
      coilWait := s.pair.coilWait.filter (fun x => x.1 ≠ ch), noEcho := s.pair.noEcho &&& ~~~(1#12 <<< ch) } }

theorem State.echoTaken_spec (s : State) (ch : Nat) :
    (s.echoTaken ch).pair.coilWait = s.pair.coilWait.filter (fun x => decide (x.1 ≠ ch)) ∧
      (s.echoTaken ch).pair.noEcho = s.pair.noEcho &&& ~~~(1#12 <<< ch) ∧ ({ s.echoTaken ch with pair := s.pair } : State) = s :=
  ⟨rfl, rfl, rfl⟩

/-- A coil frame is applied to the paralleled channel, a coil-on with its LSW latches re-armed. -/
def State.coilApplied (s : State) (f : CoilFrame) : State :=
  let v := s.channel f.ch f.on
  let v := (v.ctrsOn f.ch).foldl (fun v i => v.onCtr i (fun k => { k with coil := f.on, t := v.now })) v
  if f.on then (v.ctrsOn f.ch).foldl (fun v i => match v.ctrCfg i with
    | some c => v.rearm c.lsw
    | none => v) v else v

theorem execNvwResultTimeout_waiting {x : NvwReq} {r : List NvwReq} (waiting : s.pair.nvw = x :: r) :
    execNvwResultTimeout s = .next ((s.at (x.t + ms 100)).nvwTake (fun y => y == x) 5) := by
  simp only [execNvwResultTimeout, waiting]

include pair trained

theorem not_untrained : ¬(!s.isPair || !s.pair.trained) = true := by simp [pair, trained]

theorem execCoilFrameReceived_applied {f : CoilFrame} (change : f.echo = false) (may : (s.pairFrame false).pairMay f.ch f.on = true) :
    execCoilFrameReceived f s = .next (((s.pairFrame false).coilApplied f).sendCoil { f with echo := true }) :=
  congrArg Host.Outcome.next ((if_neg (not_untrained pair trained)).trans
    ((if_neg (by simp [change])).trans ((if_neg (by simp [change])).trans (if_neg (by simp [may])))))

theorem execCoilFrameReceived_refused {f : CoilFrame} (change : f.echo = false) (mayNot : (s.pairFrame false).pairMay f.ch f.on = false) :
    execCoilFrameReceived f s = .next (s.pairFrame false) :=
  congrArg Host.Outcome.next ((if_neg (not_untrained pair trained)).trans
    ((if_neg (by simp [change])).trans ((if_neg (by simp [change])).trans (if_pos (by simp [mayNot])))))

theorem execCoilFrameReceived_onEcho {f : CoilFrame} (echo : f.echo = true) (on : f.on = true) :
    execCoilFrameReceived f s = .next (s.pairFrame false) :=
  congrArg Host.Outcome.next ((if_neg (not_untrained pair trained)).trans (if_pos (by simp [echo, on])))

theorem execCoilFrameReceived_offEcho {f : CoilFrame} (echo : f.echo = true) (off : f.on = false) :
    execCoilFrameReceived f s = .next (let u := (s.pairFrame false).echoTaken f.ch
      if u.pair.coilWait.isEmpty && !u.f37Cond then u.cease 37 16 else u) :=
  congrArg Host.Outcome.next ((if_neg (not_untrained pair trained)).trans ((if_neg (by simp [off])).trans (if_pos echo)))

theorem execPairEvtFrameReceived_taken (ev : PairEvt) :
    execPairEvtFrameReceived ev s = .next ((s.pairFrame false).evtTake ev).pairChanged :=
  congrArg Host.Outcome.next (if_neg (not_untrained pair trained))

theorem execMirrorFrameReceived_taken (item : MirrorItem) (svc : s.drv.svcUp = true) :
    execMirrorFrameReceived item s = .next ((s.pairFrame false).mirrorTake item).pairChanged :=
  congrArg Host.Outcome.next (if_neg (by simp [pair, trained, svc]))

theorem execNvwFrameReceived_taken (fr : NvwFrame) : execNvwFrameReceived fr s = .next ((s.pairFrame false).nvwIn fr).pairChanged :=
  congrArg Host.Outcome.next (if_neg (not_untrained pair trained))

end Frames

/-! ## Digests, resyncs, offsets (R415, R427, R430) -/

theorem bitsOf_testBit (l : List Bool) (n : Nat) : (bitsOf l).testBit n = l.getD n false := by
  induction l generalizing n with
  | nil => simp [bitsOf]
  | cons b l ih =>
    have bits : bitsOf (b :: l) = b.toNat + 2 * bitsOf l := rfl
    cases n with
    | zero => cases b <;> simp [bits, Nat.testBit_zero]
    | succ n =>
      have half : (b.toNat + 2 * bitsOf l) / 2 = bitsOf l := by
        cases b
        · simp
        · simp
          omega
      rw [bits, Nat.testBit_succ, half, ih]
      rfl

/-- A bit of the mask tells whether the digests of a region differ. -/
theorem State.digestMask_bit (s : State) (l : List Word) {r : Nat} (region : r < 7) :
    (s.digestMask l).getLsbD r = (l[r]? != some (crc32c (s.regionData r))) := by
  rw [State.digestMask, BitVec.getLsbD_ofNat, bitsOf_testBit]
  simp [State.ownDigests, region]

section Digests
variable {s : State}

theorem State.digestEnd_idle {u : State} {mask : BitVec 7} (after : u = s.digests mask) (none_ : u.pair.check = none) :
    s.digestEnd mask = u := by
  rw [after] at none_ ⊢
  simp only [State.digestEnd, none_]

theorem State.digestEnd_check {u : State} {mask : BitVec 7} {r : CmdRef} (after : u = s.digests mask) (waits : u.pair.check = some r) :
    s.digestEnd mask = (let v : State := { u with pair := { u.pair with check := none } }
     if mask = 0#7 then v.okay r 0 [] else v.finish r 9 mask.toNat [] false) := by
  rw [after] at waits ⊢
  simp only [State.digestEnd, waits, beq_iff_eq]

theorem execDigestExchange_up (l : List Word) (up : s.partnerUp = true) (svc : s.drv.svcUp = true) :
    execDigestExchange l s = .next (s.digestBegin.digestEnd (s.digestBegin.digestMask l)) :=
  congrArg Host.Outcome.next (if_neg (by simp [up, svc]))

theorem execResyncComplete_diverged (up : s.partnerUp = true) (diverged : s.pair.diverged ≠ 0#7) :
    execResyncComplete s = .next s.resyncDone :=
  congrArg Host.Outcome.next (if_neg (by simpa [up] using diverged))

theorem execPairOffsetFault_bad {t0 : Nat} (bad : s.pair.ofsBadT = some t0) :
    execPairOffsetFault s = .next ((s.at (t0 + ms 10)).stand 57 16 { value := s.pairOfs }).pairChanged := by
  simp only [execPairOffsetFault, bad]

end Digests

/-- Settles O20, frame by frame. -/
theorem pairFramesComplete : Obligations.PairFramesComplete := by
  intro s pair trained
  refine ⟨?frames, fun x r => execNvwResultTimeout_waiting, ?digests, execResyncComplete_diverged, fun t0 => execPairOffsetFault_bad⟩
  case frames =>
    rintro _ rfl
    refine ⟨fun f change may => ⟨(s.pairFrame false).coilApplied f, rfl, execCoilFrameReceived_applied pair trained change may⟩,
      fun f => execCoilFrameReceived_refused pair trained, fun f => execCoilFrameReceived_onEcho pair trained,
      fun f echo off => ?_,
      execPairEvtFrameReceived_taken pair trained, execMirrorFrameReceived_taken pair trained, execNvwFrameReceived_taken pair trained⟩
    obtain ⟨wait, noEcho, frame⟩ := (s.pairFrame false).echoTaken_spec f.ch
    exact ⟨_, wait, noEcho, frame, execCoilFrameReceived_offEcho pair trained echo off⟩
  case digests =>
    intro l x mask u up svc at_ differ after
    have runs : execDigestExchange l s = .next (s.digestBegin.digestEnd mask) := by
      rw [differ]
      exact execDigestExchange_up l up svc
    refine ⟨?_, fun r region => ?_, fun none_ => runs.trans (congrArg _ (State.digestEnd_idle after none_)),
      fun r waits => runs.trans (congrArg _ (State.digestEnd_check after waits))⟩
    · rw [at_]
      rfl
    · rw [differ]
      exact State.digestMask_bit _ l region

end Sys2Proof.Machine
end

