-- ==== Sys2Proof/Proofs/SupplyRows.lean ====
section
/-! PROOF. The commands of the supplies, the clock and the protective shutdown (21 R525–R527; 22 R537; 10 R283; 01 R28; 24 R565). -/

namespace Sys2Proof.Machine

open Sys2Proof

/-! ## Interruptions (R525, R526) -/

section Interruption
variable {s : State}

/-- The interruption begins, with VSUP as it was read. -/
def State.rideStart (s : State) (v h : Nat) : State :=
  { s with pwr := { s.pwr with holdup := h, vsup := v, intr := .rideThrough, intrT := s.now } }

/-- The power-loss record, where the MRAM is mounted and its domain powered. -/
def State.lossRec (s : State) : State := if s.pwr.st == .peat || !s.mounted then s else s.bbEvent 3 0 255 s.pwr.vsup 0 0

theorem State.lossRec_bare (s : State) : s.lossRec.bare = s.bare := by
  unfold State.lossRec
  split
  · rfl
  · exact State.bbEvent_bare ..

theorem execSupplyInterruptionBegin_low {v : Nat} (h : Nat) (quiet : s.pwr.intr = .none) (low : v < 15000) :
    execSupplyInterruptionBegin ⟨v, h⟩ s =
      .next { (s.rideStart v h).lossRec with mram := { (s.rideStart v h).lossRec.mram with refuse := true } } :=
  congrArg Host.Outcome.next (if_neg (by simp [State.holdupNow, quiet, low]))

theorem execSupplyInterruptionBegin_pwr {v : Nat} (h : Nat) (quiet : s.pwr.intr = .none) (low : v < 15000) : ∃ t : State,
    execSupplyInterruptionBegin ⟨v, h⟩ s = .next t ∧ t.mram.refuse = true ∧ t.pwr = (s.rideStart v h).pwr :=
  ⟨_, execSupplyInterruptionBegin_low h quiet low, rfl, keeps_of_erased (State.lossRec_bare _) State.pwr (fun _ => rfl)⟩

theorem execSaveWindowEntry_riding (riding : s.pwr.intr = .rideThrough) :
    execSaveWindowEntry s = .next (s.draw.2.holdupNow (s.draw.1 % 2 ^ 32)).saveWindow :=
  congrArg Host.Outcome.next (if_neg (by simp [riding]))

theorem execSaveWindowExpiry_under (under : s.pwr.intr = .rideThrough ∨ s.pwr.intr = .saveWindow) :
    execSaveWindowExpiry s = .next s.saveOver := by
  refine congrArg Host.Outcome.next (if_neg ?_)
  obtain riding | saving := under
  · simp [riding]
  · simp [saving]

/-- With SRAM and the ports dark the phase of the interruption is what it was. -/
theorem State.dark_intr (s : State) : s.sramLost.portsDark.hostReset.keeperOn.pwr.intr = s.pwr.intr :=
  keeps_of_erased (State.hostReset_inner s.sramLost.portsDark) (fun u => u.pwr.intr) (fun _ => rfl)

/-- The channels of a list are off, and no command holds them. -/
def State.outsDead (s : State) (l : List Nat) : State :=
  l.foldl (fun s ch => s.onOutc ch (fun o => { o with on := false, cmd := false })) s

theorem State.outsDead_pwr (s : State) (l : List Nat) : (s.outsDead l).pwr = s.pwr :=
  foldl_keeps State.pwr (fun _ _ => State.onOutc_pwr ..) l s

/-- Every domain but AON and every output is off, before what they held is lost. -/
def State.domainsOff (s : State) : State :=
  let t := ({ s with pwr := { s.pwr with intr := .over, domains := 0x001#12, ready := false } } : State).outsDead (List.range 12)
  { t with drv := { t.drv with coresUp := false, svcUp := false } }

theorem State.domainsOff_intr (s : State) : s.domainsOff.pwr.intr = .over := by
  unfold State.domainsOff
  dsimp only
  rw [State.outsDead_pwr]

theorem State.saveOver_eq (s : State) : s.saveOver = s.domainsOff.sramLost.portsDark.hostReset.keeperOn := by
  unfold State.saveOver State.domainsOff State.outsDead
  rfl

/-- Once the domains are off the interruption is over. -/
theorem State.saveOver_intr (s : State) : s.saveOver.pwr.intr = .over := by
  rw [State.saveOver_eq, State.dark_intr, State.domainsOff_intr]

theorem State.backAt_range (s : State) : 16800 ≤ s.backAt ∧ s.backAt ≤ 154000 := by
  unfold State.backAt
  omega

theorem execInterruptionEnd_over (gone : s.pwr.intr = .over) : execInterruptionEnd s = .next (s.draw.2.powerOn s.backAt) := by
  have notNone : ¬(s.draw.2.pwr.intr == .none) = true := by rw [show s.draw.2.pwr.intr = s.pwr.intr from rfl, gone]; decide
  have isOver : (s.draw.2.pwr.intr == .over || !s.draw.2.mounted) = true := by
    rw [show s.draw.2.pwr.intr = s.pwr.intr from rfl, gone]
    rfl
  exact congrArg Host.Outcome.next ((if_neg notNone).trans (if_pos isOver))

variable (mounted : s.mounted = true)
include mounted

theorem execInterruptionEnd_riding (riding : s.pwr.intr = .rideThrough) : execInterruptionEnd s = .next (
    let u := (s.supplyBack s.backAt).flushHeld.event .pwr 1
    if u.pwr.st == .peat then u else u.bbEvent 4 0 255 ((s.now - s.pwr.intrT) / 1000) 0 0) := by
  rw [execInterruptionEnd_lasting (by simp [riding]) mounted, riding]
  rfl

theorem execInterruptionEnd_saving (saving : s.pwr.intr = .saveWindow) :
    execInterruptionEnd s = .next (s.supplyBack s.backAt).flushHeld := by
  rw [execInterruptionEnd_lasting (by simp [saving]) mounted, saving]
  rfl

end Interruption

/-! ## VSUP and the coil supplies (11 R287; 24 R565) -/

section Supplies
variable {s : State}

/-- VSUP as it was read. -/
def State.vsupRead (s : State) (v : Nat) : State := { s with pwr := { s.pwr with vsup := v } }

theorem execVsupOutOfRange_eq (v : Nat) : execVsupOutOfRange v s = .next
    (if 16800 ≤ v ∧ v ≤ 154000 then (s.vsupRead v).cease 62 16 else ((s.vsupRead v).event .pwr 4).stand 62 16 { value := v }) := by
  simp only [execVsupOutOfRange, Bool.and_eq_true, decide_eq_true_eq]
  rfl

/-- The coil supplies as they were read. -/
def State.coilsRead (s : State) (a b : Nat) : State := { s with pwr := { s.pwr with vcoilA := a, vcoilB := b } }

theorem State.finish_outs (s : State) (r : CmdRef) (status value : Nat) (result : List Byte) (isPartial : Bool) :
    (s.finish r status value result isPartial).outs = s.outs := by
  obtain ⟨host, rings, ended⟩ := s.finish_eq r status value result isPartial
  rw [ended]

theorem State.finishGroup_outs (s : State) (r : CmdRef) (g : Nat) (rs : List MemberRes) : (s.finishGroup r g rs).outs = s.outs := by
  simp [State.finishGroup, apply_ite State.outs, State.finish_outs]

theorem State.settleCmds_outs (s : State) : s.settleCmds.outs = s.outs := by
  unfold State.settleCmds
  dsimp only
  split
  · rw [State.finishGroup_outs]
    exact foldl_keeps State.outs (fun t c => by simp [apply_ite State.outs, State.finishGroup_outs, State.finish_outs]) _ _
  · exact foldl_keeps State.outs (fun t c => by simp [apply_ite State.outs, State.finishGroup_outs, State.finish_outs]) _ _

theorem State.eventRec_outs (s : State) (kind code subject port : Nat) (v1 v2 v3 : Int) :
    (s.eventRec kind code subject port v1 v2 v3).outs = s.outs := keeps_of_erased (State.eventRec_bare ..) State.outs (fun _ => rfl)

theorem State.connEnd_outs (s : State) (p : Nat) : (s.connEnd p).outs = s.outs := foldl_keeps State.outs (fun _ _ => by rfl) _ _

theorem State.openMark_outs (s : State) (p : Nat) : (s.openMark p).outs = s.outs := foldl_keeps State.outs (fun _ _ => by rfl) _ s

/-- A contactor's state changes no channel. -/
theorem State.setCtr_outs (s : State) (i : Nat) (st : CtrState) : (s.setCtr i st).outs = s.outs := by
  simp [State.setCtr, apply_ite State.outs, State.settleCmds_outs, State.openMark_outs, State.connEnd_outs, State.eventRec_outs,
    State.sendEvt, State.cause]

theorem State.coilLost_outs (s : State) (ch : Nat) : (s.coilLost ch).outs = s.outs := by
  refine foldl_keeps State.outs (fun u i => ?_) _ s
  have opening := (u.onCtr i (fun k => { k with coil := false, above := false, t := u.now })).setCtr_outs i .opening
  dsimp only
  split
  · rfl
  · split
    · split
      · exact opening
      · exact opening
    · exact opening

/-- A channel without supply is off. -/
theorem State.supplyTurn_off {ch : Nat} (dark : s.fed ch = false) (noLimp : s.drv.limp = false) :
    ((s.supplyTurn ch).outc ch).on = false := by
  have notLimp : ¬(s.drv.limp && s.limpSel ch) = true := by simp [noLimp]
  have notFed : ¬s.fed ch = true := by simp [dark]
  unfold State.supplyTurn
  dsimp only
  rw [if_neg notLimp, if_neg notFed]
  by_cases on : (s.outc ch).on = true
  · have cut := s.onOutc_outc ch (fun o => { o with on := false, cmd := o.cmd && !s.isCoil ch, changeT := s.now })
    rw [if_neg (by simp [on])]
    split
    · exact congrArg OutCh.on cut
    · exact congrArg OutCh.on ((congrArg (fun l : Tab Nat OutCh => l.getD ch {}) (State.coilLost_outs ..)).trans cut)
  · rw [if_pos (by simp [on])]
    simpa using on

end Supplies

/-! ## Protective shutdown (10 R283) -/

theorem State.junctionLevel_bare (s : State) (level : Nat) (was now_ : Bool) (tj : Int) :
    (s.junctionLevel level was now_ tj).bare = s.bare := by
  unfold State.junctionLevel
  dsimp only
  split
  · rfl
  · refine (State.eventRec_bare ..).trans ?_
    split
    · exact State.event_bare ..
    · split
      · exact State.event_bare ..
      · split
        · exact State.event_bare ..
        · rfl

section Shutdown
variable {s : State}

/-- The junction is at its limit: the instant from which the shutdown counts, and level 3. -/
def State.tripped (s : State) : State :=
  let t := ({ s with therm := { s.therm with shutT := s.now } } : State).junctionLevel 3 s.therm.shut true s.therm.tj
  { t with therm := { t.therm with shut := true } }

theorem State.tripped_therm (s : State) : s.tripped.therm = { s.therm with shutT := s.now, shut := true } := by
  have level := keeps_of_erased
    (State.junctionLevel_bare { s with therm := { s.therm with shutT := s.now } } 3 s.therm.shut true s.therm.tj)
    State.therm (fun _ => rfl)
  exact congrArg (fun t : Therm => { t with shut := true }) level

theorem execJunctionShutdown_trip (cold : s.stands 14 16 = false) : execJunctionShutdown s =
    .next ((s.tripped.stand 14 16 { value := s.tripped.therm.tj }).shutStep) :=
  congrArg Host.Outcome.next (if_neg (by simp [cold]))

theorem execJunctionRecovery_ceases (hot : s.stands 14 16 = true) : ∃ u : State, u.therm.shut = false ∧
    execJunctionRecovery s = .next (((u.cease 14 16).startUp false).resetCause 9) :=
  ⟨_, rfl, congrArg Host.Outcome.next (if_neg (by simp [hot]))⟩

end Shutdown

/-- Settles O28, command by command. -/
theorem supplyRowsComplete : Obligations.SupplyRowsComplete := by
  intro s
  refine ⟨fun v h quiet low => ?begin_, fun riding => ⟨_, execSaveWindowEntry_riding riding⟩, execSaveWindowExpiry_under,
    fun gone => ⟨_, s.backAt_range.1, s.backAt_range.2, execInterruptionEnd_over gone⟩,
    fun riding mounted _ => ⟨s.supplyBack s.backAt, rfl, rfl, s.backAt_range.1, rfl, execInterruptionEnd_riding mounted riding⟩,
    fun saving mounted => ⟨s.supplyBack s.backAt, rfl, rfl, s.backAt_range.1, execInterruptionEnd_saving mounted saving⟩,
    fun v => ⟨s.vsupRead v, rfl, rfl, execVsupOutOfRange_eq v⟩, fun a b => ⟨s.coilsRead a b, rfl, rfl, rfl, rfl⟩,
    fun ch => State.supplyTurn_off, rfl, fun cold => ⟨s.tripped, ?_, ?_, ?_, execJunctionShutdown_trip cold⟩,
    execJunctionRecovery_ceases⟩
  case begin_ =>
    obtain ⟨t, begins, refuse, pwr⟩ := execSupplyInterruptionBegin_pwr h quiet low
    exact ⟨t, begins, refuse, by rw [pwr]; rfl, by rw [pwr]; rfl, by rw [pwr]; rfl⟩
  all_goals rw [s.tripped_therm]

/-- Settles O59: the same commands, with what the statement says of VSUP out of and in range. -/
theorem suppliesAndShutdownAnswer : Obligations.SuppliesAndShutdownAnswer := by
  intro s
  refine ⟨fun v h quiet low => ?begin_, fun riding => ⟨_, execSaveWindowEntry_riding riding⟩,
    fun under => ⟨execSaveWindowExpiry_under under, s.saveOver_intr⟩,
    fun gone => ⟨_, s.backAt_range.1, s.backAt_range.2, execInterruptionEnd_over gone⟩, fun under mounted => ?end_,
    fun v out => (execVsupOutOfRange_eq v).trans (congrArg _ (if_neg (by omega))),
    fun v low high => (execVsupOutOfRange_eq v).trans (congrArg _ (if_pos ⟨low, high⟩)), fun a b => rfl, rfl,
    fun cold => ⟨s.tripped, ?_, ?_, execJunctionShutdown_trip cold⟩, execJunctionRecovery_ceases⟩
  case begin_ =>
    obtain ⟨t, begins, refuse, pwr⟩ := execSupplyInterruptionBegin_pwr h quiet low
    exact ⟨t, begins, refuse, by rw [pwr]; rfl, by rw [pwr]; rfl, by rw [pwr]; rfl⟩
  case end_ =>
    obtain riding | saving := under
    · exact ⟨s.supplyBack s.backAt, _, rfl, rfl, rfl, execInterruptionEnd_riding mounted riding,
        fun saving => by simp [riding] at saving⟩
    · exact ⟨s.supplyBack s.backAt, _, rfl, rfl, rfl, execInterruptionEnd_saving mounted saving, fun _ => rfl⟩
  all_goals rw [s.tripped_therm]

end Sys2Proof.Machine
end

