-- ==== Sys2Proof/Proofs/ResetRows.lean ====
section
/-! PROOF. The resets and the steps of a start-up (21 R517–R524; 23 R551). -/

namespace Sys2Proof.Machine

open Sys2Proof

/-! ## Resets (R518, R519) -/

section Events
variable {r : EvReg} (notStatus : r ≠ .irqStatus)
include notStatus

/-- An interrupt sets no bit of another event register. -/
theorem State.raiseIrq_evr_other (s : State) (src : Nat) : (s.raiseIrq src).evr r = s.evr r := by
  have status := s.setBits_evr_other (1#32 <<< src) notStatus
  have message (u : State) (v : Nat) : (u.msix v).evr r = u.evr r := by
    unfold State.msix
    split
    · rfl
    · rfl
  unfold State.raiseIrq
  dsimp only
  split
  · exact (message _ _).trans status
  · exact status

/-- An event sets its bit. -/
theorem State.event_sets (s : State) {n : Nat} (inWord : n < 32) : ((s.event r n).evr r).bits.getLsbD n = true := by
  have set : ((s.setBits r (1#32 <<< n)).evr r).bits.getLsbD n = true := by
    rw [State.setBits_evr]
    simp [inWord]
  obtain quiet | ⟨src, raised⟩ := s.event_cases r n
  · rw [quiet, set]
  · rw [raised, State.raiseIrq_evr_other notStatus, set]

end Events

section Resets
variable {s : State} {n : Nat}

theorem execPowerOnReset_inRange {v : Nat} (inRange : 16800 ≤ v) : execPowerOnReset v s = .next (s.powerOn v) :=
  congrArg Host.Outcome.next (if_neg (by omega))

/-- The cause of a reset is noted, with its time. -/
def State.causeNoted (s : State) (n : Nat) : State :=
  let t := s.event .resetCause n
  { t with host := { t.host with resetTime := t.now } }

theorem State.causeNoted_bare (s : State) (n : Nat) : (s.causeNoted n).bare = s.bare := s.event_bare .resetCause n

theorem State.causeNoted_sets (s : State) (inWord : n < 32) : ((s.causeNoted n).evr .resetCause).bits.getLsbD n = true :=
  s.event_sets (by decide) inWord

section Long
variable (long : 10 ≤ n)
include long

theorem execRstNReset_run (run : s.pwr.st = .run) : execRstNReset n s = .next s.rstReset :=
  congrArg Host.Outcome.next ((if_neg (by omega)).trans ((if_neg (by simp [run])).trans
    (congrArg State.rstReset (if_pos (by simp [run])))))

theorem execRstNReset_moss (moss : s.pwr.st = .moss) : execRstNReset n s = .next (s.powerState .run 0 s.pwr.wakeSrc).rstReset :=
  congrArg Host.Outcome.next ((if_neg (by omega)).trans ((if_neg (by simp [moss])).trans
    (congrArg State.rstReset (if_neg (by simp [moss])))))

theorem execRstNReset_peat (peat : s.pwr.st = .peat) : execRstNReset n s = .next (s.causeNoted 1) :=
  congrArg Host.Outcome.next ((if_neg (by omega)).trans (if_pos (by simp [peat])))

end Long

theorem State.maintEnd_pwr (s : State) (cause : Nat) : (s.maintEnd cause).pwr = s.pwr := by
  unfold State.maintEnd
  split
  · exact keeps_of_erased (State.eventRec_bare ..) State.pwr (fun _ => rfl)
  · rfl

/-- The hold window changes no part of the power state. -/
theorem State.holdStart_pwr (s : State) : s.holdStart.pwr = s.pwr := by
  have told (u : State) (left : Int) : ((u.event .drv 7).eventRec 2 8 0 255 1 left 0).pwr = u.pwr :=
    keeps_of_erased ((State.eventRec_bare ..).trans (State.event_bare ..)) State.pwr (fun _ => rfl)
  unfold State.holdStart
  dsimp only
  split
  · exact s.maintEnd_pwr 4
  · exact (told _ _).trans (s.maintEnd_pwr 4)

theorem State.rstPower_low (s : State) (d : Tab Nat Disc) : ((s.rstPower d).resetCause 1).pwr.rstLow = true :=
  keeps_of_erased (State.resetCause_bare ..) (fun u => u.pwr.rstLow) (fun _ => rfl)

theorem State.rstReset_low (s : State) : s.rstReset.pwr.rstLow = true := by
  unfold State.rstReset
  dsimp only
  rw [State.holdStart_pwr, State.rstPower_low]

end Resets

/-! ## Steps of a start-up (R517, R520, R522–R524) -/

section StartUp
variable {s : State}

theorem execRstNDeassert_low (low : s.pwr.rstLow = true) : execRstNDeassert s = .next (s.startUp false).trialStart :=
  congrArg Host.Outcome.next (if_neg (by simp [low]))

/-- The start of a slot on trial changes no part of the power state. -/
theorem State.trialStart_pwr (s : State) : s.trialStart.pwr = s.pwr := by
  unfold State.trialStart
  split
  · rfl
  · exact keeps_of_erased (State.bbEvent_bare ..) State.pwr (fun _ => rfl)

/-- A domain is powered. -/
def State.domainUp (s : State) (n : Nat) : State := { s with pwr := { s.pwr with domains := s.pwr.domains ||| (1#12 <<< n) } }

/-- A domain whose predecessors are powered is powered; with CHN_LO or CHN_HI the ports of a mounted module start. -/
theorem execDomainPowerGood_powered {n : Nat} (awake : s.pwr.st ≠ .peat) (released : s.pwr.rstLow = false)
    (up : s.pwr.restartDue = false) (fed : s.pwr.intr ≠ .over)
    (before : (domBefore n).all (fun d => s.pwr.domains.getLsbD d) = true) (inRange : n < 12)
    (noCheck : (s.pwr.selfCheck && (n == 6 || n == 11)) = false) : execDomainPowerGood n s = .next (
      if (n == 7 || n == 8) && s.pwr.st == .run && s.mounted && !(s.isPair && !s.pair.trained)
      then (s.domainUp n).portsStart else s.domainUp n) :=
  congrArg Host.Outcome.next (if_neg (by
    simp [before, released, up, noCheck, awake, fed, inRange]))

theorem execBuiltInRepair_due {l : List RepairFind} {n : Nat} (starting : s.pwr.starting = true) (released : s.pwr.rstLow = false)
    (early : s.pwr.startStep < 4) :
    execBuiltInRepair l n s = .next (if n = 0 then s.bootRepair l else (s.bootRepair l).stand 59 16 {}) :=
  congrArg Host.Outcome.next (if_neg (by simp [starting, released, early]))

theorem execMramMount_due (unmounted : s.mounted = false) (released : s.pwr.rstLow = false) : execMramMount s =
    .next (if s.mount.isPair && !s.mount.pair.trained then s.mount else s.mount.portsStart) :=
  congrArg Host.Outcome.next (if_neg (by simp [unmounted, released]))

/-- The module is ready, and its start-up over. -/
def State.readied (s : State) : State := { s with pwr := { s.pwr with ready := true, starting := false, startStep := 12 } }

theorem execReadyToClose_ready (ready : s.readyNow = true) : execReadyToClose s = .next s.readied.seqKick :=
  congrArg Host.Outcome.next (if_neg (by simp [ready]))

theorem execReadyTimeout_late (notReady : s.pwr.ready = false) : execReadyTimeout s = .next s.readyOut :=
  congrArg Host.Outcome.next (if_neg (by simp [notReady]))

theorem execServiceCoresResumed_down (down : s.drv.svcUp = false) (run : s.pwr.st = .run) (mounted : s.mounted = true) :
    execServiceCoresResumed s = .next (s.portList.foldl (fun s p => s.planResume p) s.svcResume.flushHeld) :=
  congrArg Host.Outcome.next (if_neg (by simp [down, run, mounted]))

end StartUp

/-- Settles O27, command by command. -/
theorem resetRowsComplete : Obligations.ResetRowsComplete := by
  intro s
  refine ⟨fun v => execPowerOnReset_inRange, fun n => execRstNReset_run, fun n => execRstNReset_moss, fun n long peat => ?peat,
    execRstNDeassert_low, fun n inRange notLo notHi awake released up fed before noCheck => ⟨s.domainUp n, ?other, rfl, rfl⟩,
    fun n u chain run released up fed before powered => ?chain, fun l n => execBuiltInRepair_due, execMramMount_due,
    fun ready => ⟨s.readied, rfl, rfl, rfl, execReadyToClose_ready ready⟩, execReadyTimeout_late, execServiceCoresResumed_down⟩
  case peat =>
    have same := s.causeNoted_bare 1
    exact ⟨_, execRstNReset_peat long peat, s.causeNoted_sets (by decide), keeps_of_erased same State.pwr (fun _ => rfl),
      keeps_of_erased same State.drv (fun _ => rfl), keeps_of_erased same State.cfg (fun _ => rfl)⟩
  case other =>
    exact (execDomainPowerGood_powered awake released up fed before inRange (by simp [noCheck])).trans
      (congrArg Host.Outcome.next (if_neg (by simp [notLo, notHi])))
  case chain =>
    have awake : s.pwr.st ≠ .peat := by simp [run]
    rw [powered]
    refine (execDomainPowerGood_powered awake released up fed before (by omega) ?noCheck).trans
      (congrArg Host.Outcome.next (if_congr ?starts rfl rfl))
    case noCheck =>
      obtain rfl | rfl := chain
      · simp
      · simp
    case starts => simp [chain, run]

/-- Settles O58: the same steps, with what the statement says of the state that follows. -/
theorem resetsAndStartUpAnswer : Obligations.ResetsAndStartUpAnswer := by
  intro s
  refine ⟨fun v inRange => ⟨_, execPowerOnReset_inRange inRange, rfl, s.powerOn_pending v⟩,
    fun n long run => ⟨_, execRstNReset_run long run, rfl, s.rstReset_low⟩,
    fun low => ⟨_, execRstNDeassert_low low, rfl, ?released, ?starting⟩,
    fun n u inRange run released up fed before noCheck powered => ?domain,
    fun l starting released early => ⟨execBuiltInRepair_due starting released early, fun n some_ => ?fails⟩,
    execMramMount_due, execReadyToClose_ready, execReadyTimeout_late, execServiceCoresResumed_down⟩
  case released =>
    rw [State.trialStart_pwr]
    rfl
  case starting =>
    rw [State.trialStart_pwr]
    rfl
  case domain =>
    have awake : s.pwr.st ≠ .peat := by simp [run]
    rw [powered]
    refine (execDomainPowerGood_powered awake released up fed before inRange (by simp [noCheck])).trans
      (congrArg Host.Outcome.next (if_congr ?_ rfl rfl))
    simp [run, and_assoc]
  case fails => exact (execBuiltInRepair_due starting released early).trans (congrArg Host.Outcome.next (if_neg some_))

end Sys2Proof.Machine
end

