-- ==== Sys2Proof/Proofs/WakeRows.lean ====
section
/-! PROOF. The wakes and the timers of Moss and Peat (21 R512–R516; 05 R155; 10 R279; 20 R505). -/

namespace Sys2Proof.Machine

open Sys2Proof

/-! ## Wakes from Moss (R512) -/

section Moss
variable {s : State}

theorem State.wakeBy_moss (moss : s.pwr.st = .moss) (code : Nat) : s.wakeBy code = s.wakeRun code := if_pos (by simp [moss])

section Sources
variable (moss : s.pwr.st = .moss)
include moss

theorem execWakePackCurrent_above {i : Int} (enabled : s.wakeOn 1 = true) (above : s.gen.wakeI < i.natAbs) :
    execWakePackCurrent i s = .next (s.wakeRun 1) :=
  congrArg Host.Outcome.next ((if_pos (by simp [enabled, above])).trans (State.wakeBy_moss moss 1))

theorem execCanWake_enabled {c : Nat} (enabled : s.wakeOn (2 + c) = true) (listens : (s.can c).mode ≠ 2) :
    execCanWake c s = .next (s.wakeRun (2 + c)) :=
  congrArg Host.Outcome.next ((if_pos (by simp [enabled, listens])).trans (State.wakeBy_moss moss (2 + c)))

theorem execWakeTimerExpiry_running (taken : s.pwr.wakeTimerTaken ≠ 0) (set : s.pwr.wakeTimer ≠ 0) (enabled : s.wakeOn 4 = true) :
    execWakeTimerExpiry s = .next ((s.at (s.pwr.mossT + sec s.pwr.wakeTimerTaken)).wakeRun 4) :=
  congrArg Host.Outcome.next ((if_neg (by simpa [moss, taken, enabled] using set)).trans
    (State.wakeBy_moss (s := s.at (s.pwr.mossT + sec s.pwr.wakeTimerTaken)) moss 4))

end Sources

/-! ## The pins (20 R505; 10 R279) -/

/-- The level at CHG_PRES. -/
def State.chgPresIs (s : State) (high : Bool) : State := { s with pwr := { s.pwr with chgPres := high } }

/-- The level at SVC_WAKE. -/
def State.svcWakeIs (s : State) (high : Bool) : State := { s with pwr := { s.pwr with svcWake := high } }

theorem execChgPresHigh_rises (low : s.pwr.chgPres = false) :
    execChgPresHigh s = .next (((s.chgPresIs true).event .safein 9).wakePin 5).thermOuts :=
  congrArg (fun u : State => Host.Outcome.next (u.wakePin 5).thermOuts) (if_neg (by simp [low]))

theorem execChgPresLow_falls (high : s.pwr.chgPres = true) :
    execChgPresLow s = .next ((s.chgPresIs false).event .safein 9).thermOuts :=
  congrArg Host.Outcome.next (if_neg (by simp [high]))

theorem execSvcWakeHigh_rises (low : s.pwr.svcWake = false) :
    execSvcWakeHigh s = .next (((s.svcWakeIs true).event .safein 10).wakePin 6) :=
  congrArg (fun u : State => Host.Outcome.next (u.wakePin 6)) (if_neg (by simp [low]))

theorem execSvcWakeLow_falls (high : s.pwr.svcWake = true) :
    execSvcWakeLow s = .next ((s.svcWakeIs false).event .safein 10) :=
  congrArg Host.Outcome.next (if_neg (by simp [high]))

theorem State.wakePin_peat (peat : s.pwr.st = .peat) (code : Nat) : s.wakePin code = s.peatWake code false := if_pos (by simp [peat])

/-! ## Timers of Moss and Peat (05 R155; 21 R513, R516) -/

section Timers
variable (moss : s.pwr.st = .moss)
include moss

theorem execHeartbeatSweepCycle_closes (swept : s.portList.any (fun p => (s.port p).sweepOpen) = true) :
    execHeartbeatSweepCycle s = .next (s.portList.foldl (fun s p =>
      if (s.port p).sweepOpen then (s.at ((s.port p).sweepS + ms 20)).sweepClose p else s) s) :=
  congrArg Host.Outcome.next (if_pos (by rw [swept]; simp [moss]))

theorem execHeartbeatSweepCycle_wakes (closed : s.portList.any (fun p => (s.port p).sweepOpen) = false)
    (naps : s.portList.any (fun p => (s.port p).nap) = true) : execHeartbeatSweepCycle s = .next s.mossWake := by
  have some_ : s.portList.all (fun p => !(s.port p).nap) = false := by rw [← List.not_any_eq_all_not, naps]; rfl
  exact congrArg Host.Outcome.next ((if_neg (by rw [closed]; simp)).trans (if_neg (by rw [some_]; simp [moss])))

/-- A contactor is not OPEN at the limit, which is noted once. -/
def State.overLimit (s : State) : State := { s with pwr := { s.pwr with mossOver := true } }

theorem execMossLimitExpiry_due (limited : s.gen.mossLim ≠ 0) (first : s.pwr.mossOver = false) (stays : s.pwr.peatDue = false) :
    execMossLimitExpiry s = .next (
      let u := s.at (s.pwr.mossT + sec (3600 * s.gen.mossLim))
      if u.allOpen then u.mossToPeat else u.overLimit.bbEvent 0x0F 0 255 0 0 0) :=
  congrArg Host.Outcome.next (if_neg (by simp [moss, limited, first, stays]))

end Timers

theorem execSelfCheckAlarm_peat (peat : s.pwr.st = .peat) :
    execSelfCheckAlarm s = .next ((s.at (s.pwr.peatT + sec (86400 * s.gen.selfChk))).peatWake 7 true) :=
  congrArg Host.Outcome.next (if_neg (by simp [peat]))

end Moss

/-- Settles O29, command by command. -/
theorem wakeRowsComplete : Obligations.WakeRowsComplete := by
  intro s
  refine ⟨fun i moss => execWakePackCurrent_above moss, fun c moss => execCanWake_enabled moss, execWakeTimerExpiry_running,
    fun low => ⟨s.chgPresIs true, rfl, rfl, execChgPresHigh_rises low⟩,
    fun high => ⟨s.chgPresIs false, rfl, rfl, execChgPresLow_falls high⟩,
    fun low => ⟨s.svcWakeIs true, rfl, rfl, execSvcWakeHigh_rises low⟩,
    fun high => ⟨s.svcWakeIs false, rfl, rfl, execSvcWakeLow_falls high⟩,
    execHeartbeatSweepCycle_closes, execHeartbeatSweepCycle_wakes, fun u moss limited first stays expired => ?limit,
    execSelfCheckAlarm_peat⟩
  case limit =>
    rw [expired]
    exact execMossLimitExpiry_due moss limited first stays

/-- Settles O60: the same commands, with the pins in Peat and the two outcomes of the limit apart. -/
theorem wakesAnswer : Obligations.WakesAnswer := by
  intro s
  refine ⟨fun i moss => execWakePackCurrent_above moss, fun c moss => execCanWake_enabled moss,
    fun u moss taken set enabled expired => ?timer,
    execChgPresHigh_rises, execChgPresLow_falls, execSvcWakeHigh_rises, execSvcWakeLow_falls, fun k peat => State.wakePin_peat peat k,
    fun moss naps closed => execHeartbeatSweepCycle_wakes moss ?closed naps,
    fun u moss limited first stays expired => ⟨fun open_ => ?toPeat, fun shut => ?stays⟩, fun u peat alarm => ?alarm⟩
  case timer =>
    rw [expired]
    exact execWakeTimerExpiry_running moss taken set enabled
  case closed => rw [← Bool.not_eq_true', List.not_any_eq_all_not, closed]
  case toPeat =>
    rw [expired] at open_ ⊢
    exact (execMossLimitExpiry_due moss limited first stays).trans (congrArg Host.Outcome.next (if_pos open_))
  case stays =>
    rw [expired] at shut ⊢
    exact (execMossLimitExpiry_due moss limited first stays).trans (congrArg Host.Outcome.next (if_neg (by simp [shut])))
  case alarm =>
    rw [alarm]
    exact execSelfCheckAlarm_peat peat

end Sys2Proof.Machine
end

