-- ==== Sys2Proof/Proofs/MossLimit.lean ====
section
/-! PROOF. The Moss limit (21 R511, R513, R515): what entry to Moss and to Peat leave of the power state. -/

namespace Sys2Proof.Machine

open Sys2Proof

section PowerStates
variable (s : State)

/-- The record and the event of a change of the power state change no part of it. -/
theorem State.powerState_st (st : PState) (code src : Nat) : (s.powerState st code src).pwr.st = st :=
  keeps_of_erased ((State.eventRec_bare ..).trans (State.event_bare ..)) (fun u => u.pwr.st) (fun _ => rfl)

theorem State.hostReset_pwr : s.hostReset.pwr = s.pwr := keeps_of_erased s.hostReset_inner State.pwr (fun _ => rfl)

theorem State.hostReset_now : s.hostReset.now = s.now := keeps_of_erased s.hostReset_inner State.now (fun _ => rfl)

theorem State.hostReset_ready : s.hostReset.host.ready = false :=
  (keeps_of_erased s.hostReset_bareCan (fun u => u.host.ready) (fun _ => rfl)).trans rfl

theorem State.keeperOff_pwr : s.keeperOff.pwr = s.pwr := by
  unfold State.keeperOff
  dsimp only
  split
  · rfl
  · rfl

end PowerStates

/-! ## Entry to Moss (R511) -/

/-- The domains, the service cores and the Causeway as Moss leaves them. -/
def State.mossDown (s : State) : State :=
  { s with
    pwr := { s.pwr with
      mossT := s.now, wakeTimerTaken := s.pwr.wakeTimer.toNat, domains := mossDomains, firstLimits := false
      mossOver := false, peatDue := false }
    drv := { s.drv with svcUp := false }
    pair := { s.pair with trained := false, retrain := s.partnerUp, hbOk := false, proof := false } }

/-- Entry to Moss ends with the change of the power state, the domains and the host interface. -/
theorem State.mossEnter_ends (s : State) : ∃ u : State,
    s.mossEnter = (u.powerState .moss 1 u.pwr.wakeSrc).mossDown.hostReset.keeperOn := by
  unfold State.mossEnter
  exact ⟨_, rfl⟩

theorem State.mossDown_ends (s : State) : s.mossDown.hostReset.keeperOn.pwr.mossT = s.mossDown.hostReset.keeperOn.now ∧
    s.mossDown.hostReset.keeperOn.pwr.st = s.pwr.st :=
  ⟨(congrArg Power.mossT (State.hostReset_pwr s.mossDown)).trans (State.hostReset_now s.mossDown).symm,
    (congrArg Power.st (State.hostReset_pwr s.mossDown) :)⟩

/-- The limit counts from the entry to Moss. -/
theorem State.mossEnter_counts (s : State) : s.mossEnter.pwr.mossT = s.mossEnter.now ∧ s.mossEnter.pwr.st = .moss := by
  obtain ⟨u, ends⟩ := s.mossEnter_ends
  obtain ⟨counts, st⟩ := (u.powerState .moss 1 u.pwr.wakeSrc).mossDown_ends
  rw [ends]
  exact ⟨counts, st.trans (u.powerState_st ..)⟩

/-! ## Entry to Peat (R515) -/

/-- The times of low current that the strings keep on the way to Peat. -/
def State.restKept (s : State) (rest : List (Nat × Nat)) : State :=
  rest.foldl (fun s x => s.onStr x.1 (fun y => { y with lowT := some x.2 })) s

theorem State.restKept_pwr (s : State) (rest : List (Nat × Nat)) : (s.restKept rest).pwr = s.pwr :=
  foldl_keeps State.pwr (fun _ _ => State.onStr_pwr ..) rest s

/-- Entry to Peat ends with the change of the power state and with what it powers off. -/
theorem State.peatEnter_ends (s : State) : ∃ (u : State) (src : Nat) (rest : List (Nat × Nat)) (role : PairRole),
    s.peatEnter = ((((u.powerState .peat 2 src).sramLost.restKept rest).portsDark.hostReset.peatOff role).keeperOn) := by
  unfold State.peatEnter State.restKept
  exact ⟨_, _, _, _, rfl⟩

/-- What is powered off: the power state stays, AON alone is powered, and the host interface is not ready. -/
theorem State.peatOff_ends (s : State) (role : PairRole) :
    (s.portsDark.hostReset.peatOff role).keeperOn.pwr.st = s.pwr.st ∧
      (s.portsDark.hostReset.peatOff role).keeperOn.pwr.domains = 0x001#12 ∧
      (s.portsDark.hostReset.peatOff role).keeperOn.host.ready = false :=
  ⟨(congrArg Power.st (State.hostReset_pwr s.portsDark) :), rfl, State.hostReset_ready s.portsDark⟩

theorem State.sramLost_st (s : State) : s.sramLost.pwr.st = s.pwr.st := rfl

theorem State.peatEnter_powers (s : State) :
    s.peatEnter.pwr.st = .peat ∧ s.peatEnter.pwr.domains = 0x001#12 ∧ s.peatEnter.host.ready = false := by
  obtain ⟨u, src, rest, role, ends⟩ := s.peatEnter_ends
  obtain ⟨st, domains, ready⟩ := State.peatOff_ends ((u.powerState .peat 2 src).sramLost.restKept rest) role
  rw [ends]
  refine ⟨st.trans ?_, domains, ready⟩
  rw [State.restKept_pwr, State.sramLost_st, State.powerState_st]

/-! ## The limit (R513) -/

/-- A wake tone changes no part of the power state. -/
theorem State.wakePort_pwr (s : State) (p : Nat) (warm hb : Bool) : (s.wakePort p warm hb).pwr = s.pwr := by
  have tone (c : Prop) [Decidable c] (u : State) (o : Output) : (if c then u.emit o else u).pwr = u.pwr := by
    split
    · rfl
    · rfl
  have nodes (l : List Nat) (g : Node → Node) (u : State) : (l.foldl (fun s a => s.onNode (nk p a) g) u).pwr = u.pwr :=
    foldl_keeps State.pwr (fun _ _ => State.onNode_pwr ..) l u
  have iso (c : Prop) [Decidable c] (u : State) (k : Pack) : (if c then { u with pack := k } else u).pwr = u.pwr := by
    split
    · rfl
    · rfl
  unfold State.wakePort
  exact (tone ..).trans ((nodes ..).trans ((State.onReq_pwr ..).trans ((iso ..).trans (State.onPort_pwr ..))))

/-- Waking the ports in Moss powers the chains' domains and no other. -/
theorem State.mossWake_domains (s : State) : s.mossWake.pwr.domains = mossDomains ||| 0x180#12 := by
  unfold State.mossWake
  rw [foldl_keeps State.pwr (fun u p => u.wakePort_pwr p true true)]
  unfold State.mossUp
  rw [State.keeperOff_pwr]

section Limit
variable {s : State}

theorem State.mossToPeat_noPass (none_ : s.mram.passDue = false) : s.mossToPeat = s.peatEnter := if_neg (by simp [none_])

/-- The passports that are due before Peat are noted, and the ports are woken for them. -/
def State.peatAwaits (s : State) : State := { s with pwr := { s.pwr with peatDue := true } }

theorem State.mossToPeat_cases (s : State) : s.mossToPeat = s.peatEnter ∨ s.mossToPeat = s.peatAwaits.mossWake :=
  (ite_eq_or_eq _ _ _).symm

/-- On the way to Peat the host's domain stays without supply. -/
theorem State.mossToPeat_hostDark (s : State) : s.mossToPeat.pwr.domains.getLsbD 6 = false := by
  obtain peat | wake := s.mossToPeat_cases
  · rw [peat, s.peatEnter_powers.2.1]
    decide
  · rw [wake, State.mossWake_domains]
    decide

theorem execMossLimitExpiry_none (unlimited : s.gen.mossLim = 0) : execMossLimitExpiry s = .next s :=
  congrArg Host.Outcome.next (if_pos (by simp [unlimited]))

/-- An accepted configuration gives a limit of at most 240 h. -/
theorem State.cfgOk_mossLim {c : Cfg} (ok : s.cfgOk c = true) : c.gen.mossLim ≤ 240 := by
  unfold State.cfgOk at ok
  rw [Bool.and_eq_true] at ok
  obtain ⟨-, power⟩ := ok
  simp only [powerOk, inR, Bool.and_eq_true, Bool.or_eq_true, beq_iff_eq, decide_eq_true_eq] at power
  omega

end Limit

/-- Settles O52: the limit's value, its count from the entry to Moss, and its two outcomes. -/
theorem mossLimit : Obligations.MossLimit := by
  refine ⟨rfl, fun s c => State.cfgOk_mossLim, State.mossEnter_counts, fun s _ => execMossLimitExpiry_none,
    fun s u moss limited first stays expired => ⟨fun open_ => ?peat, fun shut => ?noted⟩⟩
  case peat =>
    obtain ⟨st, -, ready⟩ := u.peatEnter_powers
    refine ⟨?_, State.mossToPeat_noPass, u.mossToPeat_cases.imp_right (fun wakes => ⟨u.peatAwaits, rfl, wakes⟩),
      fun lit => ?_, st, ready⟩
    · rw [expired] at open_ ⊢
      exact (execMossLimitExpiry_due moss limited first stays).trans (congrArg Host.Outcome.next (if_pos open_))
    · rw [u.mossToPeat_hostDark] at lit
      exact absurd lit Bool.false_ne_true
  case noted =>
    refine ⟨_, u.overLimit, ?_, rfl, rfl, rfl, ?_⟩
    · rw [expired] at shut ⊢
      exact (execMossLimitExpiry_due moss limited first stays).trans (congrArg Host.Outcome.next (if_neg (by simp [shut])))
    · rw [expired]
      exact (keeps_of_erased (State.bbEvent_bare ..) (fun u => u.pwr.st) (fun _ => rfl)).trans moss

end Sys2Proof.Machine
end
